-- ==== Sys2Proof/Word.lean ====
section
/-! DEFINITION. Words, bytes and the index types of the package's repeated units (R5, R9, R14). -/

namespace Sys2Proof

/-- One byte. -/
abbrev Byte := BitVec 8

/-- One 64-bit register, descriptor or table word (R5, R9). -/
abbrev Word := BitVec 64

/-- S00 to S47 (R14). -/
abbrev SetId := Fin 48
/-- Partition 0 to partition 15 (R14). -/
abbrev PartId := Fin 16
/-- Logical tile T000 to T383 (R14). -/
abbrev TileId := Fin 384
/-- Fabric port P00 to P23 (R14). -/
abbrev PortId := Fin 24
/-- Logical fabric lane 8 * port + lane (R40). -/
abbrev LaneId := Fin 192
/-- Copy engine COPY 0 to COPY 15. -/
abbrev CopyId := Fin 16
/-- Ring group: 0 to 15 partitions, 16 administration (R363). -/
abbrev GroupId := Fin 17
/-- Completion ring of a group (R363). -/
abbrev CqId := Fin 16
/-- Logic die in R40 order: C0-C3, M0-M3, X0-X1. -/
abbrev DieId := Fin 10
/-- Package id (R7). -/
abbrev PkgId := Fin 4096

end Sys2Proof
end

