-- ==== Sys2Proof/Types.lean ====
section
/-! DEFINITION. What a command carries from outside: pin edges, packets, request entries, host data. -/

namespace Sys2Proof

/-- A rising edge on a Tempo input, judged at the pulse's end (R46, R50). -/
structure Edge where
  /-- edge minus the loop's predicted edge, in ticks (used once the loop has locked) -/
  off : Int
  /-- deviation of the interval since the previous edge from one programmed period, in parts per million -/
  ppm : Int
  /-- high time in parts per thousand of the programmed period -/
  high : Nat
  deriving DecidableEq, Repr

/-- SRAM ECC found by a command that reads tile SRAM (R107): bit i of a mask is tile i of the command's Set. -/
structure Ecc where
  corr : BitVec 8
  uncorr : BitVec 8
  deriving DecidableEq, Repr

/-- A request as taken from a submission ring (R369); `body` holds words 3 onward. -/
structure Req where
  grp : GroupId
  cq : CqId
  cid : BitVec 16
  tag : Word
  handle : Word
  body : List Word
  deriving DecidableEq, Repr

/-- How a host-memory read answers (R359, R360). -/
inductive HostData where
  | data (bytes : List Byte)
  | poisoned (bytes : List Byte)
  | failed
  deriving DecidableEq, Repr

/-- What the two reads of host memory that an INSTALL asks for brought: the manifest, and the data table (R370). -/
structure InstallData where
  manifest : HostData
  table : HostData
  deriving DecidableEq, Repr

/-- What a core's check of itself found (R441): the CRC-32C of its code and constant regions, and whether its own memory had an
uncorrectable error. -/
structure CoreCode where
  crc : BitVec 32
  ecc : Bool
  deriving DecidableEq, Repr

/-- A fabric packet: the header of R322 and its data; of one received, the port it came in on (none: looped back, R326). -/
structure Pkt where
  cls : BitVec 3
  typ : BitVec 5
  bcast : Bool
  dst : PkgId
  src : PkgId
  part : PartId
  key : BitVec 16
  unit : BitVec 8
  off : BitVec 40
  len : BitVec 13
  aop : BitVec 4
  wide : Bool
  uns : Bool
  reqid : BitVec 16
  bar : BitVec 16
  status : BitVec 8
  arr : BitVec 5
  dset : BitVec 6
  arrEn : Bool
  srcPart : PartId
  poison : Word
  data : List Byte
  via : Option PortId := none
  deriving DecidableEq, Repr

/-- A codeword that a received flit touches (R319): the lane of the port it came on, how many of its symbols were wrong, and
whether it ends with this flit (a codeword spans several flits). -/
structure Codeword where
  lane : Fin 8
  wrong : Nat
  ends : Bool
  deriving DecidableEq, Repr

/-- A received flit (R319, R320): its 512 bytes after correction, and the codewords that it touches. -/
structure FlitIn where
  bytes : List Byte
  codewords : List Codeword
  deriving DecidableEq, Repr

/-- Why a lane is lost (R318, R442). -/
inductive LaneCause where
  | lock
  | uncorrectable
  | corrHigh
  | eye
  deriving DecidableEq, Repr

/-- What one logical tile did in a power window beside what its activity counters hold (R406): bytes at its SRAM ports. -/
structure TileAct where
  tile : Nat
  bytes : Nat
  deriving DecidableEq, Repr

/-- The activity of one power window as far as no register counts it (R406, R418; log 211): the port counters of the tiles, and those
of the HBM, LPDDR6 and NV controllers, by the partition they worked for. -/
structure Activity where
  tiles : List TileAct
  /-- bytes to and from HBM that units of each partition asked for -/
  hbm : List Nat
  /-- bytes to and from the warm shelf, by partition -/
  shelf : List Nat
  /-- NV bytes read for moves of each partition -/
  nv : List Nat
  /-- of the flits that the ports counted, those sent from and received for each partition -/
  flits : List Nat
  /-- energy of HBM refresh, in fJ -/
  refresh : Nat
  /-- junction temperature of each die in degrees C, in R40 order (R428) -/
  temps : List Nat
  deriving DecidableEq, Repr

/-- A TAP instruction (R469). -/
inductive TapInstr where
  | bypass | idcode | samplePreload
  | extest | clamp | highz
  | shuilePrivate (code : Nat)
  deriving DecidableEq, Repr

/-- What a thread's Quinbingo instruction does, as far as R341 says. -/
inductive QOp where
  | load (pkg : PkgId) (part : PartId) (key : BitVec 16) (off : BitVec 40) (len : BitVec 13)
  | store (pkg : PkgId) (part : PartId) (key : BitVec 16) (off : BitVec 40) (data : List Byte)
  | atomic (pkg : PkgId) (part : PartId) (key : BitVec 16) (off : BitVec 40)
      (aop : BitVec 4) (wide uns : Bool) (operand compare : Word)
  | exit
  /-- an instruction that is not remote: its effect is not in the manual -/
  | other (code : Nat)
  deriving DecidableEq, Repr

/-- A unit found bad at stages DIES to MAP of a boot (R455, R456): a die, a die-to-die link beyond its spares or one lane of it, an HBM
channel (32 * stack + channel), an LPDDR6 group, an NV stack, or a physical tile that fails the self-test. -/
inductive BootFail where
  | die (k : Fin 10)
  | link (l : Fin 40)
  | lane (l : Fin 40) (lane : Nat)
  | channel (c : Fin 256)
  | shelf (g : Fin 4)
  | stack (n : Fin 4)
  | tile (q : Fin 400)
  deriving DecidableEq, Repr

/-- How an SPDM message comes (R361, R467): over DOE or MCTP, in a session or not, or a DOE Discovery. -/
inductive SpdmVia where
  | mctp
  | doe
  | mctpIn (session : Nat)
  | doeIn (session : Nat)
  | discovery (index : Nat)
  deriving DecidableEq, Repr

/-- The data object protocols of the DOE mailbox (R361). -/
inductive DoeProto where
  | discovery | spdm | securedSpdm
  deriving DecidableEq, Repr

/-- SPDM capabilities (R467). -/
inductive SpdmCap where
  | cert | chal | measSig | measFresh | keyEx | encrypt | mac | hbeat | keyUpd
  deriving DecidableEq, Repr

/-- SPDM algorithms (R467); an extended asymmetric one has its standards body's identifier. -/
inductive SpdmAlg where
  | extAsymIana (id : Nat)
  | hashSha384 | measSha384 | dheSecp384r1 | aeadAes256Gcm | spdmKeySchedule
  deriving DecidableEq, Repr

/-- What the manual gives an SPDM or DOE answer to carry (R361, R467, R468). -/
inductive SpdmBody where
  | error
  | capabilities (cs : List SpdmCap)
  | algorithms (l : List SpdmAlg)
  /-- the digest of slot 0's chain, none where the slot is empty -/
  | digests (d : Option (List Byte))
  /-- the chain of slot 0: certificates 1 to 3, and the alias certificate -/
  | chain (cs : List Byte) (leaf : List Byte)
  /-- SEC_MEAS.GEN in the opaque data, and measurements 1 to 8 -/
  | measurements (gen : Nat) (blocks : List (BitVec 384))
  | session (id : Nat)
  | protocols (p : Option DoeProto) (next : Nat)
  /-- an answer of which the manual says nothing -/
  | other
  deriving DecidableEq, Repr

/-- A debug token (R470). -/
structure DebugToken where
  uid : BitVec 128
  nonce : List Byte
  kind : Bool
  sig : List Byte
  deriving DecidableEq, Repr

/-- Results of the ageing monitors over one sample (R442). -/
structure Monitor where
  /-- largest ring-monitor drift of each compute die since its last re-plan, in ps -/
  drift : List Nat
  /-- eye height of each logical lane in mV -/
  eyes : List Nat
  deriving DecidableEq, Repr

end Sys2Proof
end

