-- ==== Sys2Proof/Syntax.lean ====
section
/-! DEFINITION. The commands of the block: one constructor per row of the opcode table (R1 to R488). -/

namespace Sys2Proof

/-- One command: a write of a register, an operation, or an event from outside the package. -/
inductive Instr where
  /-- `REGISTER_WRITE` (R10): A BAR0 or I3C write to a register field that has no row of its own takes effect
      according to the field's access code. -/
  | registerWrite (cls inst off size : Nat) (val : Word)
  /-- `READ_DANCE_CARD` (R31): An MCTP Read Dance Card request is checked and answered with the card bytes and the
      sampled DC_GEN, or with an error response. -/
  | readDanceCard (off len : Nat)
  /-- `DANCE_CARD_REGEN` (R42): Firmware rebuilds the Dance Card through an odd DC_GEN and back to even after a
      retirement or feature change, starting again once DC_GEN is even if more retirements are pending. -/
  | danceCardRegen
  /-- `TEMPO_ENABLE` (R51): Setting TEMPO_CTL.EN starts qualification of both Tempo inputs, lock and beat counting. -/
  | tempoEnable
  /-- `TEMPO_DISABLE` (R67): Clearing TEMPO_CTL.EN stops Tempo and returns status, time and bar registers to their
      reset values. -/
  | tempoDisable
  /-- `SWAP` (R57): A write of TEMPO_CTL.SWAP selects the other qualified input at the next beat boundary. -/
  | swap
  /-- `TEMPO_BEAT` (R50): A rising edge on TEMPO_A or TEMPO_B is judged for timing and symbol, advancing or restarting
      the input's qualification. -/
  | tempoBeat (inputB : Bool) (e : Edge)
  /-- `BEAT_BOUNDARY` (R51): The locked loop or its flywheel reaches tick 0 of a new beat. -/
  | beatBoundary
  /-- `HOLDOVER_EXPIRY` (R56): Holdover reaching 256 beats stops scheduled traffic, halts every Set and reports the
      role as failed. -/
  | holdoverExpiry
  /-- `BAR_START` (R60): At the first beat boundary that satisfies the barrier rule the next bar starts and every Set
      begins it from command 0. -/
  | barStart
  /-- `BAR_DONE` (R59): A received bar-done marker is recorded for the barrier, or raises BARRIER_LATE if it names
      another bar or arrives late. -/
  | barDone (pkg : PkgId) (bar : Word) (stamp : Word)
  /-- `BARRIER_TIMEOUT` (R63): A marker still missing TMO beats after the nominal start raises BARRIER_TMO and starts
      takeover. -/
  | barrierTimeout
  /-- `SCHED_ENABLE` (R103): A write of SCHED_CTL.EN arms or idles a Set, with no effect while the partition is
      unlocked. -/
  | schedEnable (set : SetId) (on : Bool)
  /-- `SCHED_KILL` (R85): A write of SCHED_CTL.KILL discards every uncommitted group of the Set and halts it. -/
  | schedKill (set : SetId)
  /-- `SCHED_RESUME` (R101): A write of SCHED_CTL.RESUME restarts a halted Set from its resume point or arms it. -/
  | schedResume (set : SetId) (kill : Bool)
  /-- `FETCH` (R164): A FETCH command moves operand rows from memory into the scratchpads of its tiles and checks
      their headers. -/
  | fetch (set : SetId)
  /-- `MPASS` (R111): An MPASS command streams activation rows through the weight-stationary arrays, chaining or
      ramping, and accumulates long-sums or FP32 results. -/
  | mpass (set : SetId) (ecc : Ecc)
  /-- `CHECK` (R172): A CHECK command verifies an object's header, groups, CRC and expected identity. -/
  | check (set : SetId) (ecc : Ecc)
  /-- `STORE` (R75): A STORE command writes rows from scratchpad or accumulator store to memory as held writes. -/
  | store (set : SetId) (ecc : Ecc)
  /-- `HANDOFF` (R120): A HANDOFF command copies long-sum rows with their tags to another logical tile's accumulator
      store. -/
  | handoff (set : SetId) (ecc : Ecc)
  /-- `FCOPY` (R335): An FCOPY command sends rows as SDATA to a remote package or rank. -/
  | fcopy (set : SetId) (ecc : Ecc)
  /-- `WAIT` (R81): A WAIT command completes once its arrival counter reaches TARGET. -/
  | wait (set : SetId)
  /-- `SREAD` (R90): An SREAD command loads a shape cell's VALUE and MAX into a shape register, or 0 if stale. -/
  | sread (set : SetId)
  /-- `SWRITE` (R89): An SWRITE command writes a shape cell's VALUE, refused if above MAX. -/
  | swrite (set : SetId) (ecc : Ecc)
  /-- `END` (R93): An END command marks the end of the Set's stream for the bar. -/
  | endBar (set : SetId)
  /-- `COPY` (R124): VOP COPY writes SRC0 to DST. -/
  | copy (set : SetId) (ecc : Ecc)
  /-- `ADD` (R123): VOP ADD writes the rounded elementwise sum. -/
  | add (set : SetId) (ecc : Ecc)
  /-- `SUB` (R123): VOP SUB writes the rounded elementwise difference. -/
  | sub (set : SetId) (ecc : Ecc)
  /-- `MUL` (R123): VOP MUL writes the rounded elementwise product. -/
  | mul (set : SetId) (ecc : Ecc)
  /-- `FMA` (R123): VOP FMA adds the product of SRC0 and SRC1 to DST with one rounding. -/
  | fma (set : SetId) (ecc : Ecc)
  /-- `MAX` (R123): VOP MAX writes the IEEE maximum elementwise. -/
  | max (set : SetId) (ecc : Ecc)
  /-- `MIN` (R123): VOP MIN writes the IEEE minimum elementwise. -/
  | min (set : SetId) (ecc : Ecc)
  /-- `EXP` (R123): VOP EXP writes the correctly rounded exponential of SRC0. -/
  | exp (set : SetId) (ecc : Ecc)
  /-- `RECIP` (R123): VOP RECIP writes the correctly rounded reciprocal of SRC0. -/
  | recip (set : SetId) (ecc : Ecc)
  /-- `RSQRT` (R123): VOP RSQRT writes the correctly rounded reciprocal square root of SRC0. -/
  | rsqrt (set : SetId) (ecc : Ecc)
  /-- `SQRT` (R123): VOP SQRT writes the correctly rounded square root of SRC0. -/
  | sqrt (set : SetId) (ecc : Ecc)
  /-- `SILU` (R123): VOP SILU computes x times RECIP(1 + EXP(-x)) with each step rounded. -/
  | silu (set : SetId) (ecc : Ecc)
  /-- `ROWMAX` (R123): VOP ROWMAX reduces a row to its maximum in a fixed pairwise tree. -/
  | rowmax (set : SetId) (ecc : Ecc)
  /-- `ROWSUM` (R123): VOP ROWSUM reduces a row to its sum in a fixed pairwise tree. -/
  | rowsum (set : SetId) (ecc : Ecc)
  /-- `CVT_BF16` (R124): VOP CVT_BF16 converts FP32 to BF16 with ties to even. -/
  | cvtBf16 (set : SetId) (ecc : Ecc)
  /-- `CVT_FP32` (R124): VOP CVT_FP32 converts BF16 to FP32 exactly. -/
  | cvtFp32 (set : SetId) (ecc : Ecc)
  /-- `QUANT` (R135): VOP QUANT quantises FP32 input into an object of the selected format and updates its quantiser
      context. -/
  | quant (set : SetId) (ecc : Ecc)
  /-- `DEQUANT` (R143): VOP DEQUANT decodes an array-form object to FP32 values. -/
  | dequant (set : SetId) (ecc : Ecc)
  /-- `AMAX` (R143): VOP AMAX writes the largest finite magnitude of its input to M_OUT. -/
  | amax (set : SetId) (ecc : Ecc)
  /-- `QDIVERGE` (R159): VOP QDIVERGE compares narrow and wide results and writes a divergence record. -/
  | qdiverge (set : SetId) (ecc : Ecc)
  /-- `ROT` (R126): VOP ROT128, ROT256 or ROT512 applies the seeded forward Pirouette rotation per chunk. -/
  | rot (set : SetId) (ecc : Ecc)
  /-- `IROT` (R126): VOP IROT128, IROT256 or IROT512 applies the inverse Pirouette rotation. -/
  | irot (set : SetId) (ecc : Ecc)
  /-- `LSRND` (R119): VOP LSRND rounds each long-sum row once to FP32. -/
  | lsrnd (set : SetId) (ecc : Ecc)
  /-- `LSPACK` (R121): VOP LSPACK writes long-sum rows as records in the scratchpad. -/
  | lspack (set : SetId) (ecc : Ecc)
  /-- `LSADD` (R124): VOP LSADD adds long-sum rows or records modulo 2^128 into DST. -/
  | lsadd (set : SetId) (ecc : Ecc)
  /-- `LSADDRND` (R124): VOP LSADDRND adds two long-sum operands and rounds the sum to FP32. -/
  | lsaddrnd (set : SetId) (ecc : Ecc)
  /-- `LSCLEAR` (R124): VOP LSCLEAR clears VALID in the tags of rows or records at DST. -/
  | lsclear (set : SetId) (ecc : Ecc)
  /-- `COMMAND_COMPLETE` (R79): A command finishing its work writes working state and sets its scoreboard token. -/
  | commandComplete (set : SetId) (idx : Nat)
  /-- `GROUP_COMMIT` (R83): A commit group whose commands have completed and whose older groups have committed makes
      its architectural effects visible together. -/
  | groupCommit (set : SetId)
  /-- `REPAIR_COMPLETE` (R178): The last repair of a faulted command completing ends the Set's hold and releases the
      re-run. -/
  | repairComplete (set : SetId) (remote : List (List Byte))
  /-- `ARR_TIMEOUT` (R81): A WAIT reaching its deadline completes, raises ARR_TIMEOUT and puts the Set into poison. -/
  | arrTimeout (set : SetId) (idx : Nat)
  /-- `FIGURE_COMPLETE` (R93): When every Set has committed END and every FCOPY has committed at its destination the
      package declares bar-done and sends its marker. -/
  | figureComplete
  /-- `CALLER_PLAN` (R190): At CUT beats before the bar's end the Caller plans the next bar's work list, key table and
      shape cells. -/
  | callerPlan
  /-- `HARVEST_LATE` (R190): A harvest that has not finished HARVEST beats into the next bar raises HARVEST_LATE and
      completes anyway. -/
  | harvestLate
  /-- `ADMIT` (R198): An ADMIT request reserves ledger bars and KV for a new sequence and returns its handle and
      promise, or a refusal. -/
  | admitSeq (r : Req) (late : Nat)
  /-- `CANCEL` (R202): A CANCEL request increments GEN, moves the entry to CLOSING and releases its reservation. -/
  | cancel (r : Req)
  /-- `PAUSE` (R204): A PAUSE request schedules the sequence's KV move to the warm shelf after its last planned bar. -/
  | pause (r : Req)
  /-- `RESUME` (R204): A RESUME request re-admits a paused sequence and starts its move back. -/
  | resume (r : Req)
  /-- `EXTEND` (R200): An EXTEND request reserves further decode bars and KV for a sequence. -/
  | extend (r : Req)
  /-- `PAUSE_MOVE_COMPLETE` (R204): The completed move to the warm shelf sets EXPIRY, makes the entry PAUSED and
      completes the Pause. -/
  | pauseMoveComplete (index : Nat)
  /-- `RESUME_MOVE_COMPLETE` (R188): The completed move back from the warm shelf returns the entry to PREFILL or
      DECODE. -/
  | resumeMoveComplete (index : Nat)
  /-- `PAUSE_EXPIRY` (R204): Reaching EXPIRY frees the paused entry and its shelf pages and writes an EXPIRED event. -/
  | pauseExpiry (index : Nat)
  /-- `JOURNAL_LOST` (R205): A mirror write unacknowledged within TMO beats raises JOURNAL_LOST and releases the
      waiting records. -/
  | journalLost (index : Nat)
  /-- `REQUEST_TIMEOUT` (R207): Firmware completes a request still open past its bound with TIMEOUT. -/
  | requestTimeout (grp : GroupId) (cid : BitVec 16)
  /-- `CALLER_SWITCH` (R209): A write of CALLER_CTL.SWITCH requests exchange of active and standby Callers at the next
      boundary. -/
  | callerSwitch
  /-- `CALLER_OPEN` (R211): A write of CALLER_ADMIT_CTL.OPEN opens the partition to requests if its caps pass the
      checks. -/
  | callerOpen (part : PartId) (on : Bool)
  /-- `REEL_KEYS` (R270): At K_POS with the key table ready the Reel sends the package's token keys to every member. -/
  | reelKeys (part : PartId)
  /-- `REEL_NOMINATE` (R270): At N_POS once GO is committed at 1 the Reel sends the layer's nominations to every
      member. -/
  | reelNominate (part : PartId) (layer : Fin 256)
  /-- `REEL_SELECT` (R259): With every member's nominations and keys landed the Reel computes acceptance, replicas and
      combine records and writes host-slot cells. -/
  | reelSelect (part : PartId) (layer : Fin 256)
  /-- `REEL_DISPATCH` (R270): At D_POS after selection the Reel sends each accepted nominee's row to its landing row. -/
  | reelDispatch (part : PartId) (layer : Fin 256)
  /-- `REEL_COMBINE` (R274): A combine wave starts once its position, GO value and the home's release of the previous
      wave are all reached. -/
  | reelCombine (part : PartId) (layer : Fin 256) (wave : Fin 8)
  /-- `REEL` (R272): A received Reel row is checked against the selection, landed and counted toward its arrival
      increment. -/
  | reel (p : Pkt)
  /-- `REEL_REL` (R274): A received release packet lets waves to that home proceed. -/
  | reelRel (p : Pkt)
  /-- `PLACEMENT_CHANGE` (R278): A PLACEMENT_CHANGE request checks and holds a pending placement table. -/
  | placementChange (r : Req)
  /-- `INSTALL` (R292): An INSTALL request checks a manifest and programs its shards into the inactive NV slot. -/
  | install (r : Req) (d : InstallData)
  /-- `CANCEL_INSTALL` (R293): A CANCEL_INSTALL request interrupts a running Install, leaving its slot PROGRAMMING. -/
  | cancelInstall (r : Req)
  /-- `SHARD_PROGRAMMED` (R292): A shard's programming and read-back complete, committing progress or retrying, and
      the last shard completes the Install. -/
  | shardProgrammed (written readBack : HostData)
  /-- `STAGE_EPOCH` (R295): A STAGE_EPOCH request stages a slot's content into the shadow epoch region. -/
  | stageEpoch (r : Req)
  /-- `STAGE_DONE` (R295): Staging with every shard digest matched sets STAGED and raises STAGE_DONE. -/
  | stageDone (remote : List (List Byte))
  /-- `STAGE_HOST_SLOT` (R370): A STAGE_HOST_SLOT request fills a host slot with an expert's weights and checks its
      digest. -/
  | stageHostSlot (r : Req) (data : HostData)
  /-- `FILL` (R298): A FILL request has the spare request a rank's shards and host slots from their sources over the
      fabric. -/
  | fill (r : Req) (manifest sources : HostData) (held : Bool)
  /-- `FILL_DONE` (R298): A fill with every digest matched raises FILL_DONE and starts reinstalling the weights at
      rest. -/
  | fillDone (shards : List HostData)
  /-- `SWAP_EPOCH` (R301): A SWAP_EPOCH request schedules an epoch switch at SWITCH_BAR. -/
  | swapEpoch (r : Req)
  /-- `NV_CODEWORD_READ` (R297): An NV codeword read completes, with retries on ECC failure and page retirement on
      NV_UNCORR. -/
  | nvCodewordRead (stack : Fin 4) (page : Nat) (failures : Nat)
  /-- `PROMENADE_MOVE_COMPLETE` (R307): A Promenade move whose parts are all written completes and may increment an
      arrival counter. -/
  | promenadeMoveComplete (die : Fin 4)
  /-- `PREFETCH_ISSUE` (R309): A prefetch schedule entry reaching its position is issued into queue Q0. -/
  | prefetchIssue (part : PartId)
  /-- `SHADOW_SAMPLE` (R157): Before each bar firmware closes the old Shadow cell, picks a sample and stages its
      tiles. -/
  | shadowSample (part : PartId)
  /-- `RECIPE_EVALUATE` (R152): After a bar completes firmware evaluates each layer entry and raises recipe flags. -/
  | recipeEvaluate (part : PartId)
  /-- `PORT_ENABLE` (R317): A write of FAB_CTL.EN starts training a port, or takes it DOWN when cleared. -/
  | portEnable (port : PortId) (on : Bool)
  /-- `RETRAIN` (R317): A write of FAB_CTL.RETRAIN retrains a port in service. -/
  | retrain (port : PortId)
  /-- `BERT` (R348): A write of FAB_CTL.BERT runs the installation PRBS31 test on a port out of service. -/
  | bert (port : PortId)
  /-- `PORT_TRAINED` (R317): A port completing training sends HELLO and enters CHECK. -/
  | portTrained (port : PortId)
  /-- `TRAINING_TIMEOUT` (R316): A port not trained within 50 ms goes DOWN with LINK_DOWN. -/
  | trainingTimeout (port : PortId)
  /-- `PORT_ID` (R346): A received PORT_ID is compared with FAB_EXPECT and activates or holds the port. -/
  | portId (port : PortId) (tray : BitVec 8) (plane : BitVec 5) (swport : BitVec 8)
  /-- `PORT_ID_TIMEOUT` (R316): No PORT_ID within 16 beats in CHECK sends the port to HELD. -/
  | portIdTimeout (port : PortId)
  /-- `LANE_LOST` (R318): A lane losing lock or erring maps in a spare, or drops the port to HALF or DOWN. -/
  | laneLost (lane : LaneId) (cause : LaneCause)
  /-- `CORR_HIGH` (R348): Corrected symbols over 1,024 beats above FAB_LANE_THR make the lane lost. -/
  | corrHigh (lane : LaneId) (symbols : Nat)
  /-- `FLIT` (R321): A received flit is accepted or discarded with a NAK, and a received NAK starts a replay. -/
  | flit (port : PortId) (f : FlitIn)
  /-- `PORT_STATE` (R342): A received PORT_STATE updates the usable ports toward its sender and triggers re-sends. -/
  | portState (p : Pkt)
  /-- `PORT_STATE_BROADCAST` (R342): Every 64 beats the package broadcasts PORT_STATE on every port in service. -/
  | portStateBroadcast
  /-- `SDATA` (R335): A received SDATA packet is checked and its rows landed. -/
  | sdata (p : Pkt)
  /-- `SCOMMIT` (R80): A received SCOMMIT is checked and increments the named arrival counter once. -/
  | scommit (p : Pkt)
  /-- `UDATA` (R334): A received UDATA packet is checked and written. -/
  | udata (p : Pkt)
  /-- `UCOMMIT` (R334): A received UCOMMIT is checked and increments its arrival counter. -/
  | ucommit (p : Pkt)
  /-- `FABRIC_LOAD` (R330): A received LOAD is checked and answered with LDATA or a refusal. -/
  | fabricLoad (p : Pkt)
  /-- `FABRIC_STORE` (R330): A received STORE is checked and written. -/
  | fabricStore (p : Pkt)
  /-- `FABRIC_ATOMIC` (R330): A received ATOMIC is checked, performed at the owning die or answered from the kept
      outcome, and returns the old value. -/
  | fabricAtomic (p : Pkt)
  /-- `ACK` (R340): A received ACK answers an open operation, or is discarded as late. -/
  | ack (p : Pkt)
  /-- `LDATA` (R339): Received load data completes an open LOAD or wakes a waiting thread. -/
  | ldata (p : Pkt)
  /-- `ARESP` (R330): A received atomic response returns the old value to its issuer. -/
  | aresp (p : Pkt)
  /-- `DEAD_TARGET` (R339): An operation unanswered at its deadline resolves with the dead-target value. -/
  | deadTarget (unit : BitVec 8) (reqid : BitVec 16)
  /-- `OUTCOME_EXPIRY` (R332): A kept atomic or commit outcome is forgotten after twice FAB_DEAD.BEATS. -/
  | outcomeExpiry
  /-- `COPY_PUT` (R334): A PUT descriptor sends local data as UDATA and an optional UCOMMIT. -/
  | copyPut (eng : CopyId)
  /-- `COPY_GET` (R334): A GET descriptor issues LOADs and writes the returned data locally. -/
  | copyGet (eng : CopyId)
  /-- `COPY_ATOMIC` (R333): An ATOMIC descriptor issues one remote atomic. -/
  | copyAtomic (eng : CopyId)
  /-- `COPY_FENCE` (R333): A FENCE descriptor moves no data and orders the ring. -/
  | copyFence (eng : CopyId)
  /-- `COPY_COMPLETE` (R334): A descriptor whose transfers are answered completes and writes its completion record. -/
  | copyComplete (eng : CopyId) (index : Nat)
  /-- `LANE_TEST` (R348): A write of LANE_CTL.TEST runs the interval test on the lane now. -/
  | laneTest (lane : LaneId)
  /-- `LANE_RETIRE` (R41): A write of LANE_CTL.RETIRE retires the lane and maps in a spare. -/
  | laneRetire (lane : LaneId)
  /-- `INTERVAL_TEST` (R348): The interval timer tests the next lane in service against a borrowed spare. -/
  | intervalTest
  /-- `INV` (R329): A write of FAB_PART_CFG.INV invalidates one cached region entry. -/
  | inv (part : PartId) (idx : Fin 1024)
  /-- `INV_ALL` (R329): A write of FAB_PART_CFG.INV_ALL invalidates every cached region entry of the partition. -/
  | invAll (part : PartId)
  /-- `QLAUNCH` (R341): A QLAUNCH request starts Quinbingo threads in a QCOMPAT partition. -/
  | qlaunch (r : Req)
  /-- `SQ_TAIL` (R365): An SQ_TAIL doorbell advances a group's submission tail. -/
  | sqTail (grp : GroupId) (fromPf : Bool) (size : Nat) (val : Word)
  /-- `COPY_TAIL` (R365): A COPY_TAIL doorbell advances a copy engine's ring tail. -/
  | copyTail (grp : GroupId) (eng : CopyId) (fromPf : Bool) (size : Nat) (val : Word)
  /-- `CQ_HEAD` (R365): A CQ_HEAD doorbell releases completion entries and drains the backlog. -/
  | cqHead (grp : GroupId) (cq : CqId) (fromPf : Bool) (size : Nat) (val : Word)
  /-- `REQUEST_TAKE` (R367): The package reads and takes the next SQ entry when the group has room. -/
  | requestTake (grp : GroupId) (entry : HostData)
  /-- `SQ_RESTART` (R368): A write of SQ_RESTART clears SQ_HALT and rereads the failed entry. -/
  | sqRestart (grp : GroupId)
  /-- `TO_DEVICE` (R371): A TO_DEVICE request copies host lines into device memory. -/
  | toDevice (r : Req)
  /-- `TO_HOST` (R371): A TO_HOST request copies device lines to host memory. -/
  | toHost (r : Req)
  /-- `LOAD_FIGURE` (R70): A LOAD_FIGURE request verifies a Figure image and holds it for its effective bar. -/
  | loadFigure (r : Req)
  /-- `RUN_FIGURE` (R71): A RUN_FIGURE request runs one pass of an untimed image's named Sets. -/
  | runFigure (r : Req)
  /-- `ROLE_CHANGE` (R95): A ROLE_CHANGE request holds a pending role table for its EFF_BAR. -/
  | roleChange (r : Req)
  /-- `MSIX_TIMEOUT` (R383): TIME ticks after the oldest unsignalled entry an MSI-X message covers the CQ's
      unsignalled entries. -/
  | msixTimeout (grp : GroupId) (cq : CqId)
  /-- `GROUP_ENABLE` (R386): A write of PCIE_GRP_CTL.EN resets ring indices and phases, or stops the group. -/
  | groupEnable (grp : GroupId) (on : Bool)
  /-- `VF_ENABLE` (R356): A change of VF Enable or NumVFs moves disabled groups between functions. -/
  | vfEnable (enable : Bool) (numVfs : Fin 17)
  /-- `VF_FLR` (R362): An FLR of a VF starts a partition reset of its partition. -/
  | vfFlr (vf : PartId)
  /-- `PF_FLR` (R362): An FLR of the PF clears EN of every group the PF serves. -/
  | pfFlr
  /-- `HOT_RESET` (R362): A PCIe hot reset clears EN of every group. -/
  | hotReset
  /-- `PCIE_LINK_DOWN` (R362): Loss of the PCIe data link clears EN of every group. -/
  | pcieLinkDown
  /-- `PCIE_LINK_UP` (R354): PCIe link training completes, raising DEGRADED if below 128 GT/s or x8. -/
  | pcieLinkUp (speed : Fin 8) (width : Fin 9) (flitMode : Bool)
  /-- `PCIE_RETRAIN` (R386): A write of PCIE_LINK_CFG.RETRAIN retrains the PCIe link. -/
  | pcieRetrain
  /-- `EP_RX` (R360): A poisoned write to BAR0 or BAR2 is discarded. -/
  | epRx
  /-- `SPDM_REQUEST` (R467): An SPDM request over DOE or MCTP is answered by the responder. -/
  | spdmRequest (via : SpdmVia) (msg : List Byte)
  /-- `DOE_ABORT` (R361): A DOE Abort ends the mailbox exchange within 1 ms. -/
  | doeAbort
  /-- `PART_LOCK` (R391): A write of PART_CTL.LOCK checks the partition setup and sets LOCKED or SETUP_BAD. -/
  | partLock (part : PartId)
  /-- `PART_RESET` (R400): A write of PART_CTL.RESET, optionally with CLEAR_LOCK and SCRUB, starts a partition reset. -/
  | partReset (part : PartId) (clearLock scrub : Bool)
  /-- `RESET_DONE` (R400): A partition reset whose moves, copies and scrub are done raises RESET_DONE. -/
  | resetDone (part : PartId)
  /-- `PART_PREEMPT` (R394): A write of PART_CTL.PREEMPT kills and saves a standalone partition or marks a serving one
      pending. -/
  | partPreempt (part : PartId) (resume : Bool)
  /-- `SAVE_DONE` (R394): A completed save raises SAVE_DONE and makes the partition PREEMPTED. -/
  | saveDone (part : PartId) (ticks : Nat)
  /-- `PART_RESUME` (R396): A write of PART_CTL.RESUME restores a pre-empted partition. -/
  | partResume (part : PartId)
  /-- `RESTORE_DONE` (R396): A completed restore raises RESTORE_DONE and lets the Sets re-issue or arm. -/
  | restoreDone (part : PartId) (ticks : Nat)
  /-- `COMMAND_TIMEOUT` (R397): A tile command unfinished 65,536 cycles past its duration triggers a tile reset. -/
  | commandTimeout (set : SetId) (idx : Nat)
  /-- `SET_RESET` (R399): A Set reset clears its tiles, absorbs answers and fences its incoming packets until the next
      bar. -/
  | setReset (set : SetId)
  /-- `POWER_WINDOW` (R405): At the end of each 4 us window the governor completes the power estimate and revises
      budgets. -/
  | powerWindow (a : Activity)
  /-- `SET_POWER_CAP` (R408): An MCTP Set Power Cap message sets the management cap and ramps the budget. -/
  | setPowerCap (watts : BitVec 16) (force : Bool)
  /-- `HOST_CAP_WRITE` (R408): A write of PWR_HOST_CAP changes the host cap and ramps the budget. -/
  | hostCapWrite (watts : BitVec 16)
  /-- `FLOOR_DECL_WRITE` (R411): A write of PWR_FLOOR.DECL resets the effective floor and re-evaluates any hold. -/
  | floorDeclWrite (watts : BitVec 16)
  /-- `RAIL_SETTLED` (R416): A raised core rail having settled, the die's clock changes at the next beat boundary. -/
  | railSettled (die : Fin 4)
  /-- `COOLANT_LOSS` (R420): FLOW_OK_N high for 1 us kills every Set, fails the role and parks the package. -/
  | coolantLoss
  /-- `UNPARK` (R420): A write of PWR_CTL.UNPARK leaves park once flow has returned. -/
  | unpark
  /-- `THERMAL_THROTTLE` (R421): A die reaching THROTTLE imposes a forced thermal cap. -/
  | thermalThrottle (die : DieId) (degC : BitVec 8)
  /-- `THERMAL_TRIP` (R421): A die reaching 110 C asserts THERM_TRIP_N and stops serving. -/
  | thermalTrip (die : DieId) (degC : BitVec 8)
  /-- `SUPPLY_SAG` (R423): PWR_WARN_N low signals sag, refusing new NV programs and applying SAG_CAP. -/
  | supplySag
  /-- `SAG_END` (R423): One ms after PWR_WARN_N last went high sag ends and held programs resume. -/
  | sagEnd
  /-- `POWER_LOSS` (R425): Loss of the main rails loses all volatile state and keeps NV contents. -/
  | powerLoss
  /-- `AVS_ERROR` (R477): An AVSBus error status raises FAULT and holds the die's code. -/
  | avsError (die : Fin 4)
  /-- `GOVERNOR_FAILOVER` (R429): The X0 governor failing its watchdog hands control to the X1 governor. -/
  | governorFailover
  /-- `TAKEOVER_ORDER` (R435): A spare receiving a takeover order reads its kit, loads the image and starts the fill. -/
  | takeoverOrder
  /-- `TAKEOVER_READY` (R435): The coordinator receiving ready records writes the pending table and START_BEAT, or
      picks another spare. -/
  | takeoverReady (agree : Bool)
  /-- `TAKEOVER_START` (R435): At START_BEAT the pending table becomes current and the held bar starts. -/
  | takeoverStart
  /-- `COORDINATOR_TIMEOUT` (R447): No pending table within TMO beats after BARRIER_TMO makes the next-lowest rank
      coordinate. -/
  | coordinatorTimeout
  /-- `HEALTH_RECORD` (R434): Every 4,096 bars the package writes its health record to every member. -/
  | healthRecord
  /-- `CLEAR_FAILED` (R431): A write of HEALTH_CTL.CLEAR_FAILED clears FAILED when no cause stands. -/
  | clearFailed
  /-- `CORE_WATCHDOG` (R441): A control core missing its watchdog for 4 beats is reset and its tasks move. -/
  | coreWatchdog (core : Fin 8)
  /-- `CORE_CODE_CHECK` (R441): Every 65,536 beats firmware checks its code CRC and reloads on mismatch. -/
  | coreCodeCheck (core : Fin 8) (c : CoreCode)
  /-- `LOG_COMMIT` (R424): At least every 600 s firmware commits records and logs to NV. -/
  | logCommit
  /-- `REPLAN_START` (R443): Every REPLAN_BARS bars the margin re-plan begins borrowing spares tile by tile. -/
  | replanStart
  /-- `REPLAN_NOW` (R443): A write of HEALTH_CTL.REPLAN_NOW starts a re-plan. -/
  | replanNow
  /-- `REPLAN_SWEEP_END` (R443): After SWEEP_BARS a tile's sweep ends and its state is copied back. -/
  | replanSweepEnd (slackPs : List Int) (functionalError : Bool)
  /-- `MONITOR_SAMPLE` (R442): Every 1,024 beats the ring and eye monitors are sampled against their floors. -/
  | monitorSample (m : Monitor)
  /-- `HBM_MARGIN_SWEEP` (R442): A channel's margin sweep in a refresh window repairs or retires it. -/
  | hbmMarginSweep (channel : Fin 256) (steps : Nat) (repaired : Bool)
  /-- `HBM_RETRAIN` (R461): An HBM4 channel retrains on its sweep, temperature or error triggers. -/
  | hbmRetrain (channel : Fin 256)
  /-- `LPDDR_RETRAIN` (R461): Every 65,536 beats or on 10 C change an LPDDR6 group retrains. -/
  | lpddrRetrain (group : Fin 4)
  /-- `NV_RETRAIN` (R461): A stack's read thresholds retrain on excess read retries. -/
  | nvRetrain (stack : Fin 4)
  /-- `D2D_LANE_REPLACE` (R461): A degraded die-to-die lane is replaced by a spare at a flit boundary. -/
  | d2dLaneReplace (link : Fin 40) (lane : Nat)
  /-- `CHECK_WINDOW_ENABLE` (R182): A write setting a CHECK window's EN enables it or raises WIN_BAD. -/
  | checkWindowEnable (window : Fin 16)
  /-- `PERST_ASSERT` (R457): PERST_N asserted resets the package. -/
  | perstAssert
  /-- `PERST_DEASSERT` (R455): PERST_N deasserting starts the boot at stage ROM. -/
  | perstDeassert (pos : BitVec 6) (railsGood flowLow : Bool)
  /-- `BOOT_STAGE_DONE` (R455): A boot stage completing advances to the next stage and sends Boot Status. -/
  | bootStageDone (passed : Bool) (units : List BootFail)
  /-- `FIRMWARE_CHUNK` (R454): A bundle chunk answered by the tray is placed in boot SRAM. -/
  | firmwareChunk (off : Nat) (bytes : List Byte)
  /-- `GET_BOOT_STATUS` (R454): A Get Boot Status command returns STAGE, BOOT_FAIL and elapsed time. -/
  | getBootStatus (elapsedMs : Nat)
  /-- `SET_PACKAGE_ID` (R454): A Set Package Id command assigns the package id once per reset. -/
  | setPackageId (id : PkgId) (overI3c : Bool)
  /-- `COMMIT_SVN` (R460): A Commit SVN command burns SVN bits up to the running bundle's SVN. -/
  | commitSvn (overI3c : Bool)
  /-- `REGISTER_OWNER_KEY` (R464): A Register Owner Key command commits a key page and burns an owner slot. -/
  | registerOwnerKey (slot : Fin 4) (point sig : List Byte) (overI3c : Bool)
  /-- `REVOKE_OWNER_KEY` (R465): A Revoke Owner Key command burns an owner slot's REVOKED bit. -/
  | revokeOwnerKey (slot : Fin 4) (sig : List Byte) (overI3c : Bool)
  /-- `GET_DEBUG_CHALLENGE` (R454): A Get Debug Challenge command returns a fresh nonce. -/
  | getDebugChallenge (overI3c : Bool)
  /-- `DEBUG_UNLOCK` (R470): A Debug Unlock command checks the token and sets the debug latch. -/
  | debugUnlock (t : DebugToken) (overI3c : Bool)
  /-- `RAIL_FAULT` (R486): A main rail out of dynamic tolerance for 10 us causes a package reset. -/
  | railFault
  /-- `COOLANT_FLOW_RESTORED` (R420): FLOW_OK_N returning low and staying low for 1 s sets FLOW_OK, lets UNPARK take
      effect and releases a boot held at stage ROM. -/
  | coolantFlowRestored
  /-- `BERT_RUN_END` (R348): A PRBS31 test run of 2^36 bits on a lane ends, passing it or raising TEST_FAIL and
      BERT_FAIL and retiring it, and returns a borrowed spare or sends a HELD port to CHECK. -/
  | bertRunEnd (lane : LaneId) (errors : Nat)
  /-- `MSIX_UNMASK` (R383): Clearing the mask of an MSI-X vector sends the message whose pending bit was set while the
      vector was masked. -/
  | msixUnmask (grp : GroupId) (vec : Fin 64)
  /-- `BUS_MASTER_ENABLE` (R358): A change of Bus Master Enable on the function serving a group stops or resumes that
      group's host-memory accesses and MSI-X messages. -/
  | busMasterEnable (fn : GroupId) (on : Bool)
  /-- `POWER_STATE_D3HOT` (R358): A function entering or leaving D3hot stops or resumes its groups' host-memory
      accesses and interrupts. -/
  | powerStateD3hot (fn : GroupId) (entered : Bool)
  /-- `HOST_READ_COMPLETION` (R359): A PCIe completion for a host-memory read arrives with data, UR, CA or EP and is
      written to device memory or handled as a host read failure. -/
  | hostReadCompletion (tag : Nat) (d : HostData)
  /-- `COMPLETION_TIMEOUT` (R359): A host-memory read with no completion within the Completion Timeout range is logged
      by AER and handled as a host read failure. -/
  | completionTimeout (tag : Nat)
  /-- `TAP_INSTRUCTION` (R469): An IEEE 1149.1 instruction loaded through the TAP takes effect, or selects BYPASS when
      the unlock or PERST_N condition is not met. -/
  | tapInstruction (t : TapInstr)
  /-- `QUINBINGO_INSTRUCTION` (R341): A thread of a QCOMPAT tile executes a Quinbingo instruction, issuing a remote
      load, store or atomic, suspending, and switching context within 2 cycles. -/
  | quinbingoInstruction (tile : TileId) (thread : Fin 16) (op : QOp)
  deriving DecidableEq, Repr

end Sys2Proof
end

