-- ==== Sys2Proof/Config.lean ====
section
/-! DEFINITION. What an implementation fixes and the manual leaves open: constants without a body, so no proof can
lean on a value. Each names the assumption-log entry that declares it. -/

namespace Sys2Proof.Config

/-- Result of a vector function where the exact function has no value: RECIP and RSQRT of a zero, SQRT and RSQRT
of a negative number (R123 states none). Arguments: VFN and the operand's bits. DESIGN CHOICE (log 11). -/
opaque vecOpen : Nat → Nat → BitVec 32

/-- The fused reference voltage of a rail in mV (R406). Argument: the compute die; 4 tile SRAM, 5 HBM, 6 the warm shelf, 7 NV, 8
the fabric. DESIGN CHOICE (log 185). -/
opaque vref : Nat → Nat

/-- The voltage in mV at which a rail that nothing commands stands (R406). Argument: as of `vref`, from 5; 16 + a die of R40 other
than a compute die. DESIGN CHOICE (log 185). -/
opaque fixedMv : Nat → Nat

/-- Leakage energy of a die in a window of 4 µs, in fJ, interpolated in the fused table (R406), whose units and steps are not given.
Arguments: the table, the die of R40, its junction temperature in °C and its voltage in mV. DESIGN CHOICE (log 185). -/
opaque leakage : List Nat → Nat → Nat → Nat → Nat

/-- The PUF key that the helper data recovers on this silicon (R451, R466). DESIGN CHOICE (log 218). -/
opaque pufKey : List (BitVec 8) → BitVec 256

/-- The alias certificate (R466, R467): DER, and a signature by the DeviceID key. Arguments: the DeviceID scalar, the alias scalar, and
measurements 1 to 4, which it carries. DESIGN CHOICE (log 218). -/
opaque aliasCert : Nat → Nat → List (BitVec 384) → List (BitVec 8)

/-- The id of a new SPDM session (DSP0274 has each side give half of it). Arguments: the messages before, as numbers. DESIGN CHOICE
(log 51). -/
opaque sessionId : List Nat → Nat

/-- What the measurement register of a die that fails at stage DIES holds (R460). Argument: the die. DESIGN CHOICE (log 188). -/
opaque badMeasure : Nat → List (BitVec 8)

/-- Anchor of the object a QUANT writes when its M_IN is not finite and carries the poison mark (R135 and R144 give
none; every block is poisoned). Argument: M_IN's bits. DESIGN CHOICE (log 19). -/
opaque nanAnchor : Nat → BitVec 10

/-- Anchor of an MX or BF16 tensor whose largest magnitude becomes a zero element (R140 gives no E_nat then). Arguments: the
format and the magnitude. DESIGN CHOICE (log 166). -/
opaque openAnchor : Nat → Nat → BitVec 10

/-- Scale code of an MXINT8 block whose largest magnitude no code to 254 holds (R141 gives none). Argument: the magnitude.
DESIGN CHOICE (log 166). -/
opaque openScale : Nat → BitVec 8

/-- Element of an MXINT8 block that no INT8 code holds (R141). Argument: the value's bits. DESIGN CHOICE (log 166). -/
opaque openCode : Nat → BitVec 8

/-- Anchor taken for an operand object whose header carries the poison mark (R173 trusts no field; every long-sum row
it reaches is poisoned). Argument: the header's first word. DESIGN CHOICE (log 20). -/
opaque markedAnchor : Nat → BitVec 10

/-- The term of a block pair outside the exponent window in a pass that runs on after its second abort (R86, R115; its
rows carry POISON). Arguments: the combined exponent, and the product of sum and trims. DESIGN CHOICE (log 21). -/
opaque windowTerm : Int → Int → BitVec 128

/-- A byte that a command writes after its second abort where it could not read its source (R86; the byte carries the
poison mark). Argument: the byte's key. DESIGN CHOICE (log 22). -/
opaque unreadByte : Nat → BitVec 8

/-- A field of the Dance Card that the build decides and the manual does not: BASE, STRIDE, versions, offsets, LENGTH and
feature words of classes whose chapter defines none (R32, R34, R38). Arguments: class code and which field. DESIGN
CHOICE (log 46). -/
opaque cardField : Nat → Nat → BitVec 64

/-- A word of a per-unit descriptor or of unused space of the data area (R38). Argument: its offset. DESIGN CHOICE
(log 46). -/
opaque cardData : Nat → BitVec 64

/-- Whether a word of the card already holds its new value while DC_GEN is odd (R42, R45). Arguments: the odd DC_GEN
and the word's offset. DESIGN CHOICE (log 46). -/
opaque cardEarly : Nat → Nat → Bool

/-- Whether the CRC of an entry's copy in the mirror fails when it is read back (R187). Arguments: the tick, the entry's index.
DESIGN CHOICE (log 177). -/
opaque mirrorBad : Nat → Nat → Bool

/-- The nonce of a Get Debug Challenge (R454, R470: "fresh"). Argument: how many were given before. DESIGN CHOICE
(log 50). -/
opaque freshNonce : Nat → BitVec 256

/-- The body of an SPDM response (R467; the exchange is DSP0274's). Arguments: the transport, what the measurements cover and the messages
taken before, as numbers, and the message. DESIGN CHOICE (log 51). -/
opaque spdmResponse : SpdmVia → List Nat → Nat → List (BitVec 8)

/-- Whether an SPDM request is answered with ERROR (R467). DESIGN CHOICE (log 51). -/
opaque spdmError : SpdmVia → List Nat → Nat → Bool

/-- A measurement digest whose serialisation the manual does not give (R466, R468). Arguments: the index, and what it
covers, as numbers. DESIGN CHOICE (log 52). -/
opaque measurement : Nat → List Nat → BitVec 384

/-- Device address of a byte of a host slot: "fixed by the Figure" (R266), and no field of an image names it. Arguments:
256 * partition + layer, host slot, offset. DESIGN CHOICE (log 53). -/
opaque hostSlotAt : Nat → Nat → Nat

/-- Index of an object in the manifest of the rank its copy comes from, which a staging map entry records and the package
never sees (R296). Arguments: the rank, the object's own index. DESIGN CHOICE (log 56). -/
opaque sourceIndex : Nat → Nat → BitVec 24

/-- The DeviceID scalar of a boot with debug unlocked, "from the UID alone" (R470). Argument: UID. DESIGN CHOICE (log 59). -/
opaque debugKey : Nat → Nat

/-- Milliseconds from PERST_N deassertion to READY (R473): no clock of the package measures it here. Argument: how many
things the package has sent. DESIGN CHOICE (log 60). -/
opaque bootMs : Nat → BitVec 32

/-- Length of the bundle piece that a Firmware Chunk asks for (R454). Argument: its offset. DESIGN CHOICE (log 61). -/
opaque chunkLen : Nat → BitVec 16

/-- Device address where a spare loads the image of a takeover kit (R435): the manual names no place. Argument: GEN of
the takeover. DESIGN CHOICE (log 63). -/
opaque kitImageAt : Nat → Nat

/-- A forecast in months that the results do not fit: those of fewer than two days give no line (R446). Arguments: the monitor's key,
and its last 64 results. DESIGN CHOICE (log 62). -/
opaque forecast : Nat → List (Nat × Int) → BitVec 12

/-- The forecast in months of an NV stack, whose read retries have no floor (R442, R446). Arguments: the stack, and its last 64
results. DESIGN CHOICE (log 62). -/
opaque otherForecast : Nat → List (Nat × Int) → BitVec 12

/-- Days of a month (R446 counts results in days, forecasts in months). DESIGN CHOICE (log 62). -/
opaque monthDays : Nat

/-- HOST_TAG, old handle, partition and completion ring that the history record of a mirror index yields, if it is intact (R436): where
it lies in the mirror is not given. Arguments: the index, and the 256 bytes of its entry. DESIGN CHOICE (log 119). -/
opaque historyTag : Nat → List (BitVec 8) → Option (BitVec 64 × Nat × BitVec 4 × BitVec 4)

/-- CRC-32C of a control core's code and constant regions as measured at boot (R441): where they lie in a bundle is not given.
Arguments: core, CRC-32C of the bundle. DESIGN CHOICE (log 64). -/
opaque coreCrc : Nat → Nat → BitVec 32

/-- Where the tiles of a Shadow sample are (R157): the narrow tile's offset in the current epoch region, or the slot address of a
reference tile; no table maps a slice and a group to them. Arguments: 256 * partition + layer, slice, group, and 0 for the narrow tile or 1 + i. DESIGN CHOICE (log 65). -/
opaque sampleAt : Nat → Nat → Nat → Nat → BitVec 40

/-- Whether the standby Caller's result of an operation differs from the active one's (R209: a fault of the hardware).
Arguments: the tick, which operation (its entry, or 2^18 and the partition of a plan, 2^19 and that of a harvest), and 0 for
the operation or 1 for its repeat. DESIGN CHOICE (log 44). -/
opaque standbyDiffers : Nat → Nat → Nat → Bool

/-- Whether a write checksum generator errs on an update of an object's header (R180: GEN_FAULT; a fault of the hardware).
Arguments: the tick and the object's base. DESIGN CHOICE (log 152). -/
opaque generatorErrs : Nat → Nat → Bool

/-- Whether the append queue of the fault log is full when a record comes (R440 gives no depth). Argument: how many records
firmware has handled. DESIGN CHOICE (log 153). -/
opaque appendFull : Nat → Bool

/-- The words of a logical tile's SRAM that cannot be read when its physical tile is retired (R429 poisons them and does not say which
they are). Arguments: the tick and the tile. DESIGN CHOICE (log 209). -/
opaque unreadable : Nat → Nat → List Nat

end Sys2Proof.Config
end

