-- ==== Sys2Proof/Machine/Bits.lean ====
section
/-! DEFINITION. Bit fields, byte order, sparse maps and checksums: the helpers every block uses (R5, R47, R170). -/

namespace Sys2Proof.Machine

/-- Bits [hi:lo] of a value (R5). -/
def bits (x hi lo : Nat) : Nat := (x >>> lo) % 2 ^ (hi + 1 - lo)

/-- Bit `n` of a value. -/
def bit (x n : Nat) : Bool := x.testBit n

/-- A flag as a number. -/
def b2n (b : Bool) : Nat := if b then 1 else 0

/-- Little-endian bytes of the low `n` bytes of a value (R5). -/
def toLE : Nat → Nat → List Byte
  | 0, _ => []
  | n + 1, x => BitVec.ofNat 8 x :: toLE n (x / 256)

/-- The number that little-endian bytes spell (R5). -/
def ofLE : List Byte → Nat
  | [] => 0
  | b :: r => b.toNat + 256 * ofLE r

/-- The value of `w` bits read as two's complement. -/
def signed (w x : Nat) : Int := if x % 2 ^ w < 2 ^ (w - 1) then (x % 2 ^ w : Nat) else (x % 2 ^ w : Nat) - (2 ^ w : Nat)

/-- A two's complement number in `w` bits. -/
def unsigned (w : Nat) (x : Int) : Nat := (x % (2 ^ w : Nat)).toNat

/-- The set bits of a mask below `n`, ascending. -/
def maskBits (n m : Nat) : List Nat := (List.range n).filter (fun i => m.testBit i)

/-- Whether a value lies in a range. -/
def inRange (lo hi v : Nat) : Bool := decide (lo ≤ v) && decide (v ≤ hi)

/-- Whether a value divides another (nothing divides by 0). -/
def divides (d x : Nat) : Bool := d ≠ 0 && x % d = 0

/-- The quotient rounded up. -/
def ceilDiv (a b : Nat) : Nat := (a + b - 1) / b

/-- Least element of a list, or a default when it is empty. -/
def minOr (d : Nat) : List Nat → Nat
  | [] => d
  | x :: r => r.foldl min x

/-- The largest number of a list, 0 when it is empty. -/
def maxOf (l : List Nat) : Nat := l.foldl max 0

/-- The sum of a list. -/
def sumOf (l : List Nat) : Nat := l.foldl (· + ·) 0

/-! ### Sparse maps: lists of pairs, keys rising, no entry at the default value -/

/-- A sparse map. -/
abbrev SMap (α : Type) := List (Nat × α)

/-- The value at a key; `d` where nothing is listed. -/
def mget {α : Type} (d : α) : SMap α → Nat → α
  | [], _ => d
  | (j, v) :: r, k => if j = k then v else mget d r k

/-- Insert or replace, keeping the keys rising. -/
def mins {α : Type} (k : Nat) (v : α) : SMap α → SMap α
  | [] => [(k, v)]
  | (j, w) :: r => if k < j then (k, v) :: (j, w) :: r else if k = j then (k, v) :: r else (j, w) :: mins k v r

/-- Remove a key. -/
def mdel {α : Type} (k : Nat) : SMap α → SMap α
  | [] => []
  | (j, w) :: r => if j = k then r else (j, w) :: mdel k r

/-- Write a key; the default value removes the entry. -/
def mset {α : Type} [DecidableEq α] (d : α) (k : Nat) (v : α) (m : SMap α) : SMap α :=
  if v = d then mdel k m else mins k v m

/-- Keep only the keys a test admits. -/
def mkeep {α : Type} (p : Nat → Bool) (m : SMap α) : SMap α := m.filter (fun e => p e.1)

/-- Keys strictly rising. -/
def mrising {α : Type} : SMap α → Bool
  | [] => true
  | [_] => true
  | (j, _) :: (k, w) :: r => decide (j < k) && mrising ((k, w) :: r)

/-- The canonical form: keys strictly rising and no entry at the default value. -/
def mwf {α : Type} [DecidableEq α] (d : α) (m : SMap α) : Bool := mrising m && m.all (fun e => decide (e.2 ≠ d))

/-- Write consecutive keys from a list. -/
def msetList {α : Type} [DecidableEq α] (d : α) (k : Nat) : List α → SMap α → SMap α
  | [], m => m
  | v :: r, m => msetList d (k + 1) r (mset d k v m)

/-- Read `n` consecutive keys. -/
def mgetList {α : Type} (d : α) (m : SMap α) (k : Nat) : Nat → List α
  | 0 => []
  | n + 1 => mget d m k :: mgetList d m (k + 1) n

/-! ### Checksums -/

/-- One bit of CRC-32C, reflected (R170). -/
def crc32cBit (c : Nat) : Nat := if c % 2 = 1 then (c / 2) ^^^ 0x82F63B78 else c / 2

/-- One byte of CRC-32C. -/
def crc32cByte (c : Nat) (b : Byte) : Nat :=
  crc32cBit (crc32cBit (crc32cBit (crc32cBit (crc32cBit (crc32cBit (crc32cBit (crc32cBit (c ^^^ b.toNat))))))))

/-- CRC-32C of a byte list: initial value and final XOR all ones (R170). -/
def crc32c (l : List Byte) : Nat := (l.foldl crc32cByte 0xFFFFFFFF) ^^^ 0xFFFFFFFF

/-- One bit of the frame CRC-8: polynomial 0x2F, most significant bit first (R47). -/
def crc8Bit (c : Nat) (b : Bool) : Nat :=
  let f := (c.testBit 7) != b
  ((c * 2) % 256) ^^^ (if f then 0x2F else 0)

/-- The frame CRC-8: initial value and final XOR 0xFF (R47). -/
def crc8 (l : List Bool) : Nat := (l.foldl crc8Bit 0xFF) ^^^ 0xFF

/-- The number a bit list spells, most significant bit first. -/
def ofMsb (l : List Bool) : Nat := l.foldl (fun a b => 2 * a + b2n b) 0

end Sys2Proof.Machine
end

