-- ==== Sys2Proof/Machine/Float.lean ====
section
/-! DEFINITION. FP32 and BF16 as exact numbers with one rounding (R119, R123, R124, R141). A positive number is
`num / den * 2 ^ e`; every operation is exact on that form and rounds once. -/

namespace Sys2Proof.Machine

/-- `n * 2 ^ e` for a non-negative shift, and the matching divisor for a negative one. -/
def scaleUp (n : Nat) (e : Int) : Nat := if 0 ≤ e then n * 2 ^ e.toNat else n

/-- The divisor that a negative shift leaves. -/
def scaleDn (d : Nat) (e : Int) : Nat := if 0 ≤ e then d else d * 2 ^ (-e).toNat

/-- ⌊log₂ (num / den * 2 ^ e)⌋ for a positive number. -/
def flog2 (num den : Nat) (e : Int) : Int :=
  let l : Int := (Nat.log2 num : Int) - (Nat.log2 den : Int)
  let ok := if 0 ≤ l then den * 2 ^ l.toNat ≤ num else den ≤ num * 2 ^ (-l).toNat
  (if ok then l else l - 1) + e

/-- num / den * 2 ^ e rounded to an integer, ties to even. -/
def roundHalfEven (num den : Nat) (e : Int) : Nat :=
  let n := scaleUp num e
  let d := scaleDn den e
  let q := n / d
  let r := n % d
  if 2 * r > d || (2 * r = d && q % 2 = 1) then q + 1 else q

/-- num / den * 2 ^ e ≤ num' / den' * 2 ^ e'. -/
def ratLe (num den : Nat) (e : Int) (num' den' : Nat) (e' : Int) : Bool :=
  let k := e - e'
  decide (scaleUp num k * den' ≤ num' * scaleDn den k)

/-- The encoding, without its sign, of a non-negative number in a binary format of `man` fraction bits whose smallest
quantum is 2 ^ qmin, rounded once to nearest, ties to even. The largest codes are not clipped. -/
def roundFmt (man : Nat) (qmin : Int) (num den : Nat) (e : Int) : Nat :=
  if num = 0 then 0
  else
    let q := max (flog2 num den e - man) qmin
    (q - qmin).toNat * 2 ^ man + roundHalfEven num den (e - q)

/-- A number as the vector unit sees it (R123). -/
inductive Fp where
  | nan
  | inf (neg : Bool)
  | fin (neg : Bool) (m : Nat) (e : Int)
  deriving DecidableEq, Repr

/-- FP32 bits to a number. -/
def Fp.ofBits (x : Nat) : Fp :=
  let neg := x.testBit 31
  let ex := bits x 30 23
  let fr := bits x 22 0
  if ex = 255 then (if fr = 0 then .inf neg else .nan)
  else if ex = 0 then .fin neg fr (-149)
  else .fin neg (fr + 2 ^ 23) ((ex : Int) - 150)

/-- The canonical FP32 NaN (R123). -/
def qnan : Nat := 0x7FC00000

/-- The sign bit of an FP32 value. -/
def signBit (neg : Bool) : Nat := if neg then 0x80000000 else 0

/-- FP32 bits of a rounded non-negative rational with a sign: overflow gives infinity (R119). -/
def roundF32 (neg : Bool) (num den : Nat) (e : Int) : Nat :=
  signBit neg + min (roundFmt 23 (-149) num den e) 0x7F800000

/-- FP32 bits of a signed integer times 2 ^ e; `zneg` is the sign of an exact zero. -/
def roundInt (zneg : Bool) (v : Int) (e : Int) : Nat :=
  if v = 0 then signBit zneg else roundF32 (decide (v < 0)) v.natAbs 1 e

/-- The signed mantissa. -/
def sgn (neg : Bool) (m : Nat) : Int := if neg then -(m : Int) else m

/-- Exact sum of two finite numbers, rounded once. -/
def finAdd (n1 : Bool) (m1 : Nat) (e1 : Int) (n2 : Bool) (m2 : Nat) (e2 : Int) : Nat :=
  let e := min e1 e2
  let v := sgn n1 m1 * (2 : Int) ^ (e1 - e).toNat + sgn n2 m2 * (2 : Int) ^ (e2 - e).toNat
  roundInt (m1 = 0 && m2 = 0 && n1 && n2) v e

/-- ADD (R123). -/
def fAdd (a b : Nat) : Nat :=
  match Fp.ofBits a, Fp.ofBits b with
  | .nan, _ | _, .nan => qnan
  | .inf x, .inf y => if x = y then signBit x + 0x7F800000 else qnan
  | .inf x, .fin .. | .fin .., .inf x => signBit x + 0x7F800000
  | .fin n1 m1 e1, .fin n2 m2 e2 => finAdd n1 m1 e1 n2 m2 e2

/-- A value with its sign flipped. -/
def fNeg (a : Nat) : Nat := a ^^^ 0x80000000

/-- SUB (R123). -/
def fSub (a b : Nat) : Nat :=
  match Fp.ofBits b with
  | .nan => qnan
  | _ => fAdd a (fNeg b)

/-- MUL (R123). -/
def fMul (a b : Nat) : Nat :=
  match Fp.ofBits a, Fp.ofBits b with
  | .nan, _ | _, .nan => qnan
  | .inf x, .inf y => signBit (x != y) + 0x7F800000
  | .inf x, .fin y m _ | .fin y m _, .inf x => if m = 0 then qnan else signBit (x != y) + 0x7F800000
  | .fin n1 m1 e1, .fin n2 m2 e2 => roundF32 (n1 != n2) (m1 * m2) 1 (e1 + e2)

/-- FMA: c + a * b, rounded once (R123). -/
def fFma (c a b : Nat) : Nat :=
  match Fp.ofBits a, Fp.ofBits b, Fp.ofBits c with
  | .fin n1 m1 e1, .fin n2 m2 e2, .fin n3 m3 e3 => finAdd (n1 != n2) (m1 * m2) (e1 + e2) n3 m3 e3
  | .fin .., .fin .., .inf x => signBit x + 0x7F800000
  | .fin .., .fin .., .nan => qnan
  | _, _, _ => if fMul a b = qnan then qnan else fAdd (fMul a b) c

/-- Order of two non-NaN values, −0 below +0: a sign-and-magnitude key (R123). -/
def fKey (a : Nat) : Int := if a.testBit 31 then -1 - ((a % 2 ^ 31 : Nat) : Int) else (a : Int)

/-- Whether FP32 bits are a NaN. -/
def isNan (a : Nat) : Bool := Fp.ofBits a = .nan

/-- Whether FP32 bits are finite. -/
def isFin (a : Nat) : Bool := bits a 30 23 ≠ 255

/-- MAX (R123). -/
def fMax (a b : Nat) : Nat := if isNan a || isNan b then qnan else if fKey a < fKey b then b else a

/-- MIN (R123). -/
def fMin (a b : Nat) : Nat := if isNan a || isNan b then qnan else if fKey a < fKey b then a else b

/-- The magnitude. -/
def fAbs (a : Nat) : Nat := a % 2 ^ 31

/-- num / den of two FP32 values, correctly rounded (used by QDIVERGE, R159). -/
def fDiv (a b : Nat) : Nat :=
  match Fp.ofBits a, Fp.ofBits b with
  | .nan, _ | _, .nan => qnan
  | .inf _, .inf _ => qnan
  | .inf x, .fin y _ _ => signBit (x != y) + 0x7F800000
  | .fin x _ _, .inf y => signBit (x != y)
  | .fin n1 m1 e1, .fin n2 m2 e2 =>
    if m2 = 0 then (if m1 = 0 then qnan else signBit (n1 != n2) + 0x7F800000)
    else roundF32 (n1 != n2) m1 m2 (e1 - e2)

/-- Integer square root, bit by bit from bit `k`. -/
def isqrtFrom (n : Nat) : Nat → Nat → Nat
  | 0, r => r
  | k + 1, r => let c := r + 2 ^ k; isqrtFrom n k (if c * c ≤ n then c else r)

/-- ⌊√n⌋ for n below 2 ^ 400. -/
def isqrt (n : Nat) : Nat := isqrtFrom n 200 0

/-- RECIP (R123). -/
def fRecip (a : Nat) : Nat :=
  match Fp.ofBits a with
  | .nan => qnan
  | .inf n => signBit n
  | .fin n m e => if m = 0 then (Config.vecOpen 0x09 a).toNat else roundF32 n 1 m (-e)

/-- An even exponent at or below `e`. -/
def evenDown (e : Int) : Int := e - e % 2

/-- SQRT (R123): the integer root with a half added when it is not exact never crosses a rounding boundary. -/
def fSqrt (a : Nat) : Nat :=
  match Fp.ofBits a with
  | .nan => qnan
  | .inf n => if n then (Config.vecOpen 0x0B a).toNat else a
  | .fin n m e =>
    if m = 0 then a
    else if n then (Config.vecOpen 0x0B a).toNat
    else
      let e0 := evenDown e
      let v := m * 2 ^ (e - e0).toNat * 2 ^ 200
      let r := isqrt v
      if r * r = v then roundF32 false r 1 (e0 / 2 - 100) else roundF32 false (2 * r + 1) 2 (e0 / 2 - 100)

/-- RSQRT (R123). -/
def fRsqrt (a : Nat) : Nat :=
  match Fp.ofBits a with
  | .nan => qnan
  | .inf n => if n then (Config.vecOpen 0x0A a).toNat else 0
  | .fin n m e =>
    if m = 0 then (Config.vecOpen 0x0A a).toNat
    else if n then (Config.vecOpen 0x0A a).toNat
    else
      let e0 := evenDown e
      let mm := m * 2 ^ (e - e0).toNat
      let v := 2 ^ 300 / mm
      let r := isqrt v
      if r * r * mm = 2 ^ 300 then roundF32 false r 1 (-(e0 / 2) - 150)
      else roundF32 false (2 * r + 1) 2 (-(e0 / 2) - 150)

/-- One in the fixed point of `expFix`. -/
def expOne : Nat := 2 ^ 320

/-- The exponential series in fixed point, from its `k`-th term down by Horner's rule. -/
def expSeries (x : Nat) : Nat → Nat → Nat
  | 0, acc => acc
  | k + 1, acc => expSeries x k (expOne + x * acc / (expOne * (k + 1)))

/-- Square `k` times in fixed point. -/
def squareTimes : Nat → Nat → Nat
  | 0, v => v
  | k + 1, v => squareTimes k (v * v / expOne)

/-- exp of a non-negative fixed-point number below 128: the series at x / 512, squared nine times. -/
def expFix (x : Nat) : Nat := squareTimes 9 (expSeries (x / 512) 80 expOne)

/-- EXP (R123): the fixed-point error is below 2 ^ -280, far inside the rounding distance of any FP32 argument. -/
def fExp (a : Nat) : Nat :=
  match Fp.ofBits a with
  | .nan => qnan
  | .inf n => if n then 0 else a
  | .fin n m e =>
    if m = 0 then 0x3F800000
    else if 7 ≤ flog2 m 1 e then (if n then 0 else 0x7F800000)
    else
      let v := expFix (m * 2 ^ (e + 320).toNat)
      if n then roundF32 false expOne v 0 else roundF32 false v expOne 0

/-- SILU: x times RECIP (1 + EXP (−x)), each step rounded (R123). -/
def fSilu (a : Nat) : Nat :=
  if isNan a then qnan else fMul a (fRecip (fAdd 0x3F800000 (fExp (fNeg a))))

/-- FP32 to BF16, ties to even; a NaN becomes 0x7FC0 (R124). -/
def toBf16 (a : Nat) : Nat :=
  if isNan a then 0x7FC0
  else
    let q := a / 2 ^ 16
    let r := a % 2 ^ 16
    if r > 2 ^ 15 || (r = 2 ^ 15 && q % 2 = 1) then q + 1 else q

/-- One level of the pairwise tree: a missing partner passes its value up (R123). -/
def pairUp (f : Nat → Nat → Nat) : List Nat → List Nat
  | a :: b :: r => f a b :: pairUp f r
  | l => l

/-- The fixed pairwise tree over a list (R123). -/
def treeFold (f : Nat → Nat → Nat) : Nat → List Nat → Nat
  | 0, l => l.headD 0
  | k + 1, l => if l.length ≤ 1 then l.headD 0 else treeFold f k (pairUp f l)

/-- Reduce a row in the tree of R123. That a row of one element passes its bits unchanged, a NaN that is not canonical among
them, as COPY does, is the model's choice (DESIGN CHOICE, log 197). -/
def treeReduce (f : Nat → Nat → Nat) (l : List Nat) : Nat := treeFold f l.length l

end Sys2Proof.Machine
end

