-- ==== Sys2Proof/Machine/Formats.lean ====
section
/-! DEFINITION. Number formats: blocks in array form, the quantisers, and the object layout with its coded scale
area (R109, R130-R145, R160-R163, R166-R168, R173, R175). -/

namespace Sys2Proof.Machine

/-! ### Array form -/

/-- One 32-element block as the array sees it: a zero block, a poisoned block, or exponent, trim and elements (R115, R130). -/
inductive Blk where
  | zero
  | poison
  | vals (e : Int) (t : Nat) (es : List Int)
  deriving DecidableEq, Repr

/-- Blocks per array load (R109). -/
def blocksPerLoad (fmt : Nat) : Nat :=
  if fmt = 0 then 32 else if fmt ≤ 2 then 16 else if fmt ≤ 8 then 8 else 4

/-- Bytes of one block's element field, EB (R161). -/
def elemBytes (fmt : Nat) : Nat :=
  match fmt with
  | 0 => 8 | 1 => 12 | 2 => 16 | 3 => 32 | 4 => 16 | 5 => 24 | 6 => 32 | 7 => 32 | 8 => 32 | _ => 64

/-- Stored bits per element (R132, R139). -/
def elemBits (fmt : Nat) : Nat := elemBytes fmt / 4

/-- The 32 stored codes of an element field, element `i` at bits [w i + w − 1 : w i] (R133). -/
def codes (fmt field : Nat) : List Nat :=
  (List.range 32).map (fun i => (field >>> (elemBits fmt * i)) % 2 ^ elemBits fmt)

/-- Put 32 codes into an element field (R133). -/
def packCodes (fmt : Nat) (cs : List Nat) : Nat :=
  cs.foldr (fun c a => c % 2 ^ elemBits fmt + a * 2 ^ elemBits fmt) 0

/-- EXP of a scale byte (R131). -/
def scaleExp (sb : Nat) : Int := signed 6 (bits sb 7 2)

/-- A scale byte from exponent and trim (R131). -/
def scaleByte (e : Int) (t : Nat) : Nat := unsigned 6 e * 4 + t

/-- A reserved scale byte, 0x81 to 0x83 (R131). -/
def scaleReserved (sb : Nat) : Bool := decide (0x81 ≤ sb) && decide (sb ≤ 0x83)

/-- QB element value: QB2 has its own code, the others are two's complement (R132). -/
def qbElem (fmt c : Nat) : Int := signed (elemBits fmt) c

/-- Whether a QB2 block holds the reserved code 0b10 (R132). -/
def qb2Bad (fmt field : Nat) : Bool := decide (fmt = 0) && (codes 0 field).any (· = 2)

/-- A QB block in array form (R131, R132). -/
def qbBlock (fmt sb field : Nat) : Blk :=
  if sb = 0x80 then .zero
  else if sb = 0x7F then .poison
  else .vals (scaleExp sb) (bits sb 1 0) ((codes fmt field).map (qbElem fmt))

/-- A value of a small binary float: sign, magnitude mantissa and exponent; `none` for an infinity or a NaN (R139). -/
def miniVal (fmt c : Nat) : Option (Bool × Nat × Int) :=
  match fmt with
  | 4 => -- E2M1, bias 1
    let e := bits c 2 1; let m := bits c 0 0
    some (c.testBit 3, if e = 0 then m else m + 2, (if e = 0 then 0 else (e : Int) - 1) - 1)
  | 5 => -- E2M3, bias 1
    let e := bits c 4 3; let m := bits c 2 0
    some (c.testBit 5, if e = 0 then m else m + 8, (if e = 0 then 0 else (e : Int) - 1) - 3)
  | 6 => -- E4M3, bias 7, one NaN pattern per sign
    let e := bits c 6 3; let m := bits c 2 0
    if e = 15 ∧ m = 7 then none
    else some (c.testBit 7, if e = 0 then m else m + 8, (if e = 0 then -6 else (e : Int) - 7) - 3)
  | 7 => -- E5M2, bias 15
    let e := bits c 6 2; let m := bits c 1 0
    if e = 31 then none
    else some (c.testBit 7, if e = 0 then m else m + 4, (if e = 0 then -14 else (e : Int) - 15) - 2)
  | 8 => -- INT8, code times 2 ^ -6
    let v := signed 8 c
    some (decide (v < 0), v.natAbs, -6)
  | _ => -- BF16
    match Fp.ofBits (c * 2 ^ 16) with
    | .fin n m e => some (n, m, e)
    | _ => none

/-- Largest ⌊log₂ |v|⌋ over the non-zero elements (R140). -/
def maxLog (vs : List (Bool × Nat × Int)) : Option Int :=
  (vs.filter (fun v => v.2.1 ≠ 0)).foldl (fun a v =>
    let q := flog2 v.2.1 1 v.2.2
    match a with
    | none => some q
    | some b => some (max b q)) none

/-- A signed element scaled by 2 ^ k and rounded half to even. -/
def elemScaled (v : Bool × Nat × Int) (k : Int) : Int := sgn v.1 (roundHalfEven v.2.1 1 (v.2.2 + k))

/-- Array-form elements and natural exponent of an MX or BF16 block, for scale code `x` and anchor `a` (R140). -/
def mxNat (fmt x : Nat) (a : Int) (vs : List (Bool × Nat × Int)) : Option (Int × List Int) :=
  match maxLog vs with
  | none => none
  | some q =>
    let xe : Int := (x : Int) - 127
    some (match fmt with
    | 4 => (xe - 1 - a, vs.map (fun v => elemScaled v 1))
    | 5 => (xe - 3 - a, vs.map (fun v => elemScaled v 3))
    | 6 | 7 => (xe + q - 6 - a, vs.map (fun v => elemScaled v (6 - q)))
    | 8 => (xe - 6 - a, vs.map (fun v => elemScaled v 6))
    | _ => (q - 14 - a, vs.map (fun v => elemScaled v (14 - q))))

/-- An integer element halved `k` times with one rounding, ties to even. -/
def elemShift (e : Int) (k : Int) : Int := sgn (decide (e < 0)) (roundHalfEven e.natAbs 1 (-k))

/-- The clamp at the window floor: exponent at least −16, elements rounded with it (R140). -/
def clampFloor (en : Int) (es : List Int) : Blk :=
  let e := max en (-16)
  let es' := if en < e then es.map (fun v => elemShift v (e - en)) else es
  if es'.all (· = 0) then .zero else .vals e 0 es'

/-- An MX or BF16 block in array form (R139, R140). -/
def mxBlock (fmt x field : Nat) (a : Int) : Blk :=
  let vs := (codes fmt field).map (miniVal fmt)
  if fmt ≠ 9 ∧ x = 0xFF then .poison
  else if vs.any (· = none) then .poison
  else match mxNat fmt x a (vs.map (·.getD (false, 0, 0))) with
    | none => .zero
    | some (en, es) => clampFloor en es

/-- Any block in array form (R130). -/
def anyBlock (fmt sb field : Nat) (a : Int) : Blk :=
  if fmt ≤ 3 then qbBlock fmt sb field else mxBlock fmt sb field a

/-- Exact value of a block element as FP32, rounded as R119 rounds (R130, R143). -/
def elemF32 (a : Int) (e : Int) (t : Nat) (v : Int) : Nat := roundInt false (v * (4 + (t : Int))) (e + a - 2)

/-! ### Quantising (R135-R141) -/

/-- Largest code Q of a QB format (R135). -/
def qbMax (fmt : Nat) : Nat := match fmt with | 0 => 1 | 1 => 3 | 2 => 7 | _ => 127

/-- The smallest scale not below num / den * 2 ^ e, as exponent and trim (R135). -/
def scaleFor (num den : Nat) (e : Int) : Int × Nat :=
  let f := flog2 num den e
  match (List.range 4).find? (fun t => ratLe num den e (4 + t) 1 (f - 2)) with
  | some t => (f, t)
  | none => (f + 1, 0)

/-- What a quantised block is, beside its bits: counted as R136 counts. -/
structure QBlk where
  scale : Nat
  field : Nat
  zero : Bool
  flushed : Bool
  poisoned : Bool
  deriving DecidableEq, Repr

/-- Magnitude of a finite FP32 value as mantissa and exponent. -/
def fpMag (x : Nat) : Nat × Int :=
  match Fp.ofBits x with
  | .fin _ m e => (m, e)
  | _ => (0, 0)

/-- Largest finite magnitude of a list of FP32 values, as FP32 bits (R135). -/
def maxFinite (xs : List Nat) : Nat := (xs.filter isFin).foldl (fun a x => max a (fAbs x)) 0

/-- Whether a block must be poisoned: a non-finite or marked value (R137). -/
def blkBad (xs : List (Nat × Bool)) : Bool := xs.any (fun x => x.2 || !isFin x.1)

/-- A poisoned block (R135; for MX and BF16, log 12). -/
def qPoison (fmt : Nat) : QBlk :=
  ⟨if fmt ≤ 3 then 0x7F else 0xFF, if fmt = 9 then packCodes 9 (List.replicate 32 0x7FC0) else 0, false, false, true⟩

/-- Anchor of a QB tensor whose largest magnitude is `m` (FP32 bits) (R135). -/
def qbAnchor (fmt m : Nat) : Int :=
  if m = 0 then 0 else (scaleFor (fpMag m).1 (qbMax fmt) (fpMag m).2).1 - 15

/-- m ≥ 2 ^ (a − 24) (R136). -/
def aboveFlush (m : Nat) (a : Int) : Bool := ratLe 1 1 (a - 24) (fpMag m).1 1 (fpMag m).2

/-- One QB block (R135). -/
def qbQuant (fmt : Nat) (a : Int) (allPoison : Bool) (xs : List (Nat × Bool)) : QBlk :=
  if allPoison || blkBad xs then qPoison fmt
  else
    let m := maxFinite (xs.map (·.1))
    if m = 0 then ⟨0x80, 0, true, false, false⟩
    else
      let (f, t) := scaleFor (fpMag m).1 (qbMax fmt) (fpMag m).2
      let e := f - a
      if 15 < e then qPoison fmt
      else
        let (e, t) := if e < -16 then ((-16 : Int), 0) else (e, t)
        let es := xs.map (fun x => sgn (x.1.testBit 31) (roundHalfEven (fpMag x.1).1 (4 + t) ((fpMag x.1).2 - (e + a - 2))))
        if es.all (· = 0) then ⟨0x80, 0, true, aboveFlush m a, false⟩
        else ⟨scaleByte e t, packCodes fmt (es.map (unsigned (elemBits fmt))), false, false, false⟩

/-- Largest finite magnitude V of an MX element type, as mantissa and exponent (R141). -/
def mxMax (fmt : Nat) : Nat × Int :=
  match fmt with
  | 4 => (6, 0) | 5 => (15, -1) | 6 => (448, 0) | 7 => (57344, 0) | _ => (127, -6)

/-- The smallest E8M0 code X with m ≤ V * 2 ^ (X − 127) (R141); R141 gives none where no code to 254 holds m, and the code
is then a free value (log 166). -/
def mxScale (fmt m : Nat) : Nat :=
  if m = 0 then 0
  else ((List.range 255).find? (fun (x : Nat) =>
    ratLe (fpMag m).1 1 (fpMag m).2 (mxMax fmt).1 1 ((mxMax fmt).2 + (x : Int) - 127))).getD (Config.openScale m).toNat

/-- An INT8 element from its rounded value; one that no INT8 code holds is a free value (R141, log 166). -/
def int8Code (v : Int) (f : Nat) : Nat := if -128 ≤ v ∧ v ≤ 127 then unsigned 8 v else (Config.openCode f).toNat

/-- x / 2 ^ (X − 127) rounded to the element type, as a code (R141). -/
def mxCode (fmt x f : Nat) : Nat :=
  let (m, e) := fpMag f
  let k : Int := e - ((x : Int) - 127)
  let s := f.testBit 31
  match fmt with
  | 4 => roundFmt 1 (-1) m 1 k + (if s then 8 else 0)
  | 5 => roundFmt 3 (-3) m 1 k + (if s then 32 else 0)
  | 6 => roundFmt 3 (-9) m 1 k + (if s then 128 else 0)
  | 7 => roundFmt 2 (-16) m 1 k + (if s then 128 else 0)
  | _ => int8Code (sgn s (roundHalfEven m 1 (k + 6))) f

/-- The values a list of codes stands for. -/
def mxVals (fmt : Nat) (cs : List Nat) : List (Bool × Nat × Int) := cs.map (fun c => (miniVal fmt c).getD (false, 0, 0))

/-- ⌊log₂⌋ of the element that `m` becomes: 127 where BF16 rounds it to infinity, none where it becomes 0 (R140, R141). -/
def mxLog (fmt m : Nat) : Option Int :=
  match miniVal fmt (if fmt = 9 then toBf16 m else mxCode fmt (mxScale fmt m) m) with
  | none => some 127
  | some v => maxLog [v]

/-- E_nat, with anchor 0, of a block whose largest magnitude is `m` (R140, R141): MXFP4, MXFP6 and MXINT8 need the scale alone. -/
def mxEhat (fmt m : Nat) : Option Int :=
  let xe : Int := (mxScale fmt m : Int) - 127
  match fmt with
  | 4 => some (xe - 1)
  | 5 => some (xe - 3)
  | 8 => some (xe - 6)
  | 9 => (mxLog 9 m).map (· - 14)
  | _ => (mxLog fmt m).map (fun q => xe + q - 6)

/-- Anchor of an MX or BF16 tensor (R141); a largest magnitude of 0 gives 0, as R135 states for QB, and one that becomes a zero
element, whose E_nat R140 does not give, a free value (log 166). -/
def mxAnchor (fmt m : Nat) : Int :=
  if m = 0 then 0
  else match mxEhat fmt m with
    | some e => e - 15
    | none => signed 10 (Config.openAnchor fmt m).toNat

/-- One MX or BF16 block (R141). -/
def mxQuant (fmt : Nat) (a : Int) (allPoison : Bool) (xs : List (Nat × Bool)) : QBlk :=
  if allPoison || blkBad xs then qPoison fmt
  else
    let m := maxFinite (xs.map (·.1))
    let x := mxScale fmt m
    let cs := xs.map (fun v => if fmt = 9 then toBf16 v.1 else mxCode fmt x v.1)
    if cs.any (fun c => miniVal fmt c = none) then qPoison fmt
    else
      let q : QBlk := ⟨if fmt = 9 then 0 else x, packCodes fmt cs, false, false, false⟩
      match mxNat fmt x a (mxVals fmt cs) with
      | none => { q with zero := true, flushed := decide (m ≠ 0) && aboveFlush m a }
      | some (en, es) =>
        if 15 < en then qPoison fmt
        else if clampFloor en es = .zero then { q with zero := true, flushed := aboveFlush m a }
        else q

/-- Anchor of any format (R135, R141). -/
def anchorFor (fmt m : Nat) : Int := if fmt ≤ 3 then qbAnchor fmt m else mxAnchor fmt m

/-- One block of any format (R135, R141). -/
def quantBlock (fmt : Nat) (a : Int) (allPoison : Bool) (xs : List (Nat × Bool)) : QBlk :=
  if fmt ≤ 3 then qbQuant fmt a allPoison xs else mxQuant fmt a allPoison xs

/-! ### Objects (R160-R168) -/

/-- An object header (R160). -/
structure ObjHdr where
  crc : Nat
  fmt : Nat
  obj : Nat
  coded : Bool
  rawAny : Bool
  anchor : Int
  res : Bool
  nb : Nat
  rowb : Nat
  declLen : Nat
  slotLen : Nat
  aux : Nat
  deriving DecidableEq, Repr

/-- The header in 32 bytes (R160). -/
def objHdr (bs : List Byte) : ObjHdr :=
  let v := ofLE (bs.take 32)
  let w0 := bits v 63 0
  let w1 := bits v 127 64
  let w2 := bits v 191 128
  { crc := bits w0 31 0, fmt := bits w0 35 32, obj := bits w0 37 36, coded := w0.testBit 38, rawAny := w0.testBit 39,
    anchor := signed 10 (bits w0 49 40), res := decide (bits w0 63 50 ≠ 0) || decide (bits w1 63 40 ≠ 0),
    nb := bits w1 23 0, rowb := bits w1 39 24, declLen := bits w2 31 0, slotLen := bits w2 63 32, aux := bits v 255 192 }

/-- The 32 bytes of a header, its CRC field as given (R160). -/
def hdrBytes (h : ObjHdr) : List Byte :=
  toLE 8 (h.crc + h.fmt * 2 ^ 32 + h.obj * 2 ^ 36 + b2n h.coded * 2 ^ 38 + b2n h.rawAny * 2 ^ 39 + unsigned 10 h.anchor * 2 ^ 40) ++
  toLE 8 (h.nb + h.rowb * 2 ^ 24) ++ toLE 8 (h.declLen + h.slotLen * 2 ^ 32) ++ toLE 8 h.aux

/-- Round up to a multiple of 64. -/
def up64 (n : Nat) : Nat := ceilDiv n 64 * 64

/-- Offset of the scale area (R161). -/
def scaleOff (h : ObjHdr) : Nat := 32 + h.nb * elemBytes h.fmt

/-- Bytes of the raw scale area (R161). -/
def rawScaleLen (fmt nb : Nat) : Nat := if fmt = 9 then 0 else nb

/-- The decode end (R163). -/
def decodeEnd (h : ObjHdr) : Nat :=
  if h.coded then scaleOff h + h.nb / 128 + 12 * (h.nb / 16) + (if h.rawAny then 4 * (h.nb / 16) else 0)
  else scaleOff h + rawScaleLen h.fmt h.nb

/-- The full-size place of a coded object (R163). -/
def fullPlace (h : ObjHdr) : Nat := up64 (scaleOff h + h.nb / 128 + 16 * (h.nb / 16))

/-- Raw-form decode end of a weight tile, rounded up to 64 (R162, R173). -/
def rawTileLen (fmt : Nat) : Nat :=
  let nb := 128 * blocksPerLoad fmt
  up64 (32 + nb * elemBytes fmt + rawScaleLen fmt nb)

/-- A special scale byte, zero or poisoned (R168). -/
def scaleSpecial (sb : Nat) : Bool := sb = 0x80 || sb = 0x7F

/-- Largest of a list of integers, 0 when empty. -/
def maxInt : List Int → Int
  | [] => 0
  | x :: r => r.foldl max x

/-- The canonical encoding of one group: whether it is coded, its slot and its overflow slot (R168). -/
def encodeGroup (ss : List Nat) : Bool × List Nat × List Nat :=
  let base := maxInt ((ss.filter (fun s => !scaleSpecial s)).map scaleExp)
  let isEsc := fun s => scaleSpecial s || decide (scaleExp s < base - 2)
  let esc := ss.filter isEsc
  if esc.length ≤ 2 then
    let cs := ss.map (fun s => if isEsc s then 0xC else (base - scaleExp s).toNat * 4 + bits s 1 0)
    let field := cs.foldr (fun c a => c + 16 * a) 0
    (true, [unsigned 6 base + 64 * esc.length] ++ (toLE 8 field).map (·.toNat) ++ (esc ++ [0, 0]).take 2 ++ [0], [0, 0, 0, 0])
  else (false, ss.take 12, ss.drop 12)

/-- The faults of an object, as the bit numbers of EXPAND_EVENTS (R175, R180). -/
def fCrc : Nat := 0
/-- OBJ_MISMATCH (R175). -/
def fObj : Nat := 1
/-- FMT_OVER (R175). -/
def fOver : Nat := 2
/-- FMT_UNDER (R175). -/
def fUnder : Nat := 3
/-- FMT_CODE (R175). -/
def fCode : Nat := 4
/-- FMT_MISMATCH (R175). -/
def fMism : Nat := 5

/-- Expand 16 codes with their escapes into scale bytes; `none` where an exponent leaves its 6 bits (R167). -/
def expandCodes (base : Int) : List Nat → List Nat → Option (List Nat)
  | [], _ => some []
  | c :: r, esc =>
    if c / 4 = 3 then (expandCodes base r (esc.drop 1)).map (esc.headD 0 :: ·)
    else if base - (c / 4 : Nat) < -32 then none
    else (expandCodes base r esc).map (scaleByte (base - (c / 4 : Nat)) (c % 4) :: ·)

/-- A byte of a slot as its checks see it: none where it lies in a marked word, which is not examined (R173). -/
abbrev Seen := Option Nat

/-- The code of one block by itself (R167, R168, R175): an escape has TRIM 0, and any other code decodes, against byte 0, to a
scale byte that is neither special nor reserved. -/
def codeBad (head : Seen) (c : Nat) : Bool :=
  decide (12 < c) || (decide (c < 12) && head.any (fun x =>
    let e := signed 6 x - (c / 4 : Nat)
    decide (e < -32) || scaleSpecial (scaleByte e (c % 4)) || scaleReserved (scaleByte e (c % 4))))

/-- One escape slot by itself (R167, R168, R175): never a reserved scale byte; a used one holds a special byte or one below
BASE − 2, and an unused one 0. -/
def escBad (head : Seen) (j : Nat) (v : Nat) : Bool :=
  scaleReserved v || head.any (fun x =>
    if j < x / 64 then !scaleSpecial v && decide (signed 6 x - 2 ≤ scaleExp v) else v ≠ 0)

/-- Whether the fields of a coded group's slot break a rule, each taken by itself (R167, R168, R173, R175). -/
def slotFieldsBad (slot : List Seen) : Bool :=
  let head := slot.getD 0 none
  head.any (fun x => x / 64 = 3) || (slot.getD 11 none).any (· ≠ 0) ||
  ((slot.drop 1).take 8).any (fun b => b.any (fun x => codeBad head (x % 16) || codeBad head (x / 16))) ||
  (slot.getD 9 none).any (escBad head 0) || (slot.getD 10 none).any (escBad head 1)

/-- One coded group read back: its scale bytes and the faults it raises (R167, R168, R175). A group with a marked word is
poisoned; one whose escapes differ from NESC is not decoded; the fields of both are still checked, each where it is known (R173,
R176). -/
def decodeGroup (slot : List Seen) : List Nat × List Nat :=
  let f0 := if slotFieldsBad slot then [fCode] else []
  let known := (slot.take 9).all (·.isSome)
  let bs := slot.map (·.getD 0)
  let nesc := bs.headD 0 / 64
  let cs := ((bs.drop 1).take 8).flatMap (fun x => [x % 16, x / 16])
  let n := (cs.filter (fun c => c / 4 = 3)).length
  let poisoned := List.replicate 16 0x7F
  if known = false then (poisoned, f0)
  else if n > nesc then (poisoned, fOver :: f0)
  else if n < nesc then (poisoned, fUnder :: f0)
  else if nesc = 3 ∨ slot.all (·.isSome) = false then (poisoned, f0)
  else match expandCodes (signed 6 (bs.headD 0)) cs ((bs.drop 9).take 2) with
    | none => (poisoned, [fCode])
    | some ss => (ss, if f0 = [] && encodeGroup ss = (true, bs, [0, 0, 0, 0]) then [] else [fCode])

/-- A marked byte: its value and the mark of the word it lies in (R148). -/
abbrev MByte := Byte × Bool

/-- Whether any byte of a range of an object reads a marked word, or lies past what the reader reads: such bytes are not
examined. -/
def anyMark (o : List MByte) (a n : Nat) : Bool := ((o.drop a).take n).any (·.2) || decide (o.length < a + n)

/-- The plain bytes of a range. -/
def plain (o : List MByte) (a n : Nat) : List Byte := ((o.drop a).take n).map (·.1)

/-- What the reader of an object expects of it (R175). -/
structure Expect where
  fmt : Option Nat
  obj : Option Nat
  /-- the number of blocks the command reads, and whether it must match exactly -/
  nb : Option Nat
  exact : Bool
  /-- LEN of the FETCH or CHECK, or the region of a DEQUANT -/
  len : Option Nat
  crc : Bool
  ident : Nat
  deriving DecidableEq, Repr

/-- Header faults: all a FETCH checks (R164, R175). -/
def hdrFaults (h : ObjHdr) (x : Expect) : List Nat :=
  (if h.res || h.obj = 3 || decide (9 < h.fmt) || h.nb = 0 ||
      (h.coded && (decide (3 < h.fmt) || decide (h.nb % 128 ≠ 0))) || (h.rawAny && !h.coded) ||
      decide (h.declLen % 64 ≠ 0) || decide (h.slotLen % 64 ≠ 0) || decide (h.slotLen < h.declLen) ||
      (h.coded && decide (h.slotLen < fullPlace h)) then [fCode] else []) ++
  (if x.len.any (fun l => decide (l < h.declLen)) then [fUnder] else []) ++
  (if x.fmt.any (· ≠ h.fmt) || x.obj.any (· ≠ h.obj) then [fMism] else [])

/-- Raw-map bit of a group (R167). -/
def rawBit (o : List MByte) (h : ObjHdr) (g : Nat) : Bool :=
  (ofLE (plain o (scaleOff h + g / 8) 1)).testBit (g % 8)

/-- `n` bytes of an object as their checks see them (R173). -/
def seen (o : List MByte) (a n : Nat) : List Seen :=
  (List.range n).map (fun i => if anyMark o (a + i) 1 then none else some (ofLE (plain o (a + i) 1)))

/-- The scale bytes of one group of a coded object with the faults it raises; a group that reads a marked word is
poisoned, and only its unmarked words are checked (R167, R173). -/
def groupScales (o : List MByte) (h : ObjHdr) (g : Nat) : List Nat × List Nat :=
  let rb := scaleOff h + g / 8
  let so := scaleOff h + h.nb / 128 + 12 * g
  let oo := scaleOff h + h.nb / 128 + 12 * (h.nb / 16) + 4 * g
  let known := !anyMark o rb 1
  let slot := seen o so 12
  let ovf := if h.rawAny then seen o oo 4 else List.replicate 4 (some 0)
  if !known then (List.replicate 16 0x7F, [])
  else if rawBit o h g then
    let all := slot ++ ovf
    let ss := all.map (·.getD 0)
    let bad := !h.rawAny || all.any (·.any scaleReserved)
    if all.all (·.isSome) then (ss, if bad || (encodeGroup ss).1 then [fCode] else [])
    else (List.replicate 16 0x7F, if bad then [fCode] else [])
  else
    let (ss, f) := decodeGroup slot
    (ss, f ++ (if ovf.any (·.any (· ≠ 0)) then [fCode] else []))

/-- Whether the raw map is known to hold no raw group (R167, R173). -/
def noRawGroup (o : List MByte) (h : ObjHdr) : Bool :=
  !anyMark o (scaleOff h) (h.nb / 128) && (plain o (scaleOff h) (h.nb / 128)).all (· = 0)

/-- All scale bytes of an object with the faults of its scale area and the first failing group (R161, R167, R175). -/
def objScales (o : List MByte) (h : ObjHdr) : List Nat × List (Nat × Nat) :=
  if h.fmt = 9 then (List.replicate h.nb 0, [])
  else if h.coded then
    let gs := (List.range (h.nb / 16)).map (fun g => (g, groupScales o h g))
    (gs.flatMap (fun g => g.2.1), gs.flatMap (fun g => g.2.2.map (fun f => (f, g.1))) ++
      (if h.rawAny && noRawGroup o h then [(fCode, 0xFFFF)] else []))
  else
    let ss := (plain o (scaleOff h) h.nb).map (·.toNat)
    (ss, if decide (h.fmt ≤ 3) &&
        (List.range h.nb).any (fun b => scaleReserved (ss.getD b 0) && !anyMark o (scaleOff h + b) 1)
      then [(fCode, 0xFFFF)] else [])

/-- Block `b` of an object in array form (R161, R173). -/
def objBlock (o : List MByte) (h : ObjHdr) (ss : List Nat) (b : Nat) : Blk :=
  let eo := 32 + b * elemBytes h.fmt
  if anyMark o eo (elemBytes h.fmt) || (decide (h.fmt ≠ 9) && !h.coded && anyMark o (scaleOff h + b) 1) then .poison
  else anyBlock h.fmt (ss.getD b 0x7F) (ofLE (plain o eo (elemBytes h.fmt))) h.anchor

/-- Blocks of a QB2 object that hold the reserved element code where it is examined (R132): a block whose scale or elements read
a marked word is a poisoned block (R173). -/
def qb2Faults (o : List MByte) (h : ObjHdr) (ss : List Nat) : Bool :=
  decide (h.fmt = 0) && (List.range h.nb).any (fun b =>
    !scaleSpecial (ss.getD b 0x7F) && !(!h.coded && anyMark o (scaleOff h + b) 1) &&
    !anyMark o (32 + 8 * b) 8 && qb2Bad 0 (ofLE (plain o (32 + 8 * b) 8)))

/-- The CRC of an object over its declared length, the CRC field taken as 0 (R170). -/
def objCrc (bs : List Byte) : Nat := crc32c (List.replicate (min 4 bs.length) 0 ++ bs.drop 4)

/-- An object as a reader finds it: its faults (each with a scale group, 0xFFFF for none), whether its header is
marked, and its blocks in array form (R171-R176). -/
structure ObjView where
  hdr : ObjHdr
  faults : List (Nat × Nat)
  marked : Bool
  scales : List Nat
  deriving DecidableEq, Repr

/-- Examine an object in `o` (R172, R173, R175): every flag that applies is found, in whatever its reader reads of it
(R176). That an object of which fewer than 32 bytes are read is taken as one with a marked header is the model's choice
(DESIGN CHOICE, log 201), and so is that the CRC of one which declares more than is read is not compared, while its identity
is (DESIGN CHOICE, log 202). -/
def viewObj (o : List MByte) (x : Expect) : ObjView :=
  let h := objHdr (plain o 0 32)
  if anyMark o 0 32 then ⟨h, [], true, []⟩
  else
    let hf := (hdrFaults h x).map (fun f => (f, 0xFFFF))
    let nbf := match x.nb with
      | none => []
      | some n => if n < h.nb && x.exact then [(fOver, 0xFFFF)] else if h.nb < n then [(fUnder, 0xFFFF)] else []
    let endf := if h.declLen < decodeEnd h then [(fOver, 0xFFFF)] else []
    let layoutOk := decide (h.fmt ≤ 9) && !(h.coded && (decide (3 < h.fmt) || decide (h.nb % 128 ≠ 0)))
    let (ss, sf) := if layoutOk then objScales o h else ([], [])
    let q2 := if layoutOk && qb2Faults o h ss then [(fCode, 0xFFFF)] else []
    let pad := if layoutOk && ((List.range (h.declLen - decodeEnd h)).any (fun i =>
        !anyMark o (decodeEnd h + i) 1 && decide (plain o (decodeEnd h + i) 1 ≠ [0])))
      then [(fCode, 0xFFFF)] else []
    let fits := decide (h.declLen ≤ o.length)
    let crcBad := x.crc && fits && !anyMark o 0 h.declLen && objCrc (plain o 0 h.declLen) ≠ h.crc
    let idBad := decide (x.ident ≠ 0) && x.ident ≠ h.crc
    ⟨h, hf ++ nbf ++ endf ++ sf ++ q2 ++ pad ++ (if crcBad then [(fCrc, 0xFFFF)] else []) ++
      (if idBad && !crcBad then [(fObj, 0xFFFF)] else []), false, ss⟩

/-- Block `b` of a viewed object; every block is poisoned where the header is marked (R173). -/
def ObjView.blk (v : ObjView) (o : List MByte) (b : Nat) : Blk :=
  if v.marked then .poison else objBlock o v.hdr v.scales b

/-- The first cause in the order of R176. -/
def firstCause (fs : List Nat) : Option Nat :=
  [fMism, fCode, fOver, fUnder, fCrc, fObj].find? (fs.contains ·)

end Sys2Proof.Machine
end

