-- ==== Sys2Proof/Machine/CallerTypes.lean ====
section
/-! DEFINITION. Records of the Caller and of the Promenade engines (R183 to R209, R240, R307, R308). -/

namespace Sys2Proof.Machine

/-- A Sequence Table entry (R186), field by field, and what the Caller knows of it besides: GEN moved with a Cancel
(R185), its frames go to quarantine (R252), it holds frames (R240), the last bar planned for it, plus 1 (R202), and it is to be
re-prefilled once its move is over (R188, R302). -/
structure Entry where
  state : Nat
  part : Nat
  cls : Nat
  rehomed : Bool
  atRisk : Bool
  gen : Nat
  epoch : Nat
  admitStamp : Nat
  tag : Nat
  home : Nat
  buddy : Nat
  cq : Nat
  slot : Nat
  promptLen : Nat
  pfDone : Nat
  pos : Nat
  maxNew : Nat
  generated : Nat
  kvRoot : Nat
  shelfRoot : Nat
  kvRes : Nat
  histPtr : Nat
  histCap : Nat
  draft : Nat
  dres : Nat
  heads : Bool
  acc : Nat
  ttl : Nat
  expiry : Nat
  startBar : Nat
  firstBar : Nat
  endBar : Nat
  firstBeat : Nat
  ptBeats : Nat
  slip : Nat
  energy : Nat
  lastBar : Nat
  cancelled : Bool
  dirty : Bool
  framed : Bool
  lastPlan : Nat
  again : Bool
  deriving DecidableEq, Repr

/-- A FREE entry that nothing has used. -/
def Entry.init : Entry where
  state := 0
  part := 0
  cls := 0
  rehomed := false
  atRisk := false
  gen := 0
  epoch := 0
  admitStamp := 0
  tag := 0
  home := 0
  buddy := 0
  cq := 0
  slot := 0
  promptLen := 0
  pfDone := 0
  pos := 0
  maxNew := 0
  generated := 0
  kvRoot := 0
  shelfRoot := 0
  kvRes := 0
  histPtr := 0
  histCap := 0
  draft := 0
  dres := 0
  heads := false
  acc := 0
  ttl := 0
  expiry := 0
  startBar := 0
  firstBar := 0
  endBar := 0
  firstBeat := 0
  ptBeats := 0
  slip := 0
  energy := 0
  lastBar := 0
  cancelled := false
  dirty := false
  framed := false
  lastPlan := 0
  again := false

/-- A reservation of the ledger (R197): the bars `lo` to `hi` - 1 of an entry, its prefill positions `pre` in chunks
of `chunk`, the draft slots of a decode bar, and the KV positions it counts in KV_USED. -/
structure Resv where
  index : Nat
  part : Nat
  lo : Nat
  hi : Nat
  pre : Nat
  chunk : Nat
  dres : Nat
  kv : Nat
  deriving DecidableEq, Repr

/-- A mirror write (R205): its number, its entry, its offset in the mirror, its data, the stamp it was sent at, and the package
it goes to where that is not yet the buddy. -/
structure MirrorWr where
  num : Nat
  index : Nat
  off : Nat
  data : List Byte
  sent : Option Nat
  ahead : Option Nat
  deriving DecidableEq, Repr

/-- A ring entry that waits for mirror writes (R205): group, CQ, words, the bar it was harvested in, and the writes. -/
structure Waiting where
  grp : Nat
  cq : Nat
  words : List Nat
  bar : Nat
  deps : List Nat
  deriving DecidableEq, Repr

/-- A Pause or a Cancel not yet completed (R188, R204): the entry, its request, and for a Cancel the tokens emitted. -/
structure SeqWait where
  index : Nat
  cancel : Bool
  req : Req
  generated : Nat
  deriving DecidableEq, Repr

/-- A move of a sequence to or from the warm shelf (R204): the entry, its direction, where on the shelf its bytes are,
and the frames that a move back fills. -/
structure SeqMove where
  index : Nat
  toShelf : Bool
  base : Nat
  frames : List Nat
  deriving DecidableEq, Repr

/-- Shelf bytes that a paused sequence holds: entry, address, length. -/
structure ShelfUse where
  index : Nat
  base : Nat
  len : Nat
  deriving DecidableEq, Repr

/-- The Caller beyond its registers. -/
structure Caller where
  /-- entries, keyed by index -/
  seqs : SMap Entry
  /-- the lowest index never used, and the indices freed since, oldest first (R185) -/
  fresh : Nat
  freed : List Nat
  /-- entries in the on-die cache, most recently used first (R187) -/
  cached : List Nat
  ledger : List Resv
  /-- bar of the last plan begun, plus 1; 0 before the first -/
  planned : Nat
  /-- last bar whose harvest began, plus 1; 0 before the first -/
  harvested : Nat
  /-- HARVEST_LATE was raised for that bar -/
  harvestLate : Bool
  waits : List SeqWait
  moves : List SeqMove
  shelf : List ShelfUse
  mirror : List MirrorWr
  nextMirror : Nat
  waiting : List Waiting
  /-- a SWITCH write waits for the next bar boundary (R209) -/
  switch : Bool
  /-- the partition whose ring was served last (R189) -/
  served : Nat
  /-- serving partitions whose free-frame stack the Caller has written since their setup (R237) -/
  stacked : List Nat
  /-- the package that firmware copied the mirror to, ahead of the table that makes it the buddy (R205) -/
  copied : Option Nat
  deriving DecidableEq, Repr

/-- The Caller after a package reset. -/
def Caller.init : Caller := ⟨[], 0, [], [], [], 0, 0, false, [], [], [], [], 0, [], false, 15, [], none⟩

/-- A pending epoch swap (R301): EPOCH, SWITCH_BAR, FORCE_REPREFILL, and the request it completes. -/
structure Swap where
  epoch : Nat
  bar : Nat
  force : Bool
  req : Req
  deriving DecidableEq, Repr

/-- What a Promenade move is for. -/
inductive MoveFor where
  /-- nothing any more -/
  | none
  /-- an entry of a Figure image's prefetch schedule: ARR and DSET if it counts an arrival -/
  | prefetch (arr : Option (Nat × Nat))
  /-- a tile of a Shadow sample: partition, layer, bar, slice and group (R157) -/
  | sample (p l bar k g : Nat)
  /-- the rewrite of a quarantined frame (R240) -/
  | quarantine (part frame : Nat)
  /-- the move of a Pause or of a Resume: the entry's index (R204) -/
  | pause (index : Nat)
  | resume (index : Nat)
  /-- a staging, a fill, a host slot by its key (R295, R298, R370) -/
  | staging
  | fill
  | hostSlot (key : Nat)
  deriving DecidableEq, Repr

/-- A Promenade move (R307, R308): its queue, kind, partition, addresses, length, count, slot, and the 64-byte lines that the
engine of each memory-side die has still to write. -/
structure Move where
  queue : Nat
  kind : Nat
  part : Nat
  slot : Nat
  src : Nat
  dst : Nat
  len : Nat
  count : Nat
  todo : List Nat
  why : MoveFor
  deriving DecidableEq, Repr

end Sys2Proof.Machine
end

