-- ==== Sys2Proof/Machine/FabricTypes.lean ====
section
/-! DEFINITION. Records of the fabric, the copy engines and the lanes (R316 to R348). -/

namespace Sys2Proof.Machine

/-- The link state of a port beyond its registers (R316, R321, R348). -/
structure PortSt where
  /-- next SEQ expected from the switch -/
  rxNext : Nat
  /-- last SEQ the switch has acknowledged, low 15 bits -/
  acked : Nat
  /-- replays asked in a row for the flit after `acked` -/
  replays : Nat
  /-- beat at which CHECK was entered -/
  since : Nat
  /-- an installation test runs on the port -/
  bert : Bool
  /-- SEQ of the next flit sent -/
  txNext : Nat
  /-- the last flits sent, by SEQ, oldest first (R321) -/
  kept : List (Nat × List Byte)
  /-- payload that no flit has taken yet: the rest of an IDLE packet (R320) -/
  tail : List Byte
  deriving DecidableEq, Repr

/-- A port after reset. -/
def PortSt.init : PortSt := ⟨0, 0, 0, 0, false, 0, [], []⟩

/-- What the answer of an open operation is for. -/
inductive Owner where
  /-- one SDATA of the FCOPY at an index of a Set -/
  | fcopy (set idx : Nat)
  /-- the SCOMMIT of an FCOPY of a Set, issued in a bar -/
  | scommit (set bar : Nat)
  /-- part of a copy descriptor: engine, number, byte offset in the transfer -/
  | copyPart (eng num off : Nat)
  /-- the UCOMMIT of a PUT -/
  | copyCommit (eng num : Nat)
  /-- a Reel row or release: partition, layer, wave, credited -/
  | reel (part layer wave : Nat)
  /-- a write of the mirror -/
  | mirror (num : Nat)
  /-- a takeover, health or role write of a control core -/
  | core
  /-- a takeover read of a control core: byte offset in the kit -/
  | kit (off : Nat)
  /-- a read of the mirror of a rank taken over: byte offset in the mirror -/
  | restore (off : Nat)
  /-- a Quinbingo thread: tile, thread, whether it waits -/
  | thread (tile th : Nat) (waits : Bool)
  deriving DecidableEq, Repr

/-- An operation the package has issued and not resolved (R325, R332, R339, R340, R399). Its number among the unit's operations
gives its REQID, modulo 65,536. -/
structure Op where
  unit : Nat
  reqid : Nat
  dst : Nat
  typ : Nat
  pkt : Pkt
  /-- stamp of its first sending -/
  stamp : Nat
  /-- port it was sent on; `none` looped back or not yet sent -/
  port : Option Nat
  owner : Owner
  /-- the port it was sent on before a re-send -/
  lost : Option Nat
  /-- held until re-sent requests are answered (R332) -/
  held : Bool
  /-- its answer is absorbed, counted for a partition (R399, R400) -/
  absorb : Option Nat
  /-- not sent yet: its REQID may not be used again so soon (R332) -/
  waiting : Bool
  deriving DecidableEq, Repr

/-- A kept outcome (R332): its key, the stamp it is kept until, and the answer. -/
structure Kept where
  pkg : Nat
  unit : Nat
  reqid : Nat
  until_ : Nat
  ans : Pkt
  deriving DecidableEq, Repr

/-- A region entry as cached (R327, R329). -/
structure Region where
  base : Nat
  valid : Bool
  rd : Bool
  wr : Bool
  at_ : Bool
  arrive : Bool
  fence : Bool
  tag : Nat
  len : Nat
  srcPart : Nat
  anyPart : Bool
  deriving DecidableEq, Repr

/-- An invalidation under way (R329): the stamp of the write, the partition, one entry or all, and BASE with EN. -/
structure Inval where
  stamp : Nat
  part : Nat
  idx : Option Nat
  keys : Nat
  deriving DecidableEq, Repr

/-- A copy descriptor in flight (R333, R334): engine, number, ring index, what it moves and what is unanswered. -/
structure Desc where
  eng : Nat
  num : Nat
  index : Nat
  op : Nat
  dst : Nat
  part : Nat
  key : Nat
  roff : Nat
  laddr : Nat
  arr : Option (Nat × Nat)
  irq : Bool
  cpl : Nat
  bar : Nat
  status : Nat
  old : Nat
  left : List Nat
  committed : Bool
  deriving DecidableEq, Repr

/-- A lane test under way (R348): the lane, the physical spare that stands in, and whether it is an installation test. -/
structure LaneTest where
  lane : Nat
  home : Nat
  spare : Nat
  install : Bool
  deriving DecidableEq, Repr

/-- The fabric beyond its registers. -/
structure Fab where
  ports : SMap PortSt
  ops : List Op
  kept : List Kept
  /-- cached region entries, keyed 1,024 * partition + index -/
  cache : SMap (Option Region)
  invs : List Inval
  /-- BASE + EN * 2^48 in effect per partition -/
  keys : SMap Nat
  /-- last PORT_STATE of each package: ports not in service + ports in HALF * 2^24 -/
  peers : SMap Nat
  /-- number of the next operation of each issuing unit -/
  reqids : SMap Nat
  /-- REQIDs resolved of late: unit, REQID, and the tick from which the unit may use it again (R332) -/
  spent : List (Nat × Nat × Nat)
  /-- the port after the one each unit last used for bulk data -/
  rr : SMap Nat
  /-- packets addressed to the package itself, in order of sending (R326) -/
  loop : List Pkt
  descs : List Desc
  /-- number of the next descriptor -/
  nextDesc : Nat
  tests : List LaneTest
  /-- next lane of the interval test's pass, and the bar in which the pass began -/
  nextLane : Nat
  passBar : Option Nat
  /-- some pair of members was below 22 effective planes -/
  low : Bool
  /-- beat of the last PORT_STATE broadcast (R342) -/
  cast : Nat
  /-- per lane, the beat of its last uncorrectable codeword and how many it delivered in that beat (R318) -/
  bad : SMap (Nat × Nat)
  deriving DecidableEq, Repr

/-- The fabric after a package reset. -/
def Fab.init : Fab := ⟨[], [], [], [], [], [], [], [], [], [], [], [], 0, [], 0, none, false, 0, []⟩

/-- A role table (R94): GEN, EFF_BAR, NRANKS and the holder of each rank held. -/
structure RoleTab where
  gen : Nat
  eff : Nat
  nranks : Nat
  ranks : SMap Nat
  deriving DecidableEq, Repr

/-- No rank held: entries hold package id + 1. -/
def RoleTab.init : RoleTab := ⟨0, 0, 0, []⟩

/-- A pending role table and the request it completes, if any (R95, R370). -/
structure RolePend where
  tab : RoleTab
  req : Option Req
  deriving DecidableEq, Repr

end Sys2Proof.Machine
end

