-- ==== Sys2Proof/Machine/FigTypes.lean ====
section
/-! DEFINITION. Records of verified Figure images (R69, R70, R309). -/

namespace Sys2Proof.Machine

/-- A Set's stream in an image: its Set, offset and length in commands (R69). -/
structure Stream where
  set : Nat
  off : Nat
  len : Nat
  deriving DecidableEq, Repr

/-- A shape cell that an image names (R69). -/
structure CellDef where
  addr : Nat
  max : Nat
  kind : Nat
  deriving DecidableEq, Repr

/-- A verified image that a partition holds (R70): its header's fields, its streams and cells, the bar it becomes active
at, whether it is active, its prefetch schedule (R309) and the entry of it that goes next in the bar. -/
structure Image where
  part : Nat
  idx : Nat
  addr : Nat
  rank : Nat
  timed : Bool
  barLen : Nat
  mhz : Nat
  sets : Nat
  streams : List Stream
  cells : List CellDef
  eff : Nat
  active : Bool
  pref : Nat
  npf : Nat
  allow : Nat
  nextPf : Nat
  /-- SHA-384 that it was verified by (R468) -/
  digest : List Byte
  deriving DecidableEq, Repr

end Sys2Proof.Machine
end

