-- ==== Sys2Proof/Machine/Regs.lean ====
section
/-! DEFINITION. The register fields of every block, one `Fld` each, as the register maps of the chapters give them
(R10, R67, R103, R129, R180, R182, R211, R231, R283, R311, R312, R351, R352, R353, R386, R404, R428, R449, R473). -/

namespace Sys2Proof.Machine

/-- Access code of a register field (R10). -/
inductive Acc where
  | ro | rw | rwl | w1c | w1s | wo
  deriving DecidableEq, Repr

/-- One register field: block class (R40), offset of its register, lowest bit, width, access, reset value,
two repeat strides with their counts (0 where the register is not repeated), whether the block's instances share it,
and whether a write of it is a command of its own. -/
structure Fld where
  cls : Nat
  off : Nat
  lo : Nat
  wid : Nat
  acc : Acc
  rst : Nat
  s1 : Nat
  n1 : Nat
  s2 : Nat
  n2 : Nat
  shared : Bool
  own : Bool
  deriving DecidableEq, Repr

/-- One W1C flag with its event counter and the block's last-event stamp (R11). -/
structure EvFlag where
  flag : Fld
  cnt : Fld
  last : Option Fld
  deriving DecidableEq, Repr

namespace R


/-! ### TEMPO -/

/-- TEMPO_CTL.EN (R67). -/
def TEMPO_CTL_EN : Fld := ⟨0x3, 0x0, 0, 1, .rw, 0x0, 0, 0, 0, 0, false, true⟩
/-- TEMPO_CTL.PREF (R67). -/
def TEMPO_CTL_PREF : Fld := ⟨0x3, 0x0, 1, 1, .rw, 0x0, 0, 0, 0, 0, false, false⟩
/-- TEMPO_CTL.SWAP (R67). -/
def TEMPO_CTL_SWAP : Fld := ⟨0x3, 0x0, 2, 1, .wo, 0x0, 0, 0, 0, 0, false, true⟩
/-- TEMPO_PERIOD.HALF_US (R67). -/
def TEMPO_PERIOD_HALF_US : Fld := ⟨0x3, 0x8, 0, 8, .rw, 0x10, 0, 0, 0, 0, false, false⟩
/-- TEMPO_STATUS.SEL (R67). -/
def TEMPO_STATUS_SEL : Fld := ⟨0x3, 0x10, 0, 2, .ro, 0x0, 0, 0, 0, 0, false, false⟩
/-- TEMPO_STATUS.LOCKED (R67). -/
def TEMPO_STATUS_LOCKED : Fld := ⟨0x3, 0x10, 2, 1, .ro, 0x0, 0, 0, 0, 0, false, false⟩
/-- TEMPO_STATUS.COUNT_VALID (R67). -/
def TEMPO_STATUS_COUNT_VALID : Fld := ⟨0x3, 0x10, 3, 1, .ro, 0x0, 0, 0, 0, 0, false, false⟩
/-- TEMPO_STATUS.A_QUAL (R67). -/
def TEMPO_STATUS_A_QUAL : Fld := ⟨0x3, 0x10, 4, 1, .ro, 0x0, 0, 0, 0, 0, false, false⟩
/-- TEMPO_STATUS.B_QUAL (R67). -/
def TEMPO_STATUS_B_QUAL : Fld := ⟨0x3, 0x10, 5, 1, .ro, 0x0, 0, 0, 0, 0, false, false⟩
/-- TEMPO_STATUS.EXPIRED (R67). -/
def TEMPO_STATUS_EXPIRED : Fld := ⟨0x3, 0x10, 6, 1, .ro, 0x0, 0, 0, 0, 0, false, false⟩
/-- TEMPO_STATUS.HOLD_BEATS (R67). -/
def TEMPO_STATUS_HOLD_BEATS : Fld := ⟨0x3, 0x10, 16, 9, .ro, 0x0, 0, 0, 0, 0, false, false⟩
/-- TEMPO_STATUS.AB_SKEW (R67). -/
def TEMPO_STATUS_AB_SKEW : Fld := ⟨0x3, 0x10, 32, 8, .ro, 0x0, 0, 0, 0, 0, false, false⟩
/-- TEMPO_EVENTS.A_LOST (R67). -/
def TEMPO_EVENTS_A_LOST : Fld := ⟨0x3, 0x18, 0, 1, .w1c, 0x0, 0, 0, 0, 0, false, false⟩
/-- TEMPO_EVENTS.B_LOST (R67). -/
def TEMPO_EVENTS_B_LOST : Fld := ⟨0x3, 0x18, 1, 1, .w1c, 0x0, 0, 0, 0, 0, false, false⟩
/-- TEMPO_EVENTS.FAILOVER (R67). -/
def TEMPO_EVENTS_FAILOVER : Fld := ⟨0x3, 0x18, 2, 1, .w1c, 0x0, 0, 0, 0, 0, false, false⟩
/-- TEMPO_EVENTS.HOLDOVER (R67). -/
def TEMPO_EVENTS_HOLDOVER : Fld := ⟨0x3, 0x18, 3, 1, .w1c, 0x0, 0, 0, 0, 0, false, false⟩
/-- TEMPO_EVENTS.HOLD_EXPIRED (R67). -/
def TEMPO_EVENTS_HOLD_EXPIRED : Fld := ⟨0x3, 0x18, 4, 1, .w1c, 0x0, 0, 0, 0, 0, false, false⟩
/-- TEMPO_EVENTS.COUNT_FAULT (R67). -/
def TEMPO_EVENTS_COUNT_FAULT : Fld := ⟨0x3, 0x18, 5, 1, .w1c, 0x0, 0, 0, 0, 0, false, false⟩
/-- TEMPO_EVENTS.PERIOD_FAULT (R67). -/
def TEMPO_EVENTS_PERIOD_FAULT : Fld := ⟨0x3, 0x18, 6, 1, .w1c, 0x0, 0, 0, 0, 0, false, false⟩
/-- TEMPO_EVENTS.OVERRUN (R67). -/
def TEMPO_EVENTS_OVERRUN : Fld := ⟨0x3, 0x18, 7, 1, .w1c, 0x0, 0, 0, 0, 0, false, false⟩
/-- TEMPO_EVENTS.BARRIER_LATE (R67). -/
def TEMPO_EVENTS_BARRIER_LATE : Fld := ⟨0x3, 0x18, 8, 1, .w1c, 0x0, 0, 0, 0, 0, false, false⟩
/-- TEMPO_EVENTS.BARRIER_TMO (R67). -/
def TEMPO_EVENTS_BARRIER_TMO : Fld := ⟨0x3, 0x18, 9, 1, .w1c, 0x0, 0, 0, 0, 0, false, false⟩
/-- TEMPO_CNT_A.A_LOST_N (R67). -/
def TEMPO_CNT_A_A_LOST_N : Fld := ⟨0x3, 0x20, 0, 16, .ro, 0x0, 0, 0, 0, 0, false, false⟩
/-- TEMPO_CNT_A.B_LOST_N (R67). -/
def TEMPO_CNT_A_B_LOST_N : Fld := ⟨0x3, 0x20, 16, 16, .ro, 0x0, 0, 0, 0, 0, false, false⟩
/-- TEMPO_CNT_A.FAILOVER_N (R67). -/
def TEMPO_CNT_A_FAILOVER_N : Fld := ⟨0x3, 0x20, 32, 16, .ro, 0x0, 0, 0, 0, 0, false, false⟩
/-- TEMPO_CNT_A.HOLDOVER_N (R67). -/
def TEMPO_CNT_A_HOLDOVER_N : Fld := ⟨0x3, 0x20, 48, 16, .ro, 0x0, 0, 0, 0, 0, false, false⟩
/-- TEMPO_CNT_B.HOLD_EXPIRED_N (R67). -/
def TEMPO_CNT_B_HOLD_EXPIRED_N : Fld := ⟨0x3, 0x28, 0, 16, .ro, 0x0, 0, 0, 0, 0, false, false⟩
/-- TEMPO_CNT_B.COUNT_FAULT_N (R67). -/
def TEMPO_CNT_B_COUNT_FAULT_N : Fld := ⟨0x3, 0x28, 16, 16, .ro, 0x0, 0, 0, 0, 0, false, false⟩
/-- TEMPO_CNT_B.PERIOD_FAULT_N (R67). -/
def TEMPO_CNT_B_PERIOD_FAULT_N : Fld := ⟨0x3, 0x28, 32, 16, .ro, 0x0, 0, 0, 0, 0, false, false⟩
/-- TEMPO_CNT_B.OVERRUN_N (R67). -/
def TEMPO_CNT_B_OVERRUN_N : Fld := ⟨0x3, 0x28, 48, 16, .ro, 0x0, 0, 0, 0, 0, false, false⟩
/-- TEMPO_CNT_C.BARRIER_LATE_N (R67). -/
def TEMPO_CNT_C_BARRIER_LATE_N : Fld := ⟨0x3, 0x30, 0, 16, .ro, 0x0, 0, 0, 0, 0, false, false⟩
/-- TEMPO_CNT_C.BARRIER_TMO_N (R67). -/
def TEMPO_CNT_C_BARRIER_TMO_N : Fld := ⟨0x3, 0x30, 16, 16, .ro, 0x0, 0, 0, 0, 0, false, false⟩
/-- TEMPO_NOW.NOW (R67). -/
def TEMPO_NOW_NOW : Fld := ⟨0x3, 0x38, 0, 64, .ro, 0x0, 0, 0, 0, 0, false, false⟩
/-- TEMPO_BAR_CFG.BAR_LEN (R67). -/
def TEMPO_BAR_CFG_BAR_LEN : Fld := ⟨0x3, 0x40, 0, 16, .ro, 0x0, 0, 0, 0, 0, false, false⟩
/-- TEMPO_BAR_CFG.GUARD (R67). -/
def TEMPO_BAR_CFG_GUARD : Fld := ⟨0x3, 0x40, 16, 10, .rw, 0x180, 0, 0, 0, 0, false, false⟩
/-- TEMPO_BAR_CFG.TMO (R67). -/
def TEMPO_BAR_CFG_TMO : Fld := ⟨0x3, 0x40, 32, 8, .rw, 0x10, 0, 0, 0, 0, false, false⟩
/-- TEMPO_BAR_NUM.BAR (R67). -/
def TEMPO_BAR_NUM_BAR : Fld := ⟨0x3, 0x48, 0, 64, .ro, 0x0, 0, 0, 0, 0, false, false⟩
/-- TEMPO_BAR_START.START (R67). -/
def TEMPO_BAR_START_START : Fld := ⟨0x3, 0x50, 0, 64, .ro, 0x0, 0, 0, 0, 0, false, false⟩
/-- TEMPO_OVR_LAST.BEATS (R67). -/
def TEMPO_OVR_LAST_BEATS : Fld := ⟨0x3, 0x58, 0, 16, .ro, 0x0, 0, 0, 0, 0, false, false⟩
/-- TEMPO_OVR_LAST.LATE_PKG (R67). -/
def TEMPO_OVR_LAST_LATE_PKG : Fld := ⟨0x3, 0x58, 16, 12, .ro, 0x0, 0, 0, 0, 0, false, false⟩
/-- TEMPO_OVR_BAR.BAR (R67). -/
def TEMPO_OVR_BAR_BAR : Fld := ⟨0x3, 0x60, 0, 64, .ro, 0x0, 0, 0, 0, 0, false, false⟩
/-- TEMPO_BAR_MISS.LOW_PKG (R67). -/
def TEMPO_BAR_MISS_LOW_PKG : Fld := ⟨0x3, 0x68, 0, 12, .ro, 0x0, 0, 0, 0, 0, false, false⟩
/-- TEMPO_BAR_MISS.COUNT (R67). -/
def TEMPO_BAR_MISS_COUNT : Fld := ⟨0x3, 0x68, 16, 12, .ro, 0x0, 0, 0, 0, 0, false, false⟩

/-! ### SCHED -/

/-- SCHED_CTL.EN (R103). -/
def SCHED_CTL_EN : Fld := ⟨0x10, 0x0, 0, 1, .rw, 0x0, 0, 0, 0, 0, false, true⟩
/-- SCHED_CTL.KILL (R103). -/
def SCHED_CTL_KILL : Fld := ⟨0x10, 0x0, 1, 1, .wo, 0x0, 0, 0, 0, 0, false, true⟩
/-- SCHED_CTL.RESUME (R103). -/
def SCHED_CTL_RESUME : Fld := ⟨0x10, 0x0, 2, 1, .wo, 0x0, 0, 0, 0, 0, false, true⟩
/-- SCHED_CTL.LATE_LIM (R103). -/
def SCHED_CTL_LATE_LIM : Fld := ⟨0x10, 0x0, 8, 8, .rw, 0x10, 0, 0, 0, 0, false, false⟩
/-- SCHED_CTL.PART (R103). -/
def SCHED_CTL_PART : Fld := ⟨0x10, 0x0, 16, 4, .ro, 0x0, 0, 0, 0, 0, false, false⟩
/-- SCHED_STREAM.ADDR (R103). -/
def SCHED_STREAM_ADDR : Fld := ⟨0x10, 0x8, 0, 48, .ro, 0x0, 0, 0, 0, 0, false, false⟩
/-- SCHED_STREAM_LEN.LEN (R103). -/
def SCHED_STREAM_LEN_LEN : Fld := ⟨0x10, 0x10, 0, 18, .ro, 0x0, 0, 0, 0, 0, false, false⟩
/-- SCHED_STATUS.STATE (R103). -/
def SCHED_STATUS_STATE : Fld := ⟨0x10, 0x18, 0, 3, .ro, 0x0, 0, 0, 0, 0, false, false⟩
/-- SCHED_STATUS.POISON (R103). -/
def SCHED_STATUS_POISON : Fld := ⟨0x10, 0x18, 3, 1, .ro, 0x0, 0, 0, 0, 0, false, false⟩
/-- SCHED_STATUS.ISSUE_IDX (R103). -/
def SCHED_STATUS_ISSUE_IDX : Fld := ⟨0x10, 0x18, 8, 18, .ro, 0x0, 0, 0, 0, 0, false, false⟩
/-- SCHED_STATUS.COMMIT_IDX (R103). -/
def SCHED_STATUS_COMMIT_IDX : Fld := ⟨0x10, 0x18, 32, 18, .ro, 0x0, 0, 0, 0, 0, false, false⟩
/-- SCHED_STATUS.INFLIGHT (R103). -/
def SCHED_STATUS_INFLIGHT : Fld := ⟨0x10, 0x18, 56, 8, .ro, 0x0, 0, 0, 0, 0, false, false⟩
/-- SCHED_SB.SB (R103). -/
def SCHED_SB_SB : Fld := ⟨0x10, 0x20, 0, 64, .ro, 0x0, 0, 0, 0, 0, false, false⟩
/-- SCHED_EVENTS.ABORT (R103). -/
def SCHED_EVENTS_ABORT : Fld := ⟨0x10, 0x28, 0, 1, .w1c, 0x0, 0, 0, 0, 0, false, false⟩
/-- SCHED_EVENTS.RERUN_FAIL (R103). -/
def SCHED_EVENTS_RERUN_FAIL : Fld := ⟨0x10, 0x28, 1, 1, .w1c, 0x0, 0, 0, 0, 0, false, false⟩
/-- SCHED_EVENTS.LATE (R103). -/
def SCHED_EVENTS_LATE : Fld := ⟨0x10, 0x28, 2, 1, .w1c, 0x0, 0, 0, 0, 0, false, false⟩
/-- SCHED_EVENTS.MALFORMED (R103). -/
def SCHED_EVENTS_MALFORMED : Fld := ⟨0x10, 0x28, 3, 1, .w1c, 0x0, 0, 0, 0, 0, false, false⟩
/-- SCHED_EVENTS.SHAPE_BOUND (R103). -/
def SCHED_EVENTS_SHAPE_BOUND : Fld := ⟨0x10, 0x28, 4, 1, .w1c, 0x0, 0, 0, 0, 0, false, false⟩
/-- SCHED_EVENTS.SHAPE_STALE (R103). -/
def SCHED_EVENTS_SHAPE_STALE : Fld := ⟨0x10, 0x28, 5, 1, .w1c, 0x0, 0, 0, 0, 0, false, false⟩
/-- SCHED_EVENTS.ARR_TIMEOUT (R103). -/
def SCHED_EVENTS_ARR_TIMEOUT : Fld := ⟨0x10, 0x28, 6, 1, .w1c, 0x0, 0, 0, 0, 0, false, false⟩
/-- SCHED_EVENTS.ARR_STALE (R103). -/
def SCHED_EVENTS_ARR_STALE : Fld := ⟨0x10, 0x28, 7, 1, .w1c, 0x0, 0, 0, 0, 0, false, false⟩
/-- SCHED_EVENTS.ROLE_LATE (R103). -/
def SCHED_EVENTS_ROLE_LATE : Fld := ⟨0x10, 0x28, 8, 1, .w1c, 0x0, 0, 0, 0, 0, true, false⟩
/-- SCHED_EVENTS.ROLE_NOT_READY (R103). -/
def SCHED_EVENTS_ROLE_NOT_READY : Fld := ⟨0x10, 0x28, 9, 1, .w1c, 0x0, 0, 0, 0, 0, true, false⟩
/-- SCHED_CNT_A.ABORT_N (R103). -/
def SCHED_CNT_A_ABORT_N : Fld := ⟨0x10, 0x30, 0, 16, .ro, 0x0, 0, 0, 0, 0, false, false⟩
/-- SCHED_CNT_A.RERUN_FAIL_N (R103). -/
def SCHED_CNT_A_RERUN_FAIL_N : Fld := ⟨0x10, 0x30, 16, 16, .ro, 0x0, 0, 0, 0, 0, false, false⟩
/-- SCHED_CNT_A.LATE_N (R103). -/
def SCHED_CNT_A_LATE_N : Fld := ⟨0x10, 0x30, 32, 16, .ro, 0x0, 0, 0, 0, 0, false, false⟩
/-- SCHED_CNT_A.MALFORMED_N (R103). -/
def SCHED_CNT_A_MALFORMED_N : Fld := ⟨0x10, 0x30, 48, 16, .ro, 0x0, 0, 0, 0, 0, false, false⟩
/-- SCHED_CNT_B.SHAPE_BOUND_N (R103). -/
def SCHED_CNT_B_SHAPE_BOUND_N : Fld := ⟨0x10, 0x38, 0, 16, .ro, 0x0, 0, 0, 0, 0, false, false⟩
/-- SCHED_CNT_B.SHAPE_STALE_N (R103). -/
def SCHED_CNT_B_SHAPE_STALE_N : Fld := ⟨0x10, 0x38, 16, 16, .ro, 0x0, 0, 0, 0, 0, false, false⟩
/-- SCHED_CNT_B.ARR_TIMEOUT_N (R103). -/
def SCHED_CNT_B_ARR_TIMEOUT_N : Fld := ⟨0x10, 0x38, 32, 16, .ro, 0x0, 0, 0, 0, 0, false, false⟩
/-- SCHED_CNT_B.ARR_STALE_N (R103). -/
def SCHED_CNT_B_ARR_STALE_N : Fld := ⟨0x10, 0x38, 48, 16, .ro, 0x0, 0, 0, 0, 0, false, false⟩
/-- SCHED_CNT_C.ROLE_LATE_N (R103). -/
def SCHED_CNT_C_ROLE_LATE_N : Fld := ⟨0x10, 0x40, 0, 16, .ro, 0x0, 0, 0, 0, 0, true, false⟩
/-- SCHED_CNT_C.ROLE_NOT_READY_N (R103). -/
def SCHED_CNT_C_ROLE_NOT_READY_N : Fld := ⟨0x10, 0x40, 16, 16, .ro, 0x0, 0, 0, 0, 0, true, false⟩
/-- SCHED_LATE_MAX.LAST (R103). -/
def SCHED_LATE_MAX_LAST : Fld := ⟨0x10, 0x48, 0, 16, .ro, 0x0, 0, 0, 0, 0, false, false⟩
/-- SCHED_LATE_MAX.EVER (R103). -/
def SCHED_LATE_MAX_EVER : Fld := ⟨0x10, 0x48, 16, 16, .ro, 0x0, 0, 0, 0, 0, false, false⟩
/-- SCHED_SLACK.TICKS (R103). -/
def SCHED_SLACK_TICKS : Fld := ⟨0x10, 0x50, 0, 32, .ro, 0x0, 0, 0, 0, 0, false, false⟩
/-- SCHED_DONE_STAMP.STAMP (R103). -/
def SCHED_DONE_STAMP_STAMP : Fld := ⟨0x10, 0x58, 0, 64, .ro, 0x0, 0, 0, 0, 0, false, false⟩
/-- SCHED_ROLE_GEN.GEN (R103). -/
def SCHED_ROLE_GEN_GEN : Fld := ⟨0x10, 0x60, 0, 64, .ro, 0x0, 0, 0, 0, 0, true, false⟩
/-- SCHED_ROLE_EFF.EFF_BAR (R103). -/
def SCHED_ROLE_EFF_EFF_BAR : Fld := ⟨0x10, 0x68, 0, 64, .ro, 0x0, 0, 0, 0, 0, true, false⟩
/-- SCHED_RANK.RANK (R103). -/
def SCHED_RANK_RANK : Fld := ⟨0x10, 0x70, 0, 12, .ro, 0x0, 0, 0, 0, 0, true, false⟩
/-- SCHED_RANK.HAS_ROLE (R103). -/
def SCHED_RANK_HAS_ROLE : Fld := ⟨0x10, 0x70, 12, 1, .ro, 0x0, 0, 0, 0, 0, true, false⟩
/-- SCHED_IMG.BUDGET_MHZ (R103). -/
def SCHED_IMG_BUDGET_MHZ : Fld := ⟨0x10, 0x78, 0, 16, .ro, 0x0, 0, 0, 0, 0, true, false⟩
/-- SCHED_IMG.TIMED (R103). -/
def SCHED_IMG_TIMED : Fld := ⟨0x10, 0x78, 16, 1, .ro, 0x0, 0, 0, 0, 0, false, false⟩
/-- SCHED_ARR.COUNT (R103). -/
def SCHED_ARR_COUNT : Fld := ⟨0x10, 0x100, 0, 32, .ro, 0x0, 8, 32, 0, 0, false, false⟩
/-- SCHED_SHAPE.VALUE (R103). -/
def SCHED_SHAPE_VALUE : Fld := ⟨0x10, 0x200, 0, 32, .ro, 0x0, 8, 8, 0, 0, false, false⟩
/-- SCHED_SHAPE.MAX (R103). -/
def SCHED_SHAPE_MAX : Fld := ⟨0x10, 0x200, 32, 32, .ro, 0x0, 8, 8, 0, 0, false, false⟩

/-! ### TILE -/

/-- TILE_CFG.RAMP (R129). -/
def TILE_CFG_RAMP : Fld := ⟨0x11, 0x0, 0, 8, .rwl, 0x30, 0, 0, 0, 0, false, false⟩
/-- TILE_STATUS.ARRAY_BUSY (R129). -/
def TILE_STATUS_ARRAY_BUSY : Fld := ⟨0x11, 0x8, 0, 1, .ro, 0x0, 0, 0, 0, 0, false, false⟩
/-- TILE_STATUS.VEC_BUSY (R129). -/
def TILE_STATUS_VEC_BUSY : Fld := ⟨0x11, 0x8, 1, 1, .ro, 0x0, 0, 0, 0, 0, false, false⟩
/-- TILE_STATUS.ROT_BUSY (R129). -/
def TILE_STATUS_ROT_BUSY : Fld := ⟨0x11, 0x8, 2, 1, .ro, 0x0, 0, 0, 0, 0, false, false⟩
/-- TILE_STATUS.HANDOFF_BUSY (R129). -/
def TILE_STATUS_HANDOFF_BUSY : Fld := ⟨0x11, 0x8, 3, 1, .ro, 0x0, 0, 0, 0, 0, false, false⟩
/-- TILE_STATUS.CHAINED (R129). -/
def TILE_STATUS_CHAINED : Fld := ⟨0x11, 0x8, 4, 1, .ro, 0x0, 0, 0, 0, 0, false, false⟩
/-- TILE_STATUS.PHYS (R129). -/
def TILE_STATUS_PHYS : Fld := ⟨0x11, 0x8, 16, 10, .ro, 0x0, 0, 0, 0, 0, false, false⟩
/-- TILE_EVENTS.WINDOW (R129). -/
def TILE_EVENTS_WINDOW : Fld := ⟨0x11, 0x10, 0, 1, .w1c, 0x0, 0, 0, 0, 0, false, false⟩
/-- TILE_EVENTS.ANCHOR (R129). -/
def TILE_EVENTS_ANCHOR : Fld := ⟨0x11, 0x10, 1, 1, .w1c, 0x0, 0, 0, 0, 0, false, false⟩
/-- TILE_EVENTS.LS_INVALID (R129). -/
def TILE_EVENTS_LS_INVALID : Fld := ⟨0x11, 0x10, 2, 1, .w1c, 0x0, 0, 0, 0, 0, false, false⟩
/-- TILE_EVENTS.POISON_IN (R129). -/
def TILE_EVENTS_POISON_IN : Fld := ⟨0x11, 0x10, 3, 1, .w1c, 0x0, 0, 0, 0, 0, false, false⟩
/-- TILE_EVENTS.ROUND_OVF (R129). -/
def TILE_EVENTS_ROUND_OVF : Fld := ⟨0x11, 0x10, 4, 1, .w1c, 0x0, 0, 0, 0, 0, false, false⟩
/-- TILE_EVENTS.ECC_CORR (R129). -/
def TILE_EVENTS_ECC_CORR : Fld := ⟨0x11, 0x10, 5, 1, .w1c, 0x0, 0, 0, 0, 0, false, false⟩
/-- TILE_EVENTS.ECC_UNCORR (R129). -/
def TILE_EVENTS_ECC_UNCORR : Fld := ⟨0x11, 0x10, 6, 1, .w1c, 0x0, 0, 0, 0, 0, false, false⟩
/-- TILE_CNT_A.WINDOW_N (R129). -/
def TILE_CNT_A_WINDOW_N : Fld := ⟨0x11, 0x18, 0, 16, .ro, 0x0, 0, 0, 0, 0, false, false⟩
/-- TILE_CNT_A.ANCHOR_N (R129). -/
def TILE_CNT_A_ANCHOR_N : Fld := ⟨0x11, 0x18, 16, 16, .ro, 0x0, 0, 0, 0, 0, false, false⟩
/-- TILE_CNT_A.LS_INVALID_N (R129). -/
def TILE_CNT_A_LS_INVALID_N : Fld := ⟨0x11, 0x18, 32, 16, .ro, 0x0, 0, 0, 0, 0, false, false⟩
/-- TILE_CNT_A.POISON_IN_N (R129). -/
def TILE_CNT_A_POISON_IN_N : Fld := ⟨0x11, 0x18, 48, 16, .ro, 0x0, 0, 0, 0, 0, false, false⟩
/-- TILE_CNT_B.ROUND_OVF_N (R129). -/
def TILE_CNT_B_ROUND_OVF_N : Fld := ⟨0x11, 0x20, 0, 16, .ro, 0x0, 0, 0, 0, 0, false, false⟩
/-- TILE_CNT_B.ECC_CORR_N (R129). -/
def TILE_CNT_B_ECC_CORR_N : Fld := ⟨0x11, 0x20, 16, 16, .ro, 0x0, 0, 0, 0, 0, false, false⟩
/-- TILE_CNT_B.ECC_UNCORR_N (R129). -/
def TILE_CNT_B_ECC_UNCORR_N : Fld := ⟨0x11, 0x20, 32, 16, .ro, 0x0, 0, 0, 0, 0, false, false⟩
/-- TILE_PASS_CNT.PASSES (R129). -/
def TILE_PASS_CNT_PASSES : Fld := ⟨0x11, 0x28, 0, 48, .ro, 0x0, 0, 0, 0, 0, false, false⟩
/-- TILE_ROW_CNT.ROWS (R129). -/
def TILE_ROW_CNT_ROWS : Fld := ⟨0x11, 0x30, 0, 64, .ro, 0x0, 0, 0, 0, 0, false, false⟩
/-- TILE_ACT_CYC.ACTIVE (R129). -/
def TILE_ACT_CYC_ACTIVE : Fld := ⟨0x11, 0x38, 0, 64, .ro, 0x0, 0, 0, 0, 0, false, false⟩
/-- TILE_RAMP_CYC.RAMPS (R129). -/
def TILE_RAMP_CYC_RAMPS : Fld := ⟨0x11, 0x40, 0, 64, .ro, 0x0, 0, 0, 0, 0, false, false⟩
/-- TILE_VEC_CYC.VEC (R129). -/
def TILE_VEC_CYC_VEC : Fld := ⟨0x11, 0x48, 0, 64, .ro, 0x0, 0, 0, 0, 0, false, false⟩
/-- TILE_LAST_EVENT.STAMP (R129). -/
def TILE_LAST_EVENT_STAMP : Fld := ⟨0x11, 0x50, 0, 64, .ro, 0x0, 0, 0, 0, 0, false, false⟩

/-! ### EXPAND -/

/-- EXPAND_EVENTS.CRC_FAIL (R180). -/
def EXPAND_EVENTS_CRC_FAIL : Fld := ⟨0x12, 0x0, 0, 1, .w1c, 0x0, 0, 0, 0, 0, false, false⟩
/-- EXPAND_EVENTS.OBJ_MISMATCH (R180). -/
def EXPAND_EVENTS_OBJ_MISMATCH : Fld := ⟨0x12, 0x0, 1, 1, .w1c, 0x0, 0, 0, 0, 0, false, false⟩
/-- EXPAND_EVENTS.FMT_OVER (R180). -/
def EXPAND_EVENTS_FMT_OVER : Fld := ⟨0x12, 0x0, 2, 1, .w1c, 0x0, 0, 0, 0, 0, false, false⟩
/-- EXPAND_EVENTS.FMT_UNDER (R180). -/
def EXPAND_EVENTS_FMT_UNDER : Fld := ⟨0x12, 0x0, 3, 1, .w1c, 0x0, 0, 0, 0, 0, false, false⟩
/-- EXPAND_EVENTS.FMT_CODE (R180). -/
def EXPAND_EVENTS_FMT_CODE : Fld := ⟨0x12, 0x0, 4, 1, .w1c, 0x0, 0, 0, 0, 0, false, false⟩
/-- EXPAND_EVENTS.FMT_MISMATCH (R180). -/
def EXPAND_EVENTS_FMT_MISMATCH : Fld := ⟨0x12, 0x0, 5, 1, .w1c, 0x0, 0, 0, 0, 0, false, false⟩
/-- EXPAND_EVENTS.REFETCH (R180). -/
def EXPAND_EVENTS_REFETCH : Fld := ⟨0x12, 0x0, 6, 1, .w1c, 0x0, 0, 0, 0, 0, false, false⟩
/-- EXPAND_EVENTS.NV_REPAIR (R180). -/
def EXPAND_EVENTS_NV_REPAIR : Fld := ⟨0x12, 0x0, 7, 1, .w1c, 0x0, 0, 0, 0, 0, false, false⟩
/-- EXPAND_EVENTS.REPAIR_FAIL (R180). -/
def EXPAND_EVENTS_REPAIR_FAIL : Fld := ⟨0x12, 0x0, 8, 1, .w1c, 0x0, 0, 0, 0, 0, false, false⟩
/-- EXPAND_CNT_A.CRC_FAIL_N (R180). -/
def EXPAND_CNT_A_CRC_FAIL_N : Fld := ⟨0x12, 0x8, 0, 16, .ro, 0x0, 0, 0, 0, 0, false, false⟩
/-- EXPAND_CNT_A.OBJ_MISMATCH_N (R180). -/
def EXPAND_CNT_A_OBJ_MISMATCH_N : Fld := ⟨0x12, 0x8, 16, 16, .ro, 0x0, 0, 0, 0, 0, false, false⟩
/-- EXPAND_CNT_A.FMT_OVER_N (R180). -/
def EXPAND_CNT_A_FMT_OVER_N : Fld := ⟨0x12, 0x8, 32, 16, .ro, 0x0, 0, 0, 0, 0, false, false⟩
/-- EXPAND_CNT_A.FMT_UNDER_N (R180). -/
def EXPAND_CNT_A_FMT_UNDER_N : Fld := ⟨0x12, 0x8, 48, 16, .ro, 0x0, 0, 0, 0, 0, false, false⟩
/-- EXPAND_CNT_B.FMT_CODE_N (R180). -/
def EXPAND_CNT_B_FMT_CODE_N : Fld := ⟨0x12, 0x10, 0, 16, .ro, 0x0, 0, 0, 0, 0, false, false⟩
/-- EXPAND_CNT_B.FMT_MISMATCH_N (R180). -/
def EXPAND_CNT_B_FMT_MISMATCH_N : Fld := ⟨0x12, 0x10, 16, 16, .ro, 0x0, 0, 0, 0, 0, false, false⟩
/-- EXPAND_CNT_B.REFETCH_N (R180). -/
def EXPAND_CNT_B_REFETCH_N : Fld := ⟨0x12, 0x10, 32, 16, .ro, 0x0, 0, 0, 0, 0, false, false⟩
/-- EXPAND_CNT_B.NV_REPAIR_N (R180). -/
def EXPAND_CNT_B_NV_REPAIR_N : Fld := ⟨0x12, 0x10, 48, 16, .ro, 0x0, 0, 0, 0, 0, false, false⟩
/-- EXPAND_CNT_C.REPAIR_FAIL_N (R180). -/
def EXPAND_CNT_C_REPAIR_FAIL_N : Fld := ⟨0x12, 0x18, 0, 16, .ro, 0x0, 0, 0, 0, 0, false, false⟩
/-- EXPAND_FAULT_SRC.SRC (R180). -/
def EXPAND_FAULT_SRC_SRC : Fld := ⟨0x12, 0x20, 0, 48, .ro, 0x0, 0, 0, 0, 0, false, false⟩
/-- EXPAND_FAULT_INFO.SP_OFF (R180). -/
def EXPAND_FAULT_INFO_SP_OFF : Fld := ⟨0x12, 0x28, 0, 21, .ro, 0x0, 0, 0, 0, 0, false, false⟩
/-- EXPAND_FAULT_INFO.CAUSE (R180). -/
def EXPAND_FAULT_INFO_CAUSE : Fld := ⟨0x12, 0x28, 24, 4, .ro, 0x0, 0, 0, 0, 0, false, false⟩
/-- EXPAND_FAULT_INFO.GROUP (R180). -/
def EXPAND_FAULT_INFO_GROUP : Fld := ⟨0x12, 0x28, 32, 16, .ro, 0x0, 0, 0, 0, 0, false, false⟩
/-- EXPAND_FAULT_STAMP.STAMP (R180). -/
def EXPAND_FAULT_STAMP_STAMP : Fld := ⟨0x12, 0x30, 0, 64, .ro, 0x0, 0, 0, 0, 0, false, false⟩
/-- EXPAND_OBJ_CNT.OBJECTS (R180). -/
def EXPAND_OBJ_CNT_OBJECTS : Fld := ⟨0x12, 0x38, 0, 48, .ro, 0x0, 0, 0, 0, 0, false, false⟩
/-- EXPAND_BLK_CODED.CODED (R180). -/
def EXPAND_BLK_CODED_CODED : Fld := ⟨0x12, 0x40, 0, 64, .ro, 0x0, 0, 0, 0, 0, false, false⟩
/-- EXPAND_BLK_RAW.RAW (R180). -/
def EXPAND_BLK_RAW_RAW : Fld := ⟨0x12, 0x48, 0, 64, .ro, 0x0, 0, 0, 0, 0, false, false⟩
/-- EXPAND_BYTES.BYTES (R180). -/
def EXPAND_BYTES_BYTES : Fld := ⟨0x12, 0x50, 0, 64, .ro, 0x0, 0, 0, 0, 0, false, false⟩

/-! ### CHECK -/

/-- CHECK_EVENTS.HDR_PARTIAL (R182). -/
def CHECK_EVENTS_HDR_PARTIAL : Fld := ⟨0x13, 0x0, 0, 1, .w1c, 0x0, 0, 0, 0, 0, false, false⟩
/-- CHECK_EVENTS.GEN_FAULT (R182). -/
def CHECK_EVENTS_GEN_FAULT : Fld := ⟨0x13, 0x0, 1, 1, .w1c, 0x0, 0, 0, 0, 0, false, false⟩
/-- CHECK_EVENTS.WIN_BAD (R182). -/
def CHECK_EVENTS_WIN_BAD : Fld := ⟨0x13, 0x0, 2, 1, .w1c, 0x0, 0, 0, 0, 0, false, false⟩
/-- CHECK_CNT.HDR_PARTIAL_N (R182). -/
def CHECK_CNT_HDR_PARTIAL_N : Fld := ⟨0x13, 0x8, 0, 16, .ro, 0x0, 0, 0, 0, 0, false, false⟩
/-- CHECK_CNT.GEN_FAULT_N (R182). -/
def CHECK_CNT_GEN_FAULT_N : Fld := ⟨0x13, 0x8, 16, 16, .ro, 0x0, 0, 0, 0, 0, false, false⟩
/-- CHECK_CNT.WIN_BAD_N (R182). -/
def CHECK_CNT_WIN_BAD_N : Fld := ⟨0x13, 0x8, 32, 16, .ro, 0x0, 0, 0, 0, 0, false, false⟩
/-- CHECK_CREATE_CNT.CREATES (R182). -/
def CHECK_CREATE_CNT_CREATES : Fld := ⟨0x13, 0x10, 0, 64, .ro, 0x0, 0, 0, 0, 0, false, false⟩
/-- CHECK_UPDATE_CNT.UPDATES (R182). -/
def CHECK_UPDATE_CNT_UPDATES : Fld := ⟨0x13, 0x18, 0, 64, .ro, 0x0, 0, 0, 0, 0, false, false⟩
/-- CHECK_LAST_EVENT.STAMP (R182). -/
def CHECK_LAST_EVENT_STAMP : Fld := ⟨0x13, 0x20, 0, 64, .ro, 0x0, 0, 0, 0, 0, false, false⟩
/-- CHECK_WIN_BASE.BASE (R182). -/
def CHECK_WIN_BASE_BASE : Fld := ⟨0x13, 0x100, 0, 48, .rwl, 0x0, 32, 16, 0, 0, true, false⟩
/-- CHECK_WIN_BASE.EN (R182). -/
def CHECK_WIN_BASE_EN : Fld := ⟨0x13, 0x100, 63, 1, .rwl, 0x0, 32, 16, 0, 0, true, true⟩
/-- CHECK_WIN_LIMIT.LIMIT (R182). -/
def CHECK_WIN_LIMIT_LIMIT : Fld := ⟨0x13, 0x108, 0, 48, .rwl, 0x0, 32, 16, 0, 0, true, false⟩
/-- CHECK_WIN_SLOT.SLOT (R182). -/
def CHECK_WIN_SLOT_SLOT : Fld := ⟨0x13, 0x110, 0, 32, .rwl, 0x0, 32, 16, 0, 0, true, false⟩
/-- CHECK_WIN_SLOT.PART (R182). -/
def CHECK_WIN_SLOT_PART : Fld := ⟨0x13, 0x110, 32, 4, .rwl, 0x0, 32, 16, 0, 0, true, false⟩

/-! ### CALLER -/

/-- CALLER_CTL.EN (R211). -/
def CALLER_CTL_EN : Fld := ⟨0x40, 0x0, 0, 1, .rwl, 0x0, 0, 0, 0, 0, true, false⟩
/-- CALLER_CTL.SWITCH (R211). -/
def CALLER_CTL_SWITCH : Fld := ⟨0x40, 0x0, 1, 1, .wo, 0x0, 0, 0, 0, 0, true, true⟩
/-- CALLER_STATUS.ACTIVE (R211). -/
def CALLER_STATUS_ACTIVE : Fld := ⟨0x40, 0x8, 0, 1, .ro, 0x0, 0, 0, 0, 0, false, false⟩
/-- CALLER_STATUS.SYNCED (R211). -/
def CALLER_STATUS_SYNCED : Fld := ⟨0x40, 0x8, 1, 1, .ro, 0x0, 0, 0, 0, 0, false, false⟩
/-- CALLER_STATUS.LIVE (R211). -/
def CALLER_STATUS_LIVE : Fld := ⟨0x40, 0x8, 4, 19, .ro, 0x0, 0, 0, 0, 0, false, false⟩
/-- CALLER_TABLE_BASE.BASE (R211). -/
def CALLER_TABLE_BASE_BASE : Fld := ⟨0x40, 0x10, 0, 48, .rwl, 0x0, 0, 0, 0, 0, true, false⟩
/-- CALLER_HIST_BASE.BASE (R211). -/
def CALLER_HIST_BASE_BASE : Fld := ⟨0x40, 0x18, 0, 48, .rwl, 0x0, 0, 0, 0, 0, true, false⟩
/-- CALLER_HIST_SIZE.SIZE (R211). -/
def CALLER_HIST_SIZE_SIZE : Fld := ⟨0x40, 0x20, 0, 48, .rwl, 0x0, 0, 0, 0, 0, true, false⟩
/-- CALLER_JOURNAL.KEY (R211). -/
def CALLER_JOURNAL_KEY : Fld := ⟨0x40, 0x28, 0, 16, .rwl, 0x0, 0, 0, 0, 0, true, false⟩
/-- CALLER_JOURNAL.OFF (R211). -/
def CALLER_JOURNAL_OFF : Fld := ⟨0x40, 0x28, 16, 12, .rwl, 0x1, 0, 0, 0, 0, true, false⟩
/-- CALLER_JOURNAL.PART (R211). -/
def CALLER_JOURNAL_PART : Fld := ⟨0x40, 0x28, 28, 4, .rwl, 0x0, 0, 0, 0, 0, true, false⟩
/-- CALLER_JOURNAL.EN (R211). -/
def CALLER_JOURNAL_EN : Fld := ⟨0x40, 0x28, 32, 1, .rwl, 0x0, 0, 0, 0, 0, true, false⟩
/-- CALLER_JOURNAL.TMO (R211). -/
def CALLER_JOURNAL_TMO : Fld := ⟨0x40, 0x28, 40, 8, .rw, 0x4, 0, 0, 0, 0, true, false⟩
/-- CALLER_JOURNAL_OFFSET.OFFSET (R211). -/
def CALLER_JOURNAL_OFFSET_OFFSET : Fld := ⟨0x40, 0x30, 0, 40, .rwl, 0x0, 0, 0, 0, 0, true, false⟩
/-- CALLER_WL_CFG.CUT (R211). -/
def CALLER_WL_CFG_CUT : Fld := ⟨0x40, 0x38, 0, 8, .rwl, 0x40, 0, 0, 0, 0, true, false⟩
/-- CALLER_WL_CFG.HARVEST (R211). -/
def CALLER_WL_CFG_HARVEST : Fld := ⟨0x40, 0x38, 8, 8, .ro, 0x20, 0, 0, 0, 0, true, false⟩
/-- CALLER_EVENTS.PLAN_LATE (R211). -/
def CALLER_EVENTS_PLAN_LATE : Fld := ⟨0x40, 0x40, 0, 1, .w1c, 0x0, 0, 0, 0, 0, true, false⟩
/-- CALLER_EVENTS.MISMATCH (R211). -/
def CALLER_EVENTS_MISMATCH : Fld := ⟨0x40, 0x40, 1, 1, .w1c, 0x0, 0, 0, 0, 0, true, false⟩
/-- CALLER_EVENTS.ENTRY_CRC (R211). -/
def CALLER_EVENTS_ENTRY_CRC : Fld := ⟨0x40, 0x40, 2, 1, .w1c, 0x0, 0, 0, 0, 0, true, false⟩
/-- CALLER_EVENTS.JOURNAL_LOST (R211). -/
def CALLER_EVENTS_JOURNAL_LOST : Fld := ⟨0x40, 0x40, 3, 1, .w1c, 0x0, 0, 0, 0, 0, true, false⟩
/-- CALLER_EVENTS.PROMISE_SLIP (R211). -/
def CALLER_EVENTS_PROMISE_SLIP : Fld := ⟨0x40, 0x40, 4, 1, .w1c, 0x0, 0, 0, 0, 0, true, false⟩
/-- CALLER_EVENTS.EXPIRED (R211). -/
def CALLER_EVENTS_EXPIRED : Fld := ⟨0x40, 0x40, 5, 1, .w1c, 0x0, 0, 0, 0, 0, true, false⟩
/-- CALLER_EVENTS.SHAPE_BOUND (R211). -/
def CALLER_EVENTS_SHAPE_BOUND : Fld := ⟨0x40, 0x40, 6, 1, .w1c, 0x0, 0, 0, 0, 0, true, false⟩
/-- CALLER_EVENTS.HARVEST_LATE (R211). -/
def CALLER_EVENTS_HARVEST_LATE : Fld := ⟨0x40, 0x40, 7, 1, .w1c, 0x0, 0, 0, 0, 0, true, false⟩
/-- CALLER_EVENTS.SWITCHED (R211). -/
def CALLER_EVENTS_SWITCHED : Fld := ⟨0x40, 0x40, 8, 1, .w1c, 0x0, 0, 0, 0, 0, true, false⟩
/-- CALLER_CNT_A.PLAN_LATE_N (R211). -/
def CALLER_CNT_A_PLAN_LATE_N : Fld := ⟨0x40, 0x48, 0, 16, .ro, 0x0, 0, 0, 0, 0, true, false⟩
/-- CALLER_CNT_A.MISMATCH_N (R211). -/
def CALLER_CNT_A_MISMATCH_N : Fld := ⟨0x40, 0x48, 16, 16, .ro, 0x0, 0, 0, 0, 0, true, false⟩
/-- CALLER_CNT_A.ENTRY_CRC_N (R211). -/
def CALLER_CNT_A_ENTRY_CRC_N : Fld := ⟨0x40, 0x48, 32, 16, .ro, 0x0, 0, 0, 0, 0, true, false⟩
/-- CALLER_CNT_A.JOURNAL_LOST_N (R211). -/
def CALLER_CNT_A_JOURNAL_LOST_N : Fld := ⟨0x40, 0x48, 48, 16, .ro, 0x0, 0, 0, 0, 0, true, false⟩
/-- CALLER_CNT_B.PROMISE_SLIP_N (R211). -/
def CALLER_CNT_B_PROMISE_SLIP_N : Fld := ⟨0x40, 0x50, 0, 16, .ro, 0x0, 0, 0, 0, 0, true, false⟩
/-- CALLER_CNT_B.EXPIRED_N (R211). -/
def CALLER_CNT_B_EXPIRED_N : Fld := ⟨0x40, 0x50, 16, 16, .ro, 0x0, 0, 0, 0, 0, true, false⟩
/-- CALLER_CNT_B.SHAPE_BOUND_N (R211). -/
def CALLER_CNT_B_SHAPE_BOUND_N : Fld := ⟨0x40, 0x50, 32, 16, .ro, 0x0, 0, 0, 0, 0, true, false⟩
/-- CALLER_CNT_B.HARVEST_LATE_N (R211). -/
def CALLER_CNT_B_HARVEST_LATE_N : Fld := ⟨0x40, 0x50, 48, 16, .ro, 0x0, 0, 0, 0, 0, true, false⟩
/-- CALLER_CNT_C.SWITCHED_N (R211). -/
def CALLER_CNT_C_SWITCHED_N : Fld := ⟨0x40, 0x58, 0, 16, .ro, 0x0, 0, 0, 0, 0, true, false⟩
/-- CALLER_LAST_EVENT.STAMP (R211). -/
def CALLER_LAST_EVENT_STAMP : Fld := ⟨0x40, 0x60, 0, 64, .ro, 0x0, 0, 0, 0, 0, true, false⟩
/-- CALLER_PLAN_BAR.BAR (R211). -/
def CALLER_PLAN_BAR_BAR : Fld := ⟨0x40, 0x68, 0, 64, .ro, 0x0, 0, 0, 0, 0, true, false⟩
/-- CALLER_HARVEST_BAR.BAR (R211). -/
def CALLER_HARVEST_BAR_BAR : Fld := ⟨0x40, 0x70, 0, 64, .ro, 0x0, 0, 0, 0, 0, true, false⟩
/-- CALLER_DISCARD.DISCARDED (R211). -/
def CALLER_DISCARD_DISCARDED : Fld := ⟨0x40, 0x78, 0, 64, .ro, 0x0, 0, 0, 0, 0, true, false⟩
/-- CALLER_ADMIT_CTL.SEQ_CAP (R211). -/
def CALLER_ADMIT_CTL_SEQ_CAP : Fld := ⟨0x40, 0x100, 0, 13, .rwl, 0x0, 64, 16, 0, 0, true, false⟩
/-- CALLER_ADMIT_CTL.TOK_CAP (R211). -/
def CALLER_ADMIT_CTL_TOK_CAP : Fld := ⟨0x40, 0x100, 13, 15, .rwl, 0x0, 64, 16, 0, 0, true, false⟩
/-- CALLER_ADMIT_CTL.PF_CHUNK (R211). -/
def CALLER_ADMIT_CTL_PF_CHUNK : Fld := ⟨0x40, 0x100, 28, 13, .rwl, 0x200, 64, 16, 0, 0, true, false⟩
/-- CALLER_ADMIT_CTL.OPEN (R211). -/
def CALLER_ADMIT_CTL_OPEN : Fld := ⟨0x40, 0x100, 41, 1, .rw, 0x0, 64, 16, 0, 0, true, true⟩
/-- CALLER_PART_DRES.DRES (R211). -/
def CALLER_PART_DRES_DRES : Fld := ⟨0x40, 0x108, 0, 16, .rwl, 0x0, 64, 16, 0, 0, true, false⟩
/-- CALLER_PART_DRES.ENTRY_CAP (R211). -/
def CALLER_PART_DRES_ENTRY_CAP : Fld := ⟨0x40, 0x108, 16, 19, .rwl, 0x0, 64, 16, 0, 0, true, false⟩
/-- CALLER_PART_KV.RETAIN (R211). -/
def CALLER_PART_KV_RETAIN : Fld := ⟨0x40, 0x110, 0, 24, .rwl, 0x1000, 64, 16, 0, 0, true, false⟩
/-- CALLER_PART_KV.KV_CAP (R211). -/
def CALLER_PART_KV_KV_CAP : Fld := ⟨0x40, 0x110, 32, 25, .rwl, 0x0, 64, 16, 0, 0, true, false⟩
/-- CALLER_PART_CELLS.CELL_BASE (R211). -/
def CALLER_PART_CELLS_CELL_BASE : Fld := ⟨0x40, 0x118, 0, 48, .rwl, 0x0, 64, 16, 0, 0, true, false⟩
/-- CALLER_PART_WL.WL_BASE (R211). -/
def CALLER_PART_WL_WL_BASE : Fld := ⟨0x40, 0x120, 0, 48, .rwl, 0x0, 64, 16, 0, 0, true, false⟩
/-- CALLER_PART_USE.SEQ_NEXT (R211). -/
def CALLER_PART_USE_SEQ_NEXT : Fld := ⟨0x40, 0x128, 0, 13, .ro, 0x0, 64, 16, 0, 0, true, false⟩
/-- CALLER_PART_USE.TOK_NEXT (R211). -/
def CALLER_PART_USE_TOK_NEXT : Fld := ⟨0x40, 0x128, 13, 15, .ro, 0x0, 64, 16, 0, 0, true, false⟩
/-- CALLER_PART_USE.LIVE (R211). -/
def CALLER_PART_USE_LIVE : Fld := ⟨0x40, 0x128, 28, 19, .ro, 0x0, 64, 16, 0, 0, true, false⟩
/-- CALLER_PART_KVUSE.KV_USED (R211). -/
def CALLER_PART_KVUSE_KV_USED : Fld := ⟨0x40, 0x130, 0, 25, .ro, 0x0, 64, 16, 0, 0, true, false⟩
/-- CALLER_PART_ADMIT_N.ACCEPTED (R211). -/
def CALLER_PART_ADMIT_N_ACCEPTED : Fld := ⟨0x40, 0x138, 0, 32, .ro, 0x0, 64, 16, 0, 0, true, false⟩
/-- CALLER_PART_ADMIT_N.REFUSED (R211). -/
def CALLER_PART_ADMIT_N_REFUSED : Fld := ⟨0x40, 0x138, 32, 32, .ro, 0x0, 64, 16, 0, 0, true, false⟩
/-- CALLER_SPEC_EVENTS.SPEC_BAD (R231). -/
def CALLER_SPEC_EVENTS_SPEC_BAD : Fld := ⟨0x40, 0x80, 0, 1, .w1c, 0x0, 0, 0, 0, 0, true, false⟩
/-- CALLER_SPEC_CNT.SPEC_BAD_N (R231). -/
def CALLER_SPEC_CNT_SPEC_BAD_N : Fld := ⟨0x40, 0x88, 0, 16, .ro, 0x0, 0, 0, 0, 0, true, false⟩
/-- CALLER_SPEC_CFG.MIN (R231). -/
def CALLER_SPEC_CFG_MIN : Fld := ⟨0x40, 0x500, 0, 16, .rwl, 0x4CCD, 64, 16, 0, 0, true, false⟩
/-- CALLER_SPEC_CFG.SHIFT (R231). -/
def CALLER_SPEC_CFG_SHIFT : Fld := ⟨0x40, 0x500, 16, 4, .rwl, 0x2, 64, 16, 0, 0, true, false⟩
/-- CALLER_SPEC_CFG.PROBE (R231). -/
def CALLER_SPEC_CFG_PROBE : Fld := ⟨0x40, 0x500, 20, 8, .rwl, 0x10, 64, 16, 0, 0, true, false⟩
/-- CALLER_SPEC_CFG.HEADS_N (R231). -/
def CALLER_SPEC_CFG_HEADS_N : Fld := ⟨0x40, 0x500, 28, 4, .rwl, 0x0, 64, 16, 0, 0, true, false⟩
/-- CALLER_SPEC_CFG.INIT (R231). -/
def CALLER_SPEC_CFG_INIT : Fld := ⟨0x40, 0x500, 32, 16, .rwl, 0x8000, 64, 16, 0, 0, true, false⟩
/-- CALLER_SPEC_PROPOSED.PROPOSED (R231). -/
def CALLER_SPEC_PROPOSED_PROPOSED : Fld := ⟨0x40, 0x508, 0, 64, .ro, 0x0, 64, 16, 0, 0, true, false⟩
/-- CALLER_SPEC_ACCEPTED.ACCEPTED (R231). -/
def CALLER_SPEC_ACCEPTED_ACCEPTED : Fld := ⟨0x40, 0x510, 0, 64, .ro, 0x0, 64, 16, 0, 0, true, false⟩
/-- CALLER_SPEC_ALLREJ.ALLREJ (R231). -/
def CALLER_SPEC_ALLREJ_ALLREJ : Fld := ⟨0x40, 0x518, 0, 64, .ro, 0x0, 64, 16, 0, 0, true, false⟩
/-- CALLER_SPEC_MISSING.MISSING (R231). -/
def CALLER_SPEC_MISSING_MISSING : Fld := ⟨0x40, 0x520, 0, 64, .ro, 0x0, 64, 16, 0, 0, true, false⟩
/-- CALLER_SPEC_GRANTED.GRANTED (R231). -/
def CALLER_SPEC_GRANTED_GRANTED : Fld := ⟨0x40, 0x528, 0, 64, .ro, 0x0, 64, 16, 0, 0, true, false⟩
/-- CALLER_SPEC_CLIPPED.CLIPPED (R231). -/
def CALLER_SPEC_CLIPPED_CLIPPED : Fld := ⟨0x40, 0x530, 0, 64, .ro, 0x0, 64, 16, 0, 0, true, false⟩
/-- CALLER_SPEC_PROBES.PROBES (R231). -/
def CALLER_SPEC_PROBES_PROBES : Fld := ⟨0x40, 0x538, 0, 64, .ro, 0x0, 64, 16, 0, 0, true, false⟩

/-! ### REEL -/

/-- REEL_CTL.EN (R283). -/
def REEL_CTL_EN : Fld := ⟨0x33, 0x0, 0, 1, .rwl, 0x0, 0, 0, 0, 0, true, false⟩
/-- REEL_CFG.PERIOD (R283). -/
def REEL_CFG_PERIOD : Fld := ⟨0x33, 0x8, 0, 16, .rw, 0x1000, 0, 0, 0, 0, true, false⟩
/-- REEL_CFG.CREDITS (R283). -/
def REEL_CFG_CREDITS : Fld := ⟨0x33, 0x8, 16, 8, .rwl, 0x10, 0, 0, 0, 0, true, false⟩
/-- REEL_STATUS.LAYER (R283). -/
def REEL_STATUS_LAYER : Fld := ⟨0x33, 0x10, 0, 8, .ro, 0x0, 0, 0, 0, 0, false, false⟩
/-- REEL_STATUS.PHASE (R283). -/
def REEL_STATUS_PHASE : Fld := ⟨0x33, 0x10, 8, 3, .ro, 0x0, 0, 0, 0, 0, false, false⟩
/-- REEL_PLACE_GEN.GEN (R283). -/
def REEL_PLACE_GEN_GEN : Fld := ⟨0x33, 0x18, 0, 64, .ro, 0x0, 0, 0, 0, 0, true, false⟩
/-- REEL_PLACE_EFF.EFF_BAR (R283). -/
def REEL_PLACE_EFF_EFF_BAR : Fld := ⟨0x33, 0x20, 0, 64, .ro, 0x0, 0, 0, 0, 0, true, false⟩
/-- REEL_EVENTS.NOM_MISS (R283). -/
def REEL_EVENTS_NOM_MISS : Fld := ⟨0x33, 0x28, 0, 1, .w1c, 0x0, 0, 0, 0, 0, true, false⟩
/-- REEL_EVENTS.MISROUTE (R283). -/
def REEL_EVENTS_MISROUTE : Fld := ⟨0x33, 0x28, 1, 1, .w1c, 0x0, 0, 0, 0, 0, true, false⟩
/-- REEL_EVENTS.REEL_LATE (R283). -/
def REEL_EVENTS_REEL_LATE : Fld := ⟨0x33, 0x28, 2, 1, .w1c, 0x0, 0, 0, 0, 0, true, false⟩
/-- REEL_EVENTS.PLACE_LATE (R283). -/
def REEL_EVENTS_PLACE_LATE : Fld := ⟨0x33, 0x28, 3, 1, .w1c, 0x0, 0, 0, 0, 0, true, false⟩
/-- REEL_EVENTS.BAD_TABLE (R283). -/
def REEL_EVENTS_BAD_TABLE : Fld := ⟨0x33, 0x28, 4, 1, .w1c, 0x0, 0, 0, 0, 0, true, false⟩
/-- REEL_EVENTS.PLACE_NOT_READY (R283). -/
def REEL_EVENTS_PLACE_NOT_READY : Fld := ⟨0x33, 0x28, 5, 1, .w1c, 0x0, 0, 0, 0, 0, true, false⟩
/-- REEL_EVENTS.SNAPSHOT (R283). -/
def REEL_EVENTS_SNAPSHOT : Fld := ⟨0x33, 0x28, 6, 1, .w1c, 0x0, 0, 0, 0, 0, true, false⟩
/-- REEL_CNT_A.NOM_MISS_N (R283). -/
def REEL_CNT_A_NOM_MISS_N : Fld := ⟨0x33, 0x30, 0, 16, .ro, 0x0, 0, 0, 0, 0, true, false⟩
/-- REEL_CNT_A.MISROUTE_N (R283). -/
def REEL_CNT_A_MISROUTE_N : Fld := ⟨0x33, 0x30, 16, 16, .ro, 0x0, 0, 0, 0, 0, true, false⟩
/-- REEL_CNT_A.REEL_LATE_N (R283). -/
def REEL_CNT_A_REEL_LATE_N : Fld := ⟨0x33, 0x30, 32, 16, .ro, 0x0, 0, 0, 0, 0, true, false⟩
/-- REEL_CNT_A.PLACE_LATE_N (R283). -/
def REEL_CNT_A_PLACE_LATE_N : Fld := ⟨0x33, 0x30, 48, 16, .ro, 0x0, 0, 0, 0, 0, true, false⟩
/-- REEL_CNT_B.BAD_TABLE_N (R283). -/
def REEL_CNT_B_BAD_TABLE_N : Fld := ⟨0x33, 0x38, 0, 16, .ro, 0x0, 0, 0, 0, 0, true, false⟩
/-- REEL_CNT_B.PLACE_NOT_READY_N (R283). -/
def REEL_CNT_B_PLACE_NOT_READY_N : Fld := ⟨0x33, 0x38, 16, 16, .ro, 0x0, 0, 0, 0, 0, true, false⟩
/-- REEL_CNT_B.SNAPSHOT_N (R283). -/
def REEL_CNT_B_SNAPSHOT_N : Fld := ⟨0x33, 0x38, 32, 16, .ro, 0x0, 0, 0, 0, 0, true, false⟩
/-- REEL_LAST_EVENT.STAMP (R283). -/
def REEL_LAST_EVENT_STAMP : Fld := ⟨0x33, 0x40, 0, 64, .ro, 0x0, 0, 0, 0, 0, true, false⟩
/-- REEL_SNAP_BAR.BAR (R283). -/
def REEL_SNAP_BAR_BAR : Fld := ⟨0x33, 0x48, 0, 64, .ro, 0x0, 0, 0, 0, 0, true, false⟩
/-- REEL_AREA.BASE (R283). -/
def REEL_AREA_BASE : Fld := ⟨0x33, 0x100, 0, 48, .rwl, 0x0, 32, 16, 0, 0, true, false⟩
/-- REEL_DISCARDED.DISCARDED (R283). -/
def REEL_DISCARDED_DISCARDED : Fld := ⟨0x33, 0x108, 0, 64, .ro, 0x0, 32, 16, 0, 0, true, false⟩
/-- REEL_ORPHANS.ORPHANS (R283). -/
def REEL_ORPHANS_ORPHANS : Fld := ⟨0x33, 0x110, 0, 64, .ro, 0x0, 32, 16, 0, 0, true, false⟩
/-- REEL_ROWS.SENT (R283). -/
def REEL_ROWS_SENT : Fld := ⟨0x33, 0x118, 0, 32, .ro, 0x0, 32, 16, 0, 0, true, false⟩
/-- REEL_ROWS.LANDED (R283). -/
def REEL_ROWS_LANDED : Fld := ⟨0x33, 0x118, 32, 32, .ro, 0x0, 32, 16, 0, 0, true, false⟩

/-! ### NVC -/

/-- NVC_SLOT.STATE_A (R311). -/
def NVC_SLOT_STATE_A : Fld := ⟨0x22, 0x0, 0, 2, .ro, 0x0, 0, 0, 0, 0, true, false⟩
/-- NVC_SLOT.STATE_B (R311). -/
def NVC_SLOT_STATE_B : Fld := ⟨0x22, 0x0, 2, 2, .ro, 0x0, 0, 0, 0, 0, true, false⟩
/-- NVC_SLOT.ACTIVE (R311). -/
def NVC_SLOT_ACTIVE : Fld := ⟨0x22, 0x0, 4, 1, .ro, 0x0, 0, 0, 0, 0, true, false⟩
/-- NVC_SLOT.HAS_ACTIVE (R311). -/
def NVC_SLOT_HAS_ACTIVE : Fld := ⟨0x22, 0x0, 5, 1, .ro, 0x0, 0, 0, 0, 0, true, false⟩
/-- NVC_EPOCH.EPOCH_A (R311). -/
def NVC_EPOCH_EPOCH_A : Fld := ⟨0x22, 0x8, 0, 32, .ro, 0x0, 0, 0, 0, 0, true, false⟩
/-- NVC_EPOCH.EPOCH_B (R311). -/
def NVC_EPOCH_EPOCH_B : Fld := ⟨0x22, 0x8, 32, 32, .ro, 0x0, 0, 0, 0, 0, true, false⟩
/-- NVC_PROG.PROGRESS (R311). -/
def NVC_PROG_PROGRESS : Fld := ⟨0x22, 0x10, 0, 16, .ro, 0x0, 0, 0, 0, 0, true, false⟩
/-- NVC_PROG.NSHARD (R311). -/
def NVC_PROG_NSHARD : Fld := ⟨0x22, 0x10, 16, 16, .ro, 0x0, 0, 0, 0, 0, true, false⟩
/-- NVC_PROG.BUSY (R311). -/
def NVC_PROG_BUSY : Fld := ⟨0x22, 0x10, 32, 1, .ro, 0x0, 0, 0, 0, 0, true, false⟩
/-- NVC_PROG.SAG_HOLD (R311). -/
def NVC_PROG_SAG_HOLD : Fld := ⟨0x22, 0x10, 33, 1, .ro, 0x0, 0, 0, 0, 0, true, false⟩
/-- NVC_WEAR.MILLI (R311). -/
def NVC_WEAR_MILLI : Fld := ⟨0x22, 0x18, 0, 32, .ro, 0x0, 0, 0, 0, 0, false, false⟩
/-- NVC_BAD.PAGES (R311). -/
def NVC_BAD_PAGES : Fld := ⟨0x22, 0x20, 0, 24, .ro, 0x0, 0, 0, 0, 0, false, false⟩
/-- NVC_EVENTS.READ_RETRY (R311). -/
def NVC_EVENTS_READ_RETRY : Fld := ⟨0x22, 0x28, 0, 1, .w1c, 0x0, 0, 0, 0, 0, false, false⟩
/-- NVC_EVENTS.NV_UNCORR (R311). -/
def NVC_EVENTS_NV_UNCORR : Fld := ⟨0x22, 0x28, 1, 1, .w1c, 0x0, 0, 0, 0, 0, false, false⟩
/-- NVC_EVENTS.VERIFY_FAIL (R311). -/
def NVC_EVENTS_VERIFY_FAIL : Fld := ⟨0x22, 0x28, 2, 1, .w1c, 0x0, 0, 0, 0, 0, false, false⟩
/-- NVC_EVENTS.WORN (R311). -/
def NVC_EVENTS_WORN : Fld := ⟨0x22, 0x28, 3, 1, .w1c, 0x0, 0, 0, 0, 0, false, false⟩
/-- NVC_EVENTS.NO_WEIGHTS (R311). -/
def NVC_EVENTS_NO_WEIGHTS : Fld := ⟨0x22, 0x28, 4, 1, .w1c, 0x0, 0, 0, 0, 0, false, false⟩
/-- NVC_CNT_A.READ_RETRY_N (R311). -/
def NVC_CNT_A_READ_RETRY_N : Fld := ⟨0x22, 0x30, 0, 16, .ro, 0x0, 0, 0, 0, 0, false, false⟩
/-- NVC_CNT_A.NV_UNCORR_N (R311). -/
def NVC_CNT_A_NV_UNCORR_N : Fld := ⟨0x22, 0x30, 16, 16, .ro, 0x0, 0, 0, 0, 0, false, false⟩
/-- NVC_CNT_A.VERIFY_FAIL_N (R311). -/
def NVC_CNT_A_VERIFY_FAIL_N : Fld := ⟨0x22, 0x30, 32, 16, .ro, 0x0, 0, 0, 0, 0, false, false⟩
/-- NVC_CNT_A.WORN_N (R311). -/
def NVC_CNT_A_WORN_N : Fld := ⟨0x22, 0x30, 48, 16, .ro, 0x0, 0, 0, 0, 0, false, false⟩
/-- NVC_CNT_B.NO_WEIGHTS_N (R311). -/
def NVC_CNT_B_NO_WEIGHTS_N : Fld := ⟨0x22, 0x38, 0, 16, .ro, 0x0, 0, 0, 0, 0, false, false⟩
/-- NVC_RETRIES.CODEWORDS (R311). -/
def NVC_RETRIES_CODEWORDS : Fld := ⟨0x22, 0x40, 0, 64, .ro, 0x0, 0, 0, 0, 0, false, false⟩
/-- NVC_LAST_EVENT.STAMP (R311). -/
def NVC_LAST_EVENT_STAMP : Fld := ⟨0x22, 0x48, 0, 64, .ro, 0x0, 0, 0, 0, 0, false, false⟩

/-! ### PROM -/

/-- PROM_EPOCH.EPOCH (R312). -/
def PROM_EPOCH_EPOCH : Fld := ⟨0x24, 0x0, 0, 32, .ro, 0x0, 0, 0, 0, 0, true, false⟩
/-- PROM_EPOCH.REGION (R312). -/
def PROM_EPOCH_REGION : Fld := ⟨0x24, 0x0, 32, 1, .ro, 0x0, 0, 0, 0, 0, true, false⟩
/-- PROM_SHADOW.EPOCH (R312). -/
def PROM_SHADOW_EPOCH : Fld := ⟨0x24, 0x8, 0, 32, .ro, 0x0, 0, 0, 0, 0, true, false⟩
/-- PROM_SHADOW.STAGED (R312). -/
def PROM_SHADOW_STAGED : Fld := ⟨0x24, 0x8, 32, 1, .ro, 0x0, 0, 0, 0, 0, true, false⟩
/-- PROM_SHADOW.STAGING (R312). -/
def PROM_SHADOW_STAGING : Fld := ⟨0x24, 0x8, 33, 1, .ro, 0x0, 0, 0, 0, 0, true, false⟩
/-- PROM_SHADOW.FILLING (R312). -/
def PROM_SHADOW_FILLING : Fld := ⟨0x24, 0x8, 34, 1, .ro, 0x0, 0, 0, 0, 0, true, false⟩
/-- PROM_SWITCH.SWITCH_BAR (R312). -/
def PROM_SWITCH_SWITCH_BAR : Fld := ⟨0x24, 0x10, 0, 64, .ro, 0xFFFFFFFFFFFFFFFF, 0, 0, 0, 0, true, false⟩
/-- PROM_REGION0.BASE (R312). -/
def PROM_REGION0_BASE : Fld := ⟨0x24, 0x18, 0, 48, .rwl, 0x0, 0, 0, 0, 0, true, false⟩
/-- PROM_REGION1.BASE (R312). -/
def PROM_REGION1_BASE : Fld := ⟨0x24, 0x20, 0, 48, .rwl, 0x0, 0, 0, 0, 0, true, false⟩
/-- PROM_REGION_LEN.LEN (R312). -/
def PROM_REGION_LEN_LEN : Fld := ⟨0x24, 0x28, 0, 40, .rwl, 0x0, 0, 0, 0, 0, true, false⟩
/-- PROM_EVENTS.STAGE_DONE (R312). -/
def PROM_EVENTS_STAGE_DONE : Fld := ⟨0x24, 0x30, 0, 1, .w1c, 0x0, 0, 0, 0, 0, true, false⟩
/-- PROM_EVENTS.FILL_DONE (R312). -/
def PROM_EVENTS_FILL_DONE : Fld := ⟨0x24, 0x30, 1, 1, .w1c, 0x0, 0, 0, 0, 0, true, false⟩
/-- PROM_EVENTS.STAGE_FAIL (R312). -/
def PROM_EVENTS_STAGE_FAIL : Fld := ⟨0x24, 0x30, 2, 1, .w1c, 0x0, 0, 0, 0, 0, true, false⟩
/-- PROM_EVENTS.SWAP_LATE (R312). -/
def PROM_EVENTS_SWAP_LATE : Fld := ⟨0x24, 0x30, 3, 1, .w1c, 0x0, 0, 0, 0, 0, true, false⟩
/-- PROM_EVENTS.EPOCH_NOT_READY (R312). -/
def PROM_EVENTS_EPOCH_NOT_READY : Fld := ⟨0x24, 0x30, 4, 1, .w1c, 0x0, 0, 0, 0, 0, true, false⟩
/-- PROM_EVENTS.REPLICA_EXPOSED (R312). -/
def PROM_EVENTS_REPLICA_EXPOSED : Fld := ⟨0x24, 0x30, 5, 1, .w1c, 0x0, 0, 0, 0, 0, true, false⟩
/-- PROM_EVENTS.ALLOW_HIT (R312). -/
def PROM_EVENTS_ALLOW_HIT : Fld := ⟨0x24, 0x30, 6, 1, .w1c, 0x0, 0, 0, 0, 0, true, false⟩
/-- PROM_CNT_A.STAGE_DONE_N (R312). -/
def PROM_CNT_A_STAGE_DONE_N : Fld := ⟨0x24, 0x38, 0, 16, .ro, 0x0, 0, 0, 0, 0, true, false⟩
/-- PROM_CNT_A.FILL_DONE_N (R312). -/
def PROM_CNT_A_FILL_DONE_N : Fld := ⟨0x24, 0x38, 16, 16, .ro, 0x0, 0, 0, 0, 0, true, false⟩
/-- PROM_CNT_A.STAGE_FAIL_N (R312). -/
def PROM_CNT_A_STAGE_FAIL_N : Fld := ⟨0x24, 0x38, 32, 16, .ro, 0x0, 0, 0, 0, 0, true, false⟩
/-- PROM_CNT_A.SWAP_LATE_N (R312). -/
def PROM_CNT_A_SWAP_LATE_N : Fld := ⟨0x24, 0x38, 48, 16, .ro, 0x0, 0, 0, 0, 0, true, false⟩
/-- PROM_CNT_B.EPOCH_NOT_READY_N (R312). -/
def PROM_CNT_B_EPOCH_NOT_READY_N : Fld := ⟨0x24, 0x40, 0, 16, .ro, 0x0, 0, 0, 0, 0, false, false⟩
/-- PROM_CNT_B.REPLICA_EXPOSED_N (R312). -/
def PROM_CNT_B_REPLICA_EXPOSED_N : Fld := ⟨0x24, 0x40, 16, 16, .ro, 0x0, 0, 0, 0, 0, false, false⟩
/-- PROM_CNT_B.ALLOW_HIT_N (R312). -/
def PROM_CNT_B_ALLOW_HIT_N : Fld := ⟨0x24, 0x40, 32, 16, .ro, 0x0, 0, 0, 0, 0, false, false⟩
/-- PROM_ALLOW.ALLOW (R312). -/
def PROM_ALLOW_ALLOW : Fld := ⟨0x24, 0x48, 0, 16, .ro, 0x0, 0, 0, 0, 0, false, false⟩
/-- PROM_ALLOW.USED (R312). -/
def PROM_ALLOW_USED : Fld := ⟨0x24, 0x48, 16, 16, .ro, 0x0, 0, 0, 0, 0, false, false⟩
/-- PROM_QUEUE.Q0 (R312). -/
def PROM_QUEUE_Q0 : Fld := ⟨0x24, 0x50, 0, 8, .ro, 0x0, 0, 0, 0, 0, false, false⟩
/-- PROM_QUEUE.Q1 (R312). -/
def PROM_QUEUE_Q1 : Fld := ⟨0x24, 0x50, 8, 8, .ro, 0x0, 0, 0, 0, 0, false, false⟩
/-- PROM_QUEUE.Q2 (R312). -/
def PROM_QUEUE_Q2 : Fld := ⟨0x24, 0x50, 16, 8, .ro, 0x0, 0, 0, 0, 0, false, false⟩
/-- PROM_BYTES.BYTES (R312). -/
def PROM_BYTES_BYTES : Fld := ⟨0x24, 0x58, 0, 64, .ro, 0x0, 0, 0, 0, 0, false, false⟩
/-- PROM_MOVES.MOVES (R312). -/
def PROM_MOVES_MOVES : Fld := ⟨0x24, 0x60, 0, 64, .ro, 0x0, 0, 0, 0, 0, false, false⟩
/-- PROM_LAST_EVENT.STAMP (R312). -/
def PROM_LAST_EVENT_STAMP : Fld := ⟨0x24, 0x68, 0, 64, .ro, 0x0, 0, 0, 0, 0, false, false⟩

/-! ### FAB -/

/-- FAB_CTL.EN (R351). -/
def FAB_CTL_EN : Fld := ⟨0x30, 0x0, 0, 1, .rw, 0x0, 0, 0, 0, 0, false, true⟩
/-- FAB_CTL.RETRAIN (R351). -/
def FAB_CTL_RETRAIN : Fld := ⟨0x30, 0x0, 1, 1, .wo, 0x0, 0, 0, 0, 0, false, true⟩
/-- FAB_CTL.BERT (R351). -/
def FAB_CTL_BERT : Fld := ⟨0x30, 0x0, 2, 1, .wo, 0x0, 0, 0, 0, 0, false, true⟩
/-- FAB_STATUS.STATE (R351). -/
def FAB_STATUS_STATE : Fld := ⟨0x30, 0x8, 0, 3, .ro, 0x0, 0, 0, 0, 0, false, false⟩
/-- FAB_STATUS.HALF_HI (R351). -/
def FAB_STATUS_HALF_HI : Fld := ⟨0x30, 0x8, 3, 1, .ro, 0x0, 0, 0, 0, 0, false, false⟩
/-- FAB_STATUS.SWAP_WITH (R351). -/
def FAB_STATUS_SWAP_WITH : Fld := ⟨0x30, 0x8, 8, 5, .ro, 0x1F, 0, 0, 0, 0, false, false⟩
/-- FAB_EXPECT.TRAY (R351). -/
def FAB_EXPECT_TRAY : Fld := ⟨0x30, 0x10, 0, 8, .rw, 0x0, 0, 0, 0, 0, false, false⟩
/-- FAB_EXPECT.PLANE (R351). -/
def FAB_EXPECT_PLANE : Fld := ⟨0x30, 0x10, 8, 5, .rw, 0x0, 0, 0, 0, 0, false, false⟩
/-- FAB_EXPECT.SWPORT (R351). -/
def FAB_EXPECT_SWPORT : Fld := ⟨0x30, 0x10, 16, 8, .rw, 0x0, 0, 0, 0, 0, false, false⟩
/-- FAB_EXPECT.CHECK_EN (R351). -/
def FAB_EXPECT_CHECK_EN : Fld := ⟨0x30, 0x10, 24, 1, .rw, 0x1, 0, 0, 0, 0, false, false⟩
/-- FAB_FOUND.TRAY (R351). -/
def FAB_FOUND_TRAY : Fld := ⟨0x30, 0x18, 0, 8, .ro, 0x0, 0, 0, 0, 0, false, false⟩
/-- FAB_FOUND.PLANE (R351). -/
def FAB_FOUND_PLANE : Fld := ⟨0x30, 0x18, 8, 5, .ro, 0x0, 0, 0, 0, 0, false, false⟩
/-- FAB_FOUND.SWPORT (R351). -/
def FAB_FOUND_SWPORT : Fld := ⟨0x30, 0x18, 16, 8, .ro, 0x0, 0, 0, 0, 0, false, false⟩
/-- FAB_FOUND.VALID (R351). -/
def FAB_FOUND_VALID : Fld := ⟨0x30, 0x18, 24, 1, .ro, 0x0, 0, 0, 0, 0, false, false⟩
/-- FAB_EVENTS.LINK_DOWN (R351). -/
def FAB_EVENTS_LINK_DOWN : Fld := ⟨0x30, 0x20, 0, 1, .w1c, 0x0, 0, 0, 0, 0, false, false⟩
/-- FAB_EVENTS.LANE_LOST (R351). -/
def FAB_EVENTS_LANE_LOST : Fld := ⟨0x30, 0x20, 1, 1, .w1c, 0x0, 0, 0, 0, 0, false, false⟩
/-- FAB_EVENTS.CABLE_MISMATCH (R351). -/
def FAB_EVENTS_CABLE_MISMATCH : Fld := ⟨0x30, 0x20, 2, 1, .w1c, 0x0, 0, 0, 0, 0, false, false⟩
/-- FAB_EVENTS.REPLAY (R351). -/
def FAB_EVENTS_REPLAY : Fld := ⟨0x30, 0x20, 3, 1, .w1c, 0x0, 0, 0, 0, 0, false, false⟩
/-- FAB_EVENTS.HALF_WIDTH (R351). -/
def FAB_EVENTS_HALF_WIDTH : Fld := ⟨0x30, 0x20, 4, 1, .w1c, 0x0, 0, 0, 0, 0, false, false⟩
/-- FAB_EVENTS.BERT_FAIL (R351). -/
def FAB_EVENTS_BERT_FAIL : Fld := ⟨0x30, 0x20, 5, 1, .w1c, 0x0, 0, 0, 0, 0, false, false⟩
/-- FAB_CNT_A.LINK_DOWN_N (R351). -/
def FAB_CNT_A_LINK_DOWN_N : Fld := ⟨0x30, 0x28, 0, 16, .ro, 0x0, 0, 0, 0, 0, false, false⟩
/-- FAB_CNT_A.LANE_LOST_N (R351). -/
def FAB_CNT_A_LANE_LOST_N : Fld := ⟨0x30, 0x28, 16, 16, .ro, 0x0, 0, 0, 0, 0, false, false⟩
/-- FAB_CNT_A.CABLE_MISMATCH_N (R351). -/
def FAB_CNT_A_CABLE_MISMATCH_N : Fld := ⟨0x30, 0x28, 32, 16, .ro, 0x0, 0, 0, 0, 0, false, false⟩
/-- FAB_CNT_A.REPLAY_N (R351). -/
def FAB_CNT_A_REPLAY_N : Fld := ⟨0x30, 0x28, 48, 16, .ro, 0x0, 0, 0, 0, 0, false, false⟩
/-- FAB_CNT_B.HALF_WIDTH_N (R351). -/
def FAB_CNT_B_HALF_WIDTH_N : Fld := ⟨0x30, 0x30, 0, 16, .ro, 0x0, 0, 0, 0, 0, false, false⟩
/-- FAB_CNT_B.BERT_FAIL_N (R351). -/
def FAB_CNT_B_BERT_FAIL_N : Fld := ⟨0x30, 0x30, 16, 16, .ro, 0x0, 0, 0, 0, 0, false, false⟩
/-- FAB_TX_FLITS.TX (R351). -/
def FAB_TX_FLITS_TX : Fld := ⟨0x30, 0x38, 0, 64, .ro, 0x0, 0, 0, 0, 0, false, false⟩
/-- FAB_RX_FLITS.RX (R351). -/
def FAB_RX_FLITS_RX : Fld := ⟨0x30, 0x40, 0, 64, .ro, 0x0, 0, 0, 0, 0, false, false⟩
/-- FAB_LAST_EVENT.STAMP (R351). -/
def FAB_LAST_EVENT_STAMP : Fld := ⟨0x30, 0x48, 0, 64, .ro, 0x0, 0, 0, 0, 0, false, false⟩
/-- FAB_DEAD.BEATS (R351). -/
def FAB_DEAD_BEATS : Fld := ⟨0x30, 0x80, 0, 8, .rw, 0x3, 0, 0, 0, 0, true, false⟩
/-- FAB_PLANES.INSVC (R351). -/
def FAB_PLANES_INSVC : Fld := ⟨0x30, 0x88, 0, 24, .ro, 0x0, 0, 0, 0, 0, true, false⟩
/-- FAB_PLANES.E2 (R351). -/
def FAB_PLANES_E2 : Fld := ⟨0x30, 0x88, 24, 6, .ro, 0x0, 0, 0, 0, 0, true, false⟩
/-- FAB_PLANES.E2_MIN (R351). -/
def FAB_PLANES_E2_MIN : Fld := ⟨0x30, 0x88, 32, 6, .ro, 0x0, 0, 0, 0, 0, true, false⟩
/-- FAB_PKG_EVENTS.DEAD_TARGET (R351). -/
def FAB_PKG_EVENTS_DEAD_TARGET : Fld := ⟨0x30, 0x90, 0, 1, .w1c, 0x0, 0, 0, 0, 0, true, false⟩
/-- FAB_PKG_EVENTS.REMOTE_REFUSED (R351). -/
def FAB_PKG_EVENTS_REMOTE_REFUSED : Fld := ⟨0x30, 0x90, 1, 1, .w1c, 0x0, 0, 0, 0, 0, true, false⟩
/-- FAB_PKG_EVENTS.REFUSED_IN (R351). -/
def FAB_PKG_EVENTS_REFUSED_IN : Fld := ⟨0x30, 0x90, 2, 1, .w1c, 0x0, 0, 0, 0, 0, true, false⟩
/-- FAB_PKG_EVENTS.LATE_RESP (R351). -/
def FAB_PKG_EVENTS_LATE_RESP : Fld := ⟨0x30, 0x90, 3, 1, .w1c, 0x0, 0, 0, 0, 0, true, false⟩
/-- FAB_PKG_EVENTS.STALE_IN (R351). -/
def FAB_PKG_EVENTS_STALE_IN : Fld := ⟨0x30, 0x90, 4, 1, .w1c, 0x0, 0, 0, 0, 0, true, false⟩
/-- FAB_PKG_EVENTS.PLANES_LOW (R351). -/
def FAB_PKG_EVENTS_PLANES_LOW : Fld := ⟨0x30, 0x90, 5, 1, .w1c, 0x0, 0, 0, 0, 0, true, false⟩
/-- FAB_PKG_EVENTS.KEY_BAD (R351). -/
def FAB_PKG_EVENTS_KEY_BAD : Fld := ⟨0x30, 0x90, 6, 1, .w1c, 0x0, 0, 0, 0, 0, true, false⟩
/-- FAB_PKG_CNT_A.DEAD_TARGET_N (R351). -/
def FAB_PKG_CNT_A_DEAD_TARGET_N : Fld := ⟨0x30, 0x98, 0, 16, .ro, 0x0, 0, 0, 0, 0, true, false⟩
/-- FAB_PKG_CNT_A.REMOTE_REFUSED_N (R351). -/
def FAB_PKG_CNT_A_REMOTE_REFUSED_N : Fld := ⟨0x30, 0x98, 16, 16, .ro, 0x0, 0, 0, 0, 0, true, false⟩
/-- FAB_PKG_CNT_A.REFUSED_IN_N (R351). -/
def FAB_PKG_CNT_A_REFUSED_IN_N : Fld := ⟨0x30, 0x98, 32, 16, .ro, 0x0, 0, 0, 0, 0, true, false⟩
/-- FAB_PKG_CNT_A.LATE_RESP_N (R351). -/
def FAB_PKG_CNT_A_LATE_RESP_N : Fld := ⟨0x30, 0x98, 48, 16, .ro, 0x0, 0, 0, 0, 0, true, false⟩
/-- FAB_PKG_CNT_B.STALE_IN_N (R351). -/
def FAB_PKG_CNT_B_STALE_IN_N : Fld := ⟨0x30, 0xA0, 0, 16, .ro, 0x0, 0, 0, 0, 0, true, false⟩
/-- FAB_PKG_CNT_B.PLANES_LOW_N (R351). -/
def FAB_PKG_CNT_B_PLANES_LOW_N : Fld := ⟨0x30, 0xA0, 16, 16, .ro, 0x0, 0, 0, 0, 0, true, false⟩
/-- FAB_PKG_CNT_B.KEY_BAD_N (R351). -/
def FAB_PKG_CNT_B_KEY_BAD_N : Fld := ⟨0x30, 0xA0, 32, 16, .ro, 0x0, 0, 0, 0, 0, true, false⟩
/-- FAB_LAST_DEAD.PKG (R351). -/
def FAB_LAST_DEAD_PKG : Fld := ⟨0x30, 0xA8, 0, 12, .ro, 0x0, 0, 0, 0, 0, true, false⟩
/-- FAB_LAST_DEAD.UNIT (R351). -/
def FAB_LAST_DEAD_UNIT : Fld := ⟨0x30, 0xA8, 16, 8, .ro, 0x0, 0, 0, 0, 0, true, false⟩
/-- FAB_LAST_DEAD_STAMP.STAMP (R351). -/
def FAB_LAST_DEAD_STAMP_STAMP : Fld := ⟨0x30, 0xB0, 0, 64, .ro, 0x0, 0, 0, 0, 0, true, false⟩
/-- FAB_LAST_REFUSED.PKG (R351). -/
def FAB_LAST_REFUSED_PKG : Fld := ⟨0x30, 0xB8, 0, 12, .ro, 0x0, 0, 0, 0, 0, true, false⟩
/-- FAB_LAST_REFUSED.STATUS (R351). -/
def FAB_LAST_REFUSED_STATUS : Fld := ⟨0x30, 0xB8, 16, 8, .ro, 0x0, 0, 0, 0, 0, true, false⟩
/-- FAB_BERT_CFG.INTERVAL (R351). -/
def FAB_BERT_CFG_INTERVAL : Fld := ⟨0x30, 0xC0, 0, 32, .rw, 0x1017DF8, 0, 0, 0, 0, true, false⟩
/-- FAB_BERT_CFG.EN (R351). -/
def FAB_BERT_CFG_EN : Fld := ⟨0x30, 0xC0, 32, 1, .rw, 0x0, 0, 0, 0, 0, true, false⟩
/-- FAB_LANE_THR.THR (R351). -/
def FAB_LANE_THR_THR : Fld := ⟨0x30, 0xC8, 0, 32, .rw, 0x10000, 0, 0, 0, 0, true, false⟩
/-- FAB_PART_KEYS.BASE (R351). -/
def FAB_PART_KEYS_BASE : Fld := ⟨0x30, 0x100, 0, 48, .rwl, 0x0, 16, 16, 0, 0, true, false⟩
/-- FAB_PART_KEYS.EN (R351). -/
def FAB_PART_KEYS_EN : Fld := ⟨0x30, 0x100, 48, 1, .rwl, 0x0, 16, 16, 0, 0, true, false⟩
/-- FAB_PART_CFG.QCOMPAT (R351). -/
def FAB_PART_CFG_QCOMPAT : Fld := ⟨0x30, 0x108, 0, 1, .rwl, 0x0, 16, 16, 0, 0, true, false⟩
/-- FAB_PART_CFG.INV_IDX (R351). -/
def FAB_PART_CFG_INV_IDX : Fld := ⟨0x30, 0x108, 16, 10, .wo, 0x0, 16, 16, 0, 0, true, true⟩
/-- FAB_PART_CFG.INV (R351). -/
def FAB_PART_CFG_INV : Fld := ⟨0x30, 0x108, 26, 1, .wo, 0x0, 16, 16, 0, 0, true, true⟩
/-- FAB_PART_CFG.INV_ALL (R351). -/
def FAB_PART_CFG_INV_ALL : Fld := ⟨0x30, 0x108, 27, 1, .wo, 0x0, 16, 16, 0, 0, true, true⟩

/-! ### LANE -/

/-- LANE_CTL.TEST (R352). -/
def LANE_CTL_TEST : Fld := ⟨0x31, 0x0, 0, 1, .wo, 0x0, 0, 0, 0, 0, false, true⟩
/-- LANE_CTL.RETIRE (R352). -/
def LANE_CTL_RETIRE : Fld := ⟨0x31, 0x0, 1, 1, .wo, 0x0, 0, 0, 0, 0, false, true⟩
/-- LANE_STATUS.STATE (R352). -/
def LANE_STATUS_STATE : Fld := ⟨0x31, 0x8, 0, 2, .ro, 0x0, 0, 0, 0, 0, false, false⟩
/-- LANE_STATUS.BORROWED (R352). -/
def LANE_STATUS_BORROWED : Fld := ⟨0x31, 0x8, 2, 1, .ro, 0x0, 0, 0, 0, 0, false, false⟩
/-- LANE_STATUS.PHYS (R352). -/
def LANE_STATUS_PHYS : Fld := ⟨0x31, 0x8, 8, 8, .ro, 0x0, 0, 0, 0, 0, false, false⟩
/-- LANE_STATUS.EYE_MV (R352). -/
def LANE_STATUS_EYE_MV : Fld := ⟨0x31, 0x8, 32, 16, .ro, 0x0, 0, 0, 0, 0, false, false⟩
/-- LANE_FEC_CORR.SYMBOLS (R352). -/
def LANE_FEC_CORR_SYMBOLS : Fld := ⟨0x31, 0x10, 0, 64, .ro, 0x0, 0, 0, 0, 0, false, false⟩
/-- LANE_FEC_UNCORR.CODEWORDS (R352). -/
def LANE_FEC_UNCORR_CODEWORDS : Fld := ⟨0x31, 0x18, 0, 32, .ro, 0x0, 0, 0, 0, 0, false, false⟩
/-- LANE_BER.ERRORS (R352). -/
def LANE_BER_ERRORS : Fld := ⟨0x31, 0x20, 0, 32, .ro, 0x0, 0, 0, 0, 0, false, false⟩
/-- LANE_BER.PASS (R352). -/
def LANE_BER_PASS : Fld := ⟨0x31, 0x20, 32, 1, .ro, 0x0, 0, 0, 0, 0, false, false⟩
/-- LANE_BER_STAMP.STAMP (R352). -/
def LANE_BER_STAMP_STAMP : Fld := ⟨0x31, 0x28, 0, 64, .ro, 0x0, 0, 0, 0, 0, false, false⟩
/-- LANE_EVENTS.CORR_HIGH (R352). -/
def LANE_EVENTS_CORR_HIGH : Fld := ⟨0x31, 0x30, 0, 1, .w1c, 0x0, 0, 0, 0, 0, false, false⟩
/-- LANE_EVENTS.TEST_FAIL (R352). -/
def LANE_EVENTS_TEST_FAIL : Fld := ⟨0x31, 0x30, 1, 1, .w1c, 0x0, 0, 0, 0, 0, false, false⟩
/-- LANE_EVENTS.TEST_SKIP (R352). -/
def LANE_EVENTS_TEST_SKIP : Fld := ⟨0x31, 0x30, 2, 1, .w1c, 0x0, 0, 0, 0, 0, false, false⟩
/-- LANE_CNT.CORR_HIGH_N (R352). -/
def LANE_CNT_CORR_HIGH_N : Fld := ⟨0x31, 0x38, 0, 16, .ro, 0x0, 0, 0, 0, 0, false, false⟩
/-- LANE_CNT.TEST_FAIL_N (R352). -/
def LANE_CNT_TEST_FAIL_N : Fld := ⟨0x31, 0x38, 16, 16, .ro, 0x0, 0, 0, 0, 0, false, false⟩
/-- LANE_CNT.TEST_SKIP_N (R352). -/
def LANE_CNT_TEST_SKIP_N : Fld := ⟨0x31, 0x38, 32, 16, .ro, 0x0, 0, 0, 0, 0, false, false⟩
/-- LANE_LAST_EVENT.STAMP (R352). -/
def LANE_LAST_EVENT_STAMP : Fld := ⟨0x31, 0x40, 0, 64, .ro, 0x0, 0, 0, 0, 0, false, false⟩

/-! ### COPY -/

/-- COPY_CTL.EN (R353). -/
def COPY_CTL_EN : Fld := ⟨0x32, 0x0, 0, 1, .rwl, 0x0, 0, 0, 0, 0, false, false⟩
/-- COPY_CTL.PART (R353). -/
def COPY_CTL_PART : Fld := ⟨0x32, 0x0, 4, 4, .rwl, 0x0, 0, 0, 0, 0, false, false⟩
/-- COPY_RING.BASE (R353). -/
def COPY_RING_BASE : Fld := ⟨0x32, 0x8, 0, 48, .rwl, 0x0, 0, 0, 0, 0, false, false⟩
/-- COPY_RING.LOG2N (R353). -/
def COPY_RING_LOG2N : Fld := ⟨0x32, 0x8, 48, 5, .rwl, 0x4, 0, 0, 0, 0, false, false⟩
/-- COPY_HEAD.HEAD (R353). -/
def COPY_HEAD_HEAD : Fld := ⟨0x32, 0x10, 0, 16, .ro, 0x0, 0, 0, 0, 0, false, false⟩
/-- COPY_TAIL.TAIL (R353). -/
def COPY_TAIL_TAIL : Fld := ⟨0x32, 0x18, 0, 16, .rw, 0x0, 0, 0, 0, 0, false, false⟩
/-- COPY_STATUS.BUSY (R353). -/
def COPY_STATUS_BUSY : Fld := ⟨0x32, 0x20, 0, 1, .ro, 0x0, 0, 0, 0, 0, false, false⟩
/-- COPY_STATUS.INFLIGHT (R353). -/
def COPY_STATUS_INFLIGHT : Fld := ⟨0x32, 0x20, 8, 8, .ro, 0x0, 0, 0, 0, 0, false, false⟩
/-- COPY_STATUS.FCOPYS (R353). -/
def COPY_STATUS_FCOPYS : Fld := ⟨0x32, 0x20, 16, 8, .ro, 0x0, 0, 0, 0, 0, false, false⟩
/-- COPY_EVENTS.DEAD_TARGET (R353). -/
def COPY_EVENTS_DEAD_TARGET : Fld := ⟨0x32, 0x28, 0, 1, .w1c, 0x0, 0, 0, 0, 0, false, false⟩
/-- COPY_EVENTS.REFUSED (R353). -/
def COPY_EVENTS_REFUSED : Fld := ⟨0x32, 0x28, 1, 1, .w1c, 0x0, 0, 0, 0, 0, false, false⟩
/-- COPY_EVENTS.MALFORMED (R353). -/
def COPY_EVENTS_MALFORMED : Fld := ⟨0x32, 0x28, 2, 1, .w1c, 0x0, 0, 0, 0, 0, false, false⟩
/-- COPY_EVENTS.ABANDONED (R353). -/
def COPY_EVENTS_ABANDONED : Fld := ⟨0x32, 0x28, 3, 1, .w1c, 0x0, 0, 0, 0, 0, false, false⟩
/-- COPY_CNT.DEAD_TARGET_N (R353). -/
def COPY_CNT_DEAD_TARGET_N : Fld := ⟨0x32, 0x30, 0, 16, .ro, 0x0, 0, 0, 0, 0, false, false⟩
/-- COPY_CNT.REFUSED_N (R353). -/
def COPY_CNT_REFUSED_N : Fld := ⟨0x32, 0x30, 16, 16, .ro, 0x0, 0, 0, 0, 0, false, false⟩
/-- COPY_CNT.MALFORMED_N (R353). -/
def COPY_CNT_MALFORMED_N : Fld := ⟨0x32, 0x30, 32, 16, .ro, 0x0, 0, 0, 0, 0, false, false⟩
/-- COPY_CNT.ABANDONED_N (R353). -/
def COPY_CNT_ABANDONED_N : Fld := ⟨0x32, 0x30, 48, 16, .ro, 0x0, 0, 0, 0, 0, false, false⟩
/-- COPY_BYTES.BYTES (R353). -/
def COPY_BYTES_BYTES : Fld := ⟨0x32, 0x38, 0, 64, .ro, 0x0, 0, 0, 0, 0, false, false⟩
/-- COPY_DONE.DESCS (R353). -/
def COPY_DONE_DESCS : Fld := ⟨0x32, 0x40, 0, 48, .ro, 0x0, 0, 0, 0, 0, false, false⟩
/-- COPY_FCOPY.COMMITTED (R353). -/
def COPY_FCOPY_COMMITTED : Fld := ⟨0x32, 0x48, 0, 48, .ro, 0x0, 0, 0, 0, 0, false, false⟩
/-- COPY_ARR_IN.INCREMENTS (R353). -/
def COPY_ARR_IN_INCREMENTS : Fld := ⟨0x32, 0x50, 0, 64, .ro, 0x0, 0, 0, 0, 0, false, false⟩
/-- COPY_LAST_EVENT.STAMP (R353). -/
def COPY_LAST_EVENT_STAMP : Fld := ⟨0x32, 0x58, 0, 64, .ro, 0x0, 0, 0, 0, 0, false, false⟩

/-! ### PCIE -/

/-- PCIE_LINK.SPEED (R386). -/
def PCIE_LINK_SPEED : Fld := ⟨0x42, 0x0, 0, 4, .ro, 0x0, 0, 0, 0, 0, false, false⟩
/-- PCIE_LINK.WIDTH (R386). -/
def PCIE_LINK_WIDTH : Fld := ⟨0x42, 0x0, 4, 4, .ro, 0x0, 0, 0, 0, 0, false, false⟩
/-- PCIE_LINK.FLIT (R386). -/
def PCIE_LINK_FLIT : Fld := ⟨0x42, 0x0, 8, 1, .ro, 0x0, 0, 0, 0, 0, false, false⟩
/-- PCIE_LINK.UP (R386). -/
def PCIE_LINK_UP : Fld := ⟨0x42, 0x0, 9, 1, .ro, 0x0, 0, 0, 0, 0, false, false⟩
/-- PCIE_LINK_CFG.MAX_SPEED (R386). -/
def PCIE_LINK_CFG_MAX_SPEED : Fld := ⟨0x42, 0x8, 0, 4, .rw, 0x7, 0, 0, 0, 0, false, false⟩
/-- PCIE_LINK_CFG.RETRAIN (R386). -/
def PCIE_LINK_CFG_RETRAIN : Fld := ⟨0x42, 0x8, 4, 1, .wo, 0x0, 0, 0, 0, 0, false, true⟩
/-- PCIE_EVENTS.LINK_DOWN (R386). -/
def PCIE_EVENTS_LINK_DOWN : Fld := ⟨0x42, 0x10, 0, 1, .w1c, 0x0, 0, 0, 0, 0, false, false⟩
/-- PCIE_EVENTS.DEGRADED (R386). -/
def PCIE_EVENTS_DEGRADED : Fld := ⟨0x42, 0x10, 1, 1, .w1c, 0x0, 0, 0, 0, 0, false, false⟩
/-- PCIE_EVENTS.DB_BAD (R386). -/
def PCIE_EVENTS_DB_BAD : Fld := ⟨0x42, 0x10, 2, 1, .w1c, 0x0, 0, 0, 0, 0, false, false⟩
/-- PCIE_EVENTS.SQ_ERR (R386). -/
def PCIE_EVENTS_SQ_ERR : Fld := ⟨0x42, 0x10, 3, 1, .w1c, 0x0, 0, 0, 0, 0, false, false⟩
/-- PCIE_EVENTS.CQ_BACKLOG (R386). -/
def PCIE_EVENTS_CQ_BACKLOG : Fld := ⟨0x42, 0x10, 4, 1, .w1c, 0x0, 0, 0, 0, 0, false, false⟩
/-- PCIE_EVENTS.CQ_DROP (R386). -/
def PCIE_EVENTS_CQ_DROP : Fld := ⟨0x42, 0x10, 5, 1, .w1c, 0x0, 0, 0, 0, 0, false, false⟩
/-- PCIE_EVENTS.EP_RX (R386). -/
def PCIE_EVENTS_EP_RX : Fld := ⟨0x42, 0x10, 6, 1, .w1c, 0x0, 0, 0, 0, 0, false, false⟩
/-- PCIE_EVENTS.EP_TX (R386). -/
def PCIE_EVENTS_EP_TX : Fld := ⟨0x42, 0x10, 7, 1, .w1c, 0x0, 0, 0, 0, 0, false, false⟩
/-- PCIE_EVENTS.HOST_ERR (R386). -/
def PCIE_EVENTS_HOST_ERR : Fld := ⟨0x42, 0x10, 8, 1, .w1c, 0x0, 0, 0, 0, 0, false, false⟩
/-- PCIE_EVENTS.PF_DROP (R386). -/
def PCIE_EVENTS_PF_DROP : Fld := ⟨0x42, 0x10, 9, 1, .w1c, 0x0, 0, 0, 0, 0, false, false⟩
/-- PCIE_CNT_A.LINK_DOWN_N (R386). -/
def PCIE_CNT_A_LINK_DOWN_N : Fld := ⟨0x42, 0x18, 0, 16, .ro, 0x0, 0, 0, 0, 0, false, false⟩
/-- PCIE_CNT_A.DEGRADED_N (R386). -/
def PCIE_CNT_A_DEGRADED_N : Fld := ⟨0x42, 0x18, 16, 16, .ro, 0x0, 0, 0, 0, 0, false, false⟩
/-- PCIE_CNT_A.DB_BAD_N (R386). -/
def PCIE_CNT_A_DB_BAD_N : Fld := ⟨0x42, 0x18, 32, 16, .ro, 0x0, 0, 0, 0, 0, false, false⟩
/-- PCIE_CNT_A.SQ_ERR_N (R386). -/
def PCIE_CNT_A_SQ_ERR_N : Fld := ⟨0x42, 0x18, 48, 16, .ro, 0x0, 0, 0, 0, 0, false, false⟩
/-- PCIE_CNT_B.CQ_BACKLOG_N (R386). -/
def PCIE_CNT_B_CQ_BACKLOG_N : Fld := ⟨0x42, 0x20, 0, 16, .ro, 0x0, 0, 0, 0, 0, false, false⟩
/-- PCIE_CNT_B.CQ_DROP_N (R386). -/
def PCIE_CNT_B_CQ_DROP_N : Fld := ⟨0x42, 0x20, 16, 16, .ro, 0x0, 0, 0, 0, 0, false, false⟩
/-- PCIE_CNT_B.EP_RX_N (R386). -/
def PCIE_CNT_B_EP_RX_N : Fld := ⟨0x42, 0x20, 32, 16, .ro, 0x0, 0, 0, 0, 0, false, false⟩
/-- PCIE_CNT_B.EP_TX_N (R386). -/
def PCIE_CNT_B_EP_TX_N : Fld := ⟨0x42, 0x20, 48, 16, .ro, 0x0, 0, 0, 0, 0, false, false⟩
/-- PCIE_CNT_C.HOST_ERR_N (R386). -/
def PCIE_CNT_C_HOST_ERR_N : Fld := ⟨0x42, 0x28, 0, 16, .ro, 0x0, 0, 0, 0, 0, false, false⟩
/-- PCIE_CNT_C.PF_DROP_N (R386). -/
def PCIE_CNT_C_PF_DROP_N : Fld := ⟨0x42, 0x28, 16, 16, .ro, 0x0, 0, 0, 0, 0, false, false⟩
/-- PCIE_LAST_EVENT.STAMP (R386). -/
def PCIE_LAST_EVENT_STAMP : Fld := ⟨0x42, 0x30, 0, 64, .ro, 0x0, 0, 0, 0, 0, false, false⟩
/-- PCIE_LAST_DB.GROUP (R386). -/
def PCIE_LAST_DB_GROUP : Fld := ⟨0x42, 0x38, 0, 5, .ro, 0x0, 0, 0, 0, 0, false, false⟩
/-- PCIE_LAST_DB.OFFSET (R386). -/
def PCIE_LAST_DB_OFFSET : Fld := ⟨0x42, 0x38, 16, 12, .ro, 0x0, 0, 0, 0, 0, false, false⟩
/-- PCIE_LAST_DB.VALUE (R386). -/
def PCIE_LAST_DB_VALUE : Fld := ⟨0x42, 0x38, 32, 16, .ro, 0x0, 0, 0, 0, 0, false, false⟩
/-- PCIE_GRP_CTL.EN (R386). -/
def PCIE_GRP_CTL_EN : Fld := ⟨0x42, 0x400, 0, 1, .rw, 0x0, 1024, 17, 0, 0, false, true⟩
/-- PCIE_GRP_CTL.SQ_RESTART (R386). -/
def PCIE_GRP_CTL_SQ_RESTART : Fld := ⟨0x42, 0x400, 1, 1, .wo, 0x0, 1024, 17, 0, 0, false, true⟩
/-- PCIE_GRP_CTL.SQ_HALT (R386). -/
def PCIE_GRP_CTL_SQ_HALT : Fld := ⟨0x42, 0x400, 2, 1, .ro, 0x0, 1024, 17, 0, 0, false, false⟩
/-- PCIE_GRP_CTL.VF (R386). -/
def PCIE_GRP_CTL_VF : Fld := ⟨0x42, 0x400, 3, 1, .ro, 0x0, 1024, 17, 0, 0, false, false⟩
/-- PCIE_GRP_CTL.MGMT_CQ (R386). -/
def PCIE_GRP_CTL_MGMT_CQ : Fld := ⟨0x42, 0x400, 4, 4, .rw, 0x0, 1024, 17, 0, 0, false, false⟩
/-- PCIE_GRP_CTL.COPY_VEC (R386). -/
def PCIE_GRP_CTL_COPY_VEC : Fld := ⟨0x42, 0x400, 8, 6, .rw, 0x0, 1024, 17, 0, 0, false, false⟩
/-- PCIE_GRP_SQ_BASE.BASE (R386). -/
def PCIE_GRP_SQ_BASE_BASE : Fld := ⟨0x42, 0x408, 12, 52, .rw, 0x0, 1024, 17, 0, 0, false, false⟩
/-- PCIE_GRP_SQ_CFG.LOG2N (R386). -/
def PCIE_GRP_SQ_CFG_LOG2N : Fld := ⟨0x42, 0x410, 0, 5, .rw, 0x4, 1024, 17, 0, 0, false, false⟩
/-- PCIE_GRP_SQ_CFG.HEAD (R386). -/
def PCIE_GRP_SQ_CFG_HEAD : Fld := ⟨0x42, 0x410, 16, 16, .ro, 0x0, 1024, 17, 0, 0, false, false⟩
/-- PCIE_GRP_SQ_CFG.TAIL (R386). -/
def PCIE_GRP_SQ_CFG_TAIL : Fld := ⟨0x42, 0x410, 32, 16, .ro, 0x0, 1024, 17, 0, 0, false, false⟩
/-- PCIE_GRP_SQ_CFG.OPEN (R386). -/
def PCIE_GRP_SQ_CFG_OPEN : Fld := ⟨0x42, 0x410, 48, 9, .ro, 0x0, 1024, 17, 0, 0, false, false⟩
/-- PCIE_GRP_TAKEN.TAKEN (R386). -/
def PCIE_GRP_TAKEN_TAKEN : Fld := ⟨0x42, 0x418, 0, 64, .ro, 0x0, 1024, 17, 0, 0, false, false⟩
/-- PCIE_GRP_DROP.DROPPED (R386). -/
def PCIE_GRP_DROP_DROPPED : Fld := ⟨0x42, 0x420, 0, 64, .ro, 0x0, 1024, 17, 0, 0, false, false⟩
/-- PCIE_CQ_BASE.BASE (R386). -/
def PCIE_CQ_BASE_BASE : Fld := ⟨0x42, 0x500, 12, 52, .rw, 0x0, 1024, 17, 32, 16, false, false⟩
/-- PCIE_CQ_CFG.EN (R386). -/
def PCIE_CQ_CFG_EN : Fld := ⟨0x42, 0x508, 0, 1, .rw, 0x0, 1024, 17, 32, 16, false, false⟩
/-- PCIE_CQ_CFG.LOG2N (R386). -/
def PCIE_CQ_CFG_LOG2N : Fld := ⟨0x42, 0x508, 1, 5, .rw, 0x4, 1024, 17, 32, 16, false, false⟩
/-- PCIE_CQ_CFG.TAIL (R386). -/
def PCIE_CQ_CFG_TAIL : Fld := ⟨0x42, 0x508, 16, 16, .ro, 0x0, 1024, 17, 32, 16, false, false⟩
/-- PCIE_CQ_CFG.HEAD (R386). -/
def PCIE_CQ_CFG_HEAD : Fld := ⟨0x42, 0x508, 32, 16, .ro, 0x0, 1024, 17, 32, 16, false, false⟩
/-- PCIE_CQ_CFG.PHASE (R386). -/
def PCIE_CQ_CFG_PHASE : Fld := ⟨0x42, 0x508, 48, 1, .ro, 0x1, 1024, 17, 32, 16, false, false⟩
/-- PCIE_CQ_IRQ.VEC (R386). -/
def PCIE_CQ_IRQ_VEC : Fld := ⟨0x42, 0x510, 0, 6, .rw, 0x0, 1024, 17, 32, 16, false, false⟩
/-- PCIE_CQ_IRQ.IEN (R386). -/
def PCIE_CQ_IRQ_IEN : Fld := ⟨0x42, 0x510, 6, 1, .rw, 0x0, 1024, 17, 32, 16, false, false⟩
/-- PCIE_CQ_IRQ.COUNT (R386). -/
def PCIE_CQ_IRQ_COUNT : Fld := ⟨0x42, 0x510, 8, 8, .rw, 0x1, 1024, 17, 32, 16, false, false⟩
/-- PCIE_CQ_IRQ.TIME (R386). -/
def PCIE_CQ_IRQ_TIME : Fld := ⟨0x42, 0x510, 16, 16, .rw, 0x0, 1024, 17, 32, 16, false, false⟩
/-- PCIE_CQ_BACKLOG.BASE (R386). -/
def PCIE_CQ_BACKLOG_BASE : Fld := ⟨0x42, 0x518, 0, 48, .rw, 0x0, 1024, 17, 32, 16, false, false⟩
/-- PCIE_CQ_BACKLOG.BLOG2N (R386). -/
def PCIE_CQ_BACKLOG_BLOG2N : Fld := ⟨0x42, 0x518, 48, 5, .rw, 0x0, 1024, 17, 32, 16, false, false⟩

/-! ### PART -/

/-- PART_CTL.LOCK (R404). -/
def PART_CTL_LOCK : Fld := ⟨0x41, 0x0, 0, 1, .wo, 0x0, 0, 0, 0, 0, false, true⟩
/-- PART_CTL.RESET (R404). -/
def PART_CTL_RESET : Fld := ⟨0x41, 0x0, 1, 1, .wo, 0x0, 0, 0, 0, 0, false, true⟩
/-- PART_CTL.CLEAR_LOCK (R404). -/
def PART_CTL_CLEAR_LOCK : Fld := ⟨0x41, 0x0, 2, 1, .wo, 0x0, 0, 0, 0, 0, false, true⟩
/-- PART_CTL.SCRUB (R404). -/
def PART_CTL_SCRUB : Fld := ⟨0x41, 0x0, 3, 1, .wo, 0x0, 0, 0, 0, 0, false, true⟩
/-- PART_CTL.PREEMPT (R404). -/
def PART_CTL_PREEMPT : Fld := ⟨0x41, 0x0, 4, 1, .wo, 0x0, 0, 0, 0, 0, false, true⟩
/-- PART_CTL.RESUME (R404). -/
def PART_CTL_RESUME : Fld := ⟨0x41, 0x0, 5, 1, .wo, 0x0, 0, 0, 0, 0, false, true⟩
/-- PART_CTL.KIND (R404). -/
def PART_CTL_KIND : Fld := ⟨0x41, 0x0, 8, 1, .rwl, 0x0, 0, 0, 0, 0, false, false⟩
/-- PART_STATUS.STATE (R404). -/
def PART_STATUS_STATE : Fld := ⟨0x41, 0x8, 0, 3, .ro, 0x0, 0, 0, 0, 0, false, false⟩
/-- PART_STATUS.LOCKED (R404). -/
def PART_STATUS_LOCKED : Fld := ⟨0x41, 0x8, 3, 1, .ro, 0x0, 0, 0, 0, 0, false, false⟩
/-- PART_STATUS.PENDING (R404). -/
def PART_STATUS_PENDING : Fld := ⟨0x41, 0x8, 4, 1, .ro, 0x0, 0, 0, 0, 0, false, false⟩
/-- PART_STATUS.NCH (R404). -/
def PART_STATUS_NCH : Fld := ⟨0x41, 0x8, 16, 9, .ro, 0x0, 0, 0, 0, 0, false, false⟩
/-- PART_STATUS.TILES (R404). -/
def PART_STATUS_TILES : Fld := ⟨0x41, 0x8, 25, 9, .ro, 0x0, 0, 0, 0, 0, false, false⟩
/-- PART_SETS.SETS (R404). -/
def PART_SETS_SETS : Fld := ⟨0x41, 0x10, 0, 48, .rwl, 0x0, 0, 0, 0, 0, false, false⟩
/-- PART_CHAN.CHAN (R404). -/
def PART_CHAN_CHAN : Fld := ⟨0x41, 0x18, 0, 64, .rwl, 0x0, 8, 4, 0, 0, false, false⟩
/-- PART_HBM.BASE (R404). -/
def PART_HBM_BASE : Fld := ⟨0x41, 0x38, 0, 48, .rwl, 0x0, 0, 0, 0, 0, false, false⟩
/-- PART_WAYS.WAYS (R404). -/
def PART_WAYS_WAYS : Fld := ⟨0x41, 0x40, 0, 64, .rwl, 0x0, 0, 0, 0, 0, false, false⟩
/-- PART_SCRATCH.SCRATCH (R404). -/
def PART_SCRATCH_SCRATCH : Fld := ⟨0x41, 0x48, 0, 64, .rwl, 0x0, 0, 0, 0, 0, false, false⟩
/-- PART_SHELF.BASE (R404). -/
def PART_SHELF_BASE : Fld := ⟨0x41, 0x50, 0, 48, .rwl, 0x0, 0, 0, 0, 0, false, false⟩
/-- PART_SHELF_LEN.LEN (R404). -/
def PART_SHELF_LEN_LEN : Fld := ⟨0x41, 0x58, 0, 40, .rwl, 0x0, 0, 0, 0, 0, false, false⟩
/-- PART_SAVE.BASE (R404). -/
def PART_SAVE_BASE : Fld := ⟨0x41, 0x60, 0, 48, .rwl, 0x0, 0, 0, 0, 0, false, false⟩
/-- PART_SAVE.EN (R404). -/
def PART_SAVE_EN : Fld := ⟨0x41, 0x60, 48, 1, .rwl, 0x0, 0, 0, 0, 0, false, false⟩
/-- PART_FORMAT.BASE (R404). -/
def PART_FORMAT_BASE : Fld := ⟨0x41, 0x68, 0, 48, .rwl, 0x0, 0, 0, 0, 0, false, false⟩
/-- PART_KVDESC.BASE (R404). -/
def PART_KVDESC_BASE : Fld := ⟨0x41, 0x70, 0, 48, .rwl, 0x0, 0, 0, 0, 0, false, false⟩
/-- PART_FABRIC.WEIGHT (R404). -/
def PART_FABRIC_WEIGHT : Fld := ⟨0x41, 0x78, 0, 6, .rwl, 0x1, 0, 0, 0, 0, false, false⟩
/-- PART_EVENTS.LOCK_VIOL (R404). -/
def PART_EVENTS_LOCK_VIOL : Fld := ⟨0x41, 0x80, 0, 1, .w1c, 0x0, 0, 0, 0, 0, false, false⟩
/-- PART_EVENTS.SETUP_BAD (R404). -/
def PART_EVENTS_SETUP_BAD : Fld := ⟨0x41, 0x80, 1, 1, .w1c, 0x0, 0, 0, 0, 0, false, false⟩
/-- PART_EVENTS.RESET_DONE (R404). -/
def PART_EVENTS_RESET_DONE : Fld := ⟨0x41, 0x80, 2, 1, .w1c, 0x0, 0, 0, 0, 0, false, false⟩
/-- PART_EVENTS.SAVE_DONE (R404). -/
def PART_EVENTS_SAVE_DONE : Fld := ⟨0x41, 0x80, 3, 1, .w1c, 0x0, 0, 0, 0, 0, false, false⟩
/-- PART_EVENTS.RESTORE_DONE (R404). -/
def PART_EVENTS_RESTORE_DONE : Fld := ⟨0x41, 0x80, 4, 1, .w1c, 0x0, 0, 0, 0, 0, false, false⟩
/-- PART_EVENTS.ACCESS (R404). -/
def PART_EVENTS_ACCESS : Fld := ⟨0x41, 0x80, 5, 1, .w1c, 0x0, 0, 0, 0, 0, false, false⟩
/-- PART_CNT_A.LOCK_VIOL_N (R404). -/
def PART_CNT_A_LOCK_VIOL_N : Fld := ⟨0x41, 0x88, 0, 16, .ro, 0x0, 0, 0, 0, 0, false, false⟩
/-- PART_CNT_A.SETUP_BAD_N (R404). -/
def PART_CNT_A_SETUP_BAD_N : Fld := ⟨0x41, 0x88, 16, 16, .ro, 0x0, 0, 0, 0, 0, false, false⟩
/-- PART_CNT_A.RESET_DONE_N (R404). -/
def PART_CNT_A_RESET_DONE_N : Fld := ⟨0x41, 0x88, 32, 16, .ro, 0x0, 0, 0, 0, 0, false, false⟩
/-- PART_CNT_A.SAVE_DONE_N (R404). -/
def PART_CNT_A_SAVE_DONE_N : Fld := ⟨0x41, 0x88, 48, 16, .ro, 0x0, 0, 0, 0, 0, false, false⟩
/-- PART_CNT_B.RESTORE_DONE_N (R404). -/
def PART_CNT_B_RESTORE_DONE_N : Fld := ⟨0x41, 0x90, 0, 16, .ro, 0x0, 0, 0, 0, 0, false, false⟩
/-- PART_CNT_B.ACCESS_N (R404). -/
def PART_CNT_B_ACCESS_N : Fld := ⟨0x41, 0x90, 16, 16, .ro, 0x0, 0, 0, 0, 0, false, false⟩
/-- PART_ABSORBED.ANSWERS (R404). -/
def PART_ABSORBED_ANSWERS : Fld := ⟨0x41, 0x98, 0, 64, .ro, 0x0, 0, 0, 0, 0, false, false⟩
/-- PART_LAST_EVENT.STAMP (R404). -/
def PART_LAST_EVENT_STAMP : Fld := ⟨0x41, 0xA0, 0, 64, .ro, 0x0, 0, 0, 0, 0, false, false⟩
/-- PART_SAVE_TIME.SAVE (R404). -/
def PART_SAVE_TIME_SAVE : Fld := ⟨0x41, 0xA8, 0, 32, .ro, 0x0, 0, 0, 0, 0, false, false⟩
/-- PART_SAVE_TIME.RESTORE (R404). -/
def PART_SAVE_TIME_RESTORE : Fld := ⟨0x41, 0xA8, 32, 32, .ro, 0x0, 0, 0, 0, 0, false, false⟩
/-- PART_SETUP_ERR.CODE (R404). -/
def PART_SETUP_ERR_CODE : Fld := ⟨0x41, 0xB0, 0, 8, .ro, 0x0, 0, 0, 0, 0, false, false⟩

/-! ### PWR -/

/-- PWR_CTL.UNPARK (R428). -/
def PWR_CTL_UNPARK : Fld := ⟨0x44, 0x0, 0, 1, .wo, 0x0, 0, 0, 0, 0, true, true⟩
/-- PWR_STATUS.ACTIVE (R428). -/
def PWR_STATUS_ACTIVE : Fld := ⟨0x44, 0x8, 0, 1, .ro, 0x0, 0, 0, 0, 0, false, false⟩
/-- PWR_STATUS.MODE (R428). -/
def PWR_STATUS_MODE : Fld := ⟨0x44, 0x8, 1, 3, .ro, 0x0, 0, 0, 0, 0, true, false⟩
/-- PWR_STATUS.FLOW_OK (R428). -/
def PWR_STATUS_FLOW_OK : Fld := ⟨0x44, 0x8, 4, 1, .ro, 0x0, 0, 0, 0, 0, true, false⟩
/-- PWR_STATUS.SAG (R428). -/
def PWR_STATUS_SAG : Fld := ⟨0x44, 0x8, 5, 1, .ro, 0x0, 0, 0, 0, 0, true, false⟩
/-- PWR_STATUS.PHASE (R428). -/
def PWR_STATUS_PHASE : Fld := ⟨0x44, 0x8, 6, 2, .ro, 0x0, 0, 0, 0, 0, true, false⟩
/-- PWR_STATUS.OPP_MAX (R428). -/
def PWR_STATUS_OPP_MAX : Fld := ⟨0x44, 0x8, 8, 5, .ro, 0x11, 0, 0, 0, 0, true, false⟩
/-- PWR_STATUS.OPP (R428). -/
def PWR_STATUS_OPP : Fld := ⟨0x44, 0x8, 16, 20, .ro, 0x0, 0, 0, 0, 0, true, false⟩
/-- PWR_CAP.MGMT (R428). -/
def PWR_CAP_MGMT : Fld := ⟨0x44, 0x10, 0, 16, .ro, 0xE10, 0, 0, 0, 0, true, false⟩
/-- PWR_CAP.FORCE (R428). -/
def PWR_CAP_FORCE : Fld := ⟨0x44, 0x10, 16, 1, .ro, 0x0, 0, 0, 0, 0, true, false⟩
/-- PWR_CAP.EFFECTIVE (R428). -/
def PWR_CAP_EFFECTIVE : Fld := ⟨0x44, 0x10, 32, 16, .ro, 0xE10, 0, 0, 0, 0, true, false⟩
/-- PWR_CAP.C_FORCED (R428). -/
def PWR_CAP_C_FORCED : Fld := ⟨0x44, 0x10, 48, 1, .ro, 0x0, 0, 0, 0, 0, true, false⟩
/-- PWR_HOST_CAP.CAP (R428). -/
def PWR_HOST_CAP_CAP : Fld := ⟨0x44, 0x18, 0, 16, .rw, 0xE10, 0, 0, 0, 0, true, true⟩
/-- PWR_FLOOR.DECL (R428). -/
def PWR_FLOOR_DECL : Fld := ⟨0x44, 0x20, 0, 16, .rwl, 0x0, 0, 0, 0, 0, true, true⟩
/-- PWR_FLOOR.MEAS (R428). -/
def PWR_FLOOR_MEAS : Fld := ⟨0x44, 0x20, 16, 16, .ro, 0x0, 0, 0, 0, 0, true, false⟩
/-- PWR_FLOOR.EFF (R428). -/
def PWR_FLOOR_EFF : Fld := ⟨0x44, 0x20, 32, 16, .ro, 0x0, 0, 0, 0, 0, true, false⟩
/-- PWR_RAMP.DN (R428). -/
def PWR_RAMP_DN : Fld := ⟨0x44, 0x28, 0, 16, .rw, 0x190, 0, 0, 0, 0, true, false⟩
/-- PWR_RAMP.UP (R428). -/
def PWR_RAMP_UP : Fld := ⟨0x44, 0x28, 16, 16, .rw, 0x190, 0, 0, 0, 0, true, false⟩
/-- PWR_RAMP.GUARD (R428). -/
def PWR_RAMP_GUARD : Fld := ⟨0x44, 0x28, 32, 8, .rwl, 0x4, 0, 0, 0, 0, true, false⟩
/-- PWR_SAG.SAG_CAP (R428). -/
def PWR_SAG_SAG_CAP : Fld := ⟨0x44, 0x30, 0, 16, .rw, 0x960, 0, 0, 0, 0, true, false⟩
/-- PWR_SAG.FORCE (R428). -/
def PWR_SAG_FORCE : Fld := ⟨0x44, 0x30, 16, 1, .rw, 0x1, 0, 0, 0, 0, true, false⟩
/-- PWR_OPP_PREF.PREFILL (R428). -/
def PWR_OPP_PREF_PREFILL : Fld := ⟨0x44, 0x38, 0, 5, .rw, 0x11, 0, 0, 0, 0, true, false⟩
/-- PWR_OPP_PREF.DECODE (R428). -/
def PWR_OPP_PREF_DECODE : Fld := ⟨0x44, 0x38, 8, 5, .rw, 0x11, 0, 0, 0, 0, true, false⟩
/-- PWR_OPP_PREF.DRAFT (R428). -/
def PWR_OPP_PREF_DRAFT : Fld := ⟨0x44, 0x38, 16, 5, .rw, 0x11, 0, 0, 0, 0, true, false⟩
/-- PWR_OPP_PREF.IDLE (R428). -/
def PWR_OPP_PREF_IDLE : Fld := ⟨0x44, 0x38, 24, 5, .rw, 0x0, 0, 0, 0, 0, true, false⟩
/-- PWR_DRAFT_SETS.SETS (R428). -/
def PWR_DRAFT_SETS_SETS : Fld := ⟨0x44, 0x40, 0, 48, .rwl, 0x0, 0, 0, 0, 0, true, false⟩
/-- PWR_EST.LAST (R428). -/
def PWR_EST_LAST : Fld := ⟨0x44, 0x48, 0, 16, .ro, 0x0, 0, 0, 0, 0, true, false⟩
/-- PWR_EST.PEAK (R428). -/
def PWR_EST_PEAK : Fld := ⟨0x44, 0x48, 16, 16, .ro, 0x0, 0, 0, 0, 0, true, false⟩
/-- PWR_EST.MEAN (R428). -/
def PWR_EST_MEAN : Fld := ⟨0x44, 0x48, 32, 16, .ro, 0x0, 0, 0, 0, 0, true, false⟩
/-- PWR_TEMP.C0_M3 (R428). -/
def PWR_TEMP_C0_M3 : Fld := ⟨0x44, 0x50, 0, 64, .ro, 0x0, 0, 0, 0, 0, true, false⟩
/-- PWR_THERM.X0 (R428). -/
def PWR_THERM_X0 : Fld := ⟨0x44, 0x58, 0, 8, .ro, 0x0, 0, 0, 0, 0, true, false⟩
/-- PWR_THERM.X1 (R428). -/
def PWR_THERM_X1 : Fld := ⟨0x44, 0x58, 8, 8, .ro, 0x0, 0, 0, 0, 0, true, false⟩
/-- PWR_THERM.THROTTLE (R428). -/
def PWR_THERM_THROTTLE : Fld := ⟨0x44, 0x58, 16, 8, .rwl, 0x64, 0, 0, 0, 0, true, false⟩
/-- PWR_THERM.TRIP (R428). -/
def PWR_THERM_TRIP : Fld := ⟨0x44, 0x58, 24, 8, .ro, 0x6E, 0, 0, 0, 0, true, false⟩
/-- PWR_EVENTS.THROTTLE (R428). -/
def PWR_EVENTS_THROTTLE : Fld := ⟨0x44, 0x60, 0, 1, .w1c, 0x0, 0, 0, 0, 0, true, false⟩
/-- PWR_EVENTS.FLOOR_HOLD (R428). -/
def PWR_EVENTS_FLOOR_HOLD : Fld := ⟨0x44, 0x60, 1, 1, .w1c, 0x0, 0, 0, 0, 0, true, false⟩
/-- PWR_EVENTS.FLOOR_LOW (R428). -/
def PWR_EVENTS_FLOOR_LOW : Fld := ⟨0x44, 0x60, 2, 1, .w1c, 0x0, 0, 0, 0, 0, true, false⟩
/-- PWR_EVENTS.FLOW_LOST (R428). -/
def PWR_EVENTS_FLOW_LOST : Fld := ⟨0x44, 0x60, 3, 1, .w1c, 0x0, 0, 0, 0, 0, true, false⟩
/-- PWR_EVENTS.SAG (R428). -/
def PWR_EVENTS_SAG : Fld := ⟨0x44, 0x60, 4, 1, .w1c, 0x0, 0, 0, 0, 0, true, false⟩
/-- PWR_EVENTS.THERM_HOT (R428). -/
def PWR_EVENTS_THERM_HOT : Fld := ⟨0x44, 0x60, 5, 1, .w1c, 0x0, 0, 0, 0, 0, true, false⟩
/-- PWR_EVENTS.THERM_TRIP (R428). -/
def PWR_EVENTS_THERM_TRIP : Fld := ⟨0x44, 0x60, 6, 1, .w1c, 0x0, 0, 0, 0, 0, true, false⟩
/-- PWR_EVENTS.PREF_RAISED (R428). -/
def PWR_EVENTS_PREF_RAISED : Fld := ⟨0x44, 0x60, 7, 1, .w1c, 0x0, 0, 0, 0, 0, true, false⟩
/-- PWR_CNT_A.THROTTLE_N (R428). -/
def PWR_CNT_A_THROTTLE_N : Fld := ⟨0x44, 0x68, 0, 16, .ro, 0x0, 0, 0, 0, 0, true, false⟩
/-- PWR_CNT_A.FLOOR_HOLD_N (R428). -/
def PWR_CNT_A_FLOOR_HOLD_N : Fld := ⟨0x44, 0x68, 16, 16, .ro, 0x0, 0, 0, 0, 0, true, false⟩
/-- PWR_CNT_A.FLOOR_LOW_N (R428). -/
def PWR_CNT_A_FLOOR_LOW_N : Fld := ⟨0x44, 0x68, 32, 16, .ro, 0x0, 0, 0, 0, 0, true, false⟩
/-- PWR_CNT_A.FLOW_LOST_N (R428). -/
def PWR_CNT_A_FLOW_LOST_N : Fld := ⟨0x44, 0x68, 48, 16, .ro, 0x0, 0, 0, 0, 0, true, false⟩
/-- PWR_CNT_B.SAG_N (R428). -/
def PWR_CNT_B_SAG_N : Fld := ⟨0x44, 0x70, 0, 16, .ro, 0x0, 0, 0, 0, 0, true, false⟩
/-- PWR_CNT_B.THERM_HOT_N (R428). -/
def PWR_CNT_B_THERM_HOT_N : Fld := ⟨0x44, 0x70, 16, 16, .ro, 0x0, 0, 0, 0, 0, true, false⟩
/-- PWR_CNT_B.THERM_TRIP_N (R428). -/
def PWR_CNT_B_THERM_TRIP_N : Fld := ⟨0x44, 0x70, 32, 16, .ro, 0x0, 0, 0, 0, 0, true, false⟩
/-- PWR_CNT_B.PREF_RAISED_N (R428). -/
def PWR_CNT_B_PREF_RAISED_N : Fld := ⟨0x44, 0x70, 48, 16, .ro, 0x0, 0, 0, 0, 0, true, false⟩
/-- PWR_LAST_EVENT.STAMP (R428). -/
def PWR_LAST_EVENT_STAMP : Fld := ⟨0x44, 0x78, 0, 64, .ro, 0x0, 0, 0, 0, 0, true, false⟩
/-- PWR_ENERGY.ENERGY (R428). -/
def PWR_ENERGY_ENERGY : Fld := ⟨0x44, 0x80, 0, 64, .ro, 0x0, 0, 0, 0, 0, true, false⟩
/-- PWR_THR_WIN.WINDOWS (R428). -/
def PWR_THR_WIN_WINDOWS : Fld := ⟨0x44, 0x88, 0, 64, .ro, 0x0, 0, 0, 0, 0, true, false⟩
/-- PWR_WEIGHT.WEIGHT (R428). -/
def PWR_WEIGHT_WEIGHT : Fld := ⟨0x44, 0xC0, 0, 32, .ro, 0x0, 8, 8, 0, 0, true, false⟩
/-- PWR_PART_ENERGY.ENERGY (R428). -/
def PWR_PART_ENERGY_ENERGY : Fld := ⟨0x44, 0x100, 0, 64, .ro, 0x0, 16, 16, 0, 0, true, false⟩
/-- PWR_PART_BAR.LAST (R428). -/
def PWR_PART_BAR_LAST : Fld := ⟨0x44, 0x108, 0, 32, .ro, 0x0, 16, 16, 0, 0, true, false⟩

/-! ### HEALTH -/

/-- HEALTH_CTL.EN (R449). -/
def HEALTH_CTL_EN : Fld := ⟨0x45, 0x0, 0, 1, .rwl, 0x0, 0, 0, 0, 0, false, false⟩
/-- HEALTH_CTL.REPLAN_NOW (R449). -/
def HEALTH_CTL_REPLAN_NOW : Fld := ⟨0x45, 0x0, 1, 1, .wo, 0x0, 0, 0, 0, 0, false, true⟩
/-- HEALTH_CTL.CLEAR_FAILED (R449). -/
def HEALTH_CTL_CLEAR_FAILED : Fld := ⟨0x45, 0x0, 2, 1, .wo, 0x0, 0, 0, 0, 0, false, true⟩
/-- HEALTH_CTL.TAKEOVER_EN (R449). -/
def HEALTH_CTL_TAKEOVER_EN : Fld := ⟨0x45, 0x0, 3, 1, .rwl, 0x0, 0, 0, 0, 0, false, false⟩
/-- HEALTH_CFG.REPLAN_BARS (R449). -/
def HEALTH_CFG_REPLAN_BARS : Fld := ⟨0x45, 0x8, 0, 32, .rw, 0x1017DF8, 0, 0, 0, 0, false, false⟩
/-- HEALTH_CFG.SWEEP_BARS (R449). -/
def HEALTH_CFG_SWEEP_BARS : Fld := ⟨0x45, 0x8, 32, 16, .rw, 0x100, 0, 0, 0, 0, false, false⟩
/-- HEALTH_CFG.UNLOCK_MONTHS (R449). -/
def HEALTH_CFG_UNLOCK_MONTHS : Fld := ⟨0x45, 0x8, 48, 8, .rw, 0x18, 0, 0, 0, 0, false, false⟩
/-- HEALTH_CFG.WARN_MONTHS (R449). -/
def HEALTH_CFG_WARN_MONTHS : Fld := ⟨0x45, 0x8, 56, 8, .rw, 0xC, 0, 0, 0, 0, false, false⟩
/-- HEALTH_FLOOR.SLACK_PS (R449). -/
def HEALTH_FLOOR_SLACK_PS : Fld := ⟨0x45, 0x10, 0, 8, .rwl, 0xF, 0, 0, 0, 0, false, false⟩
/-- HEALTH_FLOOR.OFFSET_MAX (R449). -/
def HEALTH_FLOOR_OFFSET_MAX : Fld := ⟨0x45, 0x10, 8, 8, .rwl, 0x3C, 0, 0, 0, 0, false, false⟩
/-- HEALTH_FLOOR.EYE_MV (R449). -/
def HEALTH_FLOOR_EYE_MV : Fld := ⟨0x45, 0x10, 16, 8, .rwl, 0xF, 0, 0, 0, 0, false, false⟩
/-- HEALTH_FLOOR.HBM_STEPS (R449). -/
def HEALTH_FLOOR_HBM_STEPS : Fld := ⟨0x45, 0x10, 24, 8, .rwl, 0x4, 0, 0, 0, 0, false, false⟩
/-- HEALTH_FLOOR.SENS (R449). -/
def HEALTH_FLOOR_SENS : Fld := ⟨0x45, 0x10, 32, 8, .ro, 0x0, 0, 0, 0, 0, false, false⟩
/-- HEALTH_STATUS.ELIGIBLE (R449). -/
def HEALTH_STATUS_ELIGIBLE : Fld := ⟨0x45, 0x18, 0, 1, .ro, 0x0, 0, 0, 0, 0, false, false⟩
/-- HEALTH_STATUS.FAILED (R449). -/
def HEALTH_STATUS_FAILED : Fld := ⟨0x45, 0x18, 1, 1, .ro, 0x0, 0, 0, 0, 0, false, false⟩
/-- HEALTH_STATUS.CAUSE (R449). -/
def HEALTH_STATUS_CAUSE : Fld := ⟨0x45, 0x18, 2, 8, .ro, 0x0, 0, 0, 0, 0, false, false⟩
/-- HEALTH_STATUS.REPLAN (R449). -/
def HEALTH_STATUS_REPLAN : Fld := ⟨0x45, 0x18, 10, 1, .ro, 0x0, 0, 0, 0, 0, false, false⟩
/-- HEALTH_STATUS.COORD (R449). -/
def HEALTH_STATUS_COORD : Fld := ⟨0x45, 0x18, 11, 1, .ro, 0x0, 0, 0, 0, 0, false, false⟩
/-- HEALTH_REPLAN.TILE (R449). -/
def HEALTH_REPLAN_TILE : Fld := ⟨0x45, 0x20, 0, 9, .ro, 0x0, 0, 0, 0, 0, false, false⟩
/-- HEALTH_REPLAN.PHYS (R449). -/
def HEALTH_REPLAN_PHYS : Fld := ⟨0x45, 0x20, 9, 10, .ro, 0x0, 0, 0, 0, 0, false, false⟩
/-- HEALTH_REPLAN.SPARE (R449). -/
def HEALTH_REPLAN_SPARE : Fld := ⟨0x45, 0x20, 19, 10, .ro, 0x0, 0, 0, 0, 0, false, false⟩
/-- HEALTH_REPLAN.STAGE (R449). -/
def HEALTH_REPLAN_STAGE : Fld := ⟨0x45, 0x20, 29, 3, .ro, 0x0, 0, 0, 0, 0, false, false⟩
/-- HEALTH_REPLAN.DONE (R449). -/
def HEALTH_REPLAN_DONE : Fld := ⟨0x45, 0x20, 32, 32, .ro, 0x0, 0, 0, 0, 0, false, false⟩
/-- HEALTH_MARGIN.OFFSET (R449). -/
def HEALTH_MARGIN_OFFSET : Fld := ⟨0x45, 0x28, 0, 8, .ro, 0x0, 8, 4, 0, 0, false, false⟩
/-- HEALTH_MARGIN.SLACK (R449). -/
def HEALTH_MARGIN_SLACK : Fld := ⟨0x45, 0x28, 8, 8, .ro, 0x0, 8, 4, 0, 0, false, false⟩
/-- HEALTH_MARGIN.FORECAST (R449). -/
def HEALTH_MARGIN_FORECAST : Fld := ⟨0x45, 0x28, 16, 12, .ro, 0xFFF, 8, 4, 0, 0, false, false⟩
/-- HEALTH_FORECAST.MONTHS (R449). -/
def HEALTH_FORECAST_MONTHS : Fld := ⟨0x45, 0x48, 0, 12, .ro, 0xFFF, 0, 0, 0, 0, false, false⟩
/-- HEALTH_FORECAST.CLASS (R449). -/
def HEALTH_FORECAST_CLASS : Fld := ⟨0x45, 0x48, 12, 12, .ro, 0x0, 0, 0, 0, 0, false, false⟩
/-- HEALTH_FORECAST.INSTANCE (R449). -/
def HEALTH_FORECAST_INSTANCE : Fld := ⟨0x45, 0x48, 24, 16, .ro, 0x0, 0, 0, 0, 0, false, false⟩
/-- HEALTH_TK_KEY.KEY (R449). -/
def HEALTH_TK_KEY_KEY : Fld := ⟨0x45, 0x50, 0, 16, .rwl, 0x0, 0, 0, 0, 0, false, false⟩
/-- HEALTH_TK_OFF.OFFSET (R449). -/
def HEALTH_TK_OFF_OFFSET : Fld := ⟨0x45, 0x58, 0, 40, .rwl, 0x0, 0, 0, 0, 0, false, false⟩
/-- HEALTH_TK_LEN.LEN (R449). -/
def HEALTH_TK_LEN_LEN : Fld := ⟨0x45, 0x60, 0, 32, .rwl, 0x0, 0, 0, 0, 0, false, false⟩
/-- HEALTH_EVENTS.ROLE_FAILED (R449). -/
def HEALTH_EVENTS_ROLE_FAILED : Fld := ⟨0x45, 0x68, 0, 1, .w1c, 0x0, 0, 0, 0, 0, false, false⟩
/-- HEALTH_EVENTS.TAKEOVER (R449). -/
def HEALTH_EVENTS_TAKEOVER : Fld := ⟨0x45, 0x68, 1, 1, .w1c, 0x0, 0, 0, 0, 0, false, false⟩
/-- HEALTH_EVENTS.NO_SPARE (R449). -/
def HEALTH_EVENTS_NO_SPARE : Fld := ⟨0x45, 0x68, 2, 1, .w1c, 0x0, 0, 0, 0, 0, false, false⟩
/-- HEALTH_EVENTS.RETIRED (R449). -/
def HEALTH_EVENTS_RETIRED : Fld := ⟨0x45, 0x68, 3, 1, .w1c, 0x0, 0, 0, 0, 0, false, false⟩
/-- HEALTH_EVENTS.MARGIN_LOW (R449). -/
def HEALTH_EVENTS_MARGIN_LOW : Fld := ⟨0x45, 0x68, 4, 1, .w1c, 0x0, 0, 0, 0, 0, false, false⟩
/-- HEALTH_EVENTS.FORECAST_LOW (R449). -/
def HEALTH_EVENTS_FORECAST_LOW : Fld := ⟨0x45, 0x68, 5, 1, .w1c, 0x0, 0, 0, 0, 0, false, false⟩
/-- HEALTH_EVENTS.REPLAN_SKIP (R449). -/
def HEALTH_EVENTS_REPLAN_SKIP : Fld := ⟨0x45, 0x68, 6, 1, .w1c, 0x0, 0, 0, 0, 0, false, false⟩
/-- HEALTH_EVENTS.CORE_WDOG (R449). -/
def HEALTH_EVENTS_CORE_WDOG : Fld := ⟨0x45, 0x68, 7, 1, .w1c, 0x0, 0, 0, 0, 0, false, false⟩
/-- HEALTH_EVENTS.CORE_CHECK (R449). -/
def HEALTH_EVENTS_CORE_CHECK : Fld := ⟨0x45, 0x68, 8, 1, .w1c, 0x0, 0, 0, 0, 0, false, false⟩
/-- HEALTH_EVENTS.JOURNAL_REBUILD (R449). -/
def HEALTH_EVENTS_JOURNAL_REBUILD : Fld := ⟨0x45, 0x68, 9, 1, .w1c, 0x0, 0, 0, 0, 0, false, false⟩
/-- HEALTH_EVENTS.LOG_LOST (R449). -/
def HEALTH_EVENTS_LOG_LOST : Fld := ⟨0x45, 0x68, 10, 1, .w1c, 0x0, 0, 0, 0, 0, false, false⟩
/-- HEALTH_CNT_A.ROLE_FAILED_N (R449). -/
def HEALTH_CNT_A_ROLE_FAILED_N : Fld := ⟨0x45, 0x70, 0, 16, .ro, 0x0, 0, 0, 0, 0, false, false⟩
/-- HEALTH_CNT_A.TAKEOVER_N (R449). -/
def HEALTH_CNT_A_TAKEOVER_N : Fld := ⟨0x45, 0x70, 16, 16, .ro, 0x0, 0, 0, 0, 0, false, false⟩
/-- HEALTH_CNT_A.NO_SPARE_N (R449). -/
def HEALTH_CNT_A_NO_SPARE_N : Fld := ⟨0x45, 0x70, 32, 16, .ro, 0x0, 0, 0, 0, 0, false, false⟩
/-- HEALTH_CNT_A.RETIRED_N (R449). -/
def HEALTH_CNT_A_RETIRED_N : Fld := ⟨0x45, 0x70, 48, 16, .ro, 0x0, 0, 0, 0, 0, false, false⟩
/-- HEALTH_CNT_B.MARGIN_LOW_N (R449). -/
def HEALTH_CNT_B_MARGIN_LOW_N : Fld := ⟨0x45, 0x78, 0, 16, .ro, 0x0, 0, 0, 0, 0, false, false⟩
/-- HEALTH_CNT_B.FORECAST_LOW_N (R449). -/
def HEALTH_CNT_B_FORECAST_LOW_N : Fld := ⟨0x45, 0x78, 16, 16, .ro, 0x0, 0, 0, 0, 0, false, false⟩
/-- HEALTH_CNT_B.REPLAN_SKIP_N (R449). -/
def HEALTH_CNT_B_REPLAN_SKIP_N : Fld := ⟨0x45, 0x78, 32, 16, .ro, 0x0, 0, 0, 0, 0, false, false⟩
/-- HEALTH_CNT_B.CORE_WDOG_N (R449). -/
def HEALTH_CNT_B_CORE_WDOG_N : Fld := ⟨0x45, 0x78, 48, 16, .ro, 0x0, 0, 0, 0, 0, false, false⟩
/-- HEALTH_CNT_C.CORE_CHECK_N (R449). -/
def HEALTH_CNT_C_CORE_CHECK_N : Fld := ⟨0x45, 0x80, 0, 16, .ro, 0x0, 0, 0, 0, 0, false, false⟩
/-- HEALTH_CNT_C.JOURNAL_REBUILD_N (R449). -/
def HEALTH_CNT_C_JOURNAL_REBUILD_N : Fld := ⟨0x45, 0x80, 16, 16, .ro, 0x0, 0, 0, 0, 0, false, false⟩
/-- HEALTH_CNT_C.LOG_LOST_N (R449). -/
def HEALTH_CNT_C_LOG_LOST_N : Fld := ⟨0x45, 0x80, 32, 16, .ro, 0x0, 0, 0, 0, 0, false, false⟩
/-- HEALTH_LAST_EVENT.STAMP (R449). -/
def HEALTH_LAST_EVENT_STAMP : Fld := ⟨0x45, 0x88, 0, 64, .ro, 0x0, 0, 0, 0, 0, false, false⟩
/-- HEALTH_LOG.BASE (R449). -/
def HEALTH_LOG_BASE : Fld := ⟨0x45, 0x90, 0, 48, .rwl, 0x0, 0, 0, 0, 0, false, false⟩
/-- HEALTH_LOG_SEQ.SEQ (R449). -/
def HEALTH_LOG_SEQ_SEQ : Fld := ⟨0x45, 0x98, 0, 48, .ro, 0x0, 0, 0, 0, 0, false, false⟩
/-- HEALTH_LOG_COMMIT.STAMP (R449). -/
def HEALTH_LOG_COMMIT_STAMP : Fld := ⟨0x45, 0xA0, 0, 64, .ro, 0x0, 0, 0, 0, 0, false, false⟩
/-- HEALTH_SPARES.C0 (R449). -/
def HEALTH_SPARES_C0 : Fld := ⟨0x45, 0xA8, 0, 3, .ro, 0x0, 0, 0, 0, 0, false, false⟩
/-- HEALTH_SPARES.C1 (R449). -/
def HEALTH_SPARES_C1 : Fld := ⟨0x45, 0xA8, 4, 3, .ro, 0x0, 0, 0, 0, 0, false, false⟩
/-- HEALTH_SPARES.C2 (R449). -/
def HEALTH_SPARES_C2 : Fld := ⟨0x45, 0xA8, 8, 3, .ro, 0x0, 0, 0, 0, 0, false, false⟩
/-- HEALTH_SPARES.C3 (R449). -/
def HEALTH_SPARES_C3 : Fld := ⟨0x45, 0xA8, 12, 3, .ro, 0x0, 0, 0, 0, 0, false, false⟩
/-- HEALTH_SPARES.X0 (R449). -/
def HEALTH_SPARES_X0 : Fld := ⟨0x45, 0xA8, 16, 3, .ro, 0x0, 0, 0, 0, 0, false, false⟩
/-- HEALTH_SPARES.X1 (R449). -/
def HEALTH_SPARES_X1 : Fld := ⟨0x45, 0xA8, 20, 3, .ro, 0x0, 0, 0, 0, 0, false, false⟩
/-- HEALTH_TK_LAST.STAMP (R449). -/
def HEALTH_TK_LAST_STAMP : Fld := ⟨0x45, 0xB0, 0, 64, .ro, 0x0, 0, 0, 0, 0, false, false⟩

/-! ### SEC -/

/-- SEC_STATUS.LIFECYCLE (R473). -/
def SEC_STATUS_LIFECYCLE : Fld := ⟨0x43, 0x0, 0, 2, .ro, 0x0, 0, 0, 0, 0, true, false⟩
/-- SEC_STATUS.DEBUG (R473). -/
def SEC_STATUS_DEBUG : Fld := ⟨0x43, 0x0, 2, 1, .ro, 0x0, 0, 0, 0, 0, true, false⟩
/-- SEC_STATUS.DEBUG_KIND (R473). -/
def SEC_STATUS_DEBUG_KIND : Fld := ⟨0x43, 0x0, 3, 1, .ro, 0x0, 0, 0, 0, 0, true, false⟩
/-- SEC_STATUS.DEBUG_DISABLED (R473). -/
def SEC_STATUS_DEBUG_DISABLED : Fld := ⟨0x43, 0x0, 4, 1, .ro, 0x0, 0, 0, 0, 0, true, false⟩
/-- SEC_STATUS.STAGE (R473). -/
def SEC_STATUS_STAGE : Fld := ⟨0x43, 0x0, 8, 4, .ro, 0x0, 0, 0, 0, 0, true, false⟩
/-- SEC_STATUS.BOOT_FAIL (R473). -/
def SEC_STATUS_BOOT_FAIL : Fld := ⟨0x43, 0x0, 12, 1, .ro, 0x0, 0, 0, 0, 0, true, false⟩
/-- SEC_SVN.FUSED (R473). -/
def SEC_SVN_FUSED : Fld := ⟨0x43, 0x8, 0, 7, .ro, 0x0, 0, 0, 0, 0, true, false⟩
/-- SEC_SVN.IMAGE (R473). -/
def SEC_SVN_IMAGE : Fld := ⟨0x43, 0x8, 8, 7, .ro, 0x0, 0, 0, 0, 0, true, false⟩
/-- SEC_SVN.VERSION (R473). -/
def SEC_SVN_VERSION : Fld := ⟨0x43, 0x8, 16, 32, .ro, 0x0, 0, 0, 0, 0, true, false⟩
/-- SEC_PKG.PKG_ID (R473). -/
def SEC_PKG_PKG_ID : Fld := ⟨0x43, 0x10, 0, 12, .ro, 0xFFF, 0, 0, 0, 0, true, false⟩
/-- SEC_PKG.ASSIGNED (R473). -/
def SEC_PKG_ASSIGNED : Fld := ⟨0x43, 0x10, 12, 1, .ro, 0x0, 0, 0, 0, 0, true, false⟩
/-- SEC_PKG.POS (R473). -/
def SEC_PKG_POS : Fld := ⟨0x43, 0x10, 16, 6, .ro, 0x0, 0, 0, 0, 0, true, false⟩
/-- SEC_OWNER.VALID (R473). -/
def SEC_OWNER_VALID : Fld := ⟨0x43, 0x18, 0, 4, .ro, 0x0, 0, 0, 0, 0, true, false⟩
/-- SEC_OWNER.REVOKED (R473). -/
def SEC_OWNER_REVOKED : Fld := ⟨0x43, 0x18, 4, 4, .ro, 0x0, 0, 0, 0, 0, true, false⟩
/-- SEC_OWNER.SPOILED (R473). -/
def SEC_OWNER_SPOILED : Fld := ⟨0x43, 0x18, 8, 4, .ro, 0x0, 0, 0, 0, 0, true, false⟩
/-- SEC_OWNER.FW_REVOKED (R473). -/
def SEC_OWNER_FW_REVOKED : Fld := ⟨0x43, 0x18, 12, 2, .ro, 0x0, 0, 0, 0, 0, true, false⟩
/-- SEC_UID_LO.UID (R473). -/
def SEC_UID_LO_UID : Fld := ⟨0x43, 0x20, 0, 64, .ro, 0x0, 0, 0, 0, 0, true, false⟩
/-- SEC_UID_HI.UID (R473). -/
def SEC_UID_HI_UID : Fld := ⟨0x43, 0x28, 0, 64, .ro, 0x0, 0, 0, 0, 0, true, false⟩
/-- SEC_MEAS.GEN (R473). -/
def SEC_MEAS_GEN : Fld := ⟨0x43, 0x30, 0, 32, .ro, 0x0, 0, 0, 0, 0, true, false⟩
/-- SEC_STAGED_RANK.RANK (R473). -/
def SEC_STAGED_RANK_RANK : Fld := ⟨0x43, 0x38, 0, 12, .ro, 0x0, 0, 0, 0, 0, true, false⟩
/-- SEC_STAGED_RANK.VALID (R473). -/
def SEC_STAGED_RANK_VALID : Fld := ⟨0x43, 0x38, 12, 1, .ro, 0x0, 0, 0, 0, 0, true, false⟩
/-- SEC_EVENTS.FW_REJECT (R473). -/
def SEC_EVENTS_FW_REJECT : Fld := ⟨0x43, 0x40, 0, 1, .w1c, 0x0, 0, 0, 0, 0, true, false⟩
/-- SEC_EVENTS.FUSE_ECC (R473). -/
def SEC_EVENTS_FUSE_ECC : Fld := ⟨0x43, 0x40, 1, 1, .w1c, 0x0, 0, 0, 0, 0, true, false⟩
/-- SEC_EVENTS.KEY_REFUSED (R473). -/
def SEC_EVENTS_KEY_REFUSED : Fld := ⟨0x43, 0x40, 2, 1, .w1c, 0x0, 0, 0, 0, 0, true, false⟩
/-- SEC_EVENTS.ID_CONFLICT (R473). -/
def SEC_EVENTS_ID_CONFLICT : Fld := ⟨0x43, 0x40, 3, 1, .w1c, 0x0, 0, 0, 0, 0, true, false⟩
/-- SEC_EVENTS.SPDM_ERR (R473). -/
def SEC_EVENTS_SPDM_ERR : Fld := ⟨0x43, 0x40, 4, 1, .w1c, 0x0, 0, 0, 0, 0, true, false⟩
/-- SEC_EVENTS.DEBUG_ACTIVE (R473). -/
def SEC_EVENTS_DEBUG_ACTIVE : Fld := ⟨0x43, 0x40, 5, 1, .w1c, 0x0, 0, 0, 0, 0, true, false⟩
/-- SEC_EVENTS.FUSE_BURNT (R473). -/
def SEC_EVENTS_FUSE_BURNT : Fld := ⟨0x43, 0x40, 6, 1, .w1c, 0x0, 0, 0, 0, 0, true, false⟩
/-- SEC_CNT_A.FW_REJECT_N (R473). -/
def SEC_CNT_A_FW_REJECT_N : Fld := ⟨0x43, 0x48, 0, 16, .ro, 0x0, 0, 0, 0, 0, true, false⟩
/-- SEC_CNT_A.FUSE_ECC_N (R473). -/
def SEC_CNT_A_FUSE_ECC_N : Fld := ⟨0x43, 0x48, 16, 16, .ro, 0x0, 0, 0, 0, 0, true, false⟩
/-- SEC_CNT_A.KEY_REFUSED_N (R473). -/
def SEC_CNT_A_KEY_REFUSED_N : Fld := ⟨0x43, 0x48, 32, 16, .ro, 0x0, 0, 0, 0, 0, true, false⟩
/-- SEC_CNT_A.ID_CONFLICT_N (R473). -/
def SEC_CNT_A_ID_CONFLICT_N : Fld := ⟨0x43, 0x48, 48, 16, .ro, 0x0, 0, 0, 0, 0, true, false⟩
/-- SEC_CNT_B.SPDM_ERR_N (R473). -/
def SEC_CNT_B_SPDM_ERR_N : Fld := ⟨0x43, 0x50, 0, 16, .ro, 0x0, 0, 0, 0, 0, true, false⟩
/-- SEC_CNT_B.DEBUG_ACTIVE_N (R473). -/
def SEC_CNT_B_DEBUG_ACTIVE_N : Fld := ⟨0x43, 0x50, 16, 16, .ro, 0x0, 0, 0, 0, 0, true, false⟩
/-- SEC_CNT_B.FUSE_BURNT_N (R473). -/
def SEC_CNT_B_FUSE_BURNT_N : Fld := ⟨0x43, 0x50, 32, 16, .ro, 0x0, 0, 0, 0, 0, true, false⟩
/-- SEC_LAST_EVENT.STAMP (R473). -/
def SEC_LAST_EVENT_STAMP : Fld := ⟨0x43, 0x58, 0, 64, .ro, 0x0, 0, 0, 0, 0, true, false⟩
/-- SEC_BOOT_TIME.MS (R473). -/
def SEC_BOOT_TIME_MS : Fld := ⟨0x43, 0x60, 0, 32, .ro, 0x0, 0, 0, 0, 0, true, false⟩

/-- Every field of the TEMPO block. -/
def allTEMPO : List Fld :=
  [TEMPO_CTL_EN, TEMPO_CTL_PREF, TEMPO_CTL_SWAP, TEMPO_PERIOD_HALF_US, TEMPO_STATUS_SEL, TEMPO_STATUS_LOCKED, TEMPO_STATUS_COUNT_VALID, TEMPO_STATUS_A_QUAL, TEMPO_STATUS_B_QUAL, TEMPO_STATUS_EXPIRED, TEMPO_STATUS_HOLD_BEATS, TEMPO_STATUS_AB_SKEW, TEMPO_EVENTS_A_LOST, TEMPO_EVENTS_B_LOST, TEMPO_EVENTS_FAILOVER, TEMPO_EVENTS_HOLDOVER, TEMPO_EVENTS_HOLD_EXPIRED, TEMPO_EVENTS_COUNT_FAULT, TEMPO_EVENTS_PERIOD_FAULT, TEMPO_EVENTS_OVERRUN, TEMPO_EVENTS_BARRIER_LATE, TEMPO_EVENTS_BARRIER_TMO, TEMPO_CNT_A_A_LOST_N, TEMPO_CNT_A_B_LOST_N, TEMPO_CNT_A_FAILOVER_N, TEMPO_CNT_A_HOLDOVER_N, TEMPO_CNT_B_HOLD_EXPIRED_N, TEMPO_CNT_B_COUNT_FAULT_N, TEMPO_CNT_B_PERIOD_FAULT_N, TEMPO_CNT_B_OVERRUN_N, TEMPO_CNT_C_BARRIER_LATE_N, TEMPO_CNT_C_BARRIER_TMO_N, TEMPO_NOW_NOW, TEMPO_BAR_CFG_BAR_LEN, TEMPO_BAR_CFG_GUARD, TEMPO_BAR_CFG_TMO, TEMPO_BAR_NUM_BAR, TEMPO_BAR_START_START, TEMPO_OVR_LAST_BEATS, TEMPO_OVR_LAST_LATE_PKG] ++
  [TEMPO_OVR_BAR_BAR, TEMPO_BAR_MISS_LOW_PKG, TEMPO_BAR_MISS_COUNT]

/-- Every field of the SCHED block. -/
def allSCHED : List Fld :=
  [SCHED_CTL_EN, SCHED_CTL_KILL, SCHED_CTL_RESUME, SCHED_CTL_LATE_LIM, SCHED_CTL_PART, SCHED_STREAM_ADDR, SCHED_STREAM_LEN_LEN, SCHED_STATUS_STATE, SCHED_STATUS_POISON, SCHED_STATUS_ISSUE_IDX, SCHED_STATUS_COMMIT_IDX, SCHED_STATUS_INFLIGHT, SCHED_SB_SB, SCHED_EVENTS_ABORT, SCHED_EVENTS_RERUN_FAIL, SCHED_EVENTS_LATE, SCHED_EVENTS_MALFORMED, SCHED_EVENTS_SHAPE_BOUND, SCHED_EVENTS_SHAPE_STALE, SCHED_EVENTS_ARR_TIMEOUT, SCHED_EVENTS_ARR_STALE, SCHED_EVENTS_ROLE_LATE, SCHED_EVENTS_ROLE_NOT_READY, SCHED_CNT_A_ABORT_N, SCHED_CNT_A_RERUN_FAIL_N, SCHED_CNT_A_LATE_N, SCHED_CNT_A_MALFORMED_N, SCHED_CNT_B_SHAPE_BOUND_N, SCHED_CNT_B_SHAPE_STALE_N, SCHED_CNT_B_ARR_TIMEOUT_N, SCHED_CNT_B_ARR_STALE_N, SCHED_CNT_C_ROLE_LATE_N, SCHED_CNT_C_ROLE_NOT_READY_N, SCHED_LATE_MAX_LAST, SCHED_LATE_MAX_EVER, SCHED_SLACK_TICKS, SCHED_DONE_STAMP_STAMP, SCHED_ROLE_GEN_GEN, SCHED_ROLE_EFF_EFF_BAR, SCHED_RANK_RANK] ++
  [SCHED_RANK_HAS_ROLE, SCHED_IMG_BUDGET_MHZ, SCHED_IMG_TIMED, SCHED_ARR_COUNT, SCHED_SHAPE_VALUE, SCHED_SHAPE_MAX]

/-- Every field of the TILE block. -/
def allTILE : List Fld :=
  [TILE_CFG_RAMP, TILE_STATUS_ARRAY_BUSY, TILE_STATUS_VEC_BUSY, TILE_STATUS_ROT_BUSY, TILE_STATUS_HANDOFF_BUSY, TILE_STATUS_CHAINED, TILE_STATUS_PHYS, TILE_EVENTS_WINDOW, TILE_EVENTS_ANCHOR, TILE_EVENTS_LS_INVALID, TILE_EVENTS_POISON_IN, TILE_EVENTS_ROUND_OVF, TILE_EVENTS_ECC_CORR, TILE_EVENTS_ECC_UNCORR, TILE_CNT_A_WINDOW_N, TILE_CNT_A_ANCHOR_N, TILE_CNT_A_LS_INVALID_N, TILE_CNT_A_POISON_IN_N, TILE_CNT_B_ROUND_OVF_N, TILE_CNT_B_ECC_CORR_N, TILE_CNT_B_ECC_UNCORR_N, TILE_PASS_CNT_PASSES, TILE_ROW_CNT_ROWS, TILE_ACT_CYC_ACTIVE, TILE_RAMP_CYC_RAMPS, TILE_VEC_CYC_VEC, TILE_LAST_EVENT_STAMP]

/-- Every field of the EXPAND block. -/
def allEXPAND : List Fld :=
  [EXPAND_EVENTS_CRC_FAIL, EXPAND_EVENTS_OBJ_MISMATCH, EXPAND_EVENTS_FMT_OVER, EXPAND_EVENTS_FMT_UNDER, EXPAND_EVENTS_FMT_CODE, EXPAND_EVENTS_FMT_MISMATCH, EXPAND_EVENTS_REFETCH, EXPAND_EVENTS_NV_REPAIR, EXPAND_EVENTS_REPAIR_FAIL, EXPAND_CNT_A_CRC_FAIL_N, EXPAND_CNT_A_OBJ_MISMATCH_N, EXPAND_CNT_A_FMT_OVER_N, EXPAND_CNT_A_FMT_UNDER_N, EXPAND_CNT_B_FMT_CODE_N, EXPAND_CNT_B_FMT_MISMATCH_N, EXPAND_CNT_B_REFETCH_N, EXPAND_CNT_B_NV_REPAIR_N, EXPAND_CNT_C_REPAIR_FAIL_N, EXPAND_FAULT_SRC_SRC, EXPAND_FAULT_INFO_SP_OFF, EXPAND_FAULT_INFO_CAUSE, EXPAND_FAULT_INFO_GROUP, EXPAND_FAULT_STAMP_STAMP, EXPAND_OBJ_CNT_OBJECTS, EXPAND_BLK_CODED_CODED, EXPAND_BLK_RAW_RAW, EXPAND_BYTES_BYTES]

/-- Every field of the CHECK block. -/
def allCHECK : List Fld :=
  [CHECK_EVENTS_HDR_PARTIAL, CHECK_EVENTS_GEN_FAULT, CHECK_EVENTS_WIN_BAD, CHECK_CNT_HDR_PARTIAL_N, CHECK_CNT_GEN_FAULT_N, CHECK_CNT_WIN_BAD_N, CHECK_CREATE_CNT_CREATES, CHECK_UPDATE_CNT_UPDATES, CHECK_LAST_EVENT_STAMP, CHECK_WIN_BASE_BASE, CHECK_WIN_BASE_EN, CHECK_WIN_LIMIT_LIMIT, CHECK_WIN_SLOT_SLOT, CHECK_WIN_SLOT_PART]

/-- Every field of the CALLER block. -/
def allCALLER : List Fld :=
  [CALLER_CTL_EN, CALLER_CTL_SWITCH, CALLER_STATUS_ACTIVE, CALLER_STATUS_SYNCED, CALLER_STATUS_LIVE, CALLER_TABLE_BASE_BASE, CALLER_HIST_BASE_BASE, CALLER_HIST_SIZE_SIZE, CALLER_JOURNAL_KEY, CALLER_JOURNAL_OFF, CALLER_JOURNAL_PART, CALLER_JOURNAL_EN, CALLER_JOURNAL_TMO, CALLER_JOURNAL_OFFSET_OFFSET, CALLER_WL_CFG_CUT, CALLER_WL_CFG_HARVEST, CALLER_EVENTS_PLAN_LATE, CALLER_EVENTS_MISMATCH, CALLER_EVENTS_ENTRY_CRC, CALLER_EVENTS_JOURNAL_LOST, CALLER_EVENTS_PROMISE_SLIP, CALLER_EVENTS_EXPIRED, CALLER_EVENTS_SHAPE_BOUND, CALLER_EVENTS_HARVEST_LATE, CALLER_EVENTS_SWITCHED, CALLER_CNT_A_PLAN_LATE_N, CALLER_CNT_A_MISMATCH_N, CALLER_CNT_A_ENTRY_CRC_N, CALLER_CNT_A_JOURNAL_LOST_N, CALLER_CNT_B_PROMISE_SLIP_N, CALLER_CNT_B_EXPIRED_N, CALLER_CNT_B_SHAPE_BOUND_N, CALLER_CNT_B_HARVEST_LATE_N, CALLER_CNT_C_SWITCHED_N, CALLER_LAST_EVENT_STAMP, CALLER_PLAN_BAR_BAR, CALLER_HARVEST_BAR_BAR, CALLER_DISCARD_DISCARDED, CALLER_ADMIT_CTL_SEQ_CAP, CALLER_ADMIT_CTL_TOK_CAP] ++
  [CALLER_ADMIT_CTL_PF_CHUNK, CALLER_ADMIT_CTL_OPEN, CALLER_PART_DRES_DRES, CALLER_PART_DRES_ENTRY_CAP, CALLER_PART_KV_RETAIN, CALLER_PART_KV_KV_CAP, CALLER_PART_CELLS_CELL_BASE, CALLER_PART_WL_WL_BASE, CALLER_PART_USE_SEQ_NEXT, CALLER_PART_USE_TOK_NEXT, CALLER_PART_USE_LIVE, CALLER_PART_KVUSE_KV_USED, CALLER_PART_ADMIT_N_ACCEPTED, CALLER_PART_ADMIT_N_REFUSED, CALLER_SPEC_EVENTS_SPEC_BAD, CALLER_SPEC_CNT_SPEC_BAD_N, CALLER_SPEC_CFG_MIN, CALLER_SPEC_CFG_SHIFT, CALLER_SPEC_CFG_PROBE, CALLER_SPEC_CFG_HEADS_N, CALLER_SPEC_CFG_INIT, CALLER_SPEC_PROPOSED_PROPOSED, CALLER_SPEC_ACCEPTED_ACCEPTED, CALLER_SPEC_ALLREJ_ALLREJ, CALLER_SPEC_MISSING_MISSING, CALLER_SPEC_GRANTED_GRANTED, CALLER_SPEC_CLIPPED_CLIPPED, CALLER_SPEC_PROBES_PROBES]

/-- Every field of the REEL block. -/
def allREEL : List Fld :=
  [REEL_CTL_EN, REEL_CFG_PERIOD, REEL_CFG_CREDITS, REEL_STATUS_LAYER, REEL_STATUS_PHASE, REEL_PLACE_GEN_GEN, REEL_PLACE_EFF_EFF_BAR, REEL_EVENTS_NOM_MISS, REEL_EVENTS_MISROUTE, REEL_EVENTS_REEL_LATE, REEL_EVENTS_PLACE_LATE, REEL_EVENTS_BAD_TABLE, REEL_EVENTS_PLACE_NOT_READY, REEL_EVENTS_SNAPSHOT, REEL_CNT_A_NOM_MISS_N, REEL_CNT_A_MISROUTE_N, REEL_CNT_A_REEL_LATE_N, REEL_CNT_A_PLACE_LATE_N, REEL_CNT_B_BAD_TABLE_N, REEL_CNT_B_PLACE_NOT_READY_N, REEL_CNT_B_SNAPSHOT_N, REEL_LAST_EVENT_STAMP, REEL_SNAP_BAR_BAR, REEL_AREA_BASE, REEL_DISCARDED_DISCARDED, REEL_ORPHANS_ORPHANS, REEL_ROWS_SENT, REEL_ROWS_LANDED]

/-- Every field of the NVC block. -/
def allNVC : List Fld :=
  [NVC_SLOT_STATE_A, NVC_SLOT_STATE_B, NVC_SLOT_ACTIVE, NVC_SLOT_HAS_ACTIVE, NVC_EPOCH_EPOCH_A, NVC_EPOCH_EPOCH_B, NVC_PROG_PROGRESS, NVC_PROG_NSHARD, NVC_PROG_BUSY, NVC_PROG_SAG_HOLD, NVC_WEAR_MILLI, NVC_BAD_PAGES, NVC_EVENTS_READ_RETRY, NVC_EVENTS_NV_UNCORR, NVC_EVENTS_VERIFY_FAIL, NVC_EVENTS_WORN, NVC_EVENTS_NO_WEIGHTS, NVC_CNT_A_READ_RETRY_N, NVC_CNT_A_NV_UNCORR_N, NVC_CNT_A_VERIFY_FAIL_N, NVC_CNT_A_WORN_N, NVC_CNT_B_NO_WEIGHTS_N, NVC_RETRIES_CODEWORDS, NVC_LAST_EVENT_STAMP]

/-- Every field of the PROM block. -/
def allPROM : List Fld :=
  [PROM_EPOCH_EPOCH, PROM_EPOCH_REGION, PROM_SHADOW_EPOCH, PROM_SHADOW_STAGED, PROM_SHADOW_STAGING, PROM_SHADOW_FILLING, PROM_SWITCH_SWITCH_BAR, PROM_REGION0_BASE, PROM_REGION1_BASE, PROM_REGION_LEN_LEN, PROM_EVENTS_STAGE_DONE, PROM_EVENTS_FILL_DONE, PROM_EVENTS_STAGE_FAIL, PROM_EVENTS_SWAP_LATE, PROM_EVENTS_EPOCH_NOT_READY, PROM_EVENTS_REPLICA_EXPOSED, PROM_EVENTS_ALLOW_HIT, PROM_CNT_A_STAGE_DONE_N, PROM_CNT_A_FILL_DONE_N, PROM_CNT_A_STAGE_FAIL_N, PROM_CNT_A_SWAP_LATE_N, PROM_CNT_B_EPOCH_NOT_READY_N, PROM_CNT_B_REPLICA_EXPOSED_N, PROM_CNT_B_ALLOW_HIT_N, PROM_ALLOW_ALLOW, PROM_ALLOW_USED, PROM_QUEUE_Q0, PROM_QUEUE_Q1, PROM_QUEUE_Q2, PROM_BYTES_BYTES, PROM_MOVES_MOVES, PROM_LAST_EVENT_STAMP]

/-- Every field of the FAB block. -/
def allFAB : List Fld :=
  [FAB_CTL_EN, FAB_CTL_RETRAIN, FAB_CTL_BERT, FAB_STATUS_STATE, FAB_STATUS_HALF_HI, FAB_STATUS_SWAP_WITH, FAB_EXPECT_TRAY, FAB_EXPECT_PLANE, FAB_EXPECT_SWPORT, FAB_EXPECT_CHECK_EN, FAB_FOUND_TRAY, FAB_FOUND_PLANE, FAB_FOUND_SWPORT, FAB_FOUND_VALID, FAB_EVENTS_LINK_DOWN, FAB_EVENTS_LANE_LOST, FAB_EVENTS_CABLE_MISMATCH, FAB_EVENTS_REPLAY, FAB_EVENTS_HALF_WIDTH, FAB_EVENTS_BERT_FAIL, FAB_CNT_A_LINK_DOWN_N, FAB_CNT_A_LANE_LOST_N, FAB_CNT_A_CABLE_MISMATCH_N, FAB_CNT_A_REPLAY_N, FAB_CNT_B_HALF_WIDTH_N, FAB_CNT_B_BERT_FAIL_N, FAB_TX_FLITS_TX, FAB_RX_FLITS_RX, FAB_LAST_EVENT_STAMP, FAB_DEAD_BEATS, FAB_PLANES_INSVC, FAB_PLANES_E2, FAB_PLANES_E2_MIN, FAB_PKG_EVENTS_DEAD_TARGET, FAB_PKG_EVENTS_REMOTE_REFUSED, FAB_PKG_EVENTS_REFUSED_IN, FAB_PKG_EVENTS_LATE_RESP, FAB_PKG_EVENTS_STALE_IN, FAB_PKG_EVENTS_PLANES_LOW, FAB_PKG_EVENTS_KEY_BAD] ++
  [FAB_PKG_CNT_A_DEAD_TARGET_N, FAB_PKG_CNT_A_REMOTE_REFUSED_N, FAB_PKG_CNT_A_REFUSED_IN_N, FAB_PKG_CNT_A_LATE_RESP_N, FAB_PKG_CNT_B_STALE_IN_N, FAB_PKG_CNT_B_PLANES_LOW_N, FAB_PKG_CNT_B_KEY_BAD_N, FAB_LAST_DEAD_PKG, FAB_LAST_DEAD_UNIT, FAB_LAST_DEAD_STAMP_STAMP, FAB_LAST_REFUSED_PKG, FAB_LAST_REFUSED_STATUS, FAB_BERT_CFG_INTERVAL, FAB_BERT_CFG_EN, FAB_LANE_THR_THR, FAB_PART_KEYS_BASE, FAB_PART_KEYS_EN, FAB_PART_CFG_QCOMPAT, FAB_PART_CFG_INV_IDX, FAB_PART_CFG_INV, FAB_PART_CFG_INV_ALL]

/-- Every field of the LANE block. -/
def allLANE : List Fld :=
  [LANE_CTL_TEST, LANE_CTL_RETIRE, LANE_STATUS_STATE, LANE_STATUS_BORROWED, LANE_STATUS_PHYS, LANE_STATUS_EYE_MV, LANE_FEC_CORR_SYMBOLS, LANE_FEC_UNCORR_CODEWORDS, LANE_BER_ERRORS, LANE_BER_PASS, LANE_BER_STAMP_STAMP, LANE_EVENTS_CORR_HIGH, LANE_EVENTS_TEST_FAIL, LANE_EVENTS_TEST_SKIP, LANE_CNT_CORR_HIGH_N, LANE_CNT_TEST_FAIL_N, LANE_CNT_TEST_SKIP_N, LANE_LAST_EVENT_STAMP]

/-- Every field of the COPY block. -/
def allCOPY : List Fld :=
  [COPY_CTL_EN, COPY_CTL_PART, COPY_RING_BASE, COPY_RING_LOG2N, COPY_HEAD_HEAD, COPY_TAIL_TAIL, COPY_STATUS_BUSY, COPY_STATUS_INFLIGHT, COPY_STATUS_FCOPYS, COPY_EVENTS_DEAD_TARGET, COPY_EVENTS_REFUSED, COPY_EVENTS_MALFORMED, COPY_EVENTS_ABANDONED, COPY_CNT_DEAD_TARGET_N, COPY_CNT_REFUSED_N, COPY_CNT_MALFORMED_N, COPY_CNT_ABANDONED_N, COPY_BYTES_BYTES, COPY_DONE_DESCS, COPY_FCOPY_COMMITTED, COPY_ARR_IN_INCREMENTS, COPY_LAST_EVENT_STAMP]

/-- Every field of the PCIE block. -/
def allPCIE : List Fld :=
  [PCIE_LINK_SPEED, PCIE_LINK_WIDTH, PCIE_LINK_FLIT, PCIE_LINK_UP, PCIE_LINK_CFG_MAX_SPEED, PCIE_LINK_CFG_RETRAIN, PCIE_EVENTS_LINK_DOWN, PCIE_EVENTS_DEGRADED, PCIE_EVENTS_DB_BAD, PCIE_EVENTS_SQ_ERR, PCIE_EVENTS_CQ_BACKLOG, PCIE_EVENTS_CQ_DROP, PCIE_EVENTS_EP_RX, PCIE_EVENTS_EP_TX, PCIE_EVENTS_HOST_ERR, PCIE_EVENTS_PF_DROP, PCIE_CNT_A_LINK_DOWN_N, PCIE_CNT_A_DEGRADED_N, PCIE_CNT_A_DB_BAD_N, PCIE_CNT_A_SQ_ERR_N, PCIE_CNT_B_CQ_BACKLOG_N, PCIE_CNT_B_CQ_DROP_N, PCIE_CNT_B_EP_RX_N, PCIE_CNT_B_EP_TX_N, PCIE_CNT_C_HOST_ERR_N, PCIE_CNT_C_PF_DROP_N, PCIE_LAST_EVENT_STAMP, PCIE_LAST_DB_GROUP, PCIE_LAST_DB_OFFSET, PCIE_LAST_DB_VALUE, PCIE_GRP_CTL_EN, PCIE_GRP_CTL_SQ_RESTART, PCIE_GRP_CTL_SQ_HALT, PCIE_GRP_CTL_VF, PCIE_GRP_CTL_MGMT_CQ, PCIE_GRP_CTL_COPY_VEC, PCIE_GRP_SQ_BASE_BASE, PCIE_GRP_SQ_CFG_LOG2N, PCIE_GRP_SQ_CFG_HEAD, PCIE_GRP_SQ_CFG_TAIL] ++
  [PCIE_GRP_SQ_CFG_OPEN, PCIE_GRP_TAKEN_TAKEN, PCIE_GRP_DROP_DROPPED, PCIE_CQ_BASE_BASE, PCIE_CQ_CFG_EN, PCIE_CQ_CFG_LOG2N, PCIE_CQ_CFG_TAIL, PCIE_CQ_CFG_HEAD, PCIE_CQ_CFG_PHASE, PCIE_CQ_IRQ_VEC, PCIE_CQ_IRQ_IEN, PCIE_CQ_IRQ_COUNT, PCIE_CQ_IRQ_TIME, PCIE_CQ_BACKLOG_BASE, PCIE_CQ_BACKLOG_BLOG2N]

/-- Every field of the PART block. -/
def allPART : List Fld :=
  [PART_CTL_LOCK, PART_CTL_RESET, PART_CTL_CLEAR_LOCK, PART_CTL_SCRUB, PART_CTL_PREEMPT, PART_CTL_RESUME, PART_CTL_KIND, PART_STATUS_STATE, PART_STATUS_LOCKED, PART_STATUS_PENDING, PART_STATUS_NCH, PART_STATUS_TILES, PART_SETS_SETS, PART_CHAN_CHAN, PART_HBM_BASE, PART_WAYS_WAYS, PART_SCRATCH_SCRATCH, PART_SHELF_BASE, PART_SHELF_LEN_LEN, PART_SAVE_BASE, PART_SAVE_EN, PART_FORMAT_BASE, PART_KVDESC_BASE, PART_FABRIC_WEIGHT, PART_EVENTS_LOCK_VIOL, PART_EVENTS_SETUP_BAD, PART_EVENTS_RESET_DONE, PART_EVENTS_SAVE_DONE, PART_EVENTS_RESTORE_DONE, PART_EVENTS_ACCESS, PART_CNT_A_LOCK_VIOL_N, PART_CNT_A_SETUP_BAD_N, PART_CNT_A_RESET_DONE_N, PART_CNT_A_SAVE_DONE_N, PART_CNT_B_RESTORE_DONE_N, PART_CNT_B_ACCESS_N, PART_ABSORBED_ANSWERS, PART_LAST_EVENT_STAMP, PART_SAVE_TIME_SAVE, PART_SAVE_TIME_RESTORE] ++
  [PART_SETUP_ERR_CODE]

/-- Every field of the PWR block. -/
def allPWR : List Fld :=
  [PWR_CTL_UNPARK, PWR_STATUS_ACTIVE, PWR_STATUS_MODE, PWR_STATUS_FLOW_OK, PWR_STATUS_SAG, PWR_STATUS_PHASE, PWR_STATUS_OPP_MAX, PWR_STATUS_OPP, PWR_CAP_MGMT, PWR_CAP_FORCE, PWR_CAP_EFFECTIVE, PWR_CAP_C_FORCED, PWR_HOST_CAP_CAP, PWR_FLOOR_DECL, PWR_FLOOR_MEAS, PWR_FLOOR_EFF, PWR_RAMP_DN, PWR_RAMP_UP, PWR_RAMP_GUARD, PWR_SAG_SAG_CAP, PWR_SAG_FORCE, PWR_OPP_PREF_PREFILL, PWR_OPP_PREF_DECODE, PWR_OPP_PREF_DRAFT, PWR_OPP_PREF_IDLE, PWR_DRAFT_SETS_SETS, PWR_EST_LAST, PWR_EST_PEAK, PWR_EST_MEAN, PWR_TEMP_C0_M3, PWR_THERM_X0, PWR_THERM_X1, PWR_THERM_THROTTLE, PWR_THERM_TRIP, PWR_EVENTS_THROTTLE, PWR_EVENTS_FLOOR_HOLD, PWR_EVENTS_FLOOR_LOW, PWR_EVENTS_FLOW_LOST, PWR_EVENTS_SAG, PWR_EVENTS_THERM_HOT] ++
  [PWR_EVENTS_THERM_TRIP, PWR_EVENTS_PREF_RAISED, PWR_CNT_A_THROTTLE_N, PWR_CNT_A_FLOOR_HOLD_N, PWR_CNT_A_FLOOR_LOW_N, PWR_CNT_A_FLOW_LOST_N, PWR_CNT_B_SAG_N, PWR_CNT_B_THERM_HOT_N, PWR_CNT_B_THERM_TRIP_N, PWR_CNT_B_PREF_RAISED_N, PWR_LAST_EVENT_STAMP, PWR_ENERGY_ENERGY, PWR_THR_WIN_WINDOWS, PWR_WEIGHT_WEIGHT, PWR_PART_ENERGY_ENERGY, PWR_PART_BAR_LAST]

/-- Every field of the HEALTH block. -/
def allHEALTH : List Fld :=
  [HEALTH_CTL_EN, HEALTH_CTL_REPLAN_NOW, HEALTH_CTL_CLEAR_FAILED, HEALTH_CTL_TAKEOVER_EN, HEALTH_CFG_REPLAN_BARS, HEALTH_CFG_SWEEP_BARS, HEALTH_CFG_UNLOCK_MONTHS, HEALTH_CFG_WARN_MONTHS, HEALTH_FLOOR_SLACK_PS, HEALTH_FLOOR_OFFSET_MAX, HEALTH_FLOOR_EYE_MV, HEALTH_FLOOR_HBM_STEPS, HEALTH_FLOOR_SENS, HEALTH_STATUS_ELIGIBLE, HEALTH_STATUS_FAILED, HEALTH_STATUS_CAUSE, HEALTH_STATUS_REPLAN, HEALTH_STATUS_COORD, HEALTH_REPLAN_TILE, HEALTH_REPLAN_PHYS, HEALTH_REPLAN_SPARE, HEALTH_REPLAN_STAGE, HEALTH_REPLAN_DONE, HEALTH_MARGIN_OFFSET, HEALTH_MARGIN_SLACK, HEALTH_MARGIN_FORECAST, HEALTH_FORECAST_MONTHS, HEALTH_FORECAST_CLASS, HEALTH_FORECAST_INSTANCE, HEALTH_TK_KEY_KEY, HEALTH_TK_OFF_OFFSET, HEALTH_TK_LEN_LEN, HEALTH_EVENTS_ROLE_FAILED, HEALTH_EVENTS_TAKEOVER, HEALTH_EVENTS_NO_SPARE, HEALTH_EVENTS_RETIRED, HEALTH_EVENTS_MARGIN_LOW, HEALTH_EVENTS_FORECAST_LOW, HEALTH_EVENTS_REPLAN_SKIP, HEALTH_EVENTS_CORE_WDOG] ++
  [HEALTH_EVENTS_CORE_CHECK, HEALTH_EVENTS_JOURNAL_REBUILD, HEALTH_EVENTS_LOG_LOST, HEALTH_CNT_A_ROLE_FAILED_N, HEALTH_CNT_A_TAKEOVER_N, HEALTH_CNT_A_NO_SPARE_N, HEALTH_CNT_A_RETIRED_N, HEALTH_CNT_B_MARGIN_LOW_N, HEALTH_CNT_B_FORECAST_LOW_N, HEALTH_CNT_B_REPLAN_SKIP_N, HEALTH_CNT_B_CORE_WDOG_N, HEALTH_CNT_C_CORE_CHECK_N, HEALTH_CNT_C_JOURNAL_REBUILD_N, HEALTH_CNT_C_LOG_LOST_N, HEALTH_LAST_EVENT_STAMP, HEALTH_LOG_BASE, HEALTH_LOG_SEQ_SEQ, HEALTH_LOG_COMMIT_STAMP, HEALTH_SPARES_C0, HEALTH_SPARES_C1, HEALTH_SPARES_C2, HEALTH_SPARES_C3, HEALTH_SPARES_X0, HEALTH_SPARES_X1, HEALTH_TK_LAST_STAMP]

/-- Every field of the SEC block. -/
def allSEC : List Fld :=
  [SEC_STATUS_LIFECYCLE, SEC_STATUS_DEBUG, SEC_STATUS_DEBUG_KIND, SEC_STATUS_DEBUG_DISABLED, SEC_STATUS_STAGE, SEC_STATUS_BOOT_FAIL, SEC_SVN_FUSED, SEC_SVN_IMAGE, SEC_SVN_VERSION, SEC_PKG_PKG_ID, SEC_PKG_ASSIGNED, SEC_PKG_POS, SEC_OWNER_VALID, SEC_OWNER_REVOKED, SEC_OWNER_SPOILED, SEC_OWNER_FW_REVOKED, SEC_UID_LO_UID, SEC_UID_HI_UID, SEC_MEAS_GEN, SEC_STAGED_RANK_RANK, SEC_STAGED_RANK_VALID, SEC_EVENTS_FW_REJECT, SEC_EVENTS_FUSE_ECC, SEC_EVENTS_KEY_REFUSED, SEC_EVENTS_ID_CONFLICT, SEC_EVENTS_SPDM_ERR, SEC_EVENTS_DEBUG_ACTIVE, SEC_EVENTS_FUSE_BURNT, SEC_CNT_A_FW_REJECT_N, SEC_CNT_A_FUSE_ECC_N, SEC_CNT_A_KEY_REFUSED_N, SEC_CNT_A_ID_CONFLICT_N, SEC_CNT_B_SPDM_ERR_N, SEC_CNT_B_DEBUG_ACTIVE_N, SEC_CNT_B_FUSE_BURNT_N, SEC_LAST_EVENT_STAMP, SEC_BOOT_TIME_MS]

/-- Every register field of the package. -/
def all : List Fld :=
  allTEMPO ++ allSCHED ++ allTILE ++ allEXPAND ++ allCHECK ++ allCALLER ++ allREEL ++ allNVC ++ allPROM ++ allFAB ++ allLANE ++ allCOPY ++ allPCIE ++ allPART ++ allPWR ++ allHEALTH ++ allSEC

end R

namespace E

/-- TEMPO_EVENTS.A_LOST with its counter (R11). -/
def TEMPO_A_LOST : EvFlag := ⟨R.TEMPO_EVENTS_A_LOST, R.TEMPO_CNT_A_A_LOST_N, none⟩
/-- TEMPO_EVENTS.B_LOST with its counter (R11). -/
def TEMPO_B_LOST : EvFlag := ⟨R.TEMPO_EVENTS_B_LOST, R.TEMPO_CNT_A_B_LOST_N, none⟩
/-- TEMPO_EVENTS.FAILOVER with its counter (R11). -/
def TEMPO_FAILOVER : EvFlag := ⟨R.TEMPO_EVENTS_FAILOVER, R.TEMPO_CNT_A_FAILOVER_N, none⟩
/-- TEMPO_EVENTS.HOLDOVER with its counter (R11). -/
def TEMPO_HOLDOVER : EvFlag := ⟨R.TEMPO_EVENTS_HOLDOVER, R.TEMPO_CNT_A_HOLDOVER_N, none⟩
/-- TEMPO_EVENTS.HOLD_EXPIRED with its counter (R11). -/
def TEMPO_HOLD_EXPIRED : EvFlag := ⟨R.TEMPO_EVENTS_HOLD_EXPIRED, R.TEMPO_CNT_B_HOLD_EXPIRED_N, none⟩
/-- TEMPO_EVENTS.COUNT_FAULT with its counter (R11). -/
def TEMPO_COUNT_FAULT : EvFlag := ⟨R.TEMPO_EVENTS_COUNT_FAULT, R.TEMPO_CNT_B_COUNT_FAULT_N, none⟩
/-- TEMPO_EVENTS.PERIOD_FAULT with its counter (R11). -/
def TEMPO_PERIOD_FAULT : EvFlag := ⟨R.TEMPO_EVENTS_PERIOD_FAULT, R.TEMPO_CNT_B_PERIOD_FAULT_N, none⟩
/-- TEMPO_EVENTS.OVERRUN with its counter (R11). -/
def TEMPO_OVERRUN : EvFlag := ⟨R.TEMPO_EVENTS_OVERRUN, R.TEMPO_CNT_B_OVERRUN_N, none⟩
/-- TEMPO_EVENTS.BARRIER_LATE with its counter (R11). -/
def TEMPO_BARRIER_LATE : EvFlag := ⟨R.TEMPO_EVENTS_BARRIER_LATE, R.TEMPO_CNT_C_BARRIER_LATE_N, none⟩
/-- TEMPO_EVENTS.BARRIER_TMO with its counter (R11). -/
def TEMPO_BARRIER_TMO : EvFlag := ⟨R.TEMPO_EVENTS_BARRIER_TMO, R.TEMPO_CNT_C_BARRIER_TMO_N, none⟩
/-- SCHED_EVENTS.ABORT with its counter (R11). -/
def SCHED_ABORT : EvFlag := ⟨R.SCHED_EVENTS_ABORT, R.SCHED_CNT_A_ABORT_N, none⟩
/-- SCHED_EVENTS.RERUN_FAIL with its counter (R11). -/
def SCHED_RERUN_FAIL : EvFlag := ⟨R.SCHED_EVENTS_RERUN_FAIL, R.SCHED_CNT_A_RERUN_FAIL_N, none⟩
/-- SCHED_EVENTS.LATE with its counter (R11). -/
def SCHED_LATE : EvFlag := ⟨R.SCHED_EVENTS_LATE, R.SCHED_CNT_A_LATE_N, none⟩
/-- SCHED_EVENTS.MALFORMED with its counter (R11). -/
def SCHED_MALFORMED : EvFlag := ⟨R.SCHED_EVENTS_MALFORMED, R.SCHED_CNT_A_MALFORMED_N, none⟩
/-- SCHED_EVENTS.SHAPE_BOUND with its counter (R11). -/
def SCHED_SHAPE_BOUND : EvFlag := ⟨R.SCHED_EVENTS_SHAPE_BOUND, R.SCHED_CNT_B_SHAPE_BOUND_N, none⟩
/-- SCHED_EVENTS.SHAPE_STALE with its counter (R11). -/
def SCHED_SHAPE_STALE : EvFlag := ⟨R.SCHED_EVENTS_SHAPE_STALE, R.SCHED_CNT_B_SHAPE_STALE_N, none⟩
/-- SCHED_EVENTS.ARR_TIMEOUT with its counter (R11). -/
def SCHED_ARR_TIMEOUT : EvFlag := ⟨R.SCHED_EVENTS_ARR_TIMEOUT, R.SCHED_CNT_B_ARR_TIMEOUT_N, none⟩
/-- SCHED_EVENTS.ARR_STALE with its counter (R11). -/
def SCHED_ARR_STALE : EvFlag := ⟨R.SCHED_EVENTS_ARR_STALE, R.SCHED_CNT_B_ARR_STALE_N, none⟩
/-- SCHED_EVENTS.ROLE_LATE with its counter (R11). -/
def SCHED_ROLE_LATE : EvFlag := ⟨R.SCHED_EVENTS_ROLE_LATE, R.SCHED_CNT_C_ROLE_LATE_N, none⟩
/-- SCHED_EVENTS.ROLE_NOT_READY with its counter (R11). -/
def SCHED_ROLE_NOT_READY : EvFlag := ⟨R.SCHED_EVENTS_ROLE_NOT_READY, R.SCHED_CNT_C_ROLE_NOT_READY_N, none⟩
/-- TILE_EVENTS.WINDOW with its counter (R11). -/
def TILE_WINDOW : EvFlag := ⟨R.TILE_EVENTS_WINDOW, R.TILE_CNT_A_WINDOW_N, (some R.TILE_LAST_EVENT_STAMP)⟩
/-- TILE_EVENTS.ANCHOR with its counter (R11). -/
def TILE_ANCHOR : EvFlag := ⟨R.TILE_EVENTS_ANCHOR, R.TILE_CNT_A_ANCHOR_N, (some R.TILE_LAST_EVENT_STAMP)⟩
/-- TILE_EVENTS.LS_INVALID with its counter (R11). -/
def TILE_LS_INVALID : EvFlag := ⟨R.TILE_EVENTS_LS_INVALID, R.TILE_CNT_A_LS_INVALID_N, (some R.TILE_LAST_EVENT_STAMP)⟩
/-- TILE_EVENTS.POISON_IN with its counter (R11). -/
def TILE_POISON_IN : EvFlag := ⟨R.TILE_EVENTS_POISON_IN, R.TILE_CNT_A_POISON_IN_N, (some R.TILE_LAST_EVENT_STAMP)⟩
/-- TILE_EVENTS.ROUND_OVF with its counter (R11). -/
def TILE_ROUND_OVF : EvFlag := ⟨R.TILE_EVENTS_ROUND_OVF, R.TILE_CNT_B_ROUND_OVF_N, (some R.TILE_LAST_EVENT_STAMP)⟩
/-- TILE_EVENTS.ECC_CORR with its counter (R11). -/
def TILE_ECC_CORR : EvFlag := ⟨R.TILE_EVENTS_ECC_CORR, R.TILE_CNT_B_ECC_CORR_N, (some R.TILE_LAST_EVENT_STAMP)⟩
/-- TILE_EVENTS.ECC_UNCORR with its counter (R11). -/
def TILE_ECC_UNCORR : EvFlag := ⟨R.TILE_EVENTS_ECC_UNCORR, R.TILE_CNT_B_ECC_UNCORR_N, (some R.TILE_LAST_EVENT_STAMP)⟩
/-- EXPAND_EVENTS.CRC_FAIL with its counter (R11). -/
def EXPAND_CRC_FAIL : EvFlag := ⟨R.EXPAND_EVENTS_CRC_FAIL, R.EXPAND_CNT_A_CRC_FAIL_N, (some R.EXPAND_FAULT_STAMP_STAMP)⟩
/-- EXPAND_EVENTS.OBJ_MISMATCH with its counter (R11). -/
def EXPAND_OBJ_MISMATCH : EvFlag := ⟨R.EXPAND_EVENTS_OBJ_MISMATCH, R.EXPAND_CNT_A_OBJ_MISMATCH_N, (some R.EXPAND_FAULT_STAMP_STAMP)⟩
/-- EXPAND_EVENTS.FMT_OVER with its counter (R11). -/
def EXPAND_FMT_OVER : EvFlag := ⟨R.EXPAND_EVENTS_FMT_OVER, R.EXPAND_CNT_A_FMT_OVER_N, (some R.EXPAND_FAULT_STAMP_STAMP)⟩
/-- EXPAND_EVENTS.FMT_UNDER with its counter (R11). -/
def EXPAND_FMT_UNDER : EvFlag := ⟨R.EXPAND_EVENTS_FMT_UNDER, R.EXPAND_CNT_A_FMT_UNDER_N, (some R.EXPAND_FAULT_STAMP_STAMP)⟩
/-- EXPAND_EVENTS.FMT_CODE with its counter (R11). -/
def EXPAND_FMT_CODE : EvFlag := ⟨R.EXPAND_EVENTS_FMT_CODE, R.EXPAND_CNT_B_FMT_CODE_N, (some R.EXPAND_FAULT_STAMP_STAMP)⟩
/-- EXPAND_EVENTS.FMT_MISMATCH with its counter (R11). -/
def EXPAND_FMT_MISMATCH : EvFlag := ⟨R.EXPAND_EVENTS_FMT_MISMATCH, R.EXPAND_CNT_B_FMT_MISMATCH_N, (some R.EXPAND_FAULT_STAMP_STAMP)⟩
/-- EXPAND_EVENTS.REFETCH with its counter (R11). -/
def EXPAND_REFETCH : EvFlag := ⟨R.EXPAND_EVENTS_REFETCH, R.EXPAND_CNT_B_REFETCH_N, none⟩
/-- EXPAND_EVENTS.NV_REPAIR with its counter (R11). -/
def EXPAND_NV_REPAIR : EvFlag := ⟨R.EXPAND_EVENTS_NV_REPAIR, R.EXPAND_CNT_B_NV_REPAIR_N, none⟩
/-- EXPAND_EVENTS.REPAIR_FAIL with its counter (R11). -/
def EXPAND_REPAIR_FAIL : EvFlag := ⟨R.EXPAND_EVENTS_REPAIR_FAIL, R.EXPAND_CNT_C_REPAIR_FAIL_N, none⟩
/-- CHECK_EVENTS.HDR_PARTIAL with its counter (R11). -/
def CHECK_HDR_PARTIAL : EvFlag := ⟨R.CHECK_EVENTS_HDR_PARTIAL, R.CHECK_CNT_HDR_PARTIAL_N, (some R.CHECK_LAST_EVENT_STAMP)⟩
/-- CHECK_EVENTS.GEN_FAULT with its counter (R11). -/
def CHECK_GEN_FAULT : EvFlag := ⟨R.CHECK_EVENTS_GEN_FAULT, R.CHECK_CNT_GEN_FAULT_N, (some R.CHECK_LAST_EVENT_STAMP)⟩
/-- CHECK_EVENTS.WIN_BAD with its counter (R11). -/
def CHECK_WIN_BAD : EvFlag := ⟨R.CHECK_EVENTS_WIN_BAD, R.CHECK_CNT_WIN_BAD_N, (some R.CHECK_LAST_EVENT_STAMP)⟩
/-- CALLER_EVENTS.PLAN_LATE with its counter (R11). -/
def CALLER_PLAN_LATE : EvFlag := ⟨R.CALLER_EVENTS_PLAN_LATE, R.CALLER_CNT_A_PLAN_LATE_N, (some R.CALLER_LAST_EVENT_STAMP)⟩
/-- CALLER_EVENTS.MISMATCH with its counter (R11). -/
def CALLER_MISMATCH : EvFlag := ⟨R.CALLER_EVENTS_MISMATCH, R.CALLER_CNT_A_MISMATCH_N, (some R.CALLER_LAST_EVENT_STAMP)⟩
/-- CALLER_EVENTS.ENTRY_CRC with its counter (R11). -/
def CALLER_ENTRY_CRC : EvFlag := ⟨R.CALLER_EVENTS_ENTRY_CRC, R.CALLER_CNT_A_ENTRY_CRC_N, (some R.CALLER_LAST_EVENT_STAMP)⟩
/-- CALLER_EVENTS.JOURNAL_LOST with its counter (R11). -/
def CALLER_JOURNAL_LOST : EvFlag := ⟨R.CALLER_EVENTS_JOURNAL_LOST, R.CALLER_CNT_A_JOURNAL_LOST_N, (some R.CALLER_LAST_EVENT_STAMP)⟩
/-- CALLER_EVENTS.PROMISE_SLIP with its counter (R11). -/
def CALLER_PROMISE_SLIP : EvFlag := ⟨R.CALLER_EVENTS_PROMISE_SLIP, R.CALLER_CNT_B_PROMISE_SLIP_N, (some R.CALLER_LAST_EVENT_STAMP)⟩
/-- CALLER_EVENTS.EXPIRED with its counter (R11). -/
def CALLER_EXPIRED : EvFlag := ⟨R.CALLER_EVENTS_EXPIRED, R.CALLER_CNT_B_EXPIRED_N, (some R.CALLER_LAST_EVENT_STAMP)⟩
/-- CALLER_EVENTS.SHAPE_BOUND with its counter (R11). -/
def CALLER_SHAPE_BOUND : EvFlag := ⟨R.CALLER_EVENTS_SHAPE_BOUND, R.CALLER_CNT_B_SHAPE_BOUND_N, (some R.CALLER_LAST_EVENT_STAMP)⟩
/-- CALLER_EVENTS.HARVEST_LATE with its counter (R11). -/
def CALLER_HARVEST_LATE : EvFlag := ⟨R.CALLER_EVENTS_HARVEST_LATE, R.CALLER_CNT_B_HARVEST_LATE_N, (some R.CALLER_LAST_EVENT_STAMP)⟩
/-- CALLER_EVENTS.SWITCHED with its counter (R11). -/
def CALLER_SWITCHED : EvFlag := ⟨R.CALLER_EVENTS_SWITCHED, R.CALLER_CNT_C_SWITCHED_N, (some R.CALLER_LAST_EVENT_STAMP)⟩
/-- CALLER_SPEC_EVENTS.SPEC_BAD with its counter (R11). -/
def CALLER_SPEC_BAD : EvFlag := ⟨R.CALLER_SPEC_EVENTS_SPEC_BAD, R.CALLER_SPEC_CNT_SPEC_BAD_N, (some R.CALLER_LAST_EVENT_STAMP)⟩
/-- REEL_EVENTS.NOM_MISS with its counter (R11). -/
def REEL_NOM_MISS : EvFlag := ⟨R.REEL_EVENTS_NOM_MISS, R.REEL_CNT_A_NOM_MISS_N, (some R.REEL_LAST_EVENT_STAMP)⟩
/-- REEL_EVENTS.MISROUTE with its counter (R11). -/
def REEL_MISROUTE : EvFlag := ⟨R.REEL_EVENTS_MISROUTE, R.REEL_CNT_A_MISROUTE_N, (some R.REEL_LAST_EVENT_STAMP)⟩
/-- REEL_EVENTS.REEL_LATE with its counter (R11). -/
def REEL_REEL_LATE : EvFlag := ⟨R.REEL_EVENTS_REEL_LATE, R.REEL_CNT_A_REEL_LATE_N, (some R.REEL_LAST_EVENT_STAMP)⟩
/-- REEL_EVENTS.PLACE_LATE with its counter (R11). -/
def REEL_PLACE_LATE : EvFlag := ⟨R.REEL_EVENTS_PLACE_LATE, R.REEL_CNT_A_PLACE_LATE_N, (some R.REEL_LAST_EVENT_STAMP)⟩
/-- REEL_EVENTS.BAD_TABLE with its counter (R11). -/
def REEL_BAD_TABLE : EvFlag := ⟨R.REEL_EVENTS_BAD_TABLE, R.REEL_CNT_B_BAD_TABLE_N, (some R.REEL_LAST_EVENT_STAMP)⟩
/-- REEL_EVENTS.PLACE_NOT_READY with its counter (R11). -/
def REEL_PLACE_NOT_READY : EvFlag := ⟨R.REEL_EVENTS_PLACE_NOT_READY, R.REEL_CNT_B_PLACE_NOT_READY_N, (some R.REEL_LAST_EVENT_STAMP)⟩
/-- REEL_EVENTS.SNAPSHOT with its counter (R11). -/
def REEL_SNAPSHOT : EvFlag := ⟨R.REEL_EVENTS_SNAPSHOT, R.REEL_CNT_B_SNAPSHOT_N, (some R.REEL_LAST_EVENT_STAMP)⟩
/-- NVC_EVENTS.READ_RETRY with its counter (R11). -/
def NVC_READ_RETRY : EvFlag := ⟨R.NVC_EVENTS_READ_RETRY, R.NVC_CNT_A_READ_RETRY_N, (some R.NVC_LAST_EVENT_STAMP)⟩
/-- NVC_EVENTS.NV_UNCORR with its counter (R11). -/
def NVC_NV_UNCORR : EvFlag := ⟨R.NVC_EVENTS_NV_UNCORR, R.NVC_CNT_A_NV_UNCORR_N, (some R.NVC_LAST_EVENT_STAMP)⟩
/-- NVC_EVENTS.VERIFY_FAIL with its counter (R11). -/
def NVC_VERIFY_FAIL : EvFlag := ⟨R.NVC_EVENTS_VERIFY_FAIL, R.NVC_CNT_A_VERIFY_FAIL_N, (some R.NVC_LAST_EVENT_STAMP)⟩
/-- NVC_EVENTS.WORN with its counter (R11). -/
def NVC_WORN : EvFlag := ⟨R.NVC_EVENTS_WORN, R.NVC_CNT_A_WORN_N, (some R.NVC_LAST_EVENT_STAMP)⟩
/-- NVC_EVENTS.NO_WEIGHTS with its counter (R11). -/
def NVC_NO_WEIGHTS : EvFlag := ⟨R.NVC_EVENTS_NO_WEIGHTS, R.NVC_CNT_B_NO_WEIGHTS_N, (some R.NVC_LAST_EVENT_STAMP)⟩
/-- PROM_EVENTS.STAGE_DONE with its counter (R11). -/
def PROM_STAGE_DONE : EvFlag := ⟨R.PROM_EVENTS_STAGE_DONE, R.PROM_CNT_A_STAGE_DONE_N, (some R.PROM_LAST_EVENT_STAMP)⟩
/-- PROM_EVENTS.FILL_DONE with its counter (R11). -/
def PROM_FILL_DONE : EvFlag := ⟨R.PROM_EVENTS_FILL_DONE, R.PROM_CNT_A_FILL_DONE_N, (some R.PROM_LAST_EVENT_STAMP)⟩
/-- PROM_EVENTS.STAGE_FAIL with its counter (R11). -/
def PROM_STAGE_FAIL : EvFlag := ⟨R.PROM_EVENTS_STAGE_FAIL, R.PROM_CNT_A_STAGE_FAIL_N, (some R.PROM_LAST_EVENT_STAMP)⟩
/-- PROM_EVENTS.SWAP_LATE with its counter (R11). -/
def PROM_SWAP_LATE : EvFlag := ⟨R.PROM_EVENTS_SWAP_LATE, R.PROM_CNT_A_SWAP_LATE_N, (some R.PROM_LAST_EVENT_STAMP)⟩
/-- PROM_EVENTS.EPOCH_NOT_READY with its counter (R11). -/
def PROM_EPOCH_NOT_READY : EvFlag := ⟨R.PROM_EVENTS_EPOCH_NOT_READY, R.PROM_CNT_B_EPOCH_NOT_READY_N, (some R.PROM_LAST_EVENT_STAMP)⟩
/-- PROM_EVENTS.REPLICA_EXPOSED with its counter (R11). -/
def PROM_REPLICA_EXPOSED : EvFlag := ⟨R.PROM_EVENTS_REPLICA_EXPOSED, R.PROM_CNT_B_REPLICA_EXPOSED_N, (some R.PROM_LAST_EVENT_STAMP)⟩
/-- PROM_EVENTS.ALLOW_HIT with its counter (R11). -/
def PROM_ALLOW_HIT : EvFlag := ⟨R.PROM_EVENTS_ALLOW_HIT, R.PROM_CNT_B_ALLOW_HIT_N, (some R.PROM_LAST_EVENT_STAMP)⟩
/-- FAB_EVENTS.LINK_DOWN with its counter (R11). -/
def FAB_LINK_DOWN : EvFlag := ⟨R.FAB_EVENTS_LINK_DOWN, R.FAB_CNT_A_LINK_DOWN_N, (some R.FAB_LAST_EVENT_STAMP)⟩
/-- FAB_EVENTS.LANE_LOST with its counter (R11). -/
def FAB_LANE_LOST : EvFlag := ⟨R.FAB_EVENTS_LANE_LOST, R.FAB_CNT_A_LANE_LOST_N, (some R.FAB_LAST_EVENT_STAMP)⟩
/-- FAB_EVENTS.CABLE_MISMATCH with its counter (R11). -/
def FAB_CABLE_MISMATCH : EvFlag := ⟨R.FAB_EVENTS_CABLE_MISMATCH, R.FAB_CNT_A_CABLE_MISMATCH_N, (some R.FAB_LAST_EVENT_STAMP)⟩
/-- FAB_EVENTS.REPLAY with its counter (R11). -/
def FAB_REPLAY : EvFlag := ⟨R.FAB_EVENTS_REPLAY, R.FAB_CNT_A_REPLAY_N, (some R.FAB_LAST_EVENT_STAMP)⟩
/-- FAB_EVENTS.HALF_WIDTH with its counter (R11). -/
def FAB_HALF_WIDTH : EvFlag := ⟨R.FAB_EVENTS_HALF_WIDTH, R.FAB_CNT_B_HALF_WIDTH_N, (some R.FAB_LAST_EVENT_STAMP)⟩
/-- FAB_EVENTS.BERT_FAIL with its counter (R11). -/
def FAB_BERT_FAIL : EvFlag := ⟨R.FAB_EVENTS_BERT_FAIL, R.FAB_CNT_B_BERT_FAIL_N, (some R.FAB_LAST_EVENT_STAMP)⟩
/-- FAB_PKG_EVENTS.DEAD_TARGET with its counter (R11). -/
def FAB_DEAD_TARGET : EvFlag := ⟨R.FAB_PKG_EVENTS_DEAD_TARGET, R.FAB_PKG_CNT_A_DEAD_TARGET_N, none⟩
/-- FAB_PKG_EVENTS.REMOTE_REFUSED with its counter (R11). -/
def FAB_REMOTE_REFUSED : EvFlag := ⟨R.FAB_PKG_EVENTS_REMOTE_REFUSED, R.FAB_PKG_CNT_A_REMOTE_REFUSED_N, none⟩
/-- FAB_PKG_EVENTS.REFUSED_IN with its counter (R11). -/
def FAB_REFUSED_IN : EvFlag := ⟨R.FAB_PKG_EVENTS_REFUSED_IN, R.FAB_PKG_CNT_A_REFUSED_IN_N, none⟩
/-- FAB_PKG_EVENTS.LATE_RESP with its counter (R11). -/
def FAB_LATE_RESP : EvFlag := ⟨R.FAB_PKG_EVENTS_LATE_RESP, R.FAB_PKG_CNT_A_LATE_RESP_N, none⟩
/-- FAB_PKG_EVENTS.STALE_IN with its counter (R11). -/
def FAB_STALE_IN : EvFlag := ⟨R.FAB_PKG_EVENTS_STALE_IN, R.FAB_PKG_CNT_B_STALE_IN_N, none⟩
/-- FAB_PKG_EVENTS.PLANES_LOW with its counter (R11). -/
def FAB_PLANES_LOW : EvFlag := ⟨R.FAB_PKG_EVENTS_PLANES_LOW, R.FAB_PKG_CNT_B_PLANES_LOW_N, none⟩
/-- FAB_PKG_EVENTS.KEY_BAD with its counter (R11). -/
def FAB_KEY_BAD : EvFlag := ⟨R.FAB_PKG_EVENTS_KEY_BAD, R.FAB_PKG_CNT_B_KEY_BAD_N, none⟩
/-- LANE_EVENTS.CORR_HIGH with its counter (R11). -/
def LANE_CORR_HIGH : EvFlag := ⟨R.LANE_EVENTS_CORR_HIGH, R.LANE_CNT_CORR_HIGH_N, (some R.LANE_LAST_EVENT_STAMP)⟩
/-- LANE_EVENTS.TEST_FAIL with its counter (R11). -/
def LANE_TEST_FAIL : EvFlag := ⟨R.LANE_EVENTS_TEST_FAIL, R.LANE_CNT_TEST_FAIL_N, (some R.LANE_LAST_EVENT_STAMP)⟩
/-- LANE_EVENTS.TEST_SKIP with its counter (R11). -/
def LANE_TEST_SKIP : EvFlag := ⟨R.LANE_EVENTS_TEST_SKIP, R.LANE_CNT_TEST_SKIP_N, (some R.LANE_LAST_EVENT_STAMP)⟩
/-- COPY_EVENTS.DEAD_TARGET with its counter (R11). -/
def COPY_DEAD_TARGET : EvFlag := ⟨R.COPY_EVENTS_DEAD_TARGET, R.COPY_CNT_DEAD_TARGET_N, (some R.COPY_LAST_EVENT_STAMP)⟩
/-- COPY_EVENTS.REFUSED with its counter (R11). -/
def COPY_REFUSED : EvFlag := ⟨R.COPY_EVENTS_REFUSED, R.COPY_CNT_REFUSED_N, (some R.COPY_LAST_EVENT_STAMP)⟩
/-- COPY_EVENTS.MALFORMED with its counter (R11). -/
def COPY_MALFORMED : EvFlag := ⟨R.COPY_EVENTS_MALFORMED, R.COPY_CNT_MALFORMED_N, (some R.COPY_LAST_EVENT_STAMP)⟩
/-- COPY_EVENTS.ABANDONED with its counter (R11). -/
def COPY_ABANDONED : EvFlag := ⟨R.COPY_EVENTS_ABANDONED, R.COPY_CNT_ABANDONED_N, (some R.COPY_LAST_EVENT_STAMP)⟩
/-- PCIE_EVENTS.LINK_DOWN with its counter (R11). -/
def PCIE_LINK_DOWN : EvFlag := ⟨R.PCIE_EVENTS_LINK_DOWN, R.PCIE_CNT_A_LINK_DOWN_N, (some R.PCIE_LAST_EVENT_STAMP)⟩
/-- PCIE_EVENTS.DEGRADED with its counter (R11). -/
def PCIE_DEGRADED : EvFlag := ⟨R.PCIE_EVENTS_DEGRADED, R.PCIE_CNT_A_DEGRADED_N, (some R.PCIE_LAST_EVENT_STAMP)⟩
/-- PCIE_EVENTS.DB_BAD with its counter (R11). -/
def PCIE_DB_BAD : EvFlag := ⟨R.PCIE_EVENTS_DB_BAD, R.PCIE_CNT_A_DB_BAD_N, (some R.PCIE_LAST_EVENT_STAMP)⟩
/-- PCIE_EVENTS.SQ_ERR with its counter (R11). -/
def PCIE_SQ_ERR : EvFlag := ⟨R.PCIE_EVENTS_SQ_ERR, R.PCIE_CNT_A_SQ_ERR_N, (some R.PCIE_LAST_EVENT_STAMP)⟩
/-- PCIE_EVENTS.CQ_BACKLOG with its counter (R11). -/
def PCIE_CQ_BACKLOG : EvFlag := ⟨R.PCIE_EVENTS_CQ_BACKLOG, R.PCIE_CNT_B_CQ_BACKLOG_N, (some R.PCIE_LAST_EVENT_STAMP)⟩
/-- PCIE_EVENTS.CQ_DROP with its counter (R11). -/
def PCIE_CQ_DROP : EvFlag := ⟨R.PCIE_EVENTS_CQ_DROP, R.PCIE_CNT_B_CQ_DROP_N, (some R.PCIE_LAST_EVENT_STAMP)⟩
/-- PCIE_EVENTS.EP_RX with its counter (R11). -/
def PCIE_EP_RX : EvFlag := ⟨R.PCIE_EVENTS_EP_RX, R.PCIE_CNT_B_EP_RX_N, (some R.PCIE_LAST_EVENT_STAMP)⟩
/-- PCIE_EVENTS.EP_TX with its counter (R11). -/
def PCIE_EP_TX : EvFlag := ⟨R.PCIE_EVENTS_EP_TX, R.PCIE_CNT_B_EP_TX_N, (some R.PCIE_LAST_EVENT_STAMP)⟩
/-- PCIE_EVENTS.HOST_ERR with its counter (R11). -/
def PCIE_HOST_ERR : EvFlag := ⟨R.PCIE_EVENTS_HOST_ERR, R.PCIE_CNT_C_HOST_ERR_N, (some R.PCIE_LAST_EVENT_STAMP)⟩
/-- PCIE_EVENTS.PF_DROP with its counter (R11). -/
def PCIE_PF_DROP : EvFlag := ⟨R.PCIE_EVENTS_PF_DROP, R.PCIE_CNT_C_PF_DROP_N, (some R.PCIE_LAST_EVENT_STAMP)⟩
/-- PART_EVENTS.LOCK_VIOL with its counter (R11). -/
def PART_LOCK_VIOL : EvFlag := ⟨R.PART_EVENTS_LOCK_VIOL, R.PART_CNT_A_LOCK_VIOL_N, (some R.PART_LAST_EVENT_STAMP)⟩
/-- PART_EVENTS.SETUP_BAD with its counter (R11). -/
def PART_SETUP_BAD : EvFlag := ⟨R.PART_EVENTS_SETUP_BAD, R.PART_CNT_A_SETUP_BAD_N, (some R.PART_LAST_EVENT_STAMP)⟩
/-- PART_EVENTS.RESET_DONE with its counter (R11). -/
def PART_RESET_DONE : EvFlag := ⟨R.PART_EVENTS_RESET_DONE, R.PART_CNT_A_RESET_DONE_N, (some R.PART_LAST_EVENT_STAMP)⟩
/-- PART_EVENTS.SAVE_DONE with its counter (R11). -/
def PART_SAVE_DONE : EvFlag := ⟨R.PART_EVENTS_SAVE_DONE, R.PART_CNT_A_SAVE_DONE_N, (some R.PART_LAST_EVENT_STAMP)⟩
/-- PART_EVENTS.RESTORE_DONE with its counter (R11). -/
def PART_RESTORE_DONE : EvFlag := ⟨R.PART_EVENTS_RESTORE_DONE, R.PART_CNT_B_RESTORE_DONE_N, (some R.PART_LAST_EVENT_STAMP)⟩
/-- PART_EVENTS.ACCESS with its counter (R11). -/
def PART_ACCESS : EvFlag := ⟨R.PART_EVENTS_ACCESS, R.PART_CNT_B_ACCESS_N, (some R.PART_LAST_EVENT_STAMP)⟩
/-- PWR_EVENTS.THROTTLE with its counter (R11). -/
def PWR_THROTTLE : EvFlag := ⟨R.PWR_EVENTS_THROTTLE, R.PWR_CNT_A_THROTTLE_N, (some R.PWR_LAST_EVENT_STAMP)⟩
/-- PWR_EVENTS.FLOOR_HOLD with its counter (R11). -/
def PWR_FLOOR_HOLD : EvFlag := ⟨R.PWR_EVENTS_FLOOR_HOLD, R.PWR_CNT_A_FLOOR_HOLD_N, (some R.PWR_LAST_EVENT_STAMP)⟩
/-- PWR_EVENTS.FLOOR_LOW with its counter (R11). -/
def PWR_FLOOR_LOW : EvFlag := ⟨R.PWR_EVENTS_FLOOR_LOW, R.PWR_CNT_A_FLOOR_LOW_N, (some R.PWR_LAST_EVENT_STAMP)⟩
/-- PWR_EVENTS.FLOW_LOST with its counter (R11). -/
def PWR_FLOW_LOST : EvFlag := ⟨R.PWR_EVENTS_FLOW_LOST, R.PWR_CNT_A_FLOW_LOST_N, (some R.PWR_LAST_EVENT_STAMP)⟩
/-- PWR_EVENTS.SAG with its counter (R11). -/
def PWR_SAG : EvFlag := ⟨R.PWR_EVENTS_SAG, R.PWR_CNT_B_SAG_N, (some R.PWR_LAST_EVENT_STAMP)⟩
/-- PWR_EVENTS.THERM_HOT with its counter (R11). -/
def PWR_THERM_HOT : EvFlag := ⟨R.PWR_EVENTS_THERM_HOT, R.PWR_CNT_B_THERM_HOT_N, (some R.PWR_LAST_EVENT_STAMP)⟩
/-- PWR_EVENTS.THERM_TRIP with its counter (R11). -/
def PWR_THERM_TRIP : EvFlag := ⟨R.PWR_EVENTS_THERM_TRIP, R.PWR_CNT_B_THERM_TRIP_N, (some R.PWR_LAST_EVENT_STAMP)⟩
/-- PWR_EVENTS.PREF_RAISED with its counter (R11). -/
def PWR_PREF_RAISED : EvFlag := ⟨R.PWR_EVENTS_PREF_RAISED, R.PWR_CNT_B_PREF_RAISED_N, (some R.PWR_LAST_EVENT_STAMP)⟩
/-- HEALTH_EVENTS.ROLE_FAILED with its counter (R11). -/
def HEALTH_ROLE_FAILED : EvFlag := ⟨R.HEALTH_EVENTS_ROLE_FAILED, R.HEALTH_CNT_A_ROLE_FAILED_N, (some R.HEALTH_LAST_EVENT_STAMP)⟩
/-- HEALTH_EVENTS.TAKEOVER with its counter (R11). -/
def HEALTH_TAKEOVER : EvFlag := ⟨R.HEALTH_EVENTS_TAKEOVER, R.HEALTH_CNT_A_TAKEOVER_N, (some R.HEALTH_LAST_EVENT_STAMP)⟩
/-- HEALTH_EVENTS.NO_SPARE with its counter (R11). -/
def HEALTH_NO_SPARE : EvFlag := ⟨R.HEALTH_EVENTS_NO_SPARE, R.HEALTH_CNT_A_NO_SPARE_N, (some R.HEALTH_LAST_EVENT_STAMP)⟩
/-- HEALTH_EVENTS.RETIRED with its counter (R11). -/
def HEALTH_RETIRED : EvFlag := ⟨R.HEALTH_EVENTS_RETIRED, R.HEALTH_CNT_A_RETIRED_N, (some R.HEALTH_LAST_EVENT_STAMP)⟩
/-- HEALTH_EVENTS.MARGIN_LOW with its counter (R11). -/
def HEALTH_MARGIN_LOW : EvFlag := ⟨R.HEALTH_EVENTS_MARGIN_LOW, R.HEALTH_CNT_B_MARGIN_LOW_N, (some R.HEALTH_LAST_EVENT_STAMP)⟩
/-- HEALTH_EVENTS.FORECAST_LOW with its counter (R11). -/
def HEALTH_FORECAST_LOW : EvFlag := ⟨R.HEALTH_EVENTS_FORECAST_LOW, R.HEALTH_CNT_B_FORECAST_LOW_N, (some R.HEALTH_LAST_EVENT_STAMP)⟩
/-- HEALTH_EVENTS.REPLAN_SKIP with its counter (R11). -/
def HEALTH_REPLAN_SKIP : EvFlag := ⟨R.HEALTH_EVENTS_REPLAN_SKIP, R.HEALTH_CNT_B_REPLAN_SKIP_N, (some R.HEALTH_LAST_EVENT_STAMP)⟩
/-- HEALTH_EVENTS.CORE_WDOG with its counter (R11). -/
def HEALTH_CORE_WDOG : EvFlag := ⟨R.HEALTH_EVENTS_CORE_WDOG, R.HEALTH_CNT_B_CORE_WDOG_N, (some R.HEALTH_LAST_EVENT_STAMP)⟩
/-- HEALTH_EVENTS.CORE_CHECK with its counter (R11). -/
def HEALTH_CORE_CHECK : EvFlag := ⟨R.HEALTH_EVENTS_CORE_CHECK, R.HEALTH_CNT_C_CORE_CHECK_N, (some R.HEALTH_LAST_EVENT_STAMP)⟩
/-- HEALTH_EVENTS.JOURNAL_REBUILD with its counter (R11). -/
def HEALTH_JOURNAL_REBUILD : EvFlag := ⟨R.HEALTH_EVENTS_JOURNAL_REBUILD, R.HEALTH_CNT_C_JOURNAL_REBUILD_N, (some R.HEALTH_LAST_EVENT_STAMP)⟩
/-- HEALTH_EVENTS.LOG_LOST with its counter (R11). -/
def HEALTH_LOG_LOST : EvFlag := ⟨R.HEALTH_EVENTS_LOG_LOST, R.HEALTH_CNT_C_LOG_LOST_N, (some R.HEALTH_LAST_EVENT_STAMP)⟩
/-- SEC_EVENTS.FW_REJECT with its counter (R11). -/
def SEC_FW_REJECT : EvFlag := ⟨R.SEC_EVENTS_FW_REJECT, R.SEC_CNT_A_FW_REJECT_N, (some R.SEC_LAST_EVENT_STAMP)⟩
/-- SEC_EVENTS.FUSE_ECC with its counter (R11). -/
def SEC_FUSE_ECC : EvFlag := ⟨R.SEC_EVENTS_FUSE_ECC, R.SEC_CNT_A_FUSE_ECC_N, (some R.SEC_LAST_EVENT_STAMP)⟩
/-- SEC_EVENTS.KEY_REFUSED with its counter (R11). -/
def SEC_KEY_REFUSED : EvFlag := ⟨R.SEC_EVENTS_KEY_REFUSED, R.SEC_CNT_A_KEY_REFUSED_N, (some R.SEC_LAST_EVENT_STAMP)⟩
/-- SEC_EVENTS.ID_CONFLICT with its counter (R11). -/
def SEC_ID_CONFLICT : EvFlag := ⟨R.SEC_EVENTS_ID_CONFLICT, R.SEC_CNT_A_ID_CONFLICT_N, (some R.SEC_LAST_EVENT_STAMP)⟩
/-- SEC_EVENTS.SPDM_ERR with its counter (R11). -/
def SEC_SPDM_ERR : EvFlag := ⟨R.SEC_EVENTS_SPDM_ERR, R.SEC_CNT_B_SPDM_ERR_N, (some R.SEC_LAST_EVENT_STAMP)⟩
/-- SEC_EVENTS.DEBUG_ACTIVE with its counter (R11). -/
def SEC_DEBUG_ACTIVE : EvFlag := ⟨R.SEC_EVENTS_DEBUG_ACTIVE, R.SEC_CNT_B_DEBUG_ACTIVE_N, (some R.SEC_LAST_EVENT_STAMP)⟩
/-- SEC_EVENTS.FUSE_BURNT with its counter (R11). -/
def SEC_FUSE_BURNT : EvFlag := ⟨R.SEC_EVENTS_FUSE_BURNT, R.SEC_CNT_B_FUSE_BURNT_N, (some R.SEC_LAST_EVENT_STAMP)⟩

end E

end Sys2Proof.Machine
end

