-- ==== Sys2Proof/Machine/StoreTypes.lean ====
section
/-! DEFINITION. Records of the NV stacks, of weights on the move, of fuses and boot, and of partition resets (R285 to
R303, R394 to R400, R451 to R470). -/

namespace Sys2Proof.Machine

/-! ### NV stacks (R285 to R294) -/

/-- What a slot record says (R286). -/
structure SlotRec where
  /-- 0 EMPTY, 1 PROGRAMMING, 2 COMPLETE, 3 ACTIVE -/
  state : Nat
  seq : Nat
  epoch : Nat
  rank : Nat
  progress : Nat
  nshard : Nat
  digest : List Byte
  deriving DecidableEq, Repr

/-- A slot that nothing was installed in. -/
def SlotRec.init : SlotRec := ⟨0, 0, 0, 0, 0, 0, []⟩

/-- Ageing records (R424, R443, R446): per tile and code the least slack of the last sweep, the last 64 daily results of every
monitor with their days, the days with results, and the package forecast with the unit that limits it. -/
structure Ageing where
  /-- 32 × tile + code to 2^16 + slack in ps; 0 none -/
  slack : SMap Nat
  results : SMap (List (Nat × Int))
  days : Nat
  months : Nat
  cls : Nat
  inst : Nat
  deriving DecidableEq, Repr

/-- No records. -/
def Ageing.init : Ageing := ⟨[], [], 0, 0xFFF, 0, 0⟩

/-- What the NV stacks hold: it outlives every reset and the loss of power (R285, R425). -/
structure Nv where
  /-- the slot records as firmware read them at boot or committed them since (R287) -/
  recA : SlotRec
  recB : SlotRec
  /-- the record pages: slot A on N0 to N3, then slot B; a page that was never written is empty (R286) -/
  pages : List (List Byte)
  /-- slot bytes that are not 0, keyed 2^40 * slot + slot address -/
  data : SMap Byte
  /-- retired pages: stack and page -/
  badPages : List (Nat × Nat)
  /-- those of them that no spare page stands for yet (R297) -/
  holes : List (Nat × Nat)
  /-- pages programmed on each stack since manufacture: a program cycle is 96 GiB, 1,572,864 pages (R294) -/
  wear : List Nat
  /-- the retirement record: units, HBM channels, die-to-die lanes -/
  retired : List (Nat × Nat)
  channels : List Nat
  d2d : List (Nat × Nat)
  /-- key pages: owner slot and public point (R464) -/
  keyPages : List (Nat × List Byte)
  /-- certificates 1 to 3 (R467) -/
  certs : List Byte
  /-- forecasts in months as last committed: dies C0 to C3 (R449) -/
  forecasts : List Nat
  /-- the other ageing records as last committed (R424) -/
  ageing : Ageing
  /-- pages of the log area, 8,192 of them: page `n` on stack `n` mod 4 (R440) -/
  logPages : SMap (List Byte)
  /-- page commits of the log so far (R440) -/
  logNext : Nat
  deriving DecidableEq, Repr

/-- NV stacks with nothing in them. -/
def Nv.init : Nv :=
  ⟨.init, .init, List.replicate 8 [], [], [], [], [0, 0, 0, 0], [], [], [], [], [], [0xFFF, 0xFFF, 0xFFF, 0xFFF], .init, [], 0⟩

/-- An Install under way (R292): its request (none for the reinstall of R299), slot, manifest, programmings of the
present shard, shards that a reinstall leaves out, and where the host holds each shard, with its length (R370). -/
structure Install where
  req : Option Req
  slot : Nat
  manifest : List Byte
  tries : Nat
  skip : List Nat
  table : List (Nat × Nat)
  deriving DecidableEq, Repr

/-- A staging under way (R295): its request (none at boot), slot, region. -/
structure Staging where
  req : Option Req
  slot : Nat
  region : Nat
  deriving DecidableEq, Repr

/-- A fill under way (R298): its request (none in a takeover), manifest, the source rank of each shard, host-slot
entries, what arrived with its digest, and what was asked for again: shards in ascending order, then host slots. -/
structure Fill where
  req : Option Req
  manifest : List Byte
  sources : List Nat
  hosts : List Nat
  got : List (Nat × List Byte)
  again : List Nat
  deriving DecidableEq, Repr

/-- What a host slot holds: the expert, the rank it came from, `none` for own NV, and the epoch of its manifest (R296, R370). -/
structure HostSlot where
  expert : Nat
  source : Option Nat
  epoch : Nat
  deriving DecidableEq, Repr

/-- Weights on the move. -/
structure Weights where
  /-- host slots staged, keyed 8 * (256 * partition + layer) + host slot (R279, R370) -/
  hostSlots : SMap (Option HostSlot)
  /-- the manifests of the contents of region 0 and of region 1 -/
  manifests : List (List Byte)
  install : Option Install
  staging : Option Staging
  fill : Option Fill
  /-- slot staged in region 0 and in region 1, if any -/
  staged : List (Option Nat)
  /-- bytes that each Promenade engine moved in the present bar (R308) -/
  used : List Nat
  /-- the bar of a Swap rejected as late, until its boundary (R303) -/
  missed : Option Nat
  /-- the epoch of a swap that passed while a spare filled (R310) -/
  owed : Option Nat
  /-- a reinstall that waits for an Install to end: its manifest, and the shards it leaves out (R299) -/
  redo : Option (List Byte × List Nat)
  /-- record commits that supply sag holds back: slot and record, oldest first (R423) -/
  held : List (Nat × SlotRec)
  /-- the rank that the weights of the current region serve, once a staging at boot or a fill has put them there (R463) -/
  serves : Option Nat
  deriving DecidableEq, Repr

/-- Nothing on the move. -/
def Weights.init : Weights := ⟨[], [[], []], none, none, none, [none, none], [0, 0, 0, 0], none, none, none, [], none⟩

/-! ### Fuses (R451 to R453) -/

/-- An owner slot: its hash once a bit of it is burnt, VALID, REVOKED. -/
structure OwnerSlot where
  hash : Option (List Byte)
  valid : Bool
  revoked : Bool
  deriving DecidableEq, Repr

/-- One entry of a repair group (R451): its die, the lowest of its bits in the die's group, the unit it repairs (physical tile, link
or HBM stack) and the place in it (bank × 2^11 + row, lane, or row). -/
structure RepairFuse where
  die : Nat
  bit : Nat
  unit : Nat
  place : Nat
  deriving DecidableEq, Repr

/-- The fuses of the ten dies (R451), as they were burnt. -/
structure FuseBank where
  lifecycle : Nat
  uid : Nat
  /-- helper data that recovers the PUF key -/
  pufHelper : List Byte
  /-- FW_KEY0 and FW_KEY1: hash and REVOKED -/
  fwKeys : List (List Byte × Bool)
  dbgKey : List Byte
  owners : List OwnerSlot
  svn : Nat
  noDebug : Bool
  partnum : Nat
  stepping : Nat
  tileBad : List Nat
  laneBad : List Nat
  sramRepair : List RepairFuse
  /-- mV of each code, per compute die -/
  vf : List (List Nat)
  /-- SENS of each compute die -/
  sens : List Nat
  d2dRepair : List RepairFuse
  hbmRepair : List RepairFuse
  /-- PWR_WEIGHT0 to 7 (R406, R428) -/
  weights : List Nat
  /-- the leakage table of 16 temperatures by 8 voltages (R406) -/
  leak : List Nat
  /-- words that ECC cannot correct: group row of R451, and die + 16 × the word's place in the group -/
  badWords : List (Nat × Nat)
  /-- physical fuses that read other than they were burnt, in fields that store three for each bit (R452): group row, bit, copy -/
  flipped : List (Nat × Nat × Nat)
  deriving DecidableEq, Repr

/-- A flag or thermometer bit as the majority of its three fuses reads (R452). -/
def FuseBank.majority (f : FuseBank) (g bit : Nat) (v : Bool) : Bool :=
  v != decide (2 ≤ ((List.range 3).filter (fun c => f.flipped.contains (g, bit, c))).length)

/-- The bits burnt of a thermometer field as they read (R452). -/
def FuseBank.burnt (f : FuseBank) (g width n : Nat) : Nat :=
  ((List.range width).filter (fun i => f.majority g i (decide (i < n)))).length

/-- The fuses as they are sensed (R452): LIFECYCLE, VALID, REVOKED, SVN and DEBUG_DISABLE by majority. That the bits of a group of
several slots lie slot after slot, each with its hash below its flags, is the model's choice (DESIGN CHOICE, log 217). -/
def FuseBank.read (f : FuseBank) : FuseBank :=
  { f with
    lifecycle := f.burnt 0 3 f.lifecycle
    fwKeys := f.fwKeys.zipIdx.map (fun (k, i) => (k.1, f.majority 3 (385 * i + 384) k.2))
    owners := f.owners.zipIdx.map (fun (o, i) =>
      { o with valid := f.majority 5 (386 * i + 384) o.valid, revoked := f.majority 5 (386 * i + 385) o.revoked })
    svn := f.burnt 6 64 f.svn
    noDebug := f.majority 7 0 f.noDebug }

/-- The entries of a repair group that are not ignored: those with no bad word, each `width` bits wide (R452). -/
def FuseBank.usable (f : FuseBank) (g width : Nat) (l : List RepairFuse) : List RepairFuse :=
  l.filter (fun r => !f.badWords.any (fun e => decide (e.1 = g) && decide (e.2 % 16 = r.die) &&
    decide (r.bit / 64 ≤ e.2 / 16) && decide (e.2 / 16 ≤ (r.bit + width - 1) / 64)))

/-- Weights of R406 in fJ per unit, at their typical values: array, ramp, vector, SRAM, HBM, shelf, NV, fabric (log 26). -/
def typicalWeights : List Nat := [4700000, 2400000, 900000, 600, 23900, 32500, 81000, 9200000]

/-- The voltage in mV of a code on a new part, linear between the three points of R414 (log 47). -/
def typicalVf (c : Nat) : Nat := if c ≤ 17 then 550 + 150 * c / 17 else 700 + 20 * (c - 17)

/-- A part from manufacture with nothing repaired and no owner (log 47). -/
def FuseBank.init : FuseBank where
  lifecycle := 2
  uid := 0
  pufHelper := []
  fwKeys := [([], false), ([], false)]
  dbgKey := []
  owners := List.replicate 4 ⟨none, false, false⟩
  svn := 0
  noDebug := false
  partnum := 0x7120
  stepping := 0x11
  tileBad := []
  laneBad := []
  sramRepair := []
  vf := List.replicate 4 ((List.range 23).map typicalVf)
  sens := [0, 0, 0, 0]
  d2dRepair := []
  hbmRepair := []
  weights := typicalWeights
  leak := List.replicate 128 0
  badWords := []
  flipped := []

/-! ### Boot and security (R454 to R470) -/

/-- A burn of field fuses under way (R453): the code of its command and the fuses after each of its bits that are still to burn, in
the order of R453. -/
structure Burn where
  code : Nat
  steps : List FuseBank
  deriving DecidableEq, Repr

/-- An SPDM session (R467): over DOE or over MCTP, its id, and whether it is finished, that is, whether FINISH has come. -/
structure Session where
  doe : Bool
  id : Nat
  finished : Bool
  deriving DecidableEq, Repr

/-- The boot ROM and the security block beyond their registers. -/
structure Boot where
  /-- PERST_N is asserted -/
  perst : Bool
  /-- boot held at stage ROM for rails, or for flow (R486) -/
  waitRails : Bool
  waitFlow : Bool
  /-- FETCH and VERIFY were retried (R456) -/
  retried : Bool
  /-- the bundle in boot SRAM (R454) -/
  sram : SMap Byte
  /-- REVOKE_OTHER and KEYSLOT of the running bundle (R458) -/
  revokeOther : Bool
  keySlot : Nat
  /-- nonces given out, and the current one (R470) -/
  nonces : Nat
  nonce : Option (List Byte)
  /-- debug latch with its KIND: 1 Shuile (R470) -/
  latch : Option Bool
  /-- the measurement register of each die, in R40 order (R460) -/
  measured : List (List Byte)
  /-- a burn of field fuses under way (R453) -/
  burn : Option Burn
  /-- the TAP instruction in effect (R469) -/
  tap : TapInstr
  /-- SPDM messages taken: over DOE or MCTP, and bytes (R467); an empty one stands for a DOE Abort (R471) -/
  spdm : List (Bool × List Byte)
  /-- THERM_TRIP_N is asserted (R421) -/
  trip : Bool
  /-- the DeviceID scalar until the alias certificate is signed, the alias scalar, and X1's copy of it (R466) -/
  deviceKey : Option Nat
  aliasKey : Option Nat
  aliasStandby : Option Nat
  /-- the alias certificate (R467) -/
  aliasCert : List Byte
  /-- the copy of the bundle in reserved HBM (R441, R455) -/
  bundleCopy : SMap Byte
  /-- units that failed to train, of which no other state tells: class and instance (R456) -/
  failed : List (Nat × Nat)
  /-- SPDM sessions (R467) -/
  sessions : List Session
  deriving DecidableEq, Repr

/-- A package held in reset. -/
def Boot.init : Boot :=
  ⟨true, false, false, false, [], false, 0, 0, none, none, [], none, .bypass, [], false, none, none, none, [], [], [], []⟩

/-! ### Partition and Set resets, pre-emption (R394 to R400) -/

/-- A partition reset under way (R400): CLEAR_LOCK, SCRUB, the stamp it began at, whether it waits for a copy of a save or
restore to end (R402), and the step it is at: 2 reading the ring, 5 finishing the moves, 8 clearing memory. -/
structure ResetJob where
  clearLock : Bool
  scrub : Bool
  stamp : Nat
  waits : Bool
  step : Nat
  deriving DecidableEq, Repr

/-- A Quinbingo thread (R341): the launch it belongs to, its program and argument block, whether it waits for an answer,
and the last answer with its poison mark. -/
structure Thread where
  run : Option Req
  prog : Nat
  args : Nat
  waits : Bool
  answer : List Byte
  mark : Bool
  deriving DecidableEq, Repr

/-- A thread context that runs nothing. -/
def Thread.init : Thread := ⟨none, 0, 0, false, [], false⟩

end Sys2Proof.Machine
end

