-- ==== Sys2Proof/Machine/Fuses.lean ====
section
/-! DEFINITION. The key of a register field, and the register fields whose reset value depends on the instance or is
fused (R10, R404, R406). -/

namespace Sys2Proof.Machine

/-- The key of a register field's instance: class, instance, offset and lowest bit. -/
def fkey (f : Fld) (i k j : Nat) : Nat :=
  ((f.cls * 2 ^ 16 + (if f.shared then 0 else i % 2 ^ 16)) * 2 ^ 32 + (f.off + f.s1 * k + f.s2 * j) % 2 ^ 32) * 64 + f.lo

/-- Fields that do not hold `Fld.rst` at package reset: ACTIVE of the Caller and of the power
governor on X0 (R211, R404), the fused weights (R406), and the lifecycle PRODUCTION (R473; log 47). -/
def fusedRegs : SMap Nat :=
  (fkey R.CALLER_STATUS_ACTIVE 0 0 0, 1) :: (fkey R.SEC_STATUS_LIFECYCLE 0 0 0, 2) ::
    (fkey R.PWR_STATUS_ACTIVE 0 0 0, 1) :: typicalWeights.zipIdx.map (fun (w, n) => (fkey R.PWR_WEIGHT_WEIGHT 0 n 0, w))

end Sys2Proof.Machine
end

