-- ==== Sys2Proof/Machine/HealthTypes.lean ====
section
/-! DEFINITION. Records of the power governor, the health monitor and takeover (R405 to R421, R434, R435, R441 to
R446). -/

namespace Sys2Proof.Machine

/-! ### Power -/

/-- A budget ramp after a change of C (R410): its direction, P₀, the windows until window T, then since it, and the budgets that
the windows before T have. -/
structure Ramp where
  down : Bool
  p0 : Nat
  wait : Nat
  steps : Nat
  held : List Nat
  deriving DecidableEq, Repr

/-- The operating point of a compute die on its way (R416): a code whose voltage is rising, whether the rail has
settled there, and a code to change to at the next beat boundary. -/
structure DieClk where
  rising : Option Nat
  next : Option Nat
  deriving DecidableEq, Repr

/-- The power governor beyond its registers. -/
structure Power where
  /-- windows ended since package reset -/
  windows : Nat
  /-- guarded estimate of the last window in W, and the stamp of its end (R405) -/
  est : Nat
  estStamp : Nat
  /-- source of that stamp (R405) -/
  estUnit : Nat
  /-- package budget of the present window in W -/
  budget : Nat
  ramp : Option Ramp
  /-- the thermal cap, while active (R421) -/
  thermal : Option Nat
  /-- held at the floor (R413) -/
  held : Bool
  /-- windows, sum and peak of the estimates of the present bar, and its highest guarded one -/
  barWins : Nat
  barSum : Nat
  barPeak : Nat
  barGuard : Nat
  /-- a Set was late by the closed gate alone in the present bar (R412) -/
  floorDue : Bool
  /-- energy of the present bar by partition in µJ, and of the bar before -/
  barPart : List Nat
  lastPart : List Nat
  dies : List DieClk
  /-- flow has been back for 1 s since it was lost (R420) -/
  flowBack : Bool
  /-- HBM4 and LPDDR6 are in self-refresh (R420) -/
  selfRefresh : Bool
  /-- the last voltage commanded to each compute die's rail, in mV; 0 none yet (R477) -/
  rails : List Nat
  /-- an OPP_MAX below the present one that the next bar boundary brings (R445) -/
  oppNext : Option Nat
  /-- a commit of the logs that supply sag holds back (R423, R424) -/
  logHeld : Bool
  deriving DecidableEq, Repr

/-- The governor after a package reset. -/
def Power.init : Power where
  windows := 0
  est := 0
  estStamp := 0
  estUnit := 0
  budget := 3600
  ramp := none
  thermal := none
  held := false
  barWins := 0
  barSum := 0
  barPeak := 0
  barGuard := 0
  floorDue := false
  barPart := List.replicate 16 0
  lastPart := List.replicate 16 0
  dies := List.replicate 4 ⟨none, none⟩
  flowBack := false
  selfRefresh := false
  rails := [0, 0, 0, 0]
  oppNext := none
  logHeld := false

/-! ### Health -/

/-- An order of a takeover (R435): the rank, the spare it went to, and its ready record. -/
structure Order where
  rank : Nat
  pkg : Nat
  ok : Option Bool
  deriving DecidableEq, Repr

/-- A takeover as its coordinator sees it: the held bar, GEN, the failed packages, the orders, spares that failed, and
whether the table was sent. -/
structure Coord where
  bar : Nat
  gen : Nat
  failed : List Nat
  orders : List Order
  passed : List Nat
  sent : Bool
  deriving DecidableEq, Repr

/-- A takeover order as its spare carries it out: rank, GEN, coordinator, buddy, kit bytes by offset, kit bytes asked
for and not answered, whether the parts were asked for, whether the image is verified, whether the fill is done, and the end. -/
structure Kit where
  rank : Nat
  gen : Nat
  coord : Nat
  buddy : Nat
  bytes : SMap Byte
  left : List Nat
  parts : Bool
  image : Bool
  filled : Bool
  ended : Bool
  deriving DecidableEq, Repr

/-- The restoring of a rank's sequences from its mirror (R206, R435 step 7): the package that holds the mirror, mirror
bytes by offset, offsets asked for and not answered, pieces that came marked or were refused, and whether the histories
were asked for. -/
structure Restore where
  from_ : Nat
  bytes : SMap Byte
  left : List Nat
  bad : List Nat
  hist : Bool
  deriving DecidableEq, Repr

/-- The margin re-plan (R443): tile, physical tile under test, spare, stage as HEALTH_REPLAN codes it, the bar the stage
began in, and whether the sweep has ended. -/
structure Replan where
  tile : Nat
  phys : Nat
  spare : Nat
  stage : Nat
  since : Nat
  swept : Bool
  deriving DecidableEq, Repr

/-- The health monitor beyond its registers. -/
structure Health where
  /-- causes of R432 that stand -/
  causes : List Nat
  coord : Option Coord
  kit : Option Kit
  restore : Option Restore
  /-- GEN of the last order this package acted on -/
  orderGen : Nat
  /-- the stamp of BARRIER_TMO of the held bar, if it stands, and coordinators that have timed out since -/
  tmoAt : Option Nat
  coordsOut : Nat
  /-- the tile in re-plan (R443) -/
  replan : Option Replan
  /-- next tile of the re-plan, the tile it ends before, and the bar the last whole one began in -/
  nextTile : Nat
  planEnd : Nat
  /-- it is a re-plan of every tile -/
  whole : Bool
  replanBar : Nat
  /-- least slack of each tile at every code: 32 × tile + code to 2^16 + slack; 0 none (R443) -/
  slack : SMap Nat
  /-- dies whose re-plan a ring monitor has brought forward (R442) -/
  forward : List Nat
  /-- largest drift in ps of each die since its last re-plan, and the last margin in steps of each HBM channel, as 1 + steps (R442) -/
  drift : SMap Nat
  hbm : SMap Nat
  /-- resets of control cores: core and beat -/
  resets : List (Nat × Nat)
  /-- stamp of the last change of the tile behind a logical tile -/
  mapped : SMap Nat
  /-- packages whose mirrors are being rebuilt towards them (R437) -/
  rebuild : Bool
  /-- logical tiles to retire at the next bar boundary (R429) -/
  faulty : List Nat
  /-- what the last health record said, its stamp apart (R434) -/
  record : List Nat
  /-- the last 64 daily results of each monitor with their days, oldest first (R446) -/
  results : SMap (List (Nat × Int))
  /-- days with results so far (R446) -/
  days : Nat
  /-- SEQ of the last log record committed to NV (R440) -/
  committed : Nat
  /-- GEN of the last takeover table that was rejected as late (R95) -/
  judged : Nat
  deriving DecidableEq, Repr

/-- The health monitor after a package reset. -/
def Health.init : Health where
  causes := []
  coord := none
  kit := none
  restore := none
  orderGen := 0
  tmoAt := none
  coordsOut := 0
  replan := none
  nextTile := 384
  planEnd := 384
  whole := false
  replanBar := 0
  slack := []
  forward := []
  drift := []
  hbm := []
  resets := []
  mapped := []
  rebuild := false
  faulty := []
  record := []
  results := []
  days := 0
  committed := 0
  judged := 0

end Sys2Proof.Machine
end

