-- ==== Sys2Proof/Machine/HostTypes.lean ====
section
/-! DEFINITION. Records of the host interface (R354 to R384). -/

namespace Sys2Proof.Machine

/-- A completion ring beyond its registers: its backlog's head and count, entries in firmware memory, and what is not
yet signalled (R380, R383). Each entry is its KIND and 16 words. -/
structure CqSt where
  blHead : Nat
  blCount : Nat
  waiting : List (List Nat)
  unsig : Nat
  oldest : Nat
  deriving DecidableEq, Repr

/-- A completion ring after reset. -/
def CqSt.init : CqSt := ⟨0, 0, [], 0, 0⟩

/-- A request taken and not completed (R367, R369): its TYPE and the stamp at which it was taken. -/
structure OpenReq where
  req : Req
  typ : Nat
  stamp : Nat
  deriving DecidableEq, Repr

/-- What bytes read from the host are for. -/
inductive ReadFor where
  /-- a TO_DEVICE request -/
  | toDevice (r : Req)
  /-- the prompt of a sequence entry and its generation -/
  | prompt (index gen : Nat)
  deriving DecidableEq, Repr

/-- A transfer from the host (R198, R371): where the next read starts in host and device memory, the bytes not yet
arrived, what has arrived and waits, and the tag and size of the read outstanding. -/
structure Xfer where
  why : ReadFor
  grp : Nat
  haddr : Nat
  daddr : Nat
  left : Nat
  got : List (Byte × Bool)
  tag : Option Nat
  ask : Nat
  deriving DecidableEq, Repr

/-- A doorbell held during a partition reset (R400): group, page offset, value. -/
structure HeldBell where
  grp : Nat
  off : Nat
  val : Nat
  deriving DecidableEq, Repr

/-- What the endpoint's Advanced Error Reporting logs (R359, R360). -/
inductive AerErr where
  /-- a read answered with UR or CA -/
  | unsuccessful
  /-- a read not answered within the Completion Timeout range -/
  | timeout
  /-- Poisoned TLP Received, advisory non-fatal -/
  | poisoned
  /-- a memory request outside every BAR: Unsupported Request -/
  | unsupported
  deriving DecidableEq, Repr

/-- The severities of AER. -/
inductive Severity where
  | advisoryNonFatal
  | nonFatal
  | fatal
  deriving DecidableEq, Repr

/-- The severity of what AER logs (R359, R360): Poisoned TLP Received is advisory; the others have the default of the PCI Express
specification, which is non-fatal for each of them (PRESUMED, log 208). -/
def AerErr.severity : AerErr → Severity
  | .poisoned => .advisoryNonFatal
  | .unsuccessful | .timeout | .unsupported => .nonFatal

/-- The host interface beyond its registers. -/
structure Hostif where
  /-- functions with Bus Master Enable, one bit each: 0 the PF, v VF v (R358) -/
  bme : Nat
  /-- functions in D3hot (R358) -/
  d3 : Nat
  vfEnable : Bool
  numVfs : Nat
  /-- address and data of the MSI-X table entries, keyed 2,048 * function + entry (R357) -/
  msixTab : SMap (Nat × Nat)
  /-- entries that are unmasked, by the same key (R383) -/
  unmasked : List Nat
  /-- entries whose pending bit is set -/
  pba : List Nat
  /-- completion rings, keyed 16 * group + CQ -/
  cqs : SMap CqSt
  reqs : List OpenReq
  /-- transfers from the host, oldest first, and the tag of the next read -/
  xfers : List Xfer
  nextTag : Nat
  bells : List HeldBell
  /-- errors that AER has logged (R359) -/
  aer : List AerErr
  deriving DecidableEq, Repr

/-- The host interface after a package reset. -/
def Hostif.init : Hostif := ⟨0, 0, false, 0, [], [], [], [], [], [], 0, [], []⟩

end Sys2Proof.Machine
end

