-- ==== Sys2Proof/Machine/ReelTypes.lean ====
section
/-! DEFINITION. Records of the Reel (R256 to R279). -/

namespace Sys2Proof.Machine

/-- One piece of a Reel transfer that has landed: where, the packet that brought it, the wave it belongs to (R271: a piece sent
again is not counted again), and the tick it landed at. -/
structure Land where
  addr : Nat
  src : Nat
  unit : Nat
  reqid : Nat
  nth : Nat
  tick : Nat
  deriving DecidableEq, Repr

/-- An accepted nominee and where it goes (R259, R264): home rank, token slot, choice, expert, and the package, host
slot and landing row of its replica; `spill` says that the replica is outside the home's rack (R277). -/
structure Pick where
  home : Nat
  slot : Nat
  choice : Nat
  expert : Nat
  pkg : Nat
  hslot : Nat
  row : Nat
  spill : Bool
  deriving DecidableEq, Repr

/-- One layer of the present bar (R270): whether phase N is over, and the tick it was, the nominations that have landed, the selection once
phase S has ended, whether NOM_MISS poisons the layer (R275), whether phase D is over, the waves sent by wave and home
package, the releases held by wave and home package (R274), the rows landed, the dispatch rows that failed the check
of R272, the host slots and waves already counted (R271), and rows discarded by address and wave (R273). -/
structure ReelLayer where
  begun : Bool
  beganAt : Nat
  noms : List Land
  picks : Option (List Pick)
  miss : Bool
  sent : Bool
  waves : List (Nat × Nat)
  rels : List (Nat × Nat)
  rows : List Land
  bad : List Nat
  slotsIn : List Nat
  wavesIn : Nat
  deriving DecidableEq, Repr

/-- A layer that has not begun. -/
def ReelLayer.init : ReelLayer := ⟨false, 0, [], none, false, false, [], [], [], [], [], 0⟩

/-- The Reel's work for a partition in the present bar: the layer in progress, whether the keys were sent, the keys
landed, and its layers. -/
structure ReelPart where
  cur : Option Nat
  keysSent : Bool
  keys : List Land
  layers : SMap ReelLayer
  deriving DecidableEq, Repr

/-- No Reel work. -/
def ReelPart.init : ReelPart := ⟨none, false, [], []⟩

/-- A pending placement table (R278), which lies in the Reel area, and the request it completes. -/
structure PlacePend where
  part : Nat
  gen : Nat
  eff : Nat
  req : Req
  deriving DecidableEq, Repr

end Sys2Proof.Machine
end

