-- ==== Sys2Proof/Machine/State.lean ====
section
/-! DEFINITION. The state of the package: every register, table, buffer and mode the manual names, as plain data. -/

namespace Sys2Proof.Machine

/-! ### Records -/

/-- What a fault-log record reports when no register flag does. -/
inductive Note where
  | lockViolation (part : Nat)
  /-- cause of R32, class, physical index -/
  | unitRetired (cause cls phys : Nat)
  | cardChange (gen stamp : Nat)
  | barOverrun (bar beats latePkg stamp : Nat)
  | lateMarker (pkg bar stamp : Nat)
  | missingMarkers (bar : Nat) (pkgs : List Nat)
  | viewFault (set : Nat)
  | rankNotHeld (set : Nat)
  /-- a request completed with TIMEOUT: group and CID (R207) -/
  | requestTimeout (grp cid : Nat)
  /-- two ports whose cables are crossed (R347) -/
  | crossedPorts (a b : Nat)
  /-- a takeover step of R435 in which this package took part: step, rank, package -/
  | takeover (step rank pkg : Nat)
  /-- a die-to-die lane replaced by a spare: link and lane (R16) -/
  | d2dLane (link lane : Nat)
  /-- a ring entry with a reserved encoding: group and CID (R13) -/
  | malformedEntry (grp cid : Nat)
  /-- a control core's code differs from what was measured at boot: it is reloaded (R441) -/
  | coreReload (core : Nat)
  /-- an uncorrectable error of a control core's own memory (R441) -/
  | coreEcc (core : Nat)
  /-- a unit that failed to train at boot (R456): class and instance -/
  | bootUnit (cls inst : Nat)
  /-- a health event that has no flag: its code of R450, and the first payload word -/
  | healthEvent (code word : Nat)
  deriving DecidableEq, Repr

/-- The subject of a fault-log record: a W1C flag of a unit, or a note. -/
inductive LogWhat where
  | flag (f : Fld) (inst : Nat)
  | note (n : Note)
  deriving DecidableEq, Repr

/-- A record of the fault log, stamped at detection by its source unit (R62, R64, R66); `hold` is the holdover
time quality (R55). -/
structure LogRec where
  stamp : Nat
  hold : Bool
  unit : Nat
  what : LogWhat
  args : List Nat
  deriving DecidableEq, Repr

/-! ### Tempo (R46 to R68) -/

/-- One Tempo input: what the receiver remembers of it (R47, R50). -/
structure TempoIn where
  /-- consecutive good beats, at most 8 -/
  good : Nat
  /-- consecutive edges outside 0.1 % of the period -/
  offRun : Nat
  /-- an edge has arrived since EN -/
  started : Bool
  /-- an edge has arrived in the current beat -/
  seen : Bool
  /-- edge minus predicted edge in the current beat, in ticks -/
  off : Int
  /-- the input qualified in the current beat -/
  fresh : Bool
  /-- the beats after the marker of the frame in progress: the bit of each, `none` where the beat had no bit -/
  frame : Option (List (Option Bool))
  deriving DecidableEq, Repr

/-- The input as EN starts it. -/
def TempoIn.init : TempoIn := ⟨0, 0, false, false, 0, false, none⟩

/-- A received bar-done marker (R59). -/
structure Mark where
  pkg : Nat
  stamp : Nat
  deriving DecidableEq, Repr

/-- The Tempo block beyond its registers. -/
structure Tempo where
  inA : TempoIn
  inB : TempoIn
  /-- raw stamp counter: beat * 1,024 + tick (R6) -/
  now : Nat
  /-- the selected input was lost in the current beat (R53) -/
  lost : Bool
  /-- a SWAP write waits for the next boundary (R57) -/
  swap : Bool
  /-- a bar is in progress -/
  barOn : Bool
  /-- markers received for the current bar, in order of receipt (R59) -/
  marks : List Mark
  /-- markers received, keyed 2^64 * package + bar, each 1: a later copy is ignored (R59) -/
  seenMarks : SMap Nat
  /-- BARRIER_TMO was raised for the current bar (R63) -/
  tmoDone : Bool
  /-- S of R60 for the current bar, in beats: its first beat, or the boundary at which the others started it (R438) -/
  base : Nat
  /-- a marker of the current bar came late (R63, R438) -/
  lateMark : Bool
  /-- GUARD and TMO in effect, latched at the last bar boundary (R67) -/
  guardEff : Nat
  tmoEff : Nat
  /-- SEL was first chosen, or chosen again by PREF, in the current beat (R51) -/
  picked : Bool
  /-- per compute die: a stamp and the array cycle of it, since which the die's clock has not changed (R78, R414) -/
  cycles : List (Nat × Nat)
  deriving DecidableEq, Repr

/-- Tempo after a package reset (R67). -/
def Tempo.init : Tempo := ⟨.init, .init, 0, false, false, false, [], [], false, 0, false, 0x180, 0x10, false, []⟩

/-! ### The Dance Card (R30 to R45) -/

/-- Which physical instances are fused, retired, and stand behind which logical instance (R36, R37). -/
structure Layout where
  /-- fused instances: class and physical index -/
  fused : List (Nat × Nat)
  /-- retired instances: class and physical index -/
  retired : List (Nat × Nat)
  /-- tiles whose physical index is not the default of R40; 0xFFFF unavailable -/
  tiles : List (Nat × Nat)
  /-- lanes whose physical index is not the default of R40 -/
  lanes : List (Nat × Nat)
  /-- HBM channels retired, 32 * stack + channel (R40) -/
  channels : List Nat
  deriving DecidableEq, Repr

/-- A package with nothing fused, retired or remapped. -/
def Layout.default : Layout := ⟨[], [], [], [], []⟩

/-- A retirement or feature change decided and not yet in the card (R42): cause, class and physical instance. -/
structure CardChange where
  cause : Nat
  cls : Nat
  phys : Nat
  deriving DecidableEq, Repr

/-- The Dance Card's header fields and the layout it shows (R32, R42). -/
structure Card where
  gen : Nat
  stamp : Nat
  cause : Nat
  causeClass : Nat
  causeInst : Nat
  /-- the layout the masks and maps of the card show -/
  shown : Layout
  /-- the layout being written while `gen` is odd -/
  next : Layout
  /-- the changes of the regeneration in progress -/
  batch : List CardChange
  /-- changes decided and not yet taken into a regeneration -/
  waiting : List CardChange
  deriving DecidableEq, Repr

/-- The card before the boot build (R32). -/
def Card.init : Card := ⟨0, 0, 0, 0, 0, .default, .default, [], []⟩

/-! ### Set schedulers and tiles (R69 to R129, R164, R177) -/

/-- A run of bytes of a logical tile's scratchpad, or of its accumulator store (R105, R108). -/
structure Rgn where
  tile : Nat
  acc : Bool
  lo : Nat
  hi : Nat
  deriving DecidableEq, Repr

/-- A byte with the poison mark of the word it comes from (R148). -/
abbrev MarkByte := Byte × Bool

/-- A write of working state, made when its command completes (R82). -/
inductive Wk where
  /-- bytes of tile SRAM at a byte key, with their marks -/
  | sram (key : Nat) (data : List MarkByte)
  /-- a row tag at a tag key -/
  | tag (key v : Nat)
  /-- a shape register, loaded with VALUE and MAX -/
  | shape (k value max : Nat)
  /-- one more completed MPASS of a tile (R129) -/
  | pass (tile : Nat)
  deriving DecidableEq, Repr

/-- An architectural effect held until its commit group commits (R82, R83). -/
inductive Held where
  /-- bytes written to device memory -/
  | mem (a : Nat) (data : List MarkByte)
  /-- one score half of a KV tag, with SP (R242) -/
  | score (tag parity : Nat) (data : List MarkByte)
  /-- a shape cell's VALUE (R89) -/
  | cell (a value : Nat) (mark : Bool)
  /-- block counts added to a layer's statistics counters, by STAT_ADDR (R145) -/
  | stat (a : Nat) (counts : List Nat)
  deriving DecidableEq, Repr

/-- Why a Set is in HALTED (R101): a kill or a pre-emption, ROLE_NOT_READY, or holdover expiry. -/
inductive HaltWhy where
  | kill | role | expiry
  deriving DecidableEq, Repr

/-- The unit of a tile that a command occupies (R108). -/
inductive TileUnit where
  | none | array | vector | rotate | port
  deriving DecidableEq, Repr

/-- An FCOPY after its issue (R335, R336): where it goes, which packets are unanswered, whether it is abandoned. -/
structure FcopySt where
  dst : Nat
  part : Nat
  key : Nat
  off : Nat
  arr : Nat
  dset : Nat
  left : List Nat
  lost : Bool
  /-- the rows it has sent, each with its remote offset, unless they went out poisoned -/
  rows : List (Nat × List MarkByte)
  deriving DecidableEq, Repr

/-- What the completion of a command waits for. -/
inductive FlightKind where
  | plain
  /-- a WAIT: its counter, its target and the stamp of its deadline (R81) -/
  | wait (arr target : Nat) (deadline : Option Nat)
  | fcopy (f : FcopySt)
  | endOfBar
  deriving DecidableEq, Repr

/-- A command issued and not committed. -/
structure Flight where
  idx : Nat
  /-- index of the first command of its commit group -/
  grp : Nat
  cp : Bool
  ssb : Option Nat
  /-- the token and the shape register that it read (R76, R84) -/
  wsb : Option Nat
  sh : Option Nat
  unit : TileUnit
  tiles : List Nat
  /-- tile SRAM it reads, and the part of it that stays pinned until commit (R108, R144) -/
  reads : List Rgn
  pins : List Rgn
  writes : List Rgn
  kind : FlightKind
  work : List Wk
  held : List Held
  stamp : Nat
  chained : Bool
  done : Bool
  deriving DecidableEq, Repr

/-- The last pass with rows of a tile, for chaining: TILES, FMT, the cycle of its last row, the first-row cycle of its
last segment, the cycle its last result is written, and the cycle its ramp-down ends (R111, R112). -/
structure PassRec where
  tile : Nat
  tiles : Nat
  fmt : Nat
  last : Nat
  lastSeg : Nat
  written : Nat
  fin : Nat
  deriving DecidableEq, Repr

/-- The record of a FETCH row of the bar (R177). -/
structure FetchRec where
  tile : Nat
  off : Nat
  src : Nat
  len : Nat
  deriving DecidableEq, Repr

/-- An object waiting for its repair step (R177); `crc` is the identity a failed CHECK expected, 0 for none. -/
structure RepairItem where
  tile : Nat
  off : Nat
  src : Nat
  len : Nat
  crc : Nat
  deriving DecidableEq, Repr

/-- A Set scheduler beyond its registers. -/
structure SetSt where
  /-- commands issued and not committed, in stream order -/
  flights : List Flight
  /-- first commands of groups that aborted once (R86) -/
  aborted : List Nat
  /-- first commands of groups that will commit poisoned (R86) -/
  failed : List Nat
  /-- tokens set by committed commands, one bit each (R85) -/
  sbHeld : Nat
  /-- shape registers loaded in the current bar, one bit each (R75) -/
  loaded : Nat
  /-- largest lateness of the bar (R77) -/
  late : Nat
  /-- stamp from which positions and untimed passes count: the bar's or pass's first tick -/
  start : Nat
  /-- FETCH records of the bar (R177) -/
  recs : List FetchRec
  /-- the repair step in progress; the Set issues nothing until it is empty (R178) -/
  repair : List RepairItem
  passes : List PassRec
  /-- HALTED while a bar or pass was in progress: its state before the kill, RUNNING 2 or DRAINING 3 (R101) -/
  halted : Option Nat
  /-- bar in which the halted pass ran -/
  haltBar : Nat
  /-- why it is in HALTED, while it is (R101) -/
  why : HaltWhy
  /-- per tile, the cycle up to which TILE_VEC_CYC has counted (R129) -/
  vecTo : SMap Nat
  /-- fenced by a Set reset until the next bar start (R399) -/
  fenced : Bool
  deriving DecidableEq, Repr

/-- A Set scheduler after a package reset. -/
def SetSt.init : SetSt := ⟨[], [], [], 0, 0, 0, 0, [], [], [], none, 0, .kill, [], false⟩

/-- The issue gate of the power governor (R409): closed outright, and per compute die the budgets of the current window and the
next three and the forecasts of the current window and all that follow, in fJ. -/
structure Gate where
  closed : Bool
  budget : List (List Nat)
  forecast : List (List Nat)
  /-- energy in fJ of the largest command that each die's gate held in the current window -/
  asked : List Nat
  /-- the gate held a command in the current window (R409) -/
  shut : Bool
  /-- array cycle of each die at which the current window began (R405) -/
  begun : List Nat
  /-- per Set, one more than the stamp at which the gate first held the command at its issue point; 0 it did not (R412) -/
  heldAt : SMap Nat
  /-- per Set, ticks by which the gate has held its commands in the bar or pass (R412) -/
  byGate : SMap Nat
  /-- a Set issued later than its slack by the closed gate alone, in the current window (R412) -/
  late : Bool
  /-- cycles counted in the current window: 3 × tile of its array, + 1 of its ramps, + 2 of its vector unit and Pirouette (R406) -/
  cycles : SMap Nat
  /-- flits counted in the current window (R406) -/
  flits : Nat
  deriving DecidableEq, Repr

/-- The gate after a package reset: 3,600 W shared evenly by the four compute dies (R408, log 16). -/
def Gate.init : Gate where
  closed := false
  budget := List.replicate 4 (List.replicate 4 3600000000000)
  forecast := List.replicate 4 [0, 0, 0, 0]
  asked := [0, 0, 0, 0]
  shut := false
  begun := [0, 0, 0, 0]
  heldAt := []
  byGate := []
  late := false
  cycles := []
  flits := 0

/-! ### Outputs -/

/-- What the package sends to its surroundings, in order of emission. -/
inductive Out where
  /-- Read Dance Card response: the bytes and DC_GEN (R31) -/
  | cardData (bytes : List Byte) (gen : Nat)
  /-- Read Dance Card error response, without card bytes (R31) -/
  | cardError
  /-- a bar-done marker, sent on every plane in service: the ports (R59) -/
  | marker (ports : List Nat) (pkg bar stamp : Nat)
  /-- a packet on some ports (R325) -/
  | packet (ports : List Nat) (p : Pkt)
  /-- a response, on the port on which its request arrived, `via` (R325) -/
  | reply (p : Pkt)
  /-- a NAK with the last good SEQ (R321) -/
  | nak (port seq : Nat)
  /-- flits of a port resent from the one after a SEQ: what each lane in use carries of each (R320, R321) -/
  | replay (port seq : Nat) (flits : List (List (List Byte)))
  /-- one posted write of a completion entry: the Requester's function, the bus address, the words, and the Relaxed Ordering attribute
  (R355, R376) -/
  | cqWrite (fn addr : Nat) (words : List Nat) (relaxed : Bool)
  /-- an MSI-X message: the function and entry of its table, and the entry's address and data (R357, R382) -/
  | msix (fn entry addr data : Nat)
  /-- a host-memory read request: tag, the Requester's function, bus address and bytes (R355, R359) -/
  | hostRead (tag fn addr len : Nat)
  /-- host memory that one command reads: the Requester's function, bus address and bytes; the command carries what came back (R355,
  R367, R370) -/
  | hostFetch (fn addr len : Nat)
  /-- bytes written to host memory: the Requester's function, bus address, and the EP bit of their TLPs (R355, R360) -/
  | hostWrite (fn addr : Nat) (bytes : List Byte) (ep : Bool)
  /-- the PCIe link is asked to train again, at this rate code at most (R386) -/
  | retrain (speed : Nat)
  /-- an MCTP message or response over I3C: its code and payload words (R454) -/
  | mctp (code : Nat) (payload : List Nat)
  /-- an I3C message or response: its code, whether it answers OK, its payload bytes (R454) -/
  | i3c (code : Nat) (ok : Bool) (payload : List Byte)
  /-- an SPDM response over DOE or MCTP (R467) -/
  | spdm (via : SpdmVia) (body : SpdmBody) (bytes : List Byte)
  /-- a DOE mailbox exchange ended by an abort (R361) -/
  | doeAborted
  /-- an AVSBus voltage command: compute die, mV (R477) -/
  | avs (die mv : Nat)
  /-- THERM_TRIP_N asserted (R421) -/
  | thermTrip
  /-- the MCTP message Lost Sequences: mirror indices that yield no HOST_TAG (R436) -/
  | lostSequences (indices : List Nat)
  deriving DecidableEq, Repr

/-- What a pre-empted Set keeps in its control record (R394): its scheduler, its saved registers, its tiles' row tags, and its tiles'
thread contexts with their turns. -/
structure SavedSet where
  set : Nat
  st : SetSt
  regs : List Nat
  tags : SMap Nat
  threads : SMap Thread
  turns : SMap Nat
  deriving DecidableEq, Repr

/-! ### The state -/

/-- The state of one package. -/
structure State where
  /-- commands waiting, first in first out -/
  pending : List Instr
  /-- every register field not at its reset value, keyed by `fkey`, as value XOR reset value -/
  regs : SMap Nat
  tempo : Tempo
  layout : Layout
  card : Card
  /-- package id, 0xFFF until assigned (R32) -/
  pkgId : Nat
  /-- device memory: bytes that are not 0, addresses rising (R304) -/
  mem : List Host.Cell
  /-- poison marks of device memory, keyed by address / 64 (R148) -/
  memMark : SMap Bool
  /-- HBM bytes and marks of channels in no window, keyed by `chanKey` and by that / 64: what a channel holds stays with it (R305) -/
  parked : SMap Byte
  parkedMark : SMap Bool
  /-- tile SRAM bytes that are not 0, keyed by `tileKey` (R104) -/
  tileMem : SMap Byte
  /-- poison marks of tile SRAM, keyed by byte key / 8 (R148) -/
  tileMark : SMap Bool
  /-- row tags that are not 0, keyed 256 * tile + row (R117) -/
  tags : SMap Nat
  /-- Set schedulers that are not in their reset state -/
  sets : SMap SetSt
  gate : Gate
  fab : Fab
  /-- the role table in effect, and a pending one (R94, R95) -/
  roles : RoleTab
  rolePend : Option RolePend
  host : Hostif
  caller : Caller
  /-- verified Figure images (R70) -/
  figs : List Image
  /-- RUN_FIGURE requests whose passes run (R370) -/
  runs : List Req
  /-- ROLE_NOT_READY stands: the package issues nothing (R72, R97) -/
  notReady : Bool
  /-- holdover has expired, and no takeover has handed the package a role since (R56) -/
  stranded : Bool
  /-- Promenade moves not yet complete, oldest first (R308) -/
  moves : List Move
  /-- the pending epoch swap (R301) -/
  swap : Option Swap
  /-- the Reel's work in the present bar, by partition, and pending placement tables -/
  reel : SMap ReelPart
  /-- the snapshot period in effect (R283: a new PERIOD takes effect at the next snapshot) -/
  reelPeriod : Nat
  places : List PlacePend
  nv : Nv
  weights : Weights
  fuses : FuseBank
  boot : Boot
  power : Power
  health : Health
  /-- partition resets under way (R400) -/
  resets : SMap (Option ResetJob)
  /-- control records of pre-empted Sets (R394) -/
  saved : List SavedSet
  /-- tile and Set resets held until a save is restored: the Set, and the tile of a tile reset (R402) -/
  resetHeld : List (Nat × Option Nat)
  /-- Sets in which a tile was reset in the present bar (R397) -/
  tileResets : List Nat
  /-- Quinbingo thread contexts, keyed 16 * tile + thread (R341) -/
  threads : SMap Thread
  /-- the context whose turn it is on each QCOMPAT tile, plus 1; 0 idle (R341) -/
  turns : SMap Nat
  /-- blocks and flushed blocks of each recipe window so far, keyed 256 * partition + layer (R152) -/
  windows : SMap (Nat × Nat)
  /-- the committed copy of the fault log in NV (R424) -/
  nvLog : List LogRec
  /-- the fault log, oldest first (R62, R66) -/
  log : List LogRec
  /-- how many records of the log firmware has handled (R440) -/
  logged : Nat
  /-- what the package has sent, oldest first -/
  out : List Out
  deriving DecidableEq, Repr

/-- The package after a package reset (R10, R32, R67). -/
def State.reset : State where
  pending := []
  regs := fusedRegs
  tempo := .init
  layout := .default
  card := .init
  pkgId := 0xFFF
  mem := []
  memMark := []
  parked := []
  parkedMark := []
  tileMem := []
  tileMark := []
  tags := []
  sets := []
  gate := .init
  fab := .init
  roles := .init
  rolePend := none
  host := .init
  caller := .init
  figs := []
  runs := []
  notReady := false
  stranded := false
  moves := []
  swap := none
  reel := []
  reelPeriod := 0x1000
  places := []
  nv := .init
  weights := .init
  fuses := .init
  boot := .init
  power := .init
  health := .init
  resets := []
  saved := []
  resetHeld := []
  tileResets := []
  threads := []
  turns := []
  windows := []
  nvLog := []
  log := []
  logged := 0
  out := []

/-- Why a machine stops with a fault: never. Every fault of this part is a state it goes on from. -/
inductive Fault where
  deriving DecidableEq, Repr

/-- Why a command has no meaning. -/
inductive Refusal where
  /-- raised by the dispatcher for a command without a meaning yet; safe -/
  | notModelled (mnemonic : String)
  /-- raised by QUINBINGO_INSTRUCTION for an instruction that is not remote: the Larec Quinbingo's manual, not this one,
      says what it does (R341); safe -/
  | quinbingoLocal
  /-- raised by TAP_INSTRUCTION for a Shuile-private instruction on an unlocked part: the manual does not say what it
      does (R469); safe -/
  | shuilePrivate
  deriving DecidableEq, Repr

end Sys2Proof.Machine
end

