-- ==== Sys2Proof/Machine/Ops.lean ====
section
/-! DEFINITION. Named operations over registers, time, the fault log and outputs. -/

namespace Sys2Proof.Machine

/-- The outcome of a step of this part. -/
abbrev Res := Host.Outcome State Fault Refusal

/-! ### Register fields (R9, R10) -/

/-- The stored value of a register field, in its width. -/
def State.rd (s : State) (f : Fld) (i : Nat := 0) (k : Nat := 0) (j : Nat := 0) : Nat :=
  (mget 0 s.regs (fkey f i k j) ^^^ f.rst) % 2 ^ f.wid

/-- Set a register field, modulo its width. -/
def State.wr (s : State) (f : Fld) (v : Nat) (i : Nat := 0) (k : Nat := 0) (j : Nat := 0) : State :=
  { s with regs := mset 0 (fkey f i k j) ((v % 2 ^ f.wid) ^^^ f.rst) s.regs }

/-- Whether a one-bit field reads 1. -/
def State.on (s : State) (f : Fld) (i : Nat := 0) (k : Nat := 0) (j : Nat := 0) : Bool := s.rd f i k j = 1

/-- Add to a counter field, modulo its width. -/
def State.bump (s : State) (f : Fld) (n : Nat) (i : Nat := 0) (k : Nat := 0) (j : Nat := 0) : State :=
  s.wr f (s.rd f i k j + n) i k j

/-- A change of what a measurement covers (R468). -/
def State.measure (s : State) : State := s.bump R.SEC_MEAS_GEN 1

/-- Put every field of a list back to its reset value, for one instance. -/
def State.clearFields (s : State) (fs : List Fld) (i : Nat := 0) : State :=
  fs.foldl (fun t f => t.wr f f.rst i) s

/-! ### Time (R6, R52, R55) -/

/-- The Tempo Stamp of the present moment: 0 until COUNT_VALID (R52). -/
def State.stamp (s : State) : Nat := if s.on R.TEMPO_STATUS_COUNT_VALID then s.tempo.now % 2 ^ 64 else 0

/-- The present beat. -/
def State.beat (s : State) : Nat := s.stamp / 1024

/-- The present bar's number. -/
def State.bar (s : State) : Nat := s.rd R.TEMPO_BAR_NUM_BAR

/-- Holdover time quality of the present moment (R55, R56). -/
def State.holdover (s : State) : Bool :=
  decide (s.rd R.TEMPO_STATUS_SEL = 3) || s.on R.TEMPO_STATUS_EXPIRED

/-! ### Clock (R78, R414; log 27) -/

/-- The array clock of a compute die in MHz at its current operating point (R414). -/
def State.mhz (s : State) (die : Nat) : Nat := 600 + 20 * (s.rd R.PWR_STATUS_OPP / 2 ^ (5 * die) % 32)

/-- The present array cycle of a die (R46, R78): the cycle of its last clock change, and those since at its present clock. -/
def State.cycleNow (s : State) (die : Nat) : Nat :=
  let (t, c) := s.tempo.cycles.getD die (0, 0)
  c + (s.tempo.now - t) * s.rd R.TEMPO_PERIOD_HALF_US * s.mhz die / 2048

/-- The array cycles of the dies as they stand, told from a stamp on: what a change of a clock, or of the stamp itself, leaves. -/
def State.cyclesFrom (s : State) (t : Nat) : List (Nat × Nat) := (List.range 4).map (fun d => (t, s.cycleNow d))

/-- Set the stamp counter by hand (R52): the array's cycles run on. -/
def State.setNow (s : State) (t : Nat) : State := { s with tempo := { s.tempo with now := t, cycles := s.cyclesFrom t } }

/-! ### The fault log and outputs (R62, R64, R66) -/

/-- The source unit of a block instance (R66). The PART block, which the table of R66 does not name, is reported by
control core 0 (log 13). -/
def srcUnit (cls i : Nat) : Nat :=
  match cls with
  | 0x01 => 0xA0 + i
  | 0x02 => 0x01 + i
  | 0x10 => 0x10 + i
  | 0x11 => 0x10 + i / 8
  | 0x12 => 0x10 + i / 8
  | 0x13 => 0x58 + i
  | 0x20 => 0x40 + i
  | 0x21 => 0x48 + i
  | 0x22 => 0x4C + i
  | 0x23 => 0x50 + i
  | 0x24 => 0x54 + i
  | 0x30 => 0x60 + i
  | 0x31 => 0x60 + i / 8
  | 0x32 => 0x78 + i
  | 0x33 => 0x88 + i
  | 0x40 => 0x8A + i
  | 0x41 => 0x01
  | 0x42 => 0x8C
  | 0x43 => 0x8D + i
  | 0x44 => 0x8F + i
  | 0x45 => 0x91
  | _ => 0x00

/-- Append a fault-log record. -/
def State.logAs (s : State) (unit : Nat) (w : LogWhat) (args : List Nat) : State :=
  { s with log := s.log ++ [⟨s.stamp, s.holdover, unit, w, args⟩] }

/-- Append a note to the fault log. -/
def State.note (s : State) (unit : Nat) (n : Note) : State := s.logAs unit (.note n) []

/-- Send something out of the package. -/
def State.emit (s : State) (o : Out) : State := { s with out := s.out ++ [o] }

/-- Set a W1C flag, count the event, stamp it where the block keeps a last-event stamp, and log it with a source unit (R11,
R66). -/
def State.raiseAs (s : State) (unit : Nat) (e : EvFlag) (i : Nat := 0) (args : List Nat := []) (k : Nat := 0) : State :=
  let s := (s.wr e.flag 1 i k).bump e.cnt 1 i k
  let s := match e.last with
    | some f => s.wr f s.stamp i k
    | none => s
  s.logAs unit (.flag e.flag i) args

/-- Raise a flag with the source unit of its own block (R66). -/
def State.raise (s : State) (e : EvFlag) (i : Nat := 0) (args : List Nat := []) (k : Nat := 0) : State :=
  s.raiseAs (srcUnit e.flag.cls i) e i args k

/-! ### Availability (R35 to R37, R40, R41) -/

/-- The physical tile behind a logical tile with no repair (R40). -/
def tileHome (t : Nat) : Nat := 100 * (t / 96) + t % 96

/-- The physical lane behind a logical lane with no spare mapped (R40). -/
def laneHome (l : Nat) : Nat := if l < 96 then l else l + 4

/-- The physical tile behind a logical tile, 0xFFFF when unavailable (R37). -/
def Layout.tile (y : Layout) (t : Nat) : Nat := (y.tiles.lookup t).getD (tileHome t)

/-- The physical lane behind a logical lane, 0xFFFF when unavailable (R37). -/
def Layout.lane (y : Layout) (l : Nat) : Nat := (y.lanes.lookup l).getD (laneHome l)

/-- Put a physical tile behind a logical one (R37). -/
def Layout.mapTile (y : Layout) (t q : Nat) : Layout :=
  let rest := y.tiles.filter (fun e => e.1 ≠ t)
  { y with tiles := if q = tileHome t then rest else rest ++ [(t, q)] }

/-- Put a physical lane behind a logical one; 0xFFFF marks it unavailable (R37). -/
def Layout.mapLane (y : Layout) (l q : Nat) : Layout :=
  let rest := y.lanes.filter (fun e => e.1 ≠ l)
  { y with lanes := if q = laneHome l then rest else rest ++ [(l, q)] }

/-- The physical instance behind a logical instance of a class, 0xFFFF when unavailable. -/
def Layout.phys (y : Layout) (cls i : Nat) : Nat :=
  if cls = 0x11 ∨ cls = 0x12 then y.tile i
  else if cls = 0x31 then y.lane i
  else if (cls, i) ∈ y.fused ∨ (cls, i) ∈ y.retired then 0xFFFF else i

/-- Whether a logical instance has a physical instance behind it (R36). -/
def State.avail (s : State) (cls i : Nat) : Bool := decide (s.layout.phys cls i ≠ 0xFFFF)

/-- The rank that the package holds (R94). -/
def State.rank (s : State) : Option Nat := (s.roles.ranks.find? (fun e => e.2 = s.pkgId + 1)).map (·.1)

/-- Whether a span of ticks has passed since a stamp; a stamp that Tempo has left behind has passed (log 29). -/
def State.passed (s : State) (stamp n : Nat) : Bool := decide (stamp + n ≤ s.tempo.now) || decide (s.tempo.now < stamp)

end Sys2Proof.Machine
end

