-- ==== Sys2Proof/Machine/Mem.lean ====
section
/-! DEFINITION. Device memory, tile SRAM, their poison marks, and the memory each partition owns
(R20, R104, R117, R148, R174, R300, R304 to R306, R387, R388). -/

namespace Sys2Proof.Machine

/-! ### Device memory -/

/-- A byte of device memory; a byte nothing has written reads 0 (log 17). -/
def State.devByte (s : State) (a : Nat) : Byte := mget 0 s.mem a

/-- The poison mark of the 64-byte line of an address (R148). -/
def State.lineMark (s : State) (a : Nat) : Bool := mget false s.memMark (a / 64)

/-- `n` bytes of device memory. -/
def State.devBytes (s : State) (a n : Nat) : List Byte := mgetList 0 s.mem a n

/-- `n` bytes of device memory, each with its line's mark. -/
def State.devMarked (s : State) (a n : Nat) : List MarkByte :=
  (List.range n).map (fun i => (s.devByte (a + i), s.lineMark (a + i)))

/-- A little-endian number of `n` bytes in device memory (R5). -/
def State.devNat (s : State) (a n : Nat) : Nat := ofLE (s.devBytes a n)

/-- A 64-bit word of device memory. -/
def State.devWord (s : State) (a : Nat) : Nat := s.devNat a 8

/-- Whether any line of a range carries the mark. -/
def State.rangeMarked (s : State) (a n : Nat) : Bool :=
  n ≠ 0 && (List.range ((a + n - 1) / 64 - a / 64 + 1)).any (fun i => mget false s.memMark (a / 64 + i))

/-- The mark of one line after a write (R148): a whole-line write sets the OR of the marks written, a partial write
adds them to the old mark. -/
def lineMarkAfter (old : Bool) (a : Nat) (data : List MarkByte) (line : Nat) : Bool :=
  let lo := line * 64
  let part := (data.drop (lo - a)).take (lo + 64 - max lo a)
  let new := part.any (·.2)
  if a ≤ lo ∧ lo + 64 ≤ a + data.length then new else old || new

/-- Write marked bytes to device memory, with the marks of the lines touched (R148). -/
def State.devPut (s : State) (a : Nat) (data : List MarkByte) : State :=
  let lines := if data.isEmpty then [] else
    (List.range ((a + data.length - 1) / 64 - a / 64 + 1)).map (a / 64 + ·)
  { s with
    mem := msetList 0 a (data.map (·.1)) s.mem
    memMark := lines.foldl (fun m l => mset false l (lineMarkAfter (mget false s.memMark l) a data l) m) s.memMark }

/-- Unmarked bytes as marked bytes. -/
def clean (bs : List Byte) : List MarkByte := bs.map (fun b => (b, false))

/-- Write plain bytes by a Promenade engine or the repair path: checksums stay as written (R174). -/
def State.devLoad (s : State) (a : Nat) (bs : List Byte) : State := s.devPut a (clean bs)

/-- Mark every line of a range. -/
def State.markRange (s : State) (a n : Nat) : State :=
  let lines := if n = 0 then [] else (List.range ((a + n - 1) / 64 - a / 64 + 1)).map (a / 64 + ·)
  { s with memMark := lines.foldl (fun m l => mset false l true m) s.memMark }

/-- Zero a range made of whole lines; it clears their marks (R148). -/
def State.zeroRange (s : State) (a n : Nat) : State :=
  { s with
    mem := mkeep (fun k => !(decide (a ≤ k) && decide (k < a + n))) s.mem
    memMark := mkeep (fun k => !(decide (a ≤ k * 64) && decide (k * 64 < a + n))) s.memMark }

/-! ### Tile SRAM (R104, R105, R148) -/

/-- The key of a byte of a tile's scratchpad or accumulator store. -/
def tileKey (tile : Nat) (acc : Bool) (off : Nat) : Nat := tile * 2 ^ 22 + (if acc then 2 ^ 21 else 0) + off

/-- Size of the scratchpad and of the accumulator store in bytes (R104). -/
def sramSize (acc : Bool) : Nat := if acc then 0x80000 else 0x180000

/-- `n` bytes of tile SRAM, each with its word's mark. -/
def State.sram (s : State) (tile : Nat) (acc : Bool) (off n : Nat) : List MarkByte :=
  (List.range n).map (fun i =>
    (mget 0 s.tileMem (tileKey tile acc off + i), mget false s.tileMark ((tileKey tile acc off + i) / 8)))

/-- The mark of one word after a write (R148). -/
def wordMarkAfter (old : Bool) (key : Nat) (data : List MarkByte) (w : Nat) : Bool :=
  let lo := w * 8
  let new := ((data.drop (lo - key)).take (lo + 8 - max lo key)).any (·.2)
  if key ≤ lo ∧ lo + 8 ≤ key + data.length then new else old || new

/-- Write marked bytes to tile SRAM (R148). -/
def State.sramPut (s : State) (key : Nat) (data : List MarkByte) : State :=
  let words := if data.isEmpty then [] else
    (List.range ((key + data.length - 1) / 8 - key / 8 + 1)).map (key / 8 + ·)
  { s with
    tileMem := msetList 0 key (data.map (·.1)) s.tileMem
    tileMark := words.foldl (fun m w => mset false w (wordMarkAfter (mget false s.tileMark w) key data w) m) s.tileMark }

/-- The key of a row tag. -/
def tagKey (tile row : Nat) : Nat := tile * 256 + row

/-- A row tag (R117). -/
def State.tag (s : State) (tile row : Nat) : Nat := mget 0 s.tags (tagKey tile row)

/-- Set a row tag. -/
def State.setTag (s : State) (key v : Nat) : State := { s with tags := mset 0 key (v % 2 ^ 64) s.tags }

/-- Clear the VALID bit of every row tag of a tile (R117). -/
def State.clearValid (s : State) (tile : Nat) : State :=
  let drop := fun (m : SMap Nat) (r : Nat) =>
    let v := mget 0 m (tagKey tile r)
    mset 0 (tagKey tile r) (v - (if v.testBit 11 then 2 ^ 11 else 0)) m
  { s with tags := (List.range 256).foldl drop s.tags }

/-! ### What a partition owns (R305, R306, R387, R388) -/

/-- Whether a partition's setup lock is set. -/
def State.locked (s : State) (p : Nat) : Bool := s.on R.PART_STATUS_LOCKED p

/-- The number of set bits of a mask below `n`. -/
def popcount (n m : Nat) : Nat := (maskBits n m).length

/-- The channels of a partition, ascending (R305). -/
def State.channels (s : State) (p : Nat) : List Nat :=
  (List.range 4).flatMap (fun k => (maskBits 64 (s.rd R.PART_CHAN_CHAN p k)).map (64 * k + ·))

/-- Length of a partition's HBM window (R305). -/
def State.hbmLen (s : State) (p : Nat) : Nat := (s.channels p).length * 2 ^ 31

/-- Whether a range lies in another. -/
def within (a n base len : Nat) : Bool := decide (base ≤ a) && decide (a + n ≤ base + len)

/-- Whether two ranges share a byte. -/
def overlaps (a n b m : Nat) : Bool := decide (a < b + m) && decide (b < a + n)

/-- Base of the scratch ways, and the bytes of one way (R304). -/
def scratchBase : Nat := 0x020000000000
/-- Bytes of one scratch way (R304). -/
def wayLen : Nat := 0x600000

/-- Whether a range lies in the SCRATCH ways a partition owns (R304, R306). -/
def State.inScratch (s : State) (p a n : Nat) : Bool :=
  within a n scratchBase (64 * wayLen) &&
  (List.range ((a + n - 1 - scratchBase) / wayLen - (a - scratchBase) / wayLen + 1)).all (fun i =>
    let w := (a - scratchBase) / wayLen + i
    (s.rd R.PART_WAYS_WAYS p).testBit w && (s.rd R.PART_SCRATCH_SCRATCH p).testBit w)

/-- Whether a range lies in a partition's memory: its HBM window, SCRATCH ways and warm-shelf share (R388). -/
def State.inPart (s : State) (p a n : Nat) : Bool :=
  within a n (s.rd R.PART_HBM_BASE p) (s.hbmLen p) || s.inScratch p a n ||
  within a n (s.rd R.PART_SHELF_BASE p) (s.rd R.PART_SHELF_LEN_LEN p)

/-- Base of an epoch region (R300). -/
def State.regionBase (s : State) (r : Nat) : Nat := if r = 0 then s.rd R.PROM_REGION0_BASE else s.rd R.PROM_REGION1_BASE

/-- Base of the epoch region current for the bar (R300). -/
def State.epochBase (s : State) : Nat := s.regionBase (s.rd R.PROM_EPOCH_REGION)

/-- Whether a Set of a partition may read a range: its memory, and the current epoch region (R388). -/
def State.mayRead (s : State) (p a n : Nat) : Bool :=
  s.inPart p a n || within a n s.epochBase (s.rd R.PROM_REGION_LEN_LEN)

/-- The locked partition that owns a Set (R387). -/
def State.ownerOf (s : State) (set : Nat) : Option Nat :=
  (List.range 16).find? (fun p => s.locked p && (s.rd R.PART_SETS_SETS p).testBit set)

/-- The locked partition whose HBM window holds an address. -/
def State.windowOf (s : State) (a : Nat) : Option Nat :=
  (List.range 16).find? (fun p => s.locked p && within a 1 (s.rd R.PART_HBM_BASE p) (s.hbmLen p))

/-- The HBM channel that holds an address of a partition's window (R305). -/
def State.channelOf (s : State) (p a : Nat) : Nat :=
  let u := (a - s.rd R.PART_HBM_BASE p) / 4096
  let cs := s.channels p
  cs.getD (u % max 1 cs.length) 0

/-- The memory-side die that owns a device address (R21, R304, R305); an HBM address in no window is taken as M0's. -/
def State.ownerDie (s : State) (a : Nat) : Nat :=
  if scratchBase ≤ a then (a - scratchBase) / 0x06000000 % 4
  else if 0x010000000000 ≤ a then (a - 0x010000000000) / 0x1000000000 % 4
  else match s.windowOf a with
    | some p => s.channelOf p a / 64
    | none => 0

/-! ### Writes that keep object checksums (R174) -/

/-- The object contents with the CRC field 0, over a declared length. -/
def crcOver (bs : List Byte) (len : Nat) : Nat := objCrc (bs.take len)

/-- The effect of one committed write on one object of a window: `o` is the object's base, `t` the state after the
write, `s` the state before it (R174). -/
def State.crcUpdate (s t : State) (o a n : Nat) : State :=
  let die := s.ownerDie o
  let newHdr := objHdr (t.devBytes o 32)
  let oldHdr := objHdr (s.devBytes o 32)
  if a ≤ o ∧ o + 32 ≤ a + n then
    let t := { t with mem := msetList 0 o (toLE 4 (crcOver (t.devBytes o newHdr.declLen) newHdr.declLen)) t.mem }
    t.bump R.CHECK_CREATE_CNT_CREATES 1 die
  else
    let t := if overlaps a n (o + 4) 28 && s.devBytes (o + 4) 28 ≠ t.devBytes (o + 4) 28 then
      (t.raise E.CHECK_HDR_PARTIAL die [o]).markRange o 32 else t
    if oldHdr.declLen ≠ 0 ∧ overlaps a n (o + 32) (oldHdr.declLen - 32) then
      let d := oldHdr.declLen
      let c := oldHdr.crc ^^^ crcOver (s.devBytes o d) d ^^^ crcOver (t.devBytes o d) d
      let t := { t with mem := msetList 0 o (toLE 4 c) t.mem }
      t.bump R.CHECK_UPDATE_CNT_UPDATES 1 die
    else t

/-- The bases of the objects of window `w` that a write touches (R174). -/
def State.touched (s : State) (w a n : Nat) : List Nat :=
  let base := s.rd R.CHECK_WIN_BASE_BASE 0 w
  let slot := s.rd R.CHECK_WIN_SLOT_SLOT 0 w
  let limit := s.rd R.CHECK_WIN_LIMIT_LIMIT 0 w
  if s.on R.CHECK_WIN_BASE_EN 0 w ∧ slot ≠ 0 ∧ n ≠ 0 ∧ overlaps a n base (limit - base) then
    let lo := (max a base - base) / slot
    let hi := (min (a + n) limit - 1 - base) / slot
    (List.range (hi - lo + 1)).map (fun i => base + (lo + i) * slot)
  else []

/-- The generator's own error on the header of an object (R180): GEN_FAULT, and the header's line is marked (log 152). -/
def State.generatorCheck (t : State) (die o : Nat) : State :=
  if Config.generatorErrs t.tempo.now o then (t.raise E.CHECK_GEN_FAULT die [o]).markRange o 32 else t

/-- What a committed write of `n` bytes at an address does beside the bytes, `t` the state with the bytes written: the checksums of
every object touched in an enabled window (R174). -/
def State.committed (s t : State) (a n : Nat) : State :=
  ((List.range 16).flatMap (fun w => s.touched w a n)).foldl
    (fun t o => (s.crcUpdate t o a n).generatorCheck (s.ownerDie o) o) t

/-- A committed write: the bytes, their marks, and the checksums (R148, R174). -/
def State.devWrite (s : State) (a : Nat) (data : List MarkByte) : State := s.committed (s.devPut a data) a data.length

/-- A committed write of zeros over whole lines (R148, R174). -/
def State.devZero (s : State) (a n : Nat) : State := s.committed (s.zeroRange a n) a n

/-- A committed copy of a range of memory that is sparse, with its marks (R148, R174). -/
def State.copyRange (s : State) (src dst n : Nat) : State :=
  let cells := (s.mem.filter (fun c => decide (src ≤ c.1) && decide (c.1 < src + n))).map (fun c => (c.1 - src + dst, c.2))
  let marks := (s.memMark.filter (fun e => overlaps (64 * e.1) 64 src n)).flatMap (fun e =>
    [(max (64 * e.1) src - src + dst) / 64, (min (64 * e.1 + 63) (src + n - 1) - src + dst) / 64])
  s.committed { s with
    mem := cells.foldl (fun m c => mset 0 c.1 c.2 m) (mkeep (fun k => !(decide (dst ≤ k) && decide (k < dst + n))) s.mem)
    memMark := marks.foldl (fun m l => mset false l true m)
      (mkeep (fun l => !(decide (dst ≤ 64 * l) && decide (64 * l + 64 ≤ dst + n))) s.memMark) } dst n

/-- Write plain bytes by any other unit of the package (R174). -/
def State.devSet (s : State) (a : Nat) (bs : List Byte) : State := s.devWrite a (clean bs)

/-- Write a number of `n` bytes. -/
def State.devSetNat (s : State) (a n v : Nat) : State := s.devSet a (toLE n v)

/-- Whether an address lies in the KV view (R241). -/
def inView (a : Nat) : Bool := decide (0x800000000000 ≤ a) && decide (a < 0x900000000000)

end Sys2Proof.Machine
end

