-- ==== Sys2Proof/Machine/Operands.lean ====
section
/-! DEFINITION. Set commands: their fields, the legality of their encodings, their variable counts and the tile SRAM
they use (R73 to R75, R84, R105, R118, R120, R121, R124, R143, R144, R164, R165). -/

namespace Sys2Proof.Machine

/-- A command's four words (R73). -/
structure Cmd where
  w0 : Nat
  w1 : Nat
  w2 : Nat
  w3 : Nat
  deriving DecidableEq, Repr

/-- The 32 bytes of a command at a device address (R73). -/
def State.cmdAt (s : State) (a : Nat) : Cmd := ⟨s.devWord a, s.devWord (a + 8), s.devWord (a + 16), s.devWord (a + 24)⟩

/-! ### The common header (R73) -/

/-- OP. -/
def Cmd.op (c : Cmd) : Nat := bits c.w0 5 0
/-- CP: the command ends a commit group. -/
def Cmd.cp (c : Cmd) : Bool := c.w0.testBit 6
/-- TILES. -/
def Cmd.tileMask (c : Cmd) : Nat := bits c.w0 15 8
/-- POS in ticks from the bar's first beat. -/
def Cmd.pos (c : Cmd) : Nat := bits c.w0 41 16
/-- WSB, if WSB_EN. -/
def Cmd.wsb (c : Cmd) : Option Nat := if c.w0.testBit 48 then some (bits c.w0 47 42) else none
/-- SSB, if SSB_EN. -/
def Cmd.ssb (c : Cmd) : Option Nat := if c.w0.testBit 55 then some (bits c.w0 54 49) else none
/-- SH, if SH_EN. -/
def Cmd.sh (c : Cmd) : Option Nat := if c.w0.testBit 59 then some (bits c.w0 58 56) else none

/-- The logical tiles of TILES, ascending (R14, R73). -/
def Cmd.tiles (c : Cmd) (set : Nat) : List Nat := (maskBits 8 c.tileMask).map (8 * set + ·)

/-- The lowest tile in TILES. -/
def Cmd.tile0 (c : Cmd) (set : Nat) : Nat := (c.tiles set).headD (8 * set)

/-- VFN of a VOP (R75). -/
def Cmd.vfn (c : Cmd) : Nat := bits c.w1 7 0

/-! ### Legality of an encoding (R13, R70, R74, R75, R105, R109, R124, R143) -/

/-- VFN codes that are not reserved (R124, R143). -/
def vfnLegal (v : Nat) : Bool :=
  decide (v ≤ 0x06) || (decide (0x08 ≤ v) && decide (v ≤ 0x0C)) || v = 0x10 || v = 0x11 || v = 0x18 || v = 0x19 ||
  (decide (0x20 ≤ v) && decide (v ≤ 0x2B)) || v = 0x2F || (decide (0x30 ≤ v) && decide (v ≤ 0x32)) ||
  (decide (0x34 ≤ v) && decide (v ≤ 0x36)) || (decide (0x38 ≤ v) && decide (v ≤ 0x3C))

/-- Whether only the bits of a mask are set. -/
def onlyBits (x mask : Nat) : Bool := decide (x &&& mask = x)

/-- Reserved fields of words 1 to 3 are 0 and the coded fields hold defined codes (R75). -/
def Cmd.bodyLegal (c : Cmd) : Bool :=
  match c.op with
  | 0x01 => onlyBits c.w1 0xFFFFFFFFFFFF && onlyBits c.w2 0xFFFFFFFF && onlyBits c.w3 0xFFFFFFFFFF &&
      decide (bits c.w3 39 32 ≤ 2)
  | 0x02 => onlyBits c.w2 0x3FFFFFFFFFFFFF && onlyBits c.w3 0xFFFF && decide (bits c.w2 51 48 ≤ 9) && decide (bits c.w3 15 0 ≠ 0)
  | 0x03 => onlyBits c.w1 0xFFFFFFFFFF && onlyBits c.w3 0xFFFFFF && vfnLegal c.vfn
  | 0x04 => onlyBits c.w1 0xFFFFFFFF && onlyBits c.w2 0xFFFFFFFF && onlyBits c.w3 0xFFFFFFFF
  | 0x05 => onlyBits c.w1 0xFFFFFFFFFFFF && onlyBits c.w2 0x1FFFFFFFF && onlyBits c.w3 0xFFFFFFFF
  | 0x06 => onlyBits c.w1 0x1FF && onlyBits c.w3 0xFFFFFFFF
  | 0x07 => onlyBits c.w2 0x7FFFFFFFFFFFF && onlyBits c.w3 0x8000FFFFFFFFFFFF
  | 0x08 => onlyBits c.w1 0xFFFFFFFF0000001F && onlyBits c.w2 0xFFFFFFFF && c.w3 = 0
  | 0x09 => onlyBits c.w1 0xFFFFFFFFFFFF && onlyBits c.w2 0x7 && c.w3 = 0 && decide (bits c.w1 47 0 % 64 = 0)
  | 0x0A => onlyBits c.w1 0xFFFFFFFFFFFF && onlyBits c.w2 0x80000000FFFFFFFF && c.w3 = 0 &&
      decide (bits c.w1 47 0 % 64 = 0)
  | 0x3F => c.w1 = 0 && c.w2 = 0 && c.w3 = 0 && c.cp
  | _ => false

/-- Whether the command runs on tiles (R75). -/
def Cmd.onTiles (c : Cmd) : Bool :=
  (decide (1 ≤ c.op) && decide (c.op ≤ 6)) || (c.op = 7 && c.w3.testBit 63) || (c.op = 0x0A && c.w2.testBit 63)

/-- Whether the command has a variable count (R75). -/
def Cmd.counted (c : Cmd) : Bool := c.op = 1 || c.op = 2 || c.op = 3 || c.op = 5 || c.op = 6 || c.op = 7

/-- Whether an encoding is legal (R13, R75). -/
def Cmd.legal (c : Cmd) : Bool :=
  onlyBits c.w0 0x0FFFFFFFFFFFFF7F && c.bodyLegal && (!c.onTiles || decide (c.tileMask ≠ 0)) &&
  (c.counted || c.sh = none)

/-- The count of a command: its shape register's VALUE, or the static count, or one row (R75). -/
def State.count (s : State) (set : Nat) (c : Cmd) : Nat :=
  match c.sh with
  | some k => s.rd R.SCHED_SHAPE_VALUE set k
  | none =>
    match c.op with
    | 1 | 5 | 7 => 1
    | 2 => bits c.w2 47 32
    | 6 => bits c.w3 31 16
    | 3 => bits c.w3 15 0
    | _ => 0

/-! ### Tile SRAM a command uses -/

/-- How a command uses a region: it reads it, writes it, reads and writes it by definition (DST of FMA; R124, log 18), or
writes the written fields of its quantiser context in it, which R144 exempts from the overlap rule. -/
inductive UseHow where
  | read | write | both | context
  deriving DecidableEq, Repr

/-- Whether the command reads it. -/
def UseHow.reads (h : UseHow) : Bool := h = .read || h = .both
/-- Whether the command writes it. -/
def UseHow.writes (h : UseHow) : Bool := h ≠ .read
/-- Whether the read stays pinned until the commit (R84, R108): every read does. -/
def UseHow.pins (h : UseHow) : Bool := h.reads

/-- One region a command uses. -/
structure Use where
  rgn : Rgn
  how : UseHow
  deriving DecidableEq, Repr

/-- A VOP operand: accumulator store or scratchpad, and offset (R105). -/
structure Opnd where
  acc : Bool
  off : Nat
  res : Bool
  deriving DecidableEq, Repr

/-- A 32-bit VOP operand field (R105). -/
def opnd (x : Nat) : Opnd := ⟨x.testBit 31, bits x 20 0, decide (bits x 30 21 ≠ 0)⟩

/-- SRC0, SRC1 and DST of a VOP (R75). -/
def Cmd.src0 (c : Cmd) : Opnd := opnd (bits c.w1 39 8)
/-- SRC1. -/
def Cmd.src1 (c : Cmd) : Opnd := opnd (bits c.w2 31 0)
/-- DST. -/
def Cmd.dst (c : Cmd) : Opnd := opnd (bits c.w2 63 32)

/-- Bytes of a long-sum operand of `n` rows: accumulator rows or records (R121, R124). -/
def lsBytes (acc : Bool) (n : Nat) : Nat := if acc then 2048 * n else 2064 * n

/-- DECL_LEN of the object a QUANT writes (R143, R163). -/
def quantLen (fmt n : Nat) : Nat := up64 (32 + n / 32 * elemBytes fmt + rawScaleLen fmt (n / 32))

/-- Largest raw form of `n` elements: the input region of DEQUANT (R143). -/
def dequantRegion (n : Nat) : Nat := up64 (32 + 2 * n)

/-- What each VOP reads and writes: operand, length, how (R124, R143). Of a quantiser context QUANT reads words 0 and 5 and writes
words 1 to 4, and AMAX, which reads none of it, writes in word 2 (R143, R144). -/
def vopShape (c : Cmd) (n : Nat) : List (Opnd × Nat × UseHow) :=
  let r := fun (o : Opnd) (l : Nat) => (o, l, UseHow.read)
  let w := fun (o : Opnd) (l : Nat) => (o, l, UseHow.write)
  let at1 := fun (i : Nat) => ({ c.src1 with off := c.src1.off + i } : Opnd)
  let ctx := [(at1 8, 32, UseHow.context)]
  let v := c.vfn
  if v = 0x01 ∨ v = 0x02 ∨ v = 0x03 ∨ v = 0x05 ∨ v = 0x06 then [r c.src0 (4 * n), r c.src1 (4 * n), w c.dst (4 * n)]
  else if v = 0x04 then [r c.src0 (4 * n), r c.src1 (4 * n), (c.dst, 4 * n, .both)]
  else if v = 0x10 ∨ v = 0x11 then [r c.src0 (4 * n), w c.dst 4]
  else if v = 0x18 then [r c.src0 (4 * n), w c.dst (2 * n)]
  else if v = 0x19 then [r c.src0 (2 * n), w c.dst (4 * n)]
  else if 0x20 ≤ v ∧ v ≤ 0x29 then r c.src0 (4 * n) :: r c.src1 8 :: r (at1 40) 8 :: ctx ++ [w c.dst (quantLen (v - 0x20) n)]
  else if v = 0x2A then [r c.src0 (dequantRegion n), w c.dst (4 * n)]
  else if v = 0x2B then r c.src0 (4 * n) :: ctx
  else if v = 0x2F then [r c.src0 (4 * n), r c.src1 (4 * n), w c.dst 16]
  else if v = 0x38 then [r c.src0 (lsBytes c.src0.acc n), w c.dst (512 * n)]
  else if v = 0x39 then [r c.src0 (2048 * n), w c.dst (2064 * n)]
  else if v = 0x3A then
    [r c.src0 (lsBytes c.src0.acc n), r c.src1 (lsBytes c.src1.acc n), w c.dst (lsBytes c.dst.acc n)]
  else if v = 0x3B then [r c.src0 (lsBytes c.src0.acc n), r c.src1 (lsBytes c.src1.acc n), w c.dst (512 * n)]
  else if v = 0x3C then [w c.dst (lsBytes c.dst.acc n)]
  else [r c.src0 (4 * n), w c.dst (4 * n)]

/-- FMT, ACC_MODE, KBLK, SP_W, SP_A and ACC of an MPASS (R75). -/
def Cmd.fmt (c : Cmd) : Nat := bits c.w2 51 48
/-- ACC_MODE. -/
def Cmd.accMode (c : Cmd) : Nat := bits c.w2 53 52
/-- KBLK. -/
def Cmd.kblk (c : Cmd) : Nat := bits c.w3 15 0
/-- SP_W. -/
def Cmd.spW (c : Cmd) : Nat := bits c.w1 31 0
/-- SP_A. -/
def Cmd.spA (c : Cmd) : Nat := bits c.w1 63 32
/-- ACC. -/
def Cmd.accOff (c : Cmd) : Opnd := opnd (bits c.w2 31 0)
/-- Segments of an MPASS (R110). -/
def Cmd.segs (c : Cmd) : Nat := ceilDiv c.kblk (blocksPerLoad c.fmt)

/-- The mirror of an accumulator offset (R118). -/
def mirror (off : Nat) : Nat := off ^^^ 0x40000

/-- The header of an object in a scratchpad. -/
def State.spHdr (s : State) (tile off : Nat) : ObjHdr := objHdr ((s.sram tile false off 32).map (·.1))

/-- Whether any of a header's 32 bytes is marked (R173). -/
def State.spHdrMarked (s : State) (tile off : Nat) : Bool := (s.sram tile false off 32).any (·.2)

/-- The declared length of an MPASS's weight tiles on a tile (R165, R173). -/
def State.weightLen (s : State) (c : Cmd) (tile : Nat) : Nat :=
  if s.spHdrMarked tile c.spW then rawTileLen c.fmt else (s.spHdr tile c.spW).declLen

/-- The length of an MPASS's activation object on a tile: its DECL_LEN; where its header is marked, the raw form of the
blocks read (R173). -/
def State.actLen (s : State) (c : Cmd) (tile n : Nat) : Nat :=
  if s.spHdrMarked tile c.spA then
    up64 (32 + n * c.kblk * elemBytes c.fmt + rawScaleLen c.fmt (n * c.kblk))
  else (s.spHdr tile c.spA).declLen

/-- Where an MPASS of `n` rows writes on a tile (R118). -/
def Cmd.passOut (c : Cmd) (n : Nat) : Bool × Nat × Nat :=
  match c.accMode with
  | 0 => (true, c.accOff.off, 2048 * n)
  | 1 => (true, mirror c.accOff.off, 2048 * n)
  | 2 => (!c.accOff.acc, c.accOff.off, 512 * n)
  | _ => (true, mirror c.accOff.off, 512 * n)

/-- The tile SRAM a command with count `n` uses (R75, R105, R108). A command that does no work uses none (R113). -/
def State.uses (s : State) (set : Nat) (c : Cmd) (n : Nat) : List Use :=
  let ts := c.tiles set
  let rd := fun (t : Nat) (acc : Bool) (o l : Nat) => (⟨⟨t, acc, o, o + l⟩, .read⟩ : Use)
  let wr := fun (t : Nat) (acc : Bool) (o l : Nat) => (⟨⟨t, acc, o, o + l⟩, .write⟩ : Use)
  if c.counted ∧ n = 0 then []
  else match c.op with
    | 0x01 => ts.map (fun t => wr t false (bits c.w2 31 0) (n * bits c.w3 31 0))
    | 0x02 => ts.flatMap (fun t =>
        let (acc, o, l) := c.passOut n
        [rd t false c.spW (c.segs * max 32 (s.weightLen c t)), rd t false c.spA (max 32 (s.actLen c t n)), wr t acc o l] ++
        (if c.accMode = 1 ∨ c.accMode = 3 then [rd t true c.accOff.off (2048 * n)] else []))
    | 0x03 => ts.flatMap (fun t => (vopShape c n).map (fun (o, l, h) => ⟨⟨t, o.acc, o.off, o.off + l⟩, h⟩))
    | 0x04 => ts.map (fun t => rd t false (bits c.w1 31 0) (bits c.w2 31 0))
    | 0x05 => ts.map (fun t => rd t (c.w2.testBit 32) (bits c.w2 31 0) (n * bits c.w3 31 0))
    | 0x06 => [rd (c.tile0 set) true (bits c.w2 31 0) (2048 * n), wr (bits c.w1 8 0) true (bits c.w2 63 32) (2048 * n)]
    | 0x07 => if c.w3.testBit 63 then [rd (c.tile0 set) false (bits c.w3 31 0) (n * bits c.w1 63 33)] else []
    | 0x0A => if c.w2.testBit 63 then [rd (c.tile0 set) false (bits c.w2 31 0) 4] else []
    | _ => []

/-- Whether two regions share a byte. -/
def Rgn.meets (a b : Rgn) : Bool := a.tile = b.tile && a.acc = b.acc && decide (a.lo < b.hi) && decide (b.lo < a.hi)

/-- Whether every region lies in its SRAM (R105). -/
def useFits (u : Use) : Bool := decide (u.rgn.lo < sramSize u.rgn.acc) && decide (u.rgn.hi ≤ sramSize u.rgn.acc)

/-- The limits of R118 on an MPASS's long-sum rows. -/
def Cmd.passLegal (c : Cmd) (n : Nat) : Bool :=
  let o := c.accOff
  !o.res && (!o.acc || c.accMode = 2) && decide (o.off < sramSize (!o.acc)) &&
  match c.accMode with
  | 0 => o.off % 2048 = 0 && decide (n ≤ 256)
  | 1 => o.off % 2048 = 0 && decide (n ≤ 128) && (n = 0 || o.off / 0x40000 = (o.off + 2048 * n - 1) / 0x40000)
  | 2 => c.segs = 1
  | _ => o.off % 2048 = 0 && c.segs = 1 && decide (n ≤ 128)

/-- The limits of a VOP's operands and ELEMS (R105, R118, R121, R124, R126, R143, R144). -/
def Cmd.vopLegal (c : Cmd) (n : Nat) : Bool :=
  let v := c.vfn
  let ls := fun (o : Opnd) => !o.acc || o.off % 2048 = 0
  [c.src0, c.src1, c.dst].all (fun o => !o.res && decide (o.off < sramSize o.acc)) &&
  (!(decide (0x20 ≤ v) && decide (v ≤ 0x2B)) || n % 32 = 0) &&
  (!(v = 0x30 || v = 0x34) || n % 128 = 0) && (!(v = 0x31 || v = 0x35) || n % 256 = 0) &&
  (!(v = 0x32 || v = 0x36) || n % 512 = 0) &&
  (!((decide (0x20 ≤ v) && decide (v ≤ 0x29)) || v = 0x2B) ||
    (!c.src1.acc && (n = 0 || decide (c.src1.off + 64 ≤ 0x180000)))) &&
  (!(v = 0x38 || v = 0x3A || v = 0x3B) || ls c.src0) && (!(v = 0x3A || v = 0x3B) || ls c.src1) &&
  (!(v = 0x3A || v = 0x3C) || ls c.dst) && (!(v = 0x39) || (c.src0.acc && c.src0.off % 2048 = 0 && !c.dst.acc))

/-- Limits of a command that its own bits and its count decide (R105, R118, R120). -/
def Cmd.limits (c : Cmd) (n : Nat) : Bool :=
  match c.op with
  | 0x02 => c.passLegal n && decide (c.spW < 0x180000) && decide (c.spA < 0x180000)
  | 0x03 => c.vopLegal n
  | 0x01 => decide (bits c.w2 31 0 < 0x180000)
  | 0x04 => decide (bits c.w1 31 0 < 0x180000)
  | 0x05 => decide (bits c.w2 31 0 < sramSize (c.w2.testBit 32))
  | 0x06 => decide (bits c.w2 31 0 < 0x80000) && decide (bits c.w2 63 32 < 0x80000) && bits c.w2 31 0 % 2048 = 0 &&
      bits c.w2 63 32 % 2048 = 0 && decide (bits c.w3 15 0 ≤ 128) && decide (bits c.w1 8 0 ≤ 383)
  | _ => true

/-- The count that the command's own bits give; none where a shape register gives it (R75). -/
def Cmd.ownCount (c : Cmd) : Option Nat :=
  match c.sh with
  | some _ => none
  | none =>
    match c.op with
    | 1 | 5 | 7 => some 1
    | 2 => some (bits c.w2 47 32)
    | 6 => some (bits c.w3 31 16)
    | 3 => some (bits c.w3 15 0)
    | _ => some 0

/-- Whether the regions whose size the command's own bits give lie in their SRAM (R105); the operand objects of an MPASS are
sized by their headers, at its issue. -/
def Cmd.fits (c : Cmd) (n : Nat) : Bool :=
  let ok := fun (acc : Bool) (o l : Nat) => decide (o + l ≤ sramSize acc)
  if c.counted ∧ n = 0 then true
  else match c.op with
    | 0x01 => ok false (bits c.w2 31 0) (n * bits c.w3 31 0)
    | 0x02 => let (acc, o, l) := c.passOut n
      ok acc o l && (!(c.accMode = 1 || c.accMode = 3) || ok true c.accOff.off (2048 * n))
    | 0x03 => (vopShape c n).all (fun (o, l, _) => ok o.acc o.off l)
    | 0x04 => ok false (bits c.w1 31 0) (bits c.w2 31 0)
    | 0x05 => ok (c.w2.testBit 32) (bits c.w2 31 0) (n * bits c.w3 31 0)
    | 0x06 => ok true (bits c.w2 31 0) (2048 * n) && ok true (bits c.w2 63 32) (2048 * n)
    | 0x07 => !c.w3.testBit 63 || ok false (bits c.w3 31 0) (n * bits c.w1 63 33)
    | 0x0A => !c.w2.testBit 63 || ok false (bits c.w2 31 0) 4
    | _ => true

/-- Whether the encoding is one that an image may hold (R13, R70, R105): what its own bits decide. A region whose size a shape
register gives is checked at the issue. -/
def Cmd.imageLegal (c : Cmd) : Bool :=
  c.legal && (match c.ownCount with
    | some n => c.limits n && c.fits n
    | none => c.limits 0)

/-- A non-finite M_IN in use is malformed (R144); a marked one is poison and is not examined (log 19). -/
def State.mInBad (s : State) (c : Cmd) (tile : Nat) : Bool :=
  let m := s.sram tile false c.src1.off 8
  let w := ofLE (m.map (·.1))
  w.testBit 32 && !isFin (bits w 31 0) && !m.any (·.2)

/-- The shape register that a command writes (R75). -/
def Cmd.shapeOut (c : Cmd) : Option Nat := if c.op = 9 then some (bits c.w2 2 0) else none

/-- Whether a working-state output of a command overlaps an input of its own or of an older command of its group (R82, R84):
tile SRAM, a shape register, or a scoreboard token (log 161). -/
def overlapping (c : Cmd) (us : List Use) (older : List Flight) : Bool :=
  let ins := (us.filter (fun u => u.how = .read)).map (·.rgn) ++ older.flatMap (·.pins)
  (us.filter (fun u => u.how = .write || u.how = .both)).any (fun u =>
    (ins.any (Rgn.meets u.rgn))) ||
  (c.shapeOut.isSome && older.any (fun f => f.sh = c.shapeOut)) ||
  (c.ssb.isSome && (c.wsb = c.ssb || older.any (fun f => f.wsb = c.ssb)))

/-- Whether a command is malformed at issue (R13, R84, R105, R118, R144, R430); `older` are the older commands of its
group. -/
def State.malformed (s : State) (set : Nat) (c : Cmd) (n : Nat) (older : List Flight) : Bool :=
  let us := s.uses set c n
  !c.legal || !c.limits n || (c.onTiles && (c.tiles set).any (fun t => !s.avail 0x11 t)) ||
  us.any (fun u => !useFits u) ||
  (c.op = 6 && (decide (383 < bits c.w1 8 0) || !s.avail 0x11 (bits c.w1 8 0))) ||
  overlapping c us older ||
  (c.op = 3 && decide (0x20 ≤ c.vfn) && decide (c.vfn ≤ 0x29) && decide (n ≠ 0) && (c.tiles set).any (s.mInBad c))

end Sys2Proof.Machine
end

