-- ==== Sys2Proof/Machine/Flags.lean ====
section
/-! DEFINITION. What a Set command finds and does: the causes of an abort, the flags each raises, and the effect of a
command before it is applied (R86, R107, R117, R175, R176, R388). -/

namespace Sys2Proof.Machine

/-- Why a command aborts (R86). -/
inductive Cause where
  /-- the encoding, its limits or an overlap (R13, R84, R105, R118) -/
  | malformed
  /-- a tile flag: ECC_UNCORR, WINDOW, ANCHOR or LS_INVALID (R107, R115, R117) -/
  | tile (e : EvFlag) (tile : Nat)
  /-- checksum and format faults of one object, by tile, store and offset, each with its scale group; the CRC a CHECK expected
  (R175) -/
  | object (tile : Nat) (acc : Bool) (off : Nat) (faults : List (Nat × Nat)) (crc : Nat)
  /-- an address outside the partition's memory (R304, R388) -/
  | access
  /-- a refused KV view access (R242) -/
  | view
  /-- a shape value above MAX (R89) -/
  | bound
  /-- an FCOPY to a rank that nobody holds (R96) -/
  | rank
  deriving DecidableEq, Repr

/-- The effect of a command, computed before anything is written: causes of an abort, flags raised without an abort,
counters, and its writes. -/
structure Eff where
  causes : List Cause
  notes : List (EvFlag × Nat)
  bumps : List (Fld × Nat × Nat)
  work : List Wk
  held : List Held
  deriving DecidableEq, Repr

/-- An effect that does nothing. -/
def Eff.none : Eff := ⟨[], [], [], [], []⟩

/-- Two effects of one command, on two tiles. -/
def Eff.and (a b : Eff) : Eff :=
  ⟨a.causes ++ b.causes, a.notes ++ b.notes, a.bumps ++ b.bumps, a.work ++ b.work, a.held ++ b.held⟩

/-- The effects of a command on all its tiles. -/
def Eff.all (l : List Eff) : Eff := l.foldl Eff.and .none

/-- An effect that only aborts. -/
def Eff.abort (c : Cause) : Eff := { Eff.none with causes := [c] }

/-- The event flag of a bit of EXPAND_EVENTS (R180). -/
def expandFlag (bit : Nat) : EvFlag :=
  match bit with
  | 0 => E.EXPAND_CRC_FAIL
  | 1 => E.EXPAND_OBJ_MISMATCH
  | 2 => E.EXPAND_FMT_OVER
  | 3 => E.EXPAND_FMT_UNDER
  | 4 => E.EXPAND_FMT_CODE
  | _ => E.EXPAND_FMT_MISMATCH

/-- The FETCH record of an object, if the bar holds one (R177): one in the accumulator store has none. -/
def findRec (recs : List FetchRec) (tile : Nat) (acc : Bool) (off : Nat) : Option FetchRec :=
  if acc then none else recs.reverse.find? (fun r => r.tile = tile && r.off = off)

/-- Raise the flags of a faulted object (R175, R180). -/
def State.raiseObject (s : State) (tile off : Nat) (faults : List (Nat × Nat)) : State :=
  ((List.range 6).filter (fun k => faults.any (·.1 = k))).foldl (fun t k => t.raise (expandFlag k) tile [off]) s

/-- A faulted object: its tile, its store, its offset and its faults. -/
abbrev BadObj := Nat × Bool × Nat × List (Nat × Nat)

/-- The faulted objects among the causes of an abort. -/
def badObjs (cs : List Cause) : List BadObj :=
  cs.filterMap (fun c => match c with
    | .object t acc o fs _ => some (t, acc, o, fs)
    | _ => none)

/-- Latch the fault registers of a tile (R176, R180): its first cause in the order of R176 over all its faulted objects, and the
last of them that has it (log 168). -/
def State.latchFault (s : State) (recs : List FetchRec) (tile : Nat) (os : List BadObj) : State :=
  match firstCause (os.flatMap (fun o => o.2.2.2.map (·.1))) with
  | none => s
  | some k => match (os.filter (fun o => o.2.2.2.any (·.1 = k))).getLast? with
    | none => s
    | some (_, acc, off, fs) =>
      let src := ((findRec recs tile acc off).map (·.src)).getD 0
      let groups := (fs.filter (fun f => decide (f.1 = k) && decide (f.2 ≠ 0xFFFF))).map (·.2)
      ((((s.wr R.EXPAND_FAULT_SRC_SRC src tile).wr R.EXPAND_FAULT_INFO_SP_OFF off tile).wr R.EXPAND_FAULT_INFO_CAUSE
        (k + 1) tile).wr R.EXPAND_FAULT_INFO_GROUP (minOr 0xFFFF groups) tile)

/-- Raise what a cause raises (R13, R89, R107, R115, R117, R175, R242, R388). -/
def State.raiseCause (s : State) (set : Nat) (c : Cause) : State :=
  match c with
  | .malformed => s.raise E.SCHED_MALFORMED set
  | .tile e t => s.raise e t
  | .object t _ o fs _ => s.raiseObject t o fs
  | .access => match s.ownerOf set with
    | some p => s.raise E.PART_ACCESS p [set]
    | none => s.logAs (srcUnit 0x10 set) (.flag E.PART_ACCESS.flag 0) [set]
  | .view =>
    let kv := s.rd R.PART_KVDESC_BASE ((s.ownerOf set).getD 0)
    (s.devSetNat (kv + 8 * 17) 8 ((s.devWord (kv + 8 * 17) + 1) % 2 ^ 64)).note (srcUnit 0x10 set) (.viewFault set)
  | .bound => s.raise E.SCHED_SHAPE_BOUND set
  | .rank => s.note (srcUnit 0x10 set) (.rankNotHeld set)

/-- Raise the causes of an abort: every flag that applies, and one record for each tile with faulted objects (R176). -/
def State.raiseCauses (s : State) (set : Nat) (recs : List FetchRec) (cs : List Cause) : State :=
  let s := cs.foldl (fun t c => t.raiseCause set c) s
  let os := badObjs cs
  (os.map (·.1)).eraseDups.foldl (fun t i => t.latchFault recs i (os.filter (fun o => o.1 = i))) s

/-- Raise the flags of an effect that do not abort, and count what it counts. -/
def State.applyNotes (s : State) (e : Eff) : State :=
  let s := e.notes.foldl (fun t n => t.raise n.1 n.2) s
  e.bumps.foldl (fun t b => t.bump b.1 b.2.2 b.2.1) s

end Sys2Proof.Machine
end

