-- ==== Sys2Proof/Machine/KvView.lean ====
section
/-! DEFINITION. KV pages, frames, tags, page tables and the KV view (R191 to R193, R232 to R235, R237, R238, R240 to
R243). -/

namespace Sys2Proof.Machine

/-! ### The KV descriptor (R237, R238) -/

/-- The KV descriptor's words as numbers. -/
structure KvDesc where
  base : Nat
  lm : Nat
  ld : Nat
  fmt : Nat
  fmax : Nat
  kwM : Nat
  vwM : Nat
  kwD : Nat
  vwD : Nat
  sinks : Nat
  recent : Nat
  mapn : Nat
  mainPool : Nat
  draftPool : Nat
  tagPool : Nat
  nframes : Nat
  deriving DecidableEq, Repr

/-- A partition's KV descriptor (R237). -/
def State.kvDesc (s : State) (p : Nat) : KvDesc :=
  let b := s.rd R.PART_KVDESC_BASE p
  let w := fun (i : Nat) => s.devWord (b + 8 * i)
  { base := b, lm := bits (w 0) 7 0, ld := bits (w 0) 15 8, fmt := bits (w 0) 19 16, fmax := bits (w 0) 41 32
    kwM := bits (w 1) 15 0, vwM := bits (w 1) 31 16, kwD := bits (w 1) 47 32, vwD := bits (w 1) 63 48
    sinks := bits (w 2) 15 0, recent := bits (w 2) 31 16, mapn := bits (w 2) 47 32
    mainPool := bits (w 3) 47 0, draftPool := bits (w 4) 47 0, tagPool := bits (w 5) 47 0, nframes := bits (w 6) 23 0 }

/-- Elements per slot of main and draft layers (R232). -/
def KvDesc.wM (d : KvDesc) : Nat := d.kwM + d.vwM
/-- Elements per slot of a draft layer. -/
def KvDesc.wD (d : KvDesc) : Nat := d.kwD + d.vwD
/-- PM: bytes of a main page (R232, R234). -/
def KvDesc.pm (d : KvDesc) : Nat := up64 (32 + 66 * d.wM)
/-- PD: bytes of a draft page. -/
def KvDesc.pd (d : KvDesc) : Nat := up64 (32 + 66 * d.wD)

/-- Layer entry `l` of the descriptor (R238). -/
def State.kvLayer (s : State) (d : KvDesc) (l : Nat) : Nat := s.devWord (d.base + 0x100 + 8 * l)

/-- Address of main page `l` of frame `f` (R234). -/
def KvDesc.mainPage (d : KvDesc) (f l : Nat) : Nat := d.mainPool + f * d.lm * d.pm + l * d.pm
/-- Address of draft page `l` of frame `f`. -/
def KvDesc.draftPage (d : KvDesc) (f l : Nat) : Nat := d.draftPool + f * d.ld * d.pd + l * d.pd
/-- Address of tag `e` of frame `f`. -/
def KvDesc.tagAt (d : KvDesc) (f e : Nat) : Nat := d.tagPool + f * 2048 + 32 * e

/-- The null page of a layer: an intact object of zero blocks (R232). -/
def State.nullPage (s : State) (d : KvDesc) (draft : Bool) (l : Nat) : List Byte :=
  let w := if draft then d.wD else d.wM
  let len := if draft then d.pd else d.pm
  let anchor := signed 10 (bits (s.kvLayer d (if draft then d.lm + l else l)) 41 32)
  let h : ObjHdr := ⟨0, d.fmt, 1, false, false, anchor, false, 2 * w, w / 32, len, len, l + 256 * b2n draft⟩
  let sc : Byte := if d.fmt = 3 then 0x80 else 0
  let body := List.replicate (64 * w) (0 : Byte) ++ List.replicate (2 * w) sc
  let bs := hdrBytes h ++ body ++ List.replicate (len - 32 - body.length) (0 : Byte)
  toLE 4 (objCrc bs) ++ bs.drop 4

/-! ### The page table (R240) -/

/-- NF of a page table. -/
def State.ptNf (s : State) (root : Nat) : Nat := bits (s.devWord root) 9 0
/-- MAPPED_TO of a page table. -/
def State.ptMapped (s : State) (root : Nat) : Nat := bits (s.devWord (root + 8)) 23 0
/-- Frame number at index `j`. -/
def State.ptFrame (s : State) (root j : Nat) : Nat := s.devNat (root + 0x40 + 4 * j) 4
/-- Address of the free bitmap. -/
def KvDesc.bitmapAt (d : KvDesc) (root : Nat) : Nat := root + 0x40 + 4 * d.fmax
/-- Address of the write map. -/
def KvDesc.mapAt (d : KvDesc) (root : Nat) : Nat := root + 0x40 + 12 * d.fmax
/-- The slot a position is mapped to; 0xFFFF when unmapped. -/
def State.ptSlot (s : State) (d : KvDesc) (root q : Nat) : Nat := s.devNat (d.mapAt root + 2 * (q % max 1 d.mapn)) 2

/-! ### The work list (R191 to R193) -/

/-- The half of a partition's work list that a bar uses (R191). -/
def State.wlHalf (s : State) (p bar : Nat) : Nat := s.rd R.CALLER_PART_WL_WL_BASE 0 p + bar % 2 * 0x80000

/-- Address of a slot entry. -/
def slotAt (half i : Nat) : Nat := half + 0x1000 + 32 * i
/-- Address of a slot result. -/
def resultAt (half i : Nat) : Nat := half + 0x21000 + 16 * i

/-- A slot entry (R192). -/
structure Slot where
  index : Nat
  gen : Nat
  kind : Nat
  cls : Nat
  draft : Nat
  heads : Bool
  lastPf : Bool
  cont : Bool
  tokFirst : Nat
  tokN : Nat
  pos0 : Nat
  root : Nat
  hist : Nat
  deriving DecidableEq, Repr

/-- The slot entry at an address (R192). -/
def State.slotEntry (s : State) (a : Nat) : Slot :=
  let w0 := s.devWord a
  let w1 := s.devWord (a + 8)
  { index := bits w0 17 0, gen := bits w0 33 18, kind := bits w0 35 34, cls := bits w0 37 36, draft := bits w0 41 38
    heads := w0.testBit 42, lastPf := w0.testBit 43, cont := w0.testBit 44
    tokFirst := bits w1 13 0, tokN := bits w1 27 14, pos0 := bits w1 51 28
    root := bits (s.devWord (a + 16)) 47 0, hist := bits (s.devWord (a + 24)) 47 0 }

/-- The bytes of a slot entry (R192). -/
def slotBytes (x : Slot) : List Byte :=
  toLE 8 (x.index + x.gen * 2 ^ 18 + x.kind * 2 ^ 34 + x.cls * 2 ^ 36 + x.draft * 2 ^ 38 + b2n x.heads * 2 ^ 42 +
    b2n x.lastPf * 2 ^ 43 + b2n x.cont * 2 ^ 44) ++
  toLE 8 (x.tokFirst + x.tokN * 2 ^ 14 + x.pos0 * 2 ^ 28) ++ toLE 8 x.root ++ toLE 8 x.hist

/-- The committed position of a slot before the bar (R193). -/
def State.slotPos (s : State) (p bar i : Nat) : Nat :=
  let e := s.slotEntry (slotAt (s.wlHalf p bar) i)
  if e.cont then bits (s.devWord (resultAt (s.wlHalf p (bar + 1)) i)) 23 0 else e.pos0

/-! ### The KV view (R241 to R243) -/

/-- What the view needs of one slot. -/
structure ViewSlot where
  d : KvDesc
  e : Slot
  nf : Nat
  pos : Nat
  idx : Nat
  deriving DecidableEq, Repr

/-- The slot a view address names, for a partition in the current bar (R241, R242). -/
def State.viewSlot (s : State) (p a : Nat) : ViewSlot :=
  let i := (a - 0x800000000000) / 2 ^ 32
  let e := s.slotEntry (slotAt (s.wlHalf p s.bar) i)
  ⟨s.kvDesc p, e, if e.kind = 0 then 0 else s.ptNf e.root, s.slotPos p s.bar i, i⟩

/-- `n` bytes from `o` of a byte list, zeros past its end. -/
def sliceOf (bs : List Byte) (o n : Nat) : List Byte := (List.range n).map (fun i => bs.getD (o + i) 0)

/-- The first of `n` bytes that a FETCH at a view offset reads, as far as one page or one frame's tags go (R242): of the
sequence's frames, of a null page, or zero tags; `none` where the die refuses it. -/
def State.viewPart (s : State) (v : ViewSlot) (o n : Nat) : Option (List MarkByte) :=
  let page := fun (draft : Bool) (o len layers : Nat) =>
    let q := o / max 1 len
    let l := q / max 1 v.d.fmax
    let j := q % max 1 v.d.fmax
    let m := min n (len - o % max 1 len)
    if m = 0 ∨ layers ≤ l then none
    else if j < v.nf then
      let f := s.ptFrame v.e.root j
      some (s.devMarked ((if draft then v.d.draftPage f l else v.d.mainPage f l) + o % len) m)
    else some (clean (sliceOf (s.nullPage v.d draft l) (o % len) m))
  if o < 0x80000000 then page false o v.d.pm v.d.lm
  else if o < 0xC0000000 then page true (o - 0x80000000) v.d.pd v.d.ld
  else if o < 0xE0000000 then
    let t := o - 0xC0000000
    let m := min n (2048 - t % 2048)
    if t / 2048 < v.nf then some (s.devMarked (v.d.tagPool + s.ptFrame v.e.root (t / 2048) * 2048 + t % 2048) m)
    else some (clean (List.replicate m 0))
  else none

/-- The `n` bytes that a FETCH at a view offset reads, page after page. -/
def State.viewRun (s : State) (v : ViewSlot) : Nat → Nat → Nat → Option (List MarkByte)
  | 0, _, _ => some []
  | k + 1, o, n =>
    if n = 0 then some []
    else match s.viewPart v o n with
      | some bs => (s.viewRun v k (o + bs.length) (n - bs.length)).map (bs ++ ·)
      | none => none

/-- A FETCH of `n` bytes at a view address (R242): pages of the sequence's frames, null pages or zero tags; `none` where
the die refuses it. -/
def State.viewRead (s : State) (p a n : Nat) : Option (List MarkByte) :=
  s.viewRun (s.viewSlot p a) n ((a - 0x800000000000) % 2 ^ 32) n

/-- RECW: bytes of a position record (R243). -/
def KvDesc.recw (d : KvDesc) : Nat := d.lm * (d.wM + d.wM / 32) + d.ld * (d.wD + d.wD / 32) + 8

/-- Where byte `x` of a record goes in the slot `k` of its position: an address, `none` for a tag byte (R243). -/
def State.recordByte (s : State) (v : ViewSlot) (k x : Nat) : Option Nat :=
  let f := s.ptFrame v.e.root (k / 64)
  let e := k % 64
  let place := fun (page w y : Nat) => if y < w then page + 32 + e * w + y else page + 32 + 64 * w + e * (w / 32) + (y - w)
  let mw := v.d.wM + v.d.wM / 32
  let dw := v.d.wD + v.d.wD / 32
  if x < v.d.lm * mw then some (place (v.d.mainPage f (x / mw)) v.d.wM (x % mw))
  else if x < v.d.lm * mw + v.d.ld * dw then
    let y := x - v.d.lm * mw
    some (place (v.d.draftPage f (y / dw)) v.d.wD (y % dw))
  else none

/-- Join single-byte writes to consecutive addresses into runs, in order. -/
def joinRuns : List (Nat × MarkByte) → List (Nat × List MarkByte)
  | [] => []
  | (a, b) :: r =>
    match joinRuns r with
    | (c, bs) :: t => if c = a + 1 then (a, b :: bs) :: t else (a, [b]) :: (c, bs) :: t
    | [] => [(a, [b])]

/-- A STORE of bytes to one position record (R242, R243): the writes it makes, or a refusal. One that covers a part of the tag
bytes only does not carry what R243 asks of them, and is refused (log 25). -/
def State.recordStore (s : State) (v : ViewSlot) (i x : Nat) (data : List MarkByte) : Option (List Held) :=
  let base : Int := if v.e.kind = 2 then (v.pos : Int) - 2 else v.pos
  let q := base + (i : Int)
  let limit := if v.e.kind = 2 then v.e.tokN + 1 else v.e.tokN
  let mainEnd := v.d.lm * (v.d.wM + v.d.wM / 32)
  let tagOff := v.d.recw - 8
  let k := s.ptSlot v.d v.e.root q.toNat
  let coversTag := decide (tagOff < x + data.length)
  let tagWord := ofLE (((data.drop (tagOff - x)).take 8).map (·.1))
  if (v.e.kind ≠ 1 ∧ v.e.kind ≠ 2) ∨ limit ≤ i ∨ q < 0 ∨ k = 0xFFFF ∨ v.d.recw < x + data.length then none
  else if v.e.kind = 2 ∧ i = 0 ∧ (x < mainEnd ∨ coversTag = true) then none
  else if coversTag ∧ (tagOff < x ∨ x + data.length < v.d.recw ∨ bits tagWord 23 0 ≠ q.toNat ∨ tagWord.testBit 24 = false) then none
  else
    let runs := joinRuns ((data.zipIdx).filterMap (fun (b, j) => (s.recordByte v k (x + j)).map (fun a => (a, b))))
    let t := v.d.tagAt (s.ptFrame v.e.root (k / 64)) (k % 64)
    let tm := coversTag && ((data.drop (tagOff - x)).any (·.2))
    some (runs.map (fun (a, d) => .mem a d) ++ (if coversTag then
      [.mem t ((toLE 8 tagWord ++ toLE 8 (2 ^ 64 - 1) ++ toLE 8 0).map (fun b => (b, tm)))] else []))

/-- The score stores of a STORE to region T (R242): each tag whose half of the bar's parity it covers. A tag beyond the
frames the sequence holds takes nothing (log 25). -/
def State.scoreStore (s : State) (v : ViewSlot) (o : Nat) (data : List MarkByte) : List Held :=
  let par := s.bar % 2
  let first := o / 32
  let last := (o + data.length) / 32
  (List.range (last - first + 1)).filterMap (fun i =>
    let t := first + i
    let at4 := 32 * t + 16 + 4 * par
    if at4 < o ∨ o + data.length < at4 + 4 ∨ v.nf ≤ t / 64 then none
    else some (.score (v.d.tagAt (s.ptFrame v.e.root (t / 64)) (t % 64)) par ((data.drop (at4 - o)).take 4)))

/-- A STORE to region P from a record offset on, record after record: its held writes, or a refusal. -/
def State.recordRun (s : State) (v : ViewSlot) : Nat → Nat → List MarkByte → Option (List Held)
  | 0, _, _ => some []
  | k + 1, r, data =>
    let w := v.d.recw
    let m := w - r % w
    if data = [] then some []
    else match s.recordStore v (r / w) (r % w) (data.take m) with
      | some hs => (s.recordRun v k (r + m) (data.drop m)).map (hs ++ ·)
      | none => none

/-- A STORE of one row at a view address (R242): its held writes, or a refusal. -/
def State.viewStore (s : State) (p a : Nat) (data : List MarkByte) : Option (List Held) :=
  let v := s.viewSlot p a
  let o := (a - 0x800000000000) % 2 ^ 32
  let scores := data.take (0xE0000000 - o)
  if v.e.kind = 0 ∨ 2 ^ 32 < o + data.length ∨ o < 0xC0000000 then none
  else (s.recordRun v data.length (o - 0xE0000000) (data.drop (0xE0000000 - o))).map
    (fun hs => (if scores = [] then [] else s.scoreStore v (o - 0xC0000000) scores) ++ hs)

end Sys2Proof.Machine
end

