-- ==== Sys2Proof/Machine/Vector.lean ====
section
/-! DEFINITION. The vector unit and Pirouette: what each VOP writes on one tile (R117, R119, R121, R123 to R127, R135,
R141, R143 to R146, R148, R149, R159). -/

namespace Sys2Proof.Machine

/-! ### Elements with marks (R148, R149) -/

/-- A value with its poison mark. -/
abbrev MVal := Nat × Bool

/-- Read `n` elements of `w` bytes at an operand; `bad` marks them all (a second abort on ECC, R86, R107). -/
def State.elems (s : State) (tile : Nat) (o : Opnd) (w n : Nat) (bad : Bool) : List MVal :=
  (List.range n).map (fun i =>
    let bs := s.sram tile o.acc (o.off + w * i) w
    (ofLE (bs.map (·.1)), bad || bs.any (·.2)))

/-- A poisoned result holds the canonical NaN and carries the mark (R148). -/
def sealed32 (v : MVal) : MVal := if v.2 then (qnan, true) else v

/-- Elements as marked bytes. -/
def elemOut (w : Nat) (vs : List MVal) : List MarkByte := vs.flatMap (fun v => (toLE w v.1).map (fun b => (b, v.2)))

/-- Write elements to an operand. -/
def writeElems (tile : Nat) (o : Opnd) (w : Nat) (vs : List MVal) : List Wk :=
  [.sram (tileKey tile o.acc o.off) (elemOut w vs)]

/-- Apply a one-operand function. -/
def map1 (f : Nat → Nat) (a : List MVal) : List MVal := a.map (fun x => sealed32 (f x.1, x.2))

/-- Apply a two-operand function. -/
def map2 (f : Nat → Nat → Nat) (a b : List MVal) : List MVal :=
  a.zipWith (fun x y => sealed32 (f x.1 y.1, x.2 || y.2)) b

/-- BF16 to FP32, exact, NaNs canonical (R123, R124). -/
def fromBf16 (x : Nat) : Nat := if isNan (x * 2 ^ 16) then qnan else x * 2 ^ 16

/-- CVT_BF16 of a marked value (R124, R148). -/
def cvtBf16 (v : MVal) : MVal := if v.2 then (0x7FC0, true) else (toBf16 v.1, false)

/-! ### Pirouette (R126, R127) -/

/-- The output mixing of R127. -/
def mix64 (z : Nat) : Nat :=
  let z := ((z ^^^ (z >>> 30)) * 0xBF58476D1CE4E5B9) % 2 ^ 64
  let z := ((z ^^^ (z >>> 27)) * 0x94D049BB133111EB) % 2 ^ 64
  z ^^^ (z >>> 31)

/-- Sign bit `i` of a seed (R127): bit i mod 64 of word i / 64. -/
def rotSign (seed i : Nat) : Bool := (mix64 ((seed + (i / 64 + 1) * 0x9E3779B97F4A7C15) % 2 ^ 64)).testBit (i % 64)

/-- Negate an FP32 value; a NaN result is canonical (R123). -/
def negate32 (x : Nat) : Nat := if isNan x then qnan else fNeg x

/-- D: negate where the sign bit is 1 (R126 step 1). -/
def applySigns (seed : Nat) (xs : List Nat) : List Nat :=
  xs.zipIdx.map (fun (x, i) => if rotSign seed i then negate32 x else x)

/-- One stage of the fast transform at distance `h` (R126 step 2). -/
def hadamardStage (h : Nat) (xs : List Nat) : List Nat :=
  xs.zipIdx.map (fun (x, i) =>
    if (i / h) % 2 = 0 then fAdd x (xs.getD (i + h) 0) else fSub (xs.getD (i - h) 0) x)

/-- The fast transform of `2 ^ k` elements (R126 step 2). -/
def hadamard (k : Nat) (xs : List Nat) : List Nat := (List.range k).foldl (fun a j => hadamardStage (2 ^ j) a) xs

/-- c_N of R126. -/
def rotScale (k : Nat) : Nat := if k = 7 then 0x3DB504F3 else if k = 8 then 0x3D800000 else 0x3D3504F3

/-- One chunk rotated forward or back (R126). -/
def rotChunk (k seed : Nat) (inverse : Bool) (xs : List Nat) : List Nat :=
  let mid := fun l => (hadamard k l).map (fun x => fMul x (rotScale k))
  if inverse then applySigns seed (mid xs) else mid (applySigns seed xs)

/-- Every chunk of an input; a marked input poisons its whole chunk (R126, R149). -/
def rotate (k seed : Nat) (inverse : Bool) (xs : List MVal) : List MVal :=
  let n := 2 ^ k
  (List.range (xs.length / n)).flatMap (fun i =>
    let ch := (xs.drop (i * n)).take n
    if ch.any (·.2) then List.replicate n (qnan, true)
    else (rotChunk k seed inverse (ch.map (·.1))).map (fun v => (v, false)))

/-- The seed a ROT field selects, in the rotation seed table of the current epoch region (R127). -/
def State.rotSeed (s : State) (idx : Nat) : Nat := s.devWord (s.epochBase + 0x800 + 8 * idx)

/-! ### Long-sum rows and records (R117, R121, R124) -/

/-- One long-sum row: its tag and its 128 columns, each with its mark. -/
structure LsRow where
  tag : Nat
  cols : List MVal
  deriving DecidableEq, Repr

/-- ANCHOR of a tag (R117). -/
def tagAnchor (t : Nat) : Int := signed 11 t
/-- VALID of a tag (R117). -/
def tagValid (t : Nat) : Bool := t.testBit 11
/-- POISON of a tag (R117). -/
def tagPoison (t : Nat) : Bool := t.testBit 12

/-- A tag from its fields (R117). -/
def mkTag (a : Int) (valid poison : Bool) : Nat := unsigned 11 a + 2 ^ 11 * b2n valid + 2 ^ 12 * b2n poison

/-- Row `r` of a long-sum operand: an accumulator row with its row tag, or a record (R121). A record whose tag word is
marked is poisoned. -/
def State.lsRow (s : State) (tile : Nat) (o : Opnd) (r : Nat) (bad : Bool) : LsRow :=
  if o.acc then
    let off := o.off + 2048 * r
    let t := s.tag tile (off / 2048)
    ⟨if bad then mkTag (tagAnchor t) (tagValid t) true else t, s.elems tile ⟨true, off, false⟩ 16 128 false⟩
  else
    let off := o.off + 2064 * r
    let head := s.sram tile false off 8
    let t := ofLE (head.map (·.1))
    ⟨if bad || head.any (·.2) then mkTag (tagAnchor t) (tagValid t) true else t,
      s.elems tile ⟨false, off + 16, false⟩ 16 128 false⟩

/-- Write long-sum row `r` of an operand: a row with its tag, or a record (R117, R121). -/
def lsWrite (tile : Nat) (o : Opnd) (r : Nat) (x : LsRow) : List Wk :=
  if o.acc then
    let off := o.off + 2048 * r
    [.sram (tileKey tile true off) (elemOut 16 x.cols), .tag (tagKey tile (off / 2048)) x.tag]
  else
    let off := o.off + 2064 * r
    [.sram (tileKey tile false off) (clean (toLE 8 x.tag ++ toLE 8 0) ++ elemOut 16 x.cols)]

/-- The sum of two rows modulo 2 ^ 128, with the OR of their POISON bits (R116, R117). -/
def lsAdd (a b : LsRow) : LsRow :=
  ⟨mkTag (tagAnchor a.tag) true (tagPoison a.tag || tagPoison b.tag),
    a.cols.zipWith (fun x y => ((x.1 + y.1) % 2 ^ 128, x.2 || y.2)) b.cols⟩

/-- The checks of an addition (R117). -/
def addCauses (tile : Nat) (a b : Nat) : List Cause :=
  (if tagValid a && tagValid b then [] else [.tile E.TILE_LS_INVALID tile]) ++
  (if tagAnchor a = tagAnchor b then [] else [.tile E.TILE_ANCHOR tile])

/-- One long-sum rounded to FP32 (R119). -/
def lsRound (anchor : Int) (l : Nat) : Nat := roundInt false (signed 128 l) (anchor - 36)

/-- A row rounded to FP32 elements; a poisoned row gives the rounded values with the mark (R119). -/
def roundRow (x : LsRow) : List MVal :=
  x.cols.map (fun c => (lsRound (tagAnchor x.tag) c.1, c.2 || tagPoison x.tag))

/-- ROUND_OVF where a result rounds to an infinity (R119), once for a tile's command (log 196). -/
def overflowNotes (tile : Nat) (vs : List MVal) : List (EvFlag × Nat) :=
  if vs.any (fun v => fAbs v.1 = 0x7F800000) then [(E.TILE_ROUND_OVF, tile)] else []

/-- A VOP over long-sum rows whose output is FP32 (R124). -/
def roundEff (tile : Nat) (dst : Opnd) (rows : List LsRow) (causes : List Cause) : Eff :=
  let out := rows.flatMap roundRow
  { Eff.none with causes := causes, notes := overflowNotes tile out, work := writeElems tile dst 4 (out.map sealed32) }

/-! ### Quantising (R135, R141, R143, R144) -/

/-- The bytes of the object a QUANT writes: header, elements, scales, zero padding, correct CRC (R143, R160, R161). -/
def quantObject (fmt : Nat) (anchor : Int) (qs : List QBlk) : List Byte :=
  let nb := qs.length
  let len := quantLen fmt (32 * nb)
  let body := qs.flatMap (fun q => toLE (elemBytes fmt) q.field) ++
    (if fmt = 9 then [] else qs.map (fun q => BitVec.ofNat 8 q.scale))
  let pad := List.replicate (len - 32 - body.length) (0 : Byte)
  let h : ObjHdr := ⟨0, fmt, 2, false, false, anchor, false, nb, 0, len, len, 0⟩
  let bs := hdrBytes h ++ body ++ pad
  toLE 4 (objCrc bs) ++ bs.drop 4

/-- How many blocks meet a test. -/
def countBlk (p : QBlk → Bool) (qs : List QBlk) : Nat := (qs.filter p).length

/-- M_OUT with its mark (R144, R149): any marked input poisons it (log 23). -/
def mOut (xs : List MVal) : MVal := sealed32 (maxFinite (xs.map (·.1)), xs.any (·.2))

/-- QUANT on one tile (R135, R141, R143 to R145). Both halves of its counters must be the partition's memory, since the bar of
its commit picks the half (log 167). -/
def State.quantEff (s : State) (set tile : Nat) (c : Cmd) (n : Nat) (bad : Bool) : Eff :=
  let fmt := c.vfn - 0x20
  let xs := s.elems tile c.src0 4 n bad
  let ctx := s.sram tile false c.src1.off 64
  let w := fun (i : Nat) => ofLE (((ctx.drop (8 * i)).take 8).map (·.1))
  let mIn := bits (w 0) 31 0
  let useM := (w 0).testBit 32
  let mBad := useM && (ctx.take 8).any (·.2)
  let m := if useM then fAbs mIn else maxFinite (xs.map (·.1))
  let a := if isFin m then anchorFor fmt m else signed 10 (Config.nanAnchor mIn).toNat
  let qs := (List.range (n / 32)).map (fun i => quantBlock fmt a mBad ((xs.drop (32 * i)).take 32))
  let mo := mOut xs
  let key := tileKey tile false c.src1.off
  let cnt := [n / 32, countBlk (·.zero) qs, countBlk (·.flushed) qs, countBlk (·.poisoned) qs]
  let w1 := unsigned 10 a + bits (w 1) 15 10 * 2 ^ 10 + fmt * 2 ^ 16 + bits (w 1) 23 20 * 2 ^ 20
  let stat := bits (w 5) 47 0
  let p := (s.ownerOf set).getD 0
  let ok := stat = 0 || s.inPart p stat 64
  { Eff.none with
    causes := if ok then [] else if inView stat then [.view] else [.access]
    work := [.sram (tileKey tile c.dst.acc c.dst.off) (clean (quantObject fmt a qs)),
      .sram (key + 8) (clean (toLE 3 w1)), .sram (key + 16) (elemOut 4 [mo]),
      .sram (key + 24) (clean (cnt.flatMap (toLE 4)))]
    held := if stat = 0 || !ok then [] else [.stat stat cnt] }

/-- AMAX on one tile: M_OUT only (R143). -/
def State.amaxEff (s : State) (tile : Nat) (c : Cmd) (n : Nat) (bad : Bool) : Eff :=
  { Eff.none with
    work := [.sram (tileKey tile false c.src1.off + 16) (elemOut 4 [mOut (s.elems tile c.src0 4 n bad)])] }

/-- Of some blocks of a viewed object, how many lie in coded groups and how many do not (R180); none is decoded where the header
is marked (R173). -/
def countBlocks (o : List MByte) (v : ObjView) (bs : List Nat) : Nat × Nat :=
  let coded := (bs.filter (fun b => v.hdr.coded && !rawBit o v.hdr (b / 16))).length
  if v.marked then (0, 0) else (coded, bs.length - coded)

/-- The blocks of a viewed object in coded groups and in raw ones (R180). -/
def codedBlocks (o : List MByte) (v : ObjView) : Nat × Nat :=
  if v.hdr.coded then countBlocks o v (List.range v.hdr.nb) else if v.marked then (0, 0) else (0, v.hdr.nb)

/-- DEQUANT on one tile (R130, R143, R173, R175): its faults abort; a run after the second abort is poisoned whole. -/
def State.dequantEff (s : State) (tile : Nat) (c : Cmd) (n : Nat) (bad : Bool) : Eff :=
  let o := s.sram tile c.src0.acc c.src0.off (dequantRegion n)
  let v := viewObj o ⟨none, none, some (n / 32), true, some (dequantRegion n), false, 0⟩
  let k := codedBlocks o v
  let one := fun (b : Nat) => match v.blk o b with
    | .zero => List.replicate 32 (0, false)
    | .poison => List.replicate 32 (qnan, true)
    | .vals e t es => es.map (fun x => (elemF32 v.hdr.anchor e t x, false))
  let out := if bad || !v.faults.isEmpty then List.replicate n (qnan, true) else (List.range (n / 32)).flatMap one
  { Eff.none with
    causes := if v.faults.isEmpty then [] else [.object tile c.src0.acc c.src0.off v.faults 0]
    notes := overflowNotes tile out
    bumps := [(R.EXPAND_BLK_CODED_CODED, tile, k.1), (R.EXPAND_BLK_RAW_RAW, tile, k.2)]
    work := writeElems tile c.dst 4 out }

/-- QDIVERGE on one tile: D, MAXABS, n, VALID and POISONED (R159). -/
def State.divergeEff (s : State) (tile : Nat) (c : Cmd) (n : Nat) (bad : Bool) : Eff :=
  let a := s.elems tile c.src0 4 n bad
  let b := s.elems tile c.src1 4 n bad
  let d := a.zipWith (fun x y => fSub x.1 y.1) b
  let num := treeReduce fAdd (d.map (fun x => fMul x x))
  let den := treeReduce fAdd (b.map (fun y => fMul y.1 y.1))
  let p := a.any (·.2) || b.any (·.2)
  let q := if isNan num || isNan den then qnan
    else if fAbs den = 0 then (if fAbs num = 0 then 0 else 0x7F800000) else fDiv num den
  let r : List MVal := [sealed32 (q, p), sealed32 (treeReduce fMax (d.map fAbs), p), (n % 2 ^ 32, p), (1 + 2 * b2n p, p)]
  { Eff.none with work := writeElems tile c.dst 4 r }

/-! ### Every operation (R124, R143) -/

/-- The one-operand functions of R123. -/
def fn1 (v : Nat) : Nat → Nat :=
  match v with
  | 0x08 => fExp | 0x09 => fRecip | 0x0A => fRsqrt | 0x0B => fSqrt | 0x0C => fSilu | _ => id

/-- The two-operand functions of R123. -/
def fn2 (v : Nat) : Nat → Nat → Nat :=
  match v with
  | 0x01 => fAdd | 0x02 => fSub | 0x03 => fMul | 0x05 => fMax | _ => fMin

/-- A VOP that works elementwise on FP32, or reduces or converts a row. -/
def State.plainVop (s : State) (tile : Nat) (c : Cmd) (n : Nat) (bad : Bool) : List Wk :=
  let v := c.vfn
  let a := s.elems tile c.src0 4 n bad
  let b := s.elems tile c.src1 4 n bad
  if v = 0x00 ∨ v = 0x08 ∨ v = 0x09 ∨ v = 0x0A ∨ v = 0x0B ∨ v = 0x0C then writeElems tile c.dst 4 (map1 (fn1 v) a)
  else if v = 0x04 then
    let d := s.elems tile c.dst 4 n bad
    writeElems tile c.dst 4 ((d.zip (a.zip b)).map (fun (x, y, z) => sealed32 (fFma x.1 y.1 z.1, x.2 || y.2 || z.2)))
  else if v = 0x10 then writeElems tile c.dst 4 [sealed32 (treeReduce fMax (a.map (·.1)), a.any (·.2))]
  else if v = 0x11 then writeElems tile c.dst 4 [sealed32 (treeReduce fAdd (a.map (·.1)), a.any (·.2))]
  else if v = 0x18 then writeElems tile c.dst 2 (a.map cvtBf16)
  else if v = 0x19 then writeElems tile c.dst 4 (map1 fromBf16 (s.elems tile c.src0 2 n bad))
  else if 0x30 ≤ v ∧ v ≤ 0x36 then
    writeElems tile c.dst 4 (rotate (7 + v % 4) (s.rotSeed (bits c.w3 23 16)) (decide (0x34 ≤ v)) a)
  else writeElems tile c.dst 4 (map2 (fn2 v) a b)

/-- What a VOP of `n` elements or rows does on one tile; `bad` makes every input a marked one (R86, R107). -/
def State.vopEff (s : State) (set tile : Nat) (c : Cmd) (n : Nat) (bad : Bool) : Eff :=
  let v := c.vfn
  let r0 := fun (r : Nat) => s.lsRow tile c.src0 r bad
  let r1 := fun (r : Nat) => s.lsRow tile c.src1 r bad
  let rs := List.range n
  if 0x20 ≤ v ∧ v ≤ 0x29 then s.quantEff set tile c n bad
  else if v = 0x2A then s.dequantEff tile c n bad
  else if v = 0x2B then s.amaxEff tile c n bad
  else if v = 0x2F then s.divergeEff tile c n bad
  else if v = 0x38 then
    roundEff tile c.dst (rs.map r0)
      (if rs.all (fun r => tagValid (r0 r).tag) then [] else [.tile E.TILE_LS_INVALID tile])
  else if v = 0x39 then { Eff.none with work := rs.flatMap (fun r => lsWrite tile c.dst r (r0 r)) }
  else if v = 0x3A then
    { Eff.none with
      causes := (rs.flatMap (fun r => addCauses tile (r0 r).tag (r1 r).tag)).eraseDups
      work := rs.flatMap (fun r => lsWrite tile c.dst r (lsAdd (r0 r) (r1 r))) }
  else if v = 0x3B then
    roundEff tile c.dst (rs.map (fun r => lsAdd (r0 r) (r1 r)))
      (rs.flatMap (fun r => addCauses tile (r0 r).tag (r1 r).tag)).eraseDups
  else if v = 0x3C then
    let clr := fun (t : Nat) => t - (if t.testBit 11 then 2 ^ 11 else 0)
    { Eff.none with
      work := rs.map (fun r =>
        if c.dst.acc then .tag (tagKey tile (c.dst.off / 2048 + r)) (clr (s.tag tile (c.dst.off / 2048 + r)))
        else
          let o := c.dst.off + 2064 * r
          let h := s.sram tile false o 8
          .sram (tileKey tile false o) ((toLE 8 (clr (ofLE (h.map (·.1))))).map (fun b => (b, h.any (·.2))))) }
  else { Eff.none with work := s.plainVop tile c n bad }

/-- After a second abort every row tag a VOP writes carries POISON and every byte the mark (R86, R117). -/
def poisonWk (w : Wk) : Wk :=
  match w with
  | .sram k d => .sram k (d.map (fun b => (b.1, true)))
  | .tag k v => .tag k (if v.testBit 12 then v else v + 2 ^ 12)
  | w => w

/-- The least `k` with `n ≤ 2 ^ k`. -/
def clog2 (n : Nat) : Nat := if n ≤ 1 then 0 else (n - 1).log2 + 1

/-- Cycles of a VOP (R113, R125, R146). -/
def vopCycles (v n : Nat) : Nat :=
  let q := ceilDiv n 256
  if n = 0 then 1
  else if v = 0x04 then q + 6
  else if 0x08 ≤ v ∧ v ≤ 0x0B then q + 12
  else if v = 0x0C then q + 30
  else if v = 0x10 ∨ v = 0x11 ∨ v = 0x2B then q + 4 + clog2 (max n 2)
  else if 0x20 ≤ v ∧ v ≤ 0x29 then 2 * q + 20
  else if v = 0x2A then q + 8
  else if v = 0x2F then q + 40 + 2 * clog2 (max n 2)
  else if 0x30 ≤ v ∧ v ≤ 0x36 then q + (7 + v % 4) + 6
  else if v = 0x38 ∨ v = 0x39 then 4 * n + 8
  else if v = 0x3A then 8 * n + 12
  else if v = 0x3B then 8 * n + 16
  else if v = 0x3C then ceilDiv n 64 + 2
  else q + 4

end Sys2Proof.Machine
end

