-- ==== Sys2Proof/Machine/Matrix.lean ====
section
/-! DEFINITION. A matrix pass: its operands, its exact long-sums, its outputs and its schedule (R110 to R119, R165,
R171, R173, R175). -/

namespace Sys2Proof.Machine

/-! ### Operands of a pass on one tile (R110, R162, R165) -/

/-- One operand object of a pass: its marked bytes, what the expander makes of them, its offset and its faults. -/
structure OpObj where
  off : Nat
  bytes : List MByte
  view : ObjView
  faults : List (Nat × Nat)
  deriving DecidableEq, Repr

/-- Segment `k`'s weight tile (R110, R165, R175): its header must also agree with the first unmarked header before it. -/
def State.weightObj (s : State) (tile : Nat) (c : Cmd) (k : Nat) : OpObj :=
  let d := s.weightLen c tile
  let off := c.spW + k * d
  let o := s.sram tile false off (max 32 d)
  let v := viewObj o ⟨some c.fmt, none, some (128 * blocksPerLoad c.fmt), true, none, true, 0⟩
  let differs := !v.marked && (match ((List.range k).map (fun i => c.spW + i * d)).find? (fun a => !s.spHdrMarked tile a) with
    | none => false
    | some a =>
      let h := s.spHdr tile a
      !(v.hdr.fmt = h.fmt && v.hdr.anchor = h.anchor && v.hdr.declLen = h.declLen))
  ⟨off, o, v, v.faults ++ (if differs then [(fMism, 0xFFFF)] else [])⟩

/-- Blocks between two activation rows (R165). -/
def rowStride (c : Cmd) (v : ObjView) : Nat := if v.marked || v.hdr.rowb = 0 then c.kblk else v.hdr.rowb

/-- The activation object of a pass of `n` rows (R110, R165): not verified by CRC (R171). It may hold more blocks than the pass
reads (log 169). -/
def State.actObj (s : State) (tile : Nat) (c : Cmd) (n : Nat) : OpObj :=
  let o := s.sram tile false c.spA (max 32 (s.actLen c tile n))
  let stride := let h := s.spHdr tile c.spA; if h.rowb = 0 then c.kblk else h.rowb
  let v := viewObj o ⟨some c.fmt, none, some ((n - 1) * stride + c.kblk), false, none, false, 0⟩
  ⟨c.spA, o, v, v.faults⟩

/-- The anchor of an operand (R115, R134): a marked header gives none (R173). -/
def opAnchor (o : OpObj) : Int :=
  if o.view.marked then signed 10 (Config.markedAnchor (ofLE ((o.bytes.take 8).map (·.1)))).toNat else o.view.hdr.anchor

/-- The K-blocks of column `j` over all segments, poisoned from segment `bad` on (R162, R175). -/
def columnBlocks (c : Cmd) (ws : List OpObj) (bad : Nat) (j : Nat) : List Blk :=
  let b := blocksPerLoad c.fmt
  (ws.zipIdx.flatMap (fun (w, k) =>
    (List.range (min b (c.kblk - k * b))).map (fun i =>
      if bad ≤ k then .poison else w.view.blk w.bytes (128 * i + j))))

/-- The K-blocks of activation row `t` (R165). -/
def rowBlocks (c : Cmd) (a : OpObj) (t : Nat) : List Blk :=
  (List.range c.kblk).map (fun i => a.view.blk a.bytes (t * rowStride c a.view + i))

/-! ### Exact accumulation (R115, R116) -/

/-- The term of one block pair, whether it poisons its row, and whether its exponent leaves the window (R115). -/
def blockTerm (w a : Blk) : Int × Bool × Bool :=
  match w, a with
  | .poison, _ => (0, true, false)
  | _, .poison => (0, true, false)
  | .zero, _ => (0, false, false)
  | _, .zero => (0, false, false)
  | .vals e1 t1 x, .vals e2 t2 y =>
    let sm := (x.zipWith (· * ·) y).foldl (· + ·) 0 * (4 + (t1 : Int)) * (4 + (t2 : Int))
    let cc := e1 + e2
    if -32 ≤ cc ∧ cc ≤ 31 then (sm * 2 ^ (cc + 32).toNat, false, false)
    else ((Config.windowTerm cc sm).toNat, false, true)

/-- A long-sum of one row and column, with the two flags of its terms (R115, R116). -/
def dotSum (ws as : List Blk) : Int × Bool × Bool :=
  (ws.zipWith blockTerm as).foldl (fun r t => (r.1 + t.1, r.2.1 || t.2.1, r.2.2 || t.2.2)) (0, false, false)

/-! ### One tile's pass (R110, R117 to R119, R175) -/

/-- What an MPASS of `n` rows does on one tile. `bad` is an ECC_UNCORR on the tile (R107); `second` is a run after the
group's abort, in which a faulted tile writes every row poisoned (R86, R175). That POISON_IN, WINDOW and ROUND_OVF are
raised once for a tile's command is the model's choice (DESIGN CHOICE, log 196). -/
def State.passEff (s : State) (tile : Nat) (c : Cmd) (n : Nat) (bad second : Bool) : Eff :=
  let ws := (List.range c.segs).map (s.weightObj tile c)
  let act := s.actObj tile c n
  let badSeg := if act.faults.isEmpty then (ws.findIdx (fun w => !w.faults.isEmpty)) else 0
  let cols := (List.range 128).map (columnBlocks c ws badSeg)
  let anchor := (match ws with | w :: _ => opAnchor w | [] => 0) + opAnchor act
  let sums := (List.range n).map (fun t => cols.map (fun col => dotSum col (rowBlocks c act t)))
  let adds := c.accMode = 1 ∨ c.accMode = 3
  let base := fun (t : Nat) => s.lsRow tile ⟨true, c.accOff.off, false⟩ t false
  let window := sums.any (fun r => r.any (·.2.2))
  let objs := (act :: ws).filter (fun o => !o.faults.isEmpty)
  let causes := objs.map (fun o => Cause.object tile false o.off o.faults 0) ++
    (if window then [.tile E.TILE_WINDOW tile] else []) ++
    (if adds && (List.range n).any (fun t => !tagValid (base t).tag) then [.tile E.TILE_LS_INVALID tile] else []) ++
    (if adds && (List.range n).any (fun t => tagAnchor (base t).tag ≠ signed 11 (unsigned 11 anchor))
      then [.tile E.TILE_ANCHOR tile] else [])
  let whole := bad || (second && !causes.isEmpty)
  let row := fun (t : Nat) (r : List (Int × Bool × Bool)) =>
    let p := whole || r.any (·.2.1)
    let own : LsRow := ⟨mkTag anchor true p, r.map (fun x => (unsigned 128 x.1, false))⟩
    if adds then { lsAdd own (base t) with tag := mkTag anchor true (p || tagPoison (base t).tag) } else own
  let rows := sums.zipIdx.map (fun (r, t) => row t r)
  let (acc, off, _) := c.passOut n
  let fp := rows.flatMap roundRow
  let round := c.accMode = 2 ∨ c.accMode = 3
  let entered := (List.range n).flatMap (fun t => (List.range c.kblk).map (t * rowStride c act.view + ·))
  let blocks := countBlocks act.bytes act.view entered :: ws.map (fun w => codedBlocks w.bytes w.view)
  { causes := causes
    notes := (if sums.any (fun r => r.any (·.2.1)) then [(E.TILE_POISON_IN, tile)] else []) ++
      (if round then overflowNotes tile fp else [])
    bumps := [(R.TILE_ROW_CNT_ROWS, tile, n * c.segs),
      (R.EXPAND_OBJ_CNT_OBJECTS, tile, (ws.filter (fun w => !w.view.marked)).length),
      (R.EXPAND_BLK_CODED_CODED, tile, sumOf (blocks.map (·.1))),
      (R.EXPAND_BLK_RAW_RAW, tile, sumOf (blocks.map (·.2))),
      (R.EXPAND_BYTES_BYTES, tile, c.segs * s.weightLen c tile +
        n * c.kblk * (elemBytes c.fmt + (if c.fmt = 9 then 0 else 1)))]
    work := (if round then writeElems tile ⟨acc, off, false⟩ 4 fp
      else rows.zipIdx.flatMap (fun (r, t) => lsWrite tile ⟨true, off, false⟩ t r)) ++ [.pass tile]
    held := [] }

/-! ### Schedule (R111, R112) -/

/-- The schedule of a pass on one tile: whether it chains, the cycle its first row enters, and its record. -/
structure PassPlan where
  chained : Bool
  first : Nat
  rcd : PassRec
  deriving DecidableEq, Repr

/-- Whether a pass issued at cycle `t` chains onto the tile's last pass with rows (R112, R113). -/
def chains (prev : Option PassRec) (c : Cmd) (t : Nat) : Bool :=
  match prev with
  | some p => p.tiles = c.tileMask && p.fmt = c.fmt && decide (t ≤ p.last)
  | none => false

/-- The plan of a pass of `n` rows issued at cycle `t` on a tile with ramp `ramp` (R111, R112). -/
def passPlan (prev : Option PassRec) (tile : Nat) (c : Cmd) (n ramp t : Nat) : PassPlan :=
  let gap := max n 128
  let ch := chains prev c t
  let first := match ch, prev with
    | true, some p => max (p.last + 1) (max (t + 8) p.lastSeg + 128)
    | _, _ => t + ramp
  let lastSeg := first + (c.segs - 1) * gap
  let last := lastSeg + n - 1
  ⟨ch, first, ⟨tile, c.tileMask, c.fmt, last, lastSeg, last + 280, last + 280 + ramp⟩⟩

/-- Active cycles a pass adds: from its first row to its last result, less those shared with the pass it chains onto
(R129). -/
def passActive (prev : Option PassRec) (p : PassPlan) : Nat :=
  let all := p.rcd.written - p.first + 1
  match p.chained, prev with
  | true, some q => all - (q.written + 1 - p.first)
  | _, _ => all

end Sys2Proof.Machine
end

