-- ==== Sys2Proof/Machine/Sched.lean ====
section
/-! DEFINITION. The Set scheduler: when a command may issue, the issue gate's charge, aborts and kills, and what an
issued command leaves in flight (R76, R77, R82 to R86, R101, R108, R112, R113, R409). -/

namespace Sys2Proof.Machine

/-! ### A Set's own state -/

/-- The scheduler of a Set beyond its registers. -/
def State.st (s : State) (n : Nat) : SetSt := mget SetSt.init s.sets n

/-- Replace it. -/
def State.setSt (s : State) (n : Nat) (x : SetSt) : State := { s with sets := mset SetSt.init n x s.sets }

/-- STATE of R101. -/
def State.setState (s : State) (n : Nat) : Nat := s.rd R.SCHED_STATUS_STATE n

/-- Whether a Set's active image is timed. -/
def State.timed (s : State) (n : Nat) : Bool := s.on R.SCHED_IMG_TIMED n

/-! ### Killing a Set (R85) -/

/-- Discard every uncommitted group: held writes and in-flight work go, the issue point returns, tokens of discarded
commands clear (R85). -/
def State.discard (s : State) (n : Nat) : State :=
  let x := s.st n
  let s := s.setSt n { x with flights := [], passes := [] }
  (s.wr R.SCHED_STATUS_ISSUE_IDX (s.rd R.SCHED_STATUS_COMMIT_IDX n) n).wr R.SCHED_SB_SB
    (s.rd R.SCHED_SB_SB n &&& x.sbHeld) n

/-- A kill (R85, R101): the Set leaves RUNNING or DRAINING for HALTED and remembers what it ran. -/
def State.kill (s : State) (n : Nat) : State :=
  let was := s.setState n
  let s := s.discard n
  let x := s.st n
  let x := if was = 2 ∨ was = 3 then { x with halted := some was, haltBar := s.bar } else x
  (s.setSt n { x with repair := [], why := if was = 5 then x.why else .kill }).wr R.SCHED_STATUS_STATE 5 n

/-- Kill a Set and leave it in HALTED for a reason, whatever it was in (R56, R97, R101). -/
def State.haltFor (s : State) (n : Nat) (why : HaltWhy) : State :=
  let s := s.kill n
  s.setSt n { s.st n with why := why }

/-! ### Flights -/

/-- Every command in flight with its Set. -/
def State.allFlights (s : State) : List Flight := s.sets.flatMap (fun e => e.2.flights)

/-- Regions a command reads. -/
def readRgns (us : List Use) : List Rgn := (us.filter (fun u => u.how.reads)).map (·.rgn)
/-- Regions whose reading is pinned until commit (R108). -/
def pinRgns (us : List Use) : List Rgn := (us.filter (fun u => u.how.pins)).map (·.rgn)
/-- Regions written. -/
def writeRgns (us : List Use) : List Rgn := (us.filter (fun u => u.how.writes)).map (·.rgn)

/-- Whether two lists of regions share a byte. -/
def anyMeets (a b : List Rgn) : Bool := a.any (fun x => b.any x.meets)

/-- The SRAM conditions of R108 against one command in flight, `own` where it belongs to the command's own commit group: there
the written fields of a quantiser context, which R144 exempts from R84, wait for no commit (log 18). -/
def clearOf (us : List Use) (own : Bool) (f : Flight) : Bool :=
  (f.done || (!anyMeets (readRgns us) f.writes && !anyMeets (writeRgns us) (f.reads ++ f.writes))) &&
  !anyMeets (writeRgns (us.filter (fun u => !own || u.how ≠ .context))) f.pins

/-- The unit a command needs (R108). -/
def Cmd.unit (c : Cmd) : TileUnit :=
  if c.op = 2 then .array
  else if c.op = 3 then (if 0x30 ≤ c.vfn ∧ c.vfn ≤ 0x36 then .rotate else .vector)
  else if c.op = 6 then .port
  else .none

/-- The tiles whose unit it needs: a HANDOFF uses the ports of its lowest tile and of its destination (R120). -/
def Cmd.unitTiles (c : Cmd) (set : Nat) : List Nat :=
  if c.op = 6 then [c.tile0 set, bits c.w1 8 0] else if c.unit = .none then [] else c.tiles set

/-- Whether a command in flight holds a unit on one of the tiles. -/
def holdsUnit (u : TileUnit) (ts : List Nat) (f : Flight) : Bool :=
  !f.done && decide (u ≠ .none) && decide (f.unit = u) && ts.any (f.tiles.contains ·)

/-! ### Passes and the gate -/

/-- The record of the last pass with rows on a tile. -/
def SetSt.passOf (x : SetSt) (tile : Nat) : Option PassRec := x.passes.find? (fun p => p.tile = tile)

/-- The plan of an MPASS on its lowest tile if it issues now (R111, R112). -/
def State.planOf (s : State) (set : Nat) (c : Cmd) (n : Nat) : PassPlan :=
  let t0 := c.tile0 set
  passPlan ((s.st set).passOf t0) t0 c n (s.rd R.TILE_CFG_RAMP t0) (s.cycleNow (set / 12))

/-- Cycles of a HANDOFF of `n` rows (R120). -/
def handoffCycles (c : Cmd) (set n : Nat) : Nat :=
  if n = 0 then 1
  else if bits c.w1 8 0 / 96 = set / 12 then 32 + ceilDiv (n * bits c.w3 15 0) 16
  else 96 + ceilDiv (n * bits c.w3 15 0) 8

/-- The duration in cycles of a command charged by tile-cycles, and its energy in fJ (R409): its cycles times its tiles
times the weights of R406; a command without tile-cycles is charged nothing (log 28). -/
def State.charge (s : State) (set : Nat) (c : Cmd) (n : Nat) : Nat × Nat :=
  let w := fun (k : Nat) => s.rd R.PWR_WEIGHT_WEIGHT 0 k
  let m := (c.tiles set).length
  if c.counted ∧ n = 0 then (0, 0)
  else if c.op = 2 then
    let p := s.planOf set c n
    let ramp := s.rd R.TILE_CFG_RAMP (c.tile0 set)
    let act := passActive ((s.st set).passOf (c.tile0 set)) p
    (p.rcd.fin + 1 - s.cycleNow (set / 12), m * (act * w 0 + (if p.chained then ramp else 2 * ramp) * w 1))
  else if c.op = 3 then (vopCycles c.vfn n, m * vopCycles c.vfn n * w 2)
  else (0, 0)

/-- Shares of an energy over the windows that a command's cycles span, from the current one on (R409): windows of 4 µs at the die's
clock, `off` cycles of the current one over. -/
def shares (off mhz cycles energy : Nat) : List Nat :=
  let win := 4 * mhz
  let upTo := fun (i : Nat) => min cycles (i * win - off)
  (List.range (ceilDiv (off + cycles) win)).map (fun i => energy * (upTo (i + 1) - upTo i) / max 1 cycles)

/-- The shares of a charge that a Set's command makes now (R409). -/
def State.sharesOf (s : State) (set cycles energy : Nat) : List Nat :=
  let die := set / 12
  shares (min (4 * s.mhz die - 1) (s.cycleNow die - s.gate.begun.getD die 0)) (s.mhz die) cycles energy

/-- The sum of two lists place by place, as long as the longer. -/
def addLists : List Nat → List Nat → List Nat
  | [], ys => ys
  | xs, [] => xs
  | x :: xs, y :: ys => (x + y) :: addLists xs ys

/-- Whether the gate lets a charge through on a die (R409). -/
def Gate.opens (g : Gate) (die : Nat) (sh : List Nat) : Bool :=
  !g.closed && ((g.forecast.getD die []).zip (sh.zip (g.budget.getD die []))).all
    (fun (f, e, b) => decide (f + e ≤ b))

/-- Charge a die's forecast. -/
def Gate.take (g : Gate) (die : Nat) (sh : List Nat) : Gate :=
  { g with forecast := g.forecast.zipIdx.map (fun (l, i) => if i = die then addLists l sh else l) }

/-- Remember that the gate held a Set's command of an energy, and since when (R409, R412). -/
def Gate.hold (g : Gate) (set energy now : Nat) : Gate :=
  { g with
    asked := g.asked.modify (set / 12) (max energy), shut := true
    heldAt := if mget 0 g.heldAt set = 0 then mset 0 set (now + 1) g.heldAt else g.heldAt }

/-- Ticks by which the gate has delayed a Set in its bar, the command at its issue point included (R412). -/
def Gate.delay (g : Gate) (set now : Nat) : Nat :=
  let t := mget 0 g.heldAt set
  mget 0 g.byGate set + (if t = 0 then 0 else now + 1 - t)

/-- A Set's command issues: its delay is kept, and whether it was late by the gate alone (R412). -/
def Gate.release (g : Gate) (set now : Nat) (late : Bool) : Gate :=
  { g with byGate := mset 0 set (g.delay set now) g.byGate, heldAt := mset 0 set 0 g.heldAt, late := g.late || late }

/-- A Set starts a bar or pass: the gate has not delayed it (R412). -/
def Gate.afresh (g : Gate) (set : Nat) : Gate := { g with byGate := mset 0 set 0 g.byGate, heldAt := mset 0 set 0 g.heldAt }

/-- Count cycles of a unit of a tile in the current window (R406). -/
def Gate.count (g : Gate) (k n : Nat) : Gate := { g with cycles := mset 0 k (mget 0 g.cycles k + n) g.cycles }

/-! ### Whether a command may issue (R76) -/

/-- A command that may issue: its Set, words, index, count, the first index of its group, whether its group has aborted
once, and whether it is malformed. -/
structure Go where
  set : Nat
  c : Cmd
  idx : Nat
  n : Nat
  grp : Nat
  second : Bool
  bad : Bool
  deriving DecidableEq, Repr

/-- Whether the package holds a rank that the weights of its current region do not serve: it needs a fill before it serves that
rank, and issues nothing until then (R463, log 205). -/
def State.wrongRank (s : State) : Bool :=
  match s.weights.serves, s.rank with
  | some a, some b => decide (a ≠ b)
  | _, _ => false

/-- Whether a partition's Sets are saved, or on their way there or back (R395). -/
def State.preempted (s : State) (p : Nat) : Bool :=
  s.rd R.PART_STATUS_STATE p = 3 || s.rd R.PART_STATUS_STATE p = 4 || s.rd R.PART_STATUS_STATE p = 5

/-- Whether a Set's partition runs thread programs in place of Figures (R341), or its Sets are saved (R394, R395). -/
def State.barred (s : State) (set : Nat) : Bool :=
  (s.ownerOf set).any (fun p => s.on R.FAB_PART_CFG_QCOMPAT 0 p || s.preempted p)

/-- The command at a Set's issue point, while it runs, no repair step holds it, and the package may issue (R72, R76, R97, R101,
R178). -/
def State.nextCmd (s : State) (set : Nat) : Option Cmd :=
  let i := s.rd R.SCHED_STATUS_ISSUE_IDX set
  if s.setState set = 2 ∧ s.notReady = false ∧ s.wrongRank = false ∧ s.barred set = false ∧
      (s.st set).repair = [] ∧ i < s.rd R.SCHED_STREAM_LEN_LEN set then
    some (s.cmdAt (s.rd R.SCHED_STREAM_ADDR set + 32 * i))
  else none

/-- First index of the commit group of the next command (R83). -/
def State.groupOf (s : State) (set : Nat) : Nat :=
  match (s.st set).flights.getLast? with
  | some f => if f.cp then f.idx + 1 else f.grp
  | none => s.rd R.SCHED_STATUS_ISSUE_IDX set

/-- Position, token and shape register (R76). -/
def State.inputsReady (s : State) (set : Nat) (c : Cmd) : Bool :=
  (!s.timed set || decide ((s.st set).start + c.pos ≤ s.tempo.now)) &&
  (match c.wsb with | some b => (s.rd R.SCHED_SB_SB set).testBit b | none => true) &&
  (match c.sh with | some k => (s.st set).loaded.testBit k | none => true)

/-- Whether a command's tiles can accept it (R108, R112, R113). -/
def State.tilesReady (s : State) (set : Nat) (c : Cmd) (n : Nat) : Bool :=
  if c.counted ∧ n = 0 then true
  else
    let us := s.uses set c n
    let fs := s.allFlights
    let grp := s.groupOf set
    let chain := c.op = 2 ∧ chains ((s.st set).passOf (c.tile0 set)) c (s.cycleNow (set / 12))
    s.sets.all (fun e => e.2.flights.all (fun f => clearOf us (decide (e.1 = set ∧ f.grp = grp)) f)) &&
      (decide chain || !fs.any (holdsUnit c.unit (c.unitTiles set)))

/-- The tile SRAM that the legality of a command is judged from: the first headers of an MPASS (R165), word 0 of a QUANT's
context (R144). -/
def Cmd.judgedFrom (c : Cmd) (set n : Nat) : List Rgn :=
  if n = 0 then []
  else if c.op = 2 then (c.tiles set).flatMap (fun t => [⟨t, false, c.spW, c.spW + 32⟩, ⟨t, false, c.spA, c.spA + 32⟩])
  else if c.op = 3 ∧ 0x20 ≤ c.vfn ∧ c.vfn ≤ 0x29 then
    (c.tiles set).map (fun t => ⟨t, false, c.src1.off, c.src1.off + 8⟩)
  else []

/-- Whether every command that still writes what the legality of a command is judged from has completed (R108): such a command
is held until then, and judged only then. -/
def State.settled (s : State) (set : Nat) (c : Cmd) (n : Nat) : Bool :=
  s.allFlights.all (fun f => f.done || !anyMeets (c.judgedFrom set n) f.writes)

/-- Whether no row of the command table names what the words spell: a reserved OP, or a VOP of a reserved VFN (R74, R124,
R143). -/
def Cmd.unknown (c : Cmd) : Bool :=
  !((decide (1 ≤ c.op) && decide (c.op ≤ 0x0A)) || c.op = 0x3F) || (c.op = 3 && !vfnLegal c.vfn)
/-- A zero-count command reads nothing, meets no SRAM error, and no gate holds it (R113). -/
def Go.idle (g : Go) : Bool := g.c.counted && decide (g.n = 0)

/-- The next command of a Set as it may issue now, if it is one the event names (R76, R84). Words that spell no command have no
event of their own: whichever issue of the Set comes first takes them, as malformed (R13, log 190). -/
def State.ready (s : State) (set : Nat) (is : Cmd → Bool) : Option Go :=
  match s.nextCmd set with
  | none => none
  | some c =>
    let n := s.count set c
    let grp := s.groupOf set
    let older := (s.st set).flights.filter (fun f => f.grp = grp)
    let bad := s.malformed set c n older
    if (is c ∨ c.unknown = true) ∧ s.inputsReady set c = true ∧ s.settled set c n = true ∧
        (bad ∨ s.tilesReady set c n = true) then
      some ⟨set, c, s.rd R.SCHED_STATUS_ISSUE_IDX set, n, grp, (s.st set).aborted.contains grp, bad⟩
    else none

/-! ### Issue -/

/-- Whether a Set's lateness goes beyond its slack by the gate alone (R100, R412): it would not without the gate's delay, C is at or
above DECL, and no re-run, plane, holdover or installation of R100 has a part in it (log 210). -/
def State.gateLate (s : State) (set late : Nat) : Bool :=
  let slack := s.rd R.SCHED_SLACK_TICKS set
  decide (slack < late) && decide (late - s.gate.delay set s.tempo.now ≤ slack) && (s.st set).aborted.isEmpty && !s.fab.low &&
    !s.stranded && decide (s.rd R.PWR_FLOOR_DECL ≤ s.rd R.PWR_CAP_EFFECTIVE)

/-- Count and record the lateness of an issue (R77), and the gate's part in it (R412). -/
def State.noteLate (s : State) (set : Nat) (c : Cmd) : State :=
  if s.timed set then
    let x := s.st set
    let late := s.tempo.now - (x.start + c.pos)
    let s := { s with gate := s.gate.release set s.tempo.now (s.gateLate set late) }
    let s := s.setSt set { x with late := max x.late late }
    let s := s.wr R.SCHED_LATE_MAX_EVER (min 0xFFFF (max late (s.rd R.SCHED_LATE_MAX_EVER set))) set
    if s.rd R.SCHED_CTL_LATE_LIM set < late then s.raise E.SCHED_LATE set [late] else s
  else s

/-- Count the cycles of a VOP that starts now on a tile: those in which neither the vector unit nor Pirouette was busy before
(R129). -/
def State.countVec (s : State) (set tile cycles : Nat) : State :=
  let x := s.st set
  let t0 := s.cycleNow (set / 12)
  let upTo := mget 0 x.vecTo tile
  let n := t0 + cycles - max t0 upTo
  let s := { s with gate := s.gate.count (3 * tile + 2) n }
  (s.bump R.TILE_VEC_CYC_VEC n tile).setSt set { x with vecTo := mset 0 tile (max upTo (t0 + cycles)) x.vecTo }

/-- Count the cycles of an issued command in its tiles' activity counters, and keep the record of a pass (R111 to R113,
R129): a chained pass takes the ramp-down of the one before it off the count. -/
def State.countCycles (s : State) (g : Go) : State :=
  let ts := g.c.tiles g.set
  if g.n = 0 then s
  else if g.c.op = 2 then
    let p := s.planOf g.set g.c g.n
    let x := s.st g.set
    let act := passActive (x.passOf (g.c.tile0 g.set)) p
    let s := ts.foldl (fun t i =>
      let ramp := t.rd R.TILE_CFG_RAMP i
      let t := { t.bump R.TILE_ACT_CYC_ACTIVE act i with gate := t.gate.count (3 * i) act }
      if p.chained then t
      else { t.bump R.TILE_RAMP_CYC_RAMPS (2 * ramp) i with gate := t.gate.count (3 * i + 1) (2 * ramp) }) s
    let recs := ts.map (fun i => { p.rcd with tile := i })
    s.setSt g.set { x with passes := (x.passes.filter (fun q => !ts.contains q.tile)) ++ recs }
  else if g.c.op = 3 then ts.foldl (fun t i => t.countVec g.set i (vopCycles g.c.vfn g.n)) s
  else s

/-- Put an issued command in flight and move the issue point; END starts draining (R76, R101). -/
def State.launch (s : State) (g : Go) (kind : FlightKind) (work : List Wk) (held : List Held) : State :=
  let us := if g.bad then [] else s.uses g.set g.c g.n
  let quiet : Bool := g.bad || (g.c.counted && decide (g.n = 0))
  let f : Flight := {
    idx := g.idx, grp := g.grp, cp := g.c.cp, ssb := g.c.ssb, wsb := g.c.wsb, sh := g.c.sh,
    unit := if quiet then .none else g.c.unit,
    tiles := if quiet then [] else g.c.unitTiles g.set,
    reads := readRgns us, pins := pinRgns us, writes := writeRgns us,
    kind := kind, work := work, held := held, stamp := s.tempo.now,
    chained := g.c.op = 2 && !quiet && (s.planOf g.set g.c g.n).chained, done := false }
  let s := if quiet then s else s.countCycles g
  let x := s.st g.set
  let s := (s.setSt g.set { x with flights := x.flights ++ [f] }).wr R.SCHED_STATUS_ISSUE_IDX (g.idx + 1) g.set
  if g.c.op = 0x3F then s.wr R.SCHED_STATUS_STATE 3 g.set else s

/-- The repair items of the faulted objects of an abort that hold a FETCH record (R176, R177). -/
def repairItems (recs : List FetchRec) (cs : List Cause) : List RepairItem :=
  cs.filterMap (fun c => match c with
    | .object t acc o _ crc => (findRec recs t acc o).map (fun r => ⟨r.tile, r.off, r.src, r.len, crc⟩)
    | _ => none)

/-- A first abort (R86): the Set kills its uncommitted groups, starts the repair of its faulted objects and runs on from
the oldest uncommitted group. -/
def State.abortOnce (s : State) (g : Go) (cs : List Cause) : State :=
  let s := (s.raise E.SCHED_ABORT g.set [g.idx]).raiseCauses g.set (s.st g.set).recs cs
  let s := s.discard g.set
  let x := s.st g.set
  (s.setSt g.set { x with aborted := x.aborted ++ [g.grp], repair := repairItems x.recs cs }).wr
    R.SCHED_STATUS_STATE 2 g.set

/-- Record a second abort: the group will commit poisoned (R86). -/
def State.abortTwice (s : State) (g : Go) (cs : List Cause) : State :=
  let s := (s.raise E.SCHED_ABORT g.set [g.idx]).raiseCauses g.set (s.st g.set).recs cs
  let x := s.st g.set
  s.setSt g.set { x with failed := if x.failed.contains g.grp then x.failed else x.failed ++ [g.grp] }

/-- Issue a command whose effect is known (R76, R82, R86): it goes in flight; or it aborts; or, after its group's abort, it
runs on with every working output marked. That the counters of a pass that aborts the first time count its rows, and no
ACTIVE or RAMPS cycle, is the model's choice (DESIGN CHOICE, log 195). -/
def State.issue (s : State) (g : Go) (kind : FlightKind) (e : Eff) : State :=
  let s := (s.noteLate g.set g.c).applyNotes e
  if e.causes = [] then s.launch g kind e.work e.held
  else if g.second then (s.abortTwice g e.causes).launch g kind (e.work.map poisonWk) e.held
  else s.abortOnce g e.causes

/-- Issue the next command of a Set if it is one the event names and may issue: a malformed one aborts (R13), the gate
may hold it (R76, R409; a command of no rows is never held, R113), otherwise its effect is taken. `eff` gives the effect of the command in a state. -/
def State.issueEvent (s : State) (set : Nat) (is : Cmd → Bool) (eff : State → Go → State × FlightKind × Eff) : State :=
  match s.ready set is with
  | none => s
  | some g =>
    if g.bad then s.issue g .plain (.abort .malformed)
    else
      let (cyc, en) := s.charge set g.c g.n
      let sh := s.sharesOf set cyc en
      if g.idle = false ∧ (s.gate.closed = true ∨ (en ≠ 0 ∧ s.gate.opens (set / 12) sh = false)) then
        { s with gate := s.gate.hold set en s.tempo.now }
      else
        let s := { s with gate := s.gate.take (set / 12) sh }
        let (s, k, e) := eff s g
        s.issue g k e

/-! ### SRAM errors (R107) -/

/-- Whether the reads of a tile met an uncorrectable error. -/
def eccBad (x : Ecc) (tile : Nat) : Bool := x.uncorr.getLsbD (tile % 8)

/-- The causes and flags of the ECC outcome of a command on the tiles it reads (R107). -/
def eccEff (tiles : List Nat) (x : Ecc) : Eff :=
  { Eff.none with
    causes := (tiles.filter (eccBad x)).map (fun t => .tile E.TILE_ECC_UNCORR t)
    notes := (tiles.filter (fun t => x.corr.getLsbD (t % 8))).map (fun t => (E.TILE_ECC_CORR, t)) }

/-- The partition of a Set; 0 where no locked partition owns it. -/
def State.partOf (s : State) (set : Nat) : Nat := (s.ownerOf set).getD 0

end Sys2Proof.Machine
end

