-- ==== Sys2Proof/Machine/Commands.lean ====
section
/-! DEFINITION. The Set commands other than vector operations and FCOPY: what each does when it issues (R74, R75, R81,
R89, R90, R110, R120, R164, R172). -/

namespace Sys2Proof.Machine

/-- Whether a command is of a class. -/
def isOp (op : Nat) (c : Cmd) : Bool := c.op = op

/-! ### FETCH (R164) -/

/-- The bytes a Set reads at a device address, through the KV view or directly (R241, R388), or why it may not. -/
def State.readFor (s : State) (set a n : Nat) : Except Cause (List MarkByte) :=
  if inView a then match s.viewRead (s.partOf set) a n with
    | some bs => .ok bs
    | none => .error .view
  else if (s.ownerOf set).isSome ∧ s.mayRead (s.partOf set) a n = true then .ok (s.devMarked a n)
  else .error .access

/-- A byte list that could not be read, each byte free and marked (R86, log 22). -/
def unread (key n : Nat) : List MarkByte := (List.range n).map (fun i => (Config.unreadByte (key + i), true))

/-- One row of a FETCH: its bytes land on a tile, and its header is checked (R164, R175): `slot` is row 0's SLOT_LEN, none
where that header is not trusted (R173). The header bytes that a LEN below 32 leaves out are taken as 0 (DESIGN CHOICE, log
201). -/
def State.fetchRow (s : State) (set : Nat) (obj : Nat) (slot : Option Nat) (len tile off a : Nat) : Eff :=
  let key := tileKey tile false off
  match s.readFor set a len with
  | .error c => { Eff.none with causes := [c], work := [.sram key (unread key len)] }
  | .ok bs =>
    let h := objHdr ((bs.take 32).map (·.1))
    let fs := if obj = 2 ∨ (bs.take 32).any (·.2) = true then []
      else hdrFaults h ⟨none, some obj, none, false, some len, false, 0⟩ ++
        (if slot.any (· ≠ h.slotLen) then [fMism] else []) ++ (if slot = some 0 then [fCode] else [])
    { Eff.none with
      causes := if fs = [] then [] else [.object tile false off (fs.eraseDups.map (fun f => (f, 0xFFFF))) 0]
      work := [.sram key bs] }

/-- The rows a FETCH moves: tile, scratchpad offset and source address of each (R164). -/
def fetchRows (c : Cmd) (set n stride : Nat) : List (Nat × Nat × Nat) :=
  let len := bits c.w3 31 0
  (c.tiles set).zipIdx.flatMap (fun (t, i) => (List.range n).map (fun k =>
    (t, bits c.w2 31 0 + k * len, bits c.w1 47 0 + (i * n + k) * stride)))

/-- The rows of a FETCH with the SLOT_LEN its headers must carry; a stride of 0 in row 0 leaves one row (R164). -/
def State.fetchPlan (s : State) (set : Nat) (c : Cmd) (n : Nat) : List (Nat × Nat × Nat) × Option Nat :=
  let len := bits c.w3 31 0
  let obj := bits c.w3 39 32
  if obj = 2 then (fetchRows c set n len, none)
  else match s.readFor set (bits c.w1 47 0) len with
    | .error _ => (fetchRows c set n len, none)
    | .ok bs =>
      let slot := (objHdr ((bs.take 32).map (·.1))).slotLen
      if (bs.take 32).any (·.2) then (fetchRows c set n len, none)
      else if slot = 0 then ((fetchRows c set n 0).take 1, some 0)
      else (fetchRows c set n slot, some slot)

/-- FETCH with its count: the effect, and the records of its rows (R164, R177). -/
def State.fetchEff (s : State) (set : Nat) (c : Cmd) (n : Nat) : Eff × List FetchRec :=
  let len := bits c.w3 31 0
  let (rows, slot) := s.fetchPlan set c n
  let effs := rows.map (fun (t, o, a) => s.fetchRow set (bits c.w3 39 32) slot len t o a)
  (Eff.all effs, rows.map (fun (t, o, a) => ⟨t, o, a, len⟩))

/-- FETCH (R164, R177). -/
def fetchEffect (set : Nat) (s : State) : State :=
  s.issueEvent set (isOp 1) (fun s g =>
    if g.idle then (s, .plain, .none)
    else
      let (e, recs) := s.fetchEff set g.c g.n
      let x := s.st set
      (s.setSt set { x with recs := x.recs ++ recs }, .plain, e))

/-- FETCH. -/
def execFetch (set : SetId) (s : State) : Res := .next (fetchEffect set s)

/-! ### MPASS (R110 to R119) -/

/-- MPASS (R110); one of no rows completes and is counted in PASSES alone (R113, R129). -/
def mpassEffect (set : Nat) (x : Ecc) (s : State) : State :=
  s.issueEvent set (isOp 2) (fun s g =>
    if g.idle then (s, .plain, { Eff.none with work := (g.c.tiles set).map (.pass ·) })
    else (s, .plain, Eff.and (eccEff (g.c.tiles set) x)
      (Eff.all ((g.c.tiles set).map (fun t => s.passEff t g.c g.n (g.second && eccBad x t) g.second)))))

/-- MPASS. -/
def execMpass (set : SetId) (x : Ecc) (s : State) : Res := .next (mpassEffect set x s)

/-! ### CHECK (R172) -/

/-- CHECK on one tile: it writes nothing; every fault aborts (R172, R173, R175). -/
def State.checkEff (s : State) (c : Cmd) (tile : Nat) : Eff :=
  let off := bits c.w1 31 0
  let ident := bits c.w3 31 0
  let o := s.sram tile false off (bits c.w2 31 0)
  let v := viewObj o ⟨none, none, none, false, some (bits c.w2 31 0), true, ident⟩
  let k := codedBlocks o v
  { Eff.none with
    causes := if v.faults.isEmpty then [] else [.object tile false off v.faults ident]
    bumps := [(R.EXPAND_OBJ_CNT_OBJECTS, tile, if v.marked then 0 else 1),
      (R.EXPAND_BLK_CODED_CODED, tile, k.1), (R.EXPAND_BLK_RAW_RAW, tile, k.2)] }

/-- CHECK (R172). -/
def checkEffect (set : Nat) (x : Ecc) (s : State) : State :=
  s.issueEvent set (isOp 4) (fun s g =>
    (s, .plain, Eff.and (eccEff (g.c.tiles set) x) (Eff.all ((g.c.tiles set).map (s.checkEff g.c)))))

/-- CHECK. -/
def execCheck (set : SetId) (x : Ecc) (s : State) : Res := .next (checkEffect set x s)

/-! ### STORE (R75, R242) -/

/-- One row of a STORE: the writes it holds until commit, or why it may not write (R82, R242, R388). -/
def State.storeRow (s : State) (set a : Nat) (data : List MarkByte) : Eff :=
  let p := s.partOf set
  if inView a then match s.viewStore p a data with
    | some hs => { Eff.none with held := hs }
    | none => .abort .view
  else if (s.ownerOf set).isSome ∧ s.inPart p a data.length = true then { Eff.none with held := [.mem a data] }
  else .abort .access

/-- STORE with its count (R75): tile i supplies destination rows i × R to i × R + R − 1. -/
def State.storeEff (s : State) (g : Go) (x : Ecc) : Eff :=
  let len := bits g.c.w3 31 0
  Eff.all ((g.c.tiles g.set).zipIdx.flatMap (fun (t, i) => (List.range g.n).map (fun k =>
    let bs := s.sram t (g.c.w2.testBit 32) (bits g.c.w2 31 0 + k * len) len
    let bs := if g.second && eccBad x t then bs.map (fun b => (b.1, true)) else bs
    s.storeRow g.set (bits g.c.w1 47 0 + (i * g.n + k) * len) bs)))

/-- STORE (R75, R82). -/
def storeEffect (set : Nat) (x : Ecc) (s : State) : State :=
  s.issueEvent set (isOp 5) (fun s g =>
    if g.idle then (s, .plain, .none) else (s, .plain, Eff.and (eccEff (g.c.tiles set) x) (s.storeEff g x)))

/-- STORE. -/
def execStore (set : SetId) (x : Ecc) (s : State) : Res := .next (storeEffect set x s)

/-! ### HANDOFF (R120) -/

/-- HANDOFF with its count: COLS columns and the row tag of each row (R120). -/
def State.handoffEff (s : State) (g : Go) (x : Ecc) : Eff :=
  let src := g.c.tile0 g.set
  let dst := bits g.c.w1 8 0
  let bad := g.second && eccBad x src
  let work := (List.range g.n).flatMap (fun r =>
    let so := bits g.c.w2 31 0 + 2048 * r
    let d := bits g.c.w2 63 32 + 2048 * r
    let bs := s.sram src true so (16 * bits g.c.w3 15 0)
    [.sram (tileKey dst true d) (if bad then bs.map (fun b => (b.1, true)) else bs),
     .tag (tagKey dst (d / 2048)) (s.tag src (so / 2048))])
  let own := match s.ownerOf g.set with
    | some p => (s.rd R.PART_SETS_SETS p).testBit (dst / 8)
    | none => false
  { Eff.none with causes := if own then [] else [.access], work := if own then work else [] }

/-- HANDOFF (R120). -/
def handoffEffect (set : Nat) (x : Ecc) (s : State) : State :=
  s.issueEvent set (isOp 6) (fun s g =>
    if g.idle then (s, .plain, .none) else (s, .plain, Eff.and (eccEff [g.c.tile0 set] x) (s.handoffEff g x)))

/-- HANDOFF. -/
def execHandoff (set : SetId) (x : Ecc) (s : State) : Res := .next (handoffEffect set x s)

/-! ### WAIT (R81) -/

/-- The stamp of a WAIT's deadline; none in an untimed image with DEADLINE 0 (R81). -/
def State.waitDeadline (s : State) (set : Nat) (c : Cmd) : Option Nat :=
  let d := bits c.w2 31 0
  if s.timed set then
    some ((s.st set).start + (if d = 0 then s.rd R.TEMPO_BAR_CFG_BAR_LEN * 1024 else c.pos + d))
  else if d = 0 then none else some (s.tempo.now + d)

/-- WAIT (R81): it completes by COMMAND_COMPLETE or ARR_TIMEOUT. -/
def waitEffect (set : Nat) (s : State) : State :=
  s.issueEvent set (isOp 8) (fun s g =>
    (s, .wait (bits g.c.w1 4 0) (bits g.c.w1 63 32) (s.waitDeadline set g.c), .none))

/-- WAIT. -/
def execWait (set : SetId) (s : State) : Res := .next (waitEffect set s)

/-! ### Shape cells (R88 to R90) -/

/-- Whether a shape cell's CRC matches its words 0 to 6 (R88). -/
def State.cellGood (s : State) (a : Nat) : Bool := crc32c (s.devBytes a 56) = s.devNat (a + 56) 4

/-- Whether an SREAD finds its cell stale (R90). -/
def State.cellStale (s : State) (a : Nat) : Bool :=
  (bits (s.devWord (a + 16)) 27 20 = 0 && decide (s.devWord (a + 8) ≠ s.bar)) || !s.cellGood a || s.lineMark a

/-- SREAD of a cell into shape register `k` (R90). -/
def State.sreadEff (s : State) (set a k : Nat) : Eff :=
  if inView a then { Eff.none with causes := [.view], work := [.shape k 0 0] }
  else if (s.ownerOf set).isNone ∨ s.mayRead (s.partOf set) a 64 = false then
    { Eff.none with causes := [.access], work := [.shape k 0 0] }
  else
    let w := s.devWord a
    let stale := s.cellStale a
    { Eff.none with
      notes := if stale then [(E.SCHED_SHAPE_STALE, set)] else []
      work := [.shape k (if stale then 0 else bits w 31 0) (bits w 63 32)] }

/-- SREAD (R90). -/
def sreadEffect (set : Nat) (s : State) : State :=
  s.issueEvent set (isOp 9) (fun s g => (s, .plain, s.sreadEff set (bits g.c.w1 47 0) (bits g.c.w2 2 0)))

/-- SREAD. -/
def execSread (set : SetId) (s : State) : Res := .next (sreadEffect set s)

/-- The 64 bytes of a shape cell written with a value and the 24 bytes of AUX (R88, R89). -/
def State.cellImage (s : State) (a value bar writer : Nat) (aux : List Byte) : List Byte :=
  let body := toLE 4 value ++ s.devBytes (a + 4) 4 ++ toLE 8 bar ++
    toLE 8 (writer + bits (s.devWord (a + 16)) 27 20 * 2 ^ 20) ++ toLE 8 s.stamp ++ aux
  body ++ toLE 4 (crc32c body) ++ toLE 4 0

/-- The 64 bytes of a shape cell written with a value (R88, R89): AUX stays (log 24). -/
def State.cellBytes (s : State) (a value bar writer : Nat) : List Byte :=
  s.cellImage a value bar writer (s.devBytes (a + 32) 24)

/-- A cell write at its commit (R89): `mark` poisons the line. -/
def State.cellWrite (s : State) (a value bar writer : Nat) (mark : Bool) : State :=
  s.devWrite a ((s.cellBytes a value bar writer).map (fun b => (b, mark)))

/-- SWRITE: a value above MAX is refused (R89). -/
def State.swriteEff (s : State) (g : Go) (x : Ecc) : Eff :=
  let a := bits g.c.w1 47 0
  let sp := g.c.w2.testBit 63
  let src := s.sram (g.c.tile0 g.set) false (bits g.c.w2 31 0) 4
  let v := if sp then ofLE (src.map (·.1)) else bits g.c.w2 31 0
  let mark := sp && (src.any (·.2) || (g.second && eccBad x (g.c.tile0 g.set)))
  let ecc := if sp then eccEff [g.c.tile0 g.set] x else .none
  Eff.and ecc (
    if inView a then .abort .view
    else if (s.ownerOf g.set).isNone ∨ s.inPart (s.partOf g.set) a 64 = false then .abort .access
    else if s.devNat (a + 4) 4 < v then .abort .bound
    else { Eff.none with held := [.cell a v mark] })

/-- SWRITE (R89). -/
def swriteEffect (set : Nat) (x : Ecc) (s : State) : State :=
  s.issueEvent set (isOp 0x0A) (fun s g => (s, .plain, s.swriteEff g x))

/-- SWRITE. -/
def execSwrite (set : SetId) (x : Ecc) (s : State) : Res := .next (swriteEffect set x s)

/-! ### END (R75, R101) -/

/-- END: the Set drains (R101). -/
def endBarEffect (set : Nat) (s : State) : State := s.issueEvent set (isOp 0x3F) (fun s _ => (s, .endOfBar, .none))

/-- END. -/
def execEndBar (set : SetId) (s : State) : Res := .next (endBarEffect set s)

end Sys2Proof.Machine
end

