-- ==== Sys2Proof/Machine/Rings.lean ====
section
/-! DEFINITION. Completion rings, their backlogs and interrupts, management events and request completions (R358, R367,
R372 to R383). -/

namespace Sys2Proof.Machine

/-! ### Functions and access -/

/-- The function that serves a group: 0 the PF, v VF v (R355, R356). -/
def State.fnOf (s : State) (g : Nat) : Nat := if s.on R.PCIE_GRP_CTL_VF 0 g then g + 1 else 0

/-- Whether a function may reach the host at all (R358). -/
def State.fnOk (s : State) (fn : Nat) : Bool := s.host.bme.testBit fn && !s.host.d3.testBit fn

/-- Whether the function that serves a group may reach the host at all (R358). -/
def State.busOk (s : State) (g : Nat) : Bool := s.fnOk (s.fnOf g)

/-- Host memory read for a group, in the name of its function (R355). -/
def State.fetch (s : State) (g addr n : Nat) : State := s.emit (.hostFetch (s.fnOf g) addr n)

/-- Whether a group takes requests and writes entries (R358, R386). -/
def State.hostOk (s : State) (g : Nat) : Bool := s.on R.PCIE_GRP_CTL_EN 0 g && s.busOk g

/-- The record of a completion ring. -/
def State.cq (s : State) (g c : Nat) : CqSt := mget CqSt.init s.host.cqs (16 * g + c)

/-- Replace it. -/
def State.setCq (s : State) (g c : Nat) (x : CqSt) : State :=
  { s with host := { s.host with cqs := mset CqSt.init (16 * g + c) x s.host.cqs } }

/-! ### Advanced Error Reporting (R359, R360) -/

/-- AER logs an error. -/
def State.logAer (s : State) (e : AerErr) : State := { s with host := { s.host with aer := s.host.aer ++ [e] } }

/-- AER logs what a read of host memory met. -/
def State.aerRead (s : State) (d : HostData) : State := match d with
  | .data _ => s
  | .poisoned _ => s.logAer .poisoned
  | .failed => s.logAer .unsuccessful

/-! ### Interrupts (R382, R383) -/

/-- The function whose MSI-X table holds a group's vector, and its entry there (R357, R382). -/
def State.msixEntry (s : State) (g v : Nat) : Nat × Nat :=
  if s.fnOf g = 0 then (0, 64 * g + v) else (s.fnOf g, v)

/-- The key of an entry of a function's MSI-X table. -/
def msixKey (e : Nat × Nat) : Nat := 2048 * e.1 + e.2

/-- The message of a table entry goes out, if its function may reach the host (R357, R358). -/
def State.message (s : State) (e : Nat × Nat) : State :=
  let x := mget (0, 0) s.host.msixTab (msixKey e)
  if s.fnOk e.1 then s.emit (.msix e.1 e.2 x.1 x.2) else s

/-- Send an MSI-X message of a group's vector, or set its pending bit while it is masked; a function that may not reach
the host sends none (R358, R382, R383). -/
def State.signal (s : State) (g v : Nat) : State :=
  let k := msixKey (s.msixEntry g v)
  if s.host.unmasked.contains k then s.message (s.msixEntry g v)
  else if s.host.pba.contains k then s
  else { s with host := { s.host with pba := s.host.pba ++ [k] } }

/-- Cover every unsignalled entry of a CQ with one message. -/
def State.signalCq (s : State) (g c : Nat) : State :=
  (s.setCq g c { s.cq g c with unsig := 0, oldest := 0 }).signal g (s.rd R.PCIE_CQ_IRQ_VEC 0 g c)

/-- Send the message that a change of COUNT or TIME makes due: as many entries unsignalled as COUNT, or TIME 0 (R383). -/
def State.recount (s : State) (g c : Nat) : State :=
  let n := (s.cq g c).unsig
  if s.on R.PCIE_CQ_IRQ_IEN 0 g c = true ∧ 0 < n ∧ (s.rd R.PCIE_CQ_IRQ_COUNT 0 g c ≤ n ∨ s.rd R.PCIE_CQ_IRQ_TIME 0 g c = 0) then
    s.signalCq g c
  else s

/-- Account for one entry written to a ring (R383). -/
def State.noteEntry (s : State) (g c : Nat) : State :=
  if s.on R.PCIE_CQ_IRQ_IEN 0 g c then
    let x := s.cq g c
    let s := s.setCq g c { x with unsig := x.unsig + 1, oldest := if x.unsig = 0 then s.tempo.now else x.oldest }
    if s.rd R.PCIE_CQ_IRQ_COUNT 0 g c ≤ x.unsig + 1 ∨ s.rd R.PCIE_CQ_IRQ_TIME 0 g c = 0 then s.signalCq g c else s
  else s

/-! ### Writing entries (R372, R376, R378, R380) -/

/-- Entries a ring of a CQ holds. -/
def State.cqSize (s : State) (g c : Nat) : Nat := 2 ^ s.rd R.PCIE_CQ_CFG_LOG2N 0 g c

/-- Unreleased entries of a CQ. -/
def State.cqHeld (s : State) (g c : Nat) : Nat :=
  (s.rd R.PCIE_CQ_CFG_TAIL 0 g c + s.cqSize g c - s.rd R.PCIE_CQ_CFG_HEAD 0 g c) % s.cqSize g c

/-- KIND of an entry. -/
def kindOf (w : List Nat) : Nat := bits (w.headD 0) 7 1

/-- Write an entry to the ring, at BASE + 128 * slot, in two posted writes, bytes 8 to 127 and then word 0: PHASE, HQ, SQHD and STAMP are
set as it is written (R364, R372, R376, R378). -/
def State.cqWrite (s : State) (g c : Nat) (w : List Nat) : State :=
  let t := s.rd R.PCIE_CQ_CFG_TAIL 0 g c
  let ph := s.rd R.PCIE_CQ_CFG_PHASE 0 g c
  let w0 := bits (w.headD 0) 32 1 * 2 + ph + b2n s.holdover * 2 ^ 33 + s.rd R.PCIE_GRP_SQ_CFG_HEAD 0 g * 2 ^ 48
  let a := 4096 * s.rd R.PCIE_CQ_BASE_BASE 0 g c + 128 * t
  let s := (s.emit (.cqWrite (s.fnOf g) (a + 8) (s.stamp :: w.drop 2) false)).emit (.cqWrite (s.fnOf g) a [w0] false)
  let n := (t + 1) % s.cqSize g c
  let s := (s.wr R.PCIE_CQ_CFG_TAIL n 0 g c).wr R.PCIE_CQ_CFG_PHASE (if n = 0 then 1 - ph else ph) 0 g c
  s.noteEntry g c

/-- Slots of a CQ's backlog. -/
def State.blSize (s : State) (g c : Nat) : Nat :=
  if s.rd R.PCIE_CQ_BACKLOG_BLOG2N 0 g c = 0 then 0 else 2 ^ s.rd R.PCIE_CQ_BACKLOG_BLOG2N 0 g c

/-- Whether an entry waits in firmware memory when the backlog is full: completions and sequence events (R380). -/
def waits (w : List Nat) : Bool := kindOf w = 1 || kindOf w = 3

/-- Drop an entry (R358, R362, R380). -/
def State.cqDrop (s : State) (g : Nat) : State := (s.bump R.PCIE_GRP_DROP_DROPPED 1 0 g).raise E.PCIE_CQ_DROP 0 [g]

/-- Put an entry in the free slot behind those of the backlog. -/
def State.toBacklog (s : State) (g c : Nat) (w : List Nat) : State :=
  let x := s.cq g c
  let a := s.rd R.PCIE_CQ_BACKLOG_BASE 0 g c + 128 * ((x.blHead + x.blCount) % s.blSize g c)
  (s.setCq g c { x with blCount := x.blCount + 1 }).devSet a (w.flatMap (toLE 8))

/-- Put an entry behind the ring: into the backlog, or firmware memory, or drop it (R380). -/
def State.cqDefer (s : State) (g c : Nat) (w : List Nat) : State :=
  let x := s.cq g c
  if x.waiting = [] ∧ x.blCount < s.blSize g c then
    (s.toBacklog g c w).raise E.PCIE_CQ_BACKLOG 0 [g, c]
  else if waits w then s.setCq g c { x with waiting := x.waiting ++ [w] }
  else s.cqDrop g

/-- Post an entry to a CQ (R358, R362, R380). -/
def State.cqPost (s : State) (g c : Nat) (w : List Nat) : State :=
  let x := s.cq g c
  if s.hostOk g = false ∨ s.on R.PCIE_CQ_CFG_EN 0 g c = false then s.cqDrop g
  else if x.blCount ≠ 0 ∨ x.waiting ≠ [] ∨ s.cqSize g c ≤ s.cqHeld g c + 1 then s.cqDefer g c w
  else s.cqWrite g c w

/-- Move one entry from the backlog, and then from firmware memory, towards the ring, in order (R379, R380). -/
def State.cqDrainOne (s : State) (g c : Nat) : State :=
  let x := s.cq g c
  if s.hostOk g = false ∨ s.cqSize g c ≤ s.cqHeld g c + 1 then s
  else if x.blCount ≠ 0 then
    let a := s.rd R.PCIE_CQ_BACKLOG_BASE 0 g c + 128 * x.blHead
    let w := (List.range 16).map (fun i => s.devWord (a + 8 * i))
    let x := { x with blHead := (x.blHead + 1) % max 1 (s.blSize g c), blCount := x.blCount - 1 }
    let s := s.setCq g c x
    let s := match x.waiting with
      | v :: r => (s.setCq g c { x with waiting := r }).toBacklog g c v
      | [] => s
    s.cqWrite g c w
  else match x.waiting with
    | v :: r => (s.setCq g c { x with waiting := r }).cqWrite g c v
    | [] => s

/-- Drain a CQ's backlog into the room its host has released (R380). -/
def State.cqDrain (s : State) (g c n : Nat) : State :=
  match n with
  | 0 => s
  | m + 1 => (s.cqDrainOne g c).cqDrain g c m

/-! ### Entries -/

/-- The words of an entry: KIND, STATUS, CID, POISON, HOST_TAG, HANDLE and words 4 on (R372). -/
def entryWords (kind status cid : Nat) (poison : Bool) (tag handle : Nat) (rest : List Nat) : List Nat :=
  let w := [kind * 2 + status * 2 ^ 8 + cid * 2 ^ 16 + b2n poison * 2 ^ 32, 0, tag, handle] ++ rest
  w ++ List.replicate (16 - w.length) 0

/-- A management event to one group (R375). -/
def State.mgmt (s : State) (g code : Nat) (payload : List Nat) : State :=
  s.cqPost g (s.rd R.PCIE_GRP_CTL_MGMT_CQ 0 g) (entryWords 4 0 0 false 0 0 (code :: payload))

/-- A management event to group 16 and to every group with EN set (R375). -/
def State.mgmtAll (s : State) (code : Nat) (payload : List Nat) : State :=
  (((List.range 16).filter (fun g => s.on R.PCIE_GRP_CTL_EN 0 g)).foldl (fun t g => t.mgmt g code payload) s).mgmt
    16 code payload

/-- A health or power event: group 16 and the tray (R426, R450). -/
def State.mgmtTray (s : State) (code : Nat) (payload : List Nat) : State :=
  (s.mgmt 16 code payload).emit (.mctp code payload)

/-! ### Requests -/

/-- Whether a request is open. -/
def State.isOpen (s : State) (r : Req) : Bool := s.host.reqs.any (fun o => o.req = r)

/-- Whether a request of a TYPE is open. -/
def State.openAs (s : State) (typ : Nat) (r : Req) : Bool := s.host.reqs.any (fun o => decide (o.req = r) && o.typ = typ)

/-- The open requests of a group. -/
def State.openIn (s : State) (g : Nat) : List OpenReq := s.host.reqs.filter (fun o => o.req.grp.val = g)

/-- Complete a request with a status, a handle and result words 4 on (R367, R372): once, and only while it is open. -/
def State.complete (s : State) (r : Req) (status : Nat) (handle : Nat) (rest : List Nat) (poison : Bool := false) : State :=
  if s.isOpen r then
    let s := { s with host := { s.host with reqs := s.host.reqs.eraseP (fun o => o.req = r) } }
    let s := s.wr R.PCIE_GRP_SQ_CFG_OPEN (s.openIn r.grp.val).length 0 r.grp.val
    s.cqPost r.grp.val r.cq.val (entryWords 1 status r.cid.toNat poison r.tag.toNat handle rest)
  else s

/-- Complete a request with a bare status. -/
def State.finish (s : State) (r : Req) (status : Nat) : State := s.complete r status r.handle.toNat []

end Sys2Proof.Machine
end

