-- ==== Sys2Proof/Machine/Link.lean ====
section
/-! DEFINITION. The link layer of the fabric: packets and flits as bytes, what a port keeps of the flits it sends, and how a
received flit is judged (R319 to R322). -/

namespace Sys2Proof.Machine

/-! ### Packets (R322, R324, R488) -/

/-- The packet types (R324). -/
def packetTypes : List Nat :=
  [0x01, 0x02, 0x03, 0x04, 0x05, 0x08, 0x09, 0x0A, 0x0B, 0x10, 0x11, 0x12, 0x18, 0x19, 0x1A, 0x1B, 0x1C, 0x1F]

/-- The four header words of a packet (R322); reserved bits are 0. -/
def pktHeader (p : Pkt) : List Nat :=
  [p.cls.toNat + p.typ.toNat * 2 ^ 3 + b2n p.bcast * 2 ^ 8 + p.dst.val * 2 ^ 9 + p.src.val * 2 ^ 21 + p.part.val * 2 ^ 33 +
    p.key.toNat * 2 ^ 37 + p.unit.toNat * 2 ^ 53,
   p.off.toNat + p.len.toNat * 2 ^ 40 + p.aop.toNat * 2 ^ 53 + b2n p.wide * 2 ^ 57 + b2n p.uns * 2 ^ 58,
   p.reqid.toNat + p.bar.toNat * 2 ^ 16 + p.status.toNat * 2 ^ 32 + p.arr.toNat * 2 ^ 40 + p.dset.toNat * 2 ^ 45 +
    b2n p.arrEn * 2 ^ 51 + p.srcPart.val * 2 ^ 52,
   p.poison.toNat]

/-- A packet as it travels: the header, the data, and zeros to a multiple of 8 bytes (R322). -/
def pktImage (p : Pkt) : List Byte :=
  (pktHeader p).flatMap (toLE 8) ++ p.data ++ List.replicate ((8 - p.data.length % 8) % 8) 0

/-- The header fields of a packet that four words give (R322). -/
def pktFrom (w0 w1 w2 w3 : Nat) (data : List Byte) : Pkt where
  cls := BitVec.ofNat 3 w0
  typ := BitVec.ofNat 5 (bits w0 7 3)
  bcast := w0.testBit 8
  dst := Fin.ofNat 4096 (bits w0 20 9)
  src := Fin.ofNat 4096 (bits w0 32 21)
  part := Fin.ofNat 16 (bits w0 36 33)
  key := BitVec.ofNat 16 (bits w0 52 37)
  unit := BitVec.ofNat 8 (bits w0 60 53)
  off := BitVec.ofNat 40 w1
  len := BitVec.ofNat 13 (bits w1 52 40)
  aop := BitVec.ofNat 4 (bits w1 56 53)
  wide := w1.testBit 57
  uns := w1.testBit 58
  reqid := BitVec.ofNat 16 w2
  bar := BitVec.ofNat 16 (bits w2 31 16)
  status := BitVec.ofNat 8 (bits w2 39 32)
  arr := BitVec.ofNat 5 (bits w2 44 40)
  dset := BitVec.ofNat 6 (bits w2 50 45)
  arrEn := w2.testBit 51
  srcPart := Fin.ofNat 16 (bits w2 55 52)
  poison := BitVec.ofNat 64 w3
  data := data

/-- A packet with its fields at 0 but class, type and source. -/
def State.blank (s : State) (cls typ : Nat) : Pkt where
  cls := BitVec.ofNat 3 cls
  typ := BitVec.ofNat 5 typ
  bcast := false
  dst := 0
  src := Fin.ofNat 4096 s.pkgId
  part := 0
  key := 0
  unit := 0
  off := 0
  len := 0
  aop := 0
  wide := false
  uns := false
  reqid := 0
  bar := 0
  status := 0
  arr := 0
  dset := 0
  arrEn := false
  srcPart := 0
  poison := 0
  data := []

/-! ### Flits sent (R320, R321) -/

/-- A flit: its payload, SEQ, ACK with NAK, and the CRC of the 508 bytes before it (R320). -/
def flitImage (payload : List Byte) (seq ack : Nat) (nak : Bool) : List Byte :=
  let b := payload ++ toLE 2 seq ++ toLE 2 (ack % 2 ^ 15 + b2n nak * 2 ^ 15)
  b ++ toLE 4 (crc32c b)

/-- The bytes that each lane in use carries of a flit: word `w` goes on lane `w` mod 8, or in HALF on the `w` mod 4-th lane of
the half (R320). -/
def flitLanes (half : Bool) (flit : List Byte) : List (List Byte) :=
  let n := if half then 4 else 8
  (List.range n).map (fun l => (List.range (64 / n)).flatMap (fun i => (flit.drop (8 * (n * i + l))).take 8))

/-- The last SEQ that a port has received in order, which its flits acknowledge. -/
def PortSt.lastGood (x : PortSt) : Nat := (x.rxNext + 65535) % 65536

/-- Cut `n` flits off the front of a port's payload stream: they are sent in sequence, and the last 1,024 are kept (R321). -/
def PortSt.cut (x : PortSt) : Nat → List Byte → PortSt
  | 0, bs => { x with tail := bs }
  | n + 1, bs =>
    let kept := x.kept ++ [(x.txNext, flitImage (bs.take 504) x.txNext x.lastGood false)]
    PortSt.cut { x with txNext := (x.txNext + 1) % 65536, kept := kept.drop (kept.length - 1024) } n (bs.drop 504)

/-- A port after a packet joined its payload stream; the gap behind it is filled with IDLE packets, which may span flits, to the
end of its last flit (R320; log 180). -/
def PortSt.send (x : PortSt) (idle packet : List Byte) : PortSt :=
  let bs := x.tail ++ packet
  let n := ceilDiv bs.length 504
  x.cut n (bs ++ (List.replicate (ceilDiv (504 * n - bs.length) idle.length) idle).flatten)

/-- The link record of a port. -/
def State.port (s : State) (p : Nat) : PortSt := mget PortSt.init s.fab.ports p

/-- Replace it. -/
def State.setPort (s : State) (p : Nat) (x : PortSt) : State :=
  { s with fab := { s.fab with ports := mset PortSt.init p x s.fab.ports } }

/-- Count flits of a port, in its counter and in the current window (R351, R406). -/
def State.countFlits (s : State) (f : Fld) (q n : Nat) : State :=
  { s.bump f n q with gate := { s.gate with flits := s.gate.flits + n } }

/-- Send a packet on a port: it joins the payload stream, and the flits that this fills are counted (R320, R325, R351). -/
def State.transmitOn (s : State) (q : Nat) (p : Pkt) : State :=
  let x := (s.port q).send (pktImage (s.blank 3 0x1F)) (pktImage p)
  (s.setPort q x).countFlits R.FAB_TX_FLITS_TX q ((x.txNext + 65536 - (s.port q).txNext) % 65536)

/-- Send a packet on some ports. -/
def State.transmit (s : State) (ports : List Nat) (p : Pkt) : State := ports.foldl (fun t q => t.transmitOn q p) s

/-- The flits that a NAK asks for: those kept from the one after ACK on (R321). -/
def PortSt.replayed (x : PortSt) (ack : Nat) : List (List Byte) :=
  (x.kept.dropWhile (fun f => f.1 % 2 ^ 15 ≠ (ack + 1) % 2 ^ 15)).map (·.2)

end Sys2Proof.Machine

namespace Sys2Proof

/-- The source unit that detects what an arriving packet shows: the port it came in on, port 0 for one looped back (R66, R351;
log 179). -/
def Pkt.portUnit (p : Pkt) : Nat := Machine.srcUnit 0x30 (match p.via with
  | some q => q.val
  | none => 0)

/-! ### Flits received (R319 to R321) -/

/-- Whether a flit's CRC is good (R320). -/
def FlitIn.crcGood (f : FlitIn) : Bool :=
  decide (f.bytes.length = 512) && decide (Machine.ofLE (f.bytes.drop 508) = Machine.crc32c (f.bytes.take 508))

/-- Whether a codeword is uncorrectable: more than 15 of its symbols are wrong (R319). -/
def Codeword.lost (c : Codeword) : Bool := decide (15 < c.wrong)

/-- Whether some codeword that touches a flit is uncorrectable (R319). -/
def FlitIn.uncorr (f : FlitIn) : Bool := f.codewords.any (·.lost)

/-- SEQ of a flit (R320). -/
def FlitIn.seq (f : FlitIn) : Nat := Machine.ofLE ((f.bytes.drop 504).take 2)

/-- ACK of a flit: 15 bits of a SEQ (R320). -/
def FlitIn.ack (f : FlitIn) : Nat := Machine.ofLE ((f.bytes.drop 506).take 2) % 2 ^ 15

/-- Whether a flit carries NAK (R320). -/
def FlitIn.nak (f : FlitIn) : Bool := (Machine.ofLE ((f.bytes.drop 506).take 2)).testBit 15

end Sys2Proof
end

