-- ==== Sys2Proof/Machine/Fabric.lean ====
section
/-! DEFINITION. Fabric ports, port choice, open operations and re-sends, and the retirement of lanes (R41, R313 to R318,
R322 to R326, R332, R342, R343). -/

namespace Sys2Proof.Machine

/-! ### Ports in service and effective planes (R316, R342, R343) -/

/-- STATE of a port (R316). -/
def State.portState (s : State) (p : Nat) : Nat := s.rd R.FAB_STATUS_STATE p

/-- Whether a port is in service (R316). -/
def State.inService (s : State) (p : Nat) : Bool := s.portState p = 3 || s.portState p = 4

/-- The ports in service, ascending. -/
def State.ports (s : State) : List Nat := (List.range 24).filter s.inService

/-- A mask of ports. -/
def portMask (l : List Nat) : Nat := sumOf (l.map (2 ^ ·))

/-- The ports in HALF. -/
def State.halfPorts (s : State) : List Nat := (List.range 24).filter (fun p => s.portState p = 4)

/-- Whether a port is in service at another package by its last PORT_STATE; all are until it is heard (R342). -/
def State.peerUp (s : State) (pkg p : Nat) : Bool := !(mget 0 s.fab.peers pkg).testBit p

/-- Twice the weight of a port at a package (R342). -/
def State.weight2 (s : State) (pkg p : Nat) : Nat :=
  if pkg = s.pkgId then (if s.portState p = 3 then 2 else if s.portState p = 4 then 1 else 0)
  else if s.peerUp pkg p then (if (mget 0 s.fab.peers pkg).testBit (24 + p) then 1 else 2) else 0

/-- Twice the effective planes of two packages (R342). -/
def State.planes2 (s : State) (a b : Nat) : Nat :=
  sumOf ((List.range 24).map (fun p => min (s.weight2 a p) (s.weight2 b p)))

/-- The packages that hold a rank, in rank order (R58, R94). -/
def State.members (s : State) : List Nat := s.roles.ranks.map (fun e => e.2 - 1)

/-- The pairs of a list. -/
def pairs : List Nat → List (Nat × Nat)
  | [] => []
  | a :: r => r.map (fun b => (a, b)) ++ pairs r

/-- Bring FAB_PLANES up to date and raise PLANES_LOW when a pair of members falls below 22 (R343, R351). -/
def State.updatePlanes (s : State) : State :=
  let own := s.planes2 s.pkgId s.pkgId
  let others := s.members.filter (· ≠ s.pkgId)
  let least := minOr own (others.map (s.planes2 s.pkgId))
  let s := ((s.wr R.FAB_PLANES_INSVC (portMask s.ports)).wr R.FAB_PLANES_E2 own).wr R.FAB_PLANES_E2_MIN least
  let low := (pairs s.members).any (fun (a, b) => decide (s.planes2 a b < 44))
  let s := if low && !s.fab.low then s.raise E.FAB_PLANES_LOW else s
  { s with fab := { s.fab with low := low } }

/-! ### Packets (R322 to R326) -/

/-- Whether a port carries packets of a class (R316): class 0 from CHECK on, every class in service. -/
def State.carries (s : State) (p cls : Nat) : Bool := s.inService p || (cls = 0 && decide (2 ≤ s.portState p))

/-- Whether a packet that came in on a port may be taken: DOWN and TRAIN carry none, CHECK and HELD class 0 alone (R316). -/
def State.hears (s : State) (k : Pkt) : Bool := match k.via with
  | some q => s.carries q k.cls.toNat
  | none => true

/-- Send a class 0 packet on those of some ports that carry it (R316). -/
def State.sendOn (s : State) (ports : List Nat) (typ : Nat) (bcast : Bool) (data : List Byte) : State :=
  let p := { s.blank 0 typ with bcast := bcast, data := data }
  let on := ports.filter (s.carries · 0)
  if on = [] then s else (s.transmit on p).emit (.packet on p)

/-- Broadcast PORT_STATE on every port in service (R342). -/
def State.castPorts (s : State) : State :=
  { s with fab := { s.fab with cast := s.tempo.now / 1024 } }.sendOn s.ports 4 true
    (toLE 8 (portMask s.ports + portMask s.halfPorts * 2 ^ 24))

/-- The ports usable toward a destination (R342). -/
def State.usable (s : State) (dst : Nat) : List Nat := s.ports.filter (s.peerUp dst)

/-- The round-robin choice: the first usable port from where the unit left off (R325). -/
def pickFrom (start : Nat) (us : List Nat) : Option Nat :=
  match us.find? (fun p => decide (start ≤ p)) with
  | some p => some p
  | none => us.head?

/-- The choice for a single request (R325). -/
def pickSingle (dst off : Nat) (us : List Nat) : Option Nat :=
  if us = [] then none else us[(dst + off / 4096) % us.length]?

/-- Whether a type is bulk data: SDATA, REEL or UDATA (R325). -/
def bulk (typ : Nat) : Bool := typ = 0x08 || typ = 0x0A || typ = 0x1B

/-- The port of a packet of a unit (R325). -/
def State.choose (s : State) (unit dst : Nat) (p : Pkt) (us : List Nat) : Option Nat :=
  if bulk p.typ.toNat then pickFrom (mget 0 s.fab.rr unit) us else pickSingle dst p.off.toNat us

/-- Remember the port a unit used for bulk data (R325). -/
def State.usedPort (s : State) (unit : Nat) (p : Pkt) (q : Option Nat) : State :=
  match q with
  | some n => if bulk p.typ.toNat then { s with fab := { s.fab with rr := mset 0 unit ((n + 1) % 24) s.fab.rr } } else s
  | none => s

/-- Whether a new single request must wait for re-sent ones (R332). -/
def State.mustHold (s : State) (unit dst : Nat) (p : Pkt) : Bool :=
  !bulk p.typ.toNat && s.fab.ops.any (fun o => o.unit = unit && o.dst = dst && (match o.lost with
    | some q => pickSingle dst p.off.toNat ((List.range 24).filter (fun i => i = q || (s.usable dst).contains i)) = some q
    | none => false))

/-- Whether a unit may not use a REQID yet: an operation of it is open or waits under it, or one resolved less than 2 ×
FAB_DEAD.BEATS beats ago (R332). -/
def State.idBusy (s : State) (unit id : Nat) : Bool :=
  s.fab.ops.any (fun o => o.unit = unit && o.reqid % 65536 = id % 65536) ||
  s.fab.spent.any (fun e => e.1 = unit && e.2.1 = id % 65536 && decide (s.tempo.now < e.2.2))

/-- The copy engine that issued an operation. -/
def Owner.engine : Owner → Option Nat
  | .fcopy set _ => some (set % 16)
  | .scommit set _ => some (set % 16)
  | .copyPart e _ _ => some e
  | .copyCommit e _ => some e
  | _ => none

/-- Count the data bytes that a copy engine sends, once for each packet (R353). -/
def State.countSent (s : State) (o : Op) : State := match o.owner.engine with
  | some e => if bulk o.typ then s.bump R.COPY_BYTES_BYTES o.pkt.len.toNat e else s
  | none => s

/-- Send an operation for the first time (R325, R326, R332): looped back, held, or on the port of its choice. -/
def State.launchOp (s : State) (o : Op) : Op × State :=
  let own := o.dst = s.pkgId
  let held := !own && s.mustHold o.unit o.dst o.pkt
  let port := if own ∨ held then none else s.choose o.unit o.dst o.pkt (s.usable o.dst)
  let o := { o with stamp := s.tempo.now, port := port, held := held, waiting := false }
  if own then (o, ({ s with fab := { s.fab with loop := s.fab.loop ++ [o.pkt] } }).countSent o)
  else match port with
    | some q => (o, (((s.countSent o).usedPort o.unit o.pkt port).transmit [q] o.pkt).emit (.packet [q] o.pkt))
    | none => (o, s)

/-- Issue a remote operation (R325, R326, R332): its REQID, its port, its record; it waits while its REQID may not be used. -/
def State.issueOp (s : State) (unit : Nat) (p : Pkt) (owner : Owner) : State :=
  let id := mget 0 s.fab.reqids unit
  let p := { p with unit := BitVec.ofNat 8 unit, reqid := BitVec.ofNat 16 id }
  let op : Op := ⟨unit, id, p.dst.val, p.typ.toNat, p, s.tempo.now, none, owner, none, false, none, s.idBusy unit id⟩
  let s := { s with fab := { s.fab with reqids := mset 0 unit (id + 1) s.fab.reqids } }
  let (op, s) := if op.waiting then (op, s) else s.launchOp op
  { s with fab := { s.fab with ops := s.fab.ops ++ [op] } }

/-- The number of the next operation of a unit. -/
def State.nextId (s : State) (unit : Nat) : Nat := mget 0 s.fab.reqids unit

/-! ### Re-sends, in class order (R273, R323, R332) -/

/-- The class an operation goes out in when it is sent late: 3 for a Reel row, which no position places any more (R273, R324). -/
def Op.lateClass (o : Op) : Nat := if o.typ = 0x0A then 3 else o.pkt.cls.toNat

/-- Operations that one step sends, lowest class first, each class in the order of issue (R323). -/
def byClass (l : List Op) : List Op := (List.range 4).flatMap (fun c => l.filter (fun o => decide (o.lateClass = c)))

/-- Put an operation back in its place. -/
def State.putOp (s : State) (o : Op) : State :=
  { s with fab := { s.fab with ops := s.fab.ops.map (fun x => if x.unit = o.unit ∧ x.reqid = o.reqid then o else x) } }

/-- The partition of a Reel operation. -/
def Owner.reelPart : Owner → Option Nat
  | .reel p _ _ => some p
  | _ => none

/-- Whether a Reel row may go out as class 3 (R273): a credit of its partition's REEL_CFG.CREDITS toward the destination is free. A
row sent holds one until its answer comes; a packet that carries a piece of a row counts as a row (DESIGN CHOICE, log 203). -/
def State.credit (s : State) (o : Op) : Bool :=
  o.typ ≠ 0x0A || decide ((s.fab.ops.filter (fun x => x.typ = 0x0A && x.pkt.cls = 3 && x.port.isSome && x.dst = o.dst &&
    x.owner.reelPart = o.owner.reelPart && !(x.unit = o.unit && x.reqid = o.reqid))).length <
    s.rd R.REEL_CFG_CREDITS 0 (o.owner.reelPart.getD 0))

/-- Send operations whose REQID has become usable, in the order of class and issue (R323, R332). -/
def State.releaseIds (s : State) : Nat → State
  | 0 => s
  | n + 1 =>
    let free := fun (o : Op) => o.waiting && !(State.idBusy { s with fab := { s.fab with
      ops := s.fab.ops.filter (fun x => x.unit = o.unit && decide (x.reqid < o.reqid)) } } o.unit o.reqid)
    match (byClass s.fab.ops).find? free with
    | none => s
    | some o =>
      let (o', t) := s.launchOp o
      State.releaseIds (t.putOp o') n

/-- Whether an operation is a packet of an FCOPY that a refusal or a deadline has abandoned: nothing more of it is sent (R336). -/
def State.abandoned (s : State) (o : Op) : Bool := match o.owner with
  | .fcopy set idx => (s.st set).flights.any (fun f => decide (f.idx = idx) && match f.kind with
    | .fcopy k => k.lost && k.left.contains o.reqid
    | _ => false)
  | _ => false

/-- Send one open operation again, or for the first time, on a port now usable (R332); a Reel row goes as class 3 and waits for
a credit (R273, R324). -/
def State.resendOp (s : State) (o : Op) : State :=
  let us := s.usable o.dst
  let bad := match o.port with
    | some q => !us.contains q
    | none => true
  if o.dst = s.pkgId ∨ o.held = true ∨ o.waiting = true ∨ bad = false ∨ s.abandoned o = true then s.putOp o
  else
    let p := { o.pkt with cls := BitVec.ofNat 3 o.lateClass }
    let q := if s.credit o then s.choose o.unit o.dst p us else none
    let lost := match o.port with
      | some x => some x
      | none => o.lost
    let s := s.putOp { o with port := q, lost := lost, pkt := p }
    match q with
    | some n => (((if lost.isNone then s.countSent o else s).usedPort o.unit p q).transmit [n] p).emit (.packet [n] p)
    | none => s

/-- Re-send every unacknowledged packet whose port is no longer usable toward its destination (R332). -/
def State.repath (s : State) : State :=
  (byClass s.fab.ops).foldl State.resendOp s

/-- Send the held requests of a unit and destination once no re-sent one is open (R332). -/
def State.releaseHeld (s : State) (unit dst : Nat) : State :=
  if s.fab.ops.any (fun o => o.unit = unit && o.dst = dst && o.lost.isSome) then s
  else
    let mine := s.fab.ops.filter (fun o => o.unit = unit && o.dst = dst && o.held)
    (byClass mine).foldl (fun t o => t.resendOp { o with held := false }) s

/-- The credit of a Reel row has come back: the next row that waits for one goes (R273). -/
def State.releaseRow (s : State) (o : Op) : State :=
  match s.fab.ops.find? (fun x => x.typ = 0x0A && x.pkt.cls = 3 && x.port.isNone && x.dst = o.dst &&
      x.owner.reelPart = o.owner.reelPart) with
  | some x => s.resendOp x
  | none => s

/-- Forget an operation; held requests behind it may go, what waits for a REQID, and a row that waits for the credit of this one
(R273, R332). -/
def State.closeOp (s : State) (o : Op) : State :=
  let rest := s.fab.ops.filter (fun x => !(x.unit = o.unit && x.reqid = o.reqid))
  let spent := s.fab.spent.filter (fun e => decide (s.tempo.now < e.2.2))
  let mine := if o.waiting then [] else [(o.unit, o.reqid % 65536, s.tempo.now + 2048 * s.rd R.FAB_DEAD_BEATS)]
  let s := ({ s with fab := { s.fab with ops := rest, spent := spent ++ mine } }).releaseHeld o.unit o.dst
  let s := if o.typ = 0x0A ∧ o.pkt.cls = 3 then s.releaseRow o else s
  s.releaseIds s.fab.ops.length

/-! ### Port states (R316 to R318, R342) -/

/-- The logical lanes of a port (R40). -/
def lanesOf (p : Nat) : List Nat := (List.range 8).map (8 * p + ·)

/-- Set the state of every lane of a port that has a physical lane. -/
def State.setLanes (s : State) (p st : Nat) : State :=
  (lanesOf p).foldl (fun t l => t.wr R.LANE_STATUS_STATE (if t.avail 0x31 l then st else 0) l) s

/-- Move a port to a state; each change is broadcast, and lost packets go again (R332, R342). -/
def State.moveTo (s : State) (p st : Nat) : State :=
  let before := s.portState p
  let s := s.wr R.FAB_STATUS_STATE st p
  let s := if st = 4 then s else s.wr R.FAB_STATUS_HALF_HI 0 p
  let s := if st = 5 then s else s.wr R.FAB_STATUS_SWAP_WITH 0x1F p
  if st = before then s else (s.updatePlanes.castPorts).repath

/-- Take a port DOWN; tests of its lanes end. -/
def State.portDown (s : State) (p : Nat) : State :=
  let s := { s with fab := { s.fab with tests := s.fab.tests.filter (fun t => t.lane / 8 ≠ p) } }
  let s := (lanesOf p).foldl (fun t l => t.wr R.LANE_STATUS_BORROWED 0 l) s
  ((s.setPort p .init).setLanes p 0).moveTo p 0

/-- Take a port DOWN because its link failed (R316, R318, R321). -/
def State.linkDown (s : State) (p : Nat) : State := (s.raise E.FAB_LINK_DOWN p).portDown p

/-- Start training (R316, R317). -/
def State.startTraining (s : State) (p : Nat) : State := ((s.setPort p .init).setLanes p 1).moveTo p 1

/-- Enter CHECK (R316). -/
def State.enterCheck (s : State) (p : Nat) : State :=
  ((s.setPort p { s.port p with since := s.tempo.now / 1024, bert := false }).setLanes p 2).moveTo p 2

/-- Whether a lane carries traffic. -/
def State.laneWorks (s : State) (l : Nat) : Bool := s.avail 0x31 l && s.rd R.LANE_STATUS_STATE l ≠ 0

/-- Full width, half width or none, by the lanes that work (R318). -/
def State.fitWidth (s : State) (p : Nat) : State :=
  let ok := fun (a : Nat) => (List.range 4).all (fun i => s.laneWorks (8 * p + a + i))
  if ok 0 && ok 4 then s.moveTo p 3
  else if ok 0 then (s.raise E.FAB_HALF_WIDTH p).moveTo p 4
  else if ok 4 then ((s.raise E.FAB_HALF_WIDTH p).moveTo p 4).wr R.FAB_STATUS_HALF_HI 1 p
  else s.linkDown p

/-- A port in service whose lane was lost without a spare (R318): a half that does not use the lane stays. -/
def State.narrow (s : State) (p : Nat) : State :=
  let hi := s.rd R.FAB_STATUS_HALF_HI p * 4
  if s.portState p = 4 ∧ (List.range 4).all (fun i => s.laneWorks (8 * p + hi + i)) = true then s else s.fitWidth p

/-! ### Spare lanes and retirement (R41, R315, R318) -/

/-- The I/O die of a logical lane. -/
def laneDie (l : Nat) : Nat := if l < 96 then 0 else 1

/-- The physical spares of an I/O die (R40). -/
def spareLanes (die : Nat) : List Nat := (List.range 4).map (100 * die + 96 + ·)

/-- The free spares of an I/O die, ascending (R41). -/
def State.freeLanes (s : State) (die : Nat) : List Nat :=
  (spareLanes die).filter (fun q => !s.layout.fused.contains (0x31, q) && !s.layout.retired.contains (0x31, q) &&
    !(s.layout.lanes.any (fun e => e.2 = q)) && !(s.fab.tests.any (fun t => t.spare = q && !t.install)))

/-- LANE_MAP to the switch for a lane and a spare (R315, R324). -/
def State.laneMap (s : State) (l q : Nat) (on : Bool) : State :=
  s.sendOn [l / 8] 3 false (toLE 8 (l % 8 + (q % 100 - 96) * 8 + b2n on * 256))

/-- Retire a physical unit and queue the card's change (R41, R42): cause, class, physical index. -/
def State.retireUnit (s : State) (cause cls q : Nat) : State :=
  if s.layout.retired.contains (cls, q) then s
  else
    let s := { s with
      layout := { s.layout with retired := s.layout.retired ++ [(cls, q)] }
      card := { s.card with waiting := s.card.waiting ++ [(⟨cause, cls, q⟩ : CardChange)] } }
    (s.note (srcUnit 0x45 0) (.unitRetired cause cls q)).raise E.HEALTH_RETIRED 0 [cls, q]

/-- End a lane test: the lane returns to service; its borrowed spare is free again unless it stays (R348). -/
def State.endTest (s : State) (t : LaneTest) : State :=
  let s := { s with fab := { s.fab with tests := s.fab.tests.filter (fun x => x.lane ≠ t.lane) } }
  (s.wr R.LANE_STATUS_STATE (if t.install then 0 else 2) t.lane).wr R.LANE_STATUS_BORROWED 0 t.lane

/-- Stop the interval test that borrows a spare of a die, if one runs (R349). -/
def State.stopTest (s : State) (die : Nat) : State :=
  match s.fab.tests.find? (fun t => !t.install && laneDie t.lane = die) with
  | some t => (s.laneMap t.lane t.spare false).endTest t
  | none => s

/-- Retire the physical lane behind a logical one and map in the lowest free spare, if there is one (R41); a spare that
stands in for a test of the lane stays (R348), and one borrowed for another lane of the die is taken back (R349). -/
def State.retireLane (s : State) (l : Nat) : State :=
  let mine := s.fab.tests.find? (fun t => !t.install && t.lane = l)
  let s := match mine with
    | some _ => s
    | none => s.stopTest (laneDie l)
  let old := s.layout.lane l
  let s := if old = 0xFFFF then s else s.retireUnit 3 0x31 old
  match mine, s.freeLanes (laneDie l) with
  | some t, _ => (s.endTest t |> fun s => { s with layout := s.layout.mapLane l t.spare })
  | none, q :: _ => ({ s with layout := s.layout.mapLane l q }).laneMap l q true
  | none, [] => ({ s with layout := s.layout.mapLane l 0xFFFF }).wr R.LANE_STATUS_STATE 0 l

/-- A lane is lost (R318): a spare takes it over, or its port narrows. -/
def State.loseLane (s : State) (l : Nat) : State :=
  let s := (s.raise E.FAB_LANE_LOST (l / 8) [l]).retireLane l
  let s : State := { s with fab := { s.fab with bad := mset (0, 0) l (0, 0) s.fab.bad } }
  if s.avail 0x31 l ∨ s.inService (l / 8) = false then s else s.narrow (l / 8)

end Sys2Proof.Machine
end

