-- ==== Sys2Proof/Machine/Remote.lean ====
section
/-! DEFINITION. Packets that arrive: the checks of the destination, what each request does, kept outcomes and region
invalidation (R322 to R332, R335, R337, R338, R488). -/

namespace Sys2Proof.Machine

/-! ### Region entries (R327, R329) -/

/-- Apply one invalidation (R329). -/
def Fab.invalidate (f : Fab) (v : Inval) : Fab :=
  match v.idx with
  | some i => { f with cache := mset none (1024 * v.part + i) none f.cache }
  | none => { f with
      cache := mkeep (fun k => k / 1024 ≠ v.part) f.cache
      keys := mset 0 v.part v.keys f.keys }

/-- Apply the invalidations written a beat or more ago, in order (R329). -/
def State.settleKeys (s : State) : State :=
  let due := s.fab.invs.filter (fun v => s.passed v.stamp 1024)
  let f := due.foldl Fab.invalidate s.fab
  { s with fab := { f with invs := f.invs.filter (fun v => !s.passed v.stamp 1024) } }

/-- A region entry in device memory (R327). -/
def State.readRegion (s : State) (a : Nat) : Region :=
  let w0 := s.devWord a
  let w2 := s.devWord (a + 16)
  { base := bits w0 47 0, valid := w0.testBit 48, rd := w0.testBit 49, wr := w0.testBit 50, at_ := w0.testBit 51
    arrive := w0.testBit 52, fence := w0.testBit 53, tag := bits w0 59 54, len := bits (s.devWord (a + 8)) 39 0
    srcPart := bits w2 3 0, anyPart := w2.testBit 4 }

/-- Device address of an offset in the package's own takeover region (R434). -/
def State.tkAt (s : State) (off : Nat) : Nat :=
  (s.readRegion (mget 0 s.fab.keys 0 % 2 ^ 48 + 32 * (s.rd R.HEALTH_TK_KEY_KEY % 1024))).base +
    s.rd R.HEALTH_TK_OFF_OFFSET + off

/-- GEN of the pending table in the takeover region, and the bar at which it takes effect (R94, R434). -/
def State.tableGen (s : State) : Nat := s.devWord (s.tkAt 0x80048)
/-- EFF_BAR of it. -/
def State.tableEff (s : State) : Nat := s.devWord (s.tkAt 0x80050)

/-- Whether a pending table for the held bar has come by takeover: its GEN is above that of the current table and of a table
pending by request, which it replaces (R95, R435, R447). -/
def State.tableHere (s : State) : Bool :=
  decide (s.roles.gen < s.tableGen) && decide (s.tableEff = s.bar + 1) &&
  s.rolePend.all (fun x => decide (x.tab.gen < s.tableGen))

/-- The entry a key selects, from the cache or loaded into it; one outside the partition's memory is cached invalid and
raises KEY_BAD in the name of the port that looks it up (R329, R351). -/
def State.region (s : State) (unit part idx : Nat) : State × Region :=
  match mget none s.fab.cache (1024 * part + idx) with
  | some r => (s, r)
  | none =>
    let r := s.readRegion (mget 0 s.fab.keys part % 2 ^ 48 + 32 * idx)
    let bad := r.valid && !s.inPart part r.base r.len
    let r := { r with valid := r.valid && !bad }
    let s := if bad then s.raiseAs unit E.FAB_KEY_BAD 0 [part, idx] else s
    ({ s with fab := { s.fab with cache := mset none (1024 * part + idx) (some r) s.fab.cache } }, r)

/-- INV (R329). -/
def invEffect (part idx : Nat) (s : State) : State :=
  { s with fab := { s.fab with invs := s.fab.invs ++ [⟨s.tempo.now, part, some idx, 0⟩] } }

/-- INV. -/
def execInv (part : PartId) (idx : Fin 1024) (s : State) : Res := .next (invEffect part idx s)

/-- BASE and EN of a partition as its registers hold them. -/
def State.keysReg (s : State) (part : Nat) : Nat :=
  s.rd R.FAB_PART_KEYS_BASE 0 part + s.rd R.FAB_PART_KEYS_EN 0 part * 2 ^ 48

/-- INV_ALL (R329). -/
def invAllEffect (part : Nat) (s : State) : State :=
  { s with fab := { s.fab with invs := s.fab.invs ++ [⟨s.tempo.now, part, none, s.keysReg part⟩] } }

/-- INV_ALL. -/
def execInvAll (part : PartId) (s : State) : Res := .next (invAllEffect part s)

/-! ### The checks of R328 -/

/-- Types with variable data (R488). -/
def carriesLen (typ : Nat) : Bool := typ = 0x18 || typ = 0x19 || typ = 0x08 || typ = 0x1B || typ = 0x0A

/-- Whether LEN and alignment are illegal (R330, R488). -/
def badLen (typ len off : Nat) (wide : Bool) : Bool :=
  if carriesLen typ then
    if len = 4 ∨ len = 8 then decide (off % len ≠ 0)
    else len = 0 || decide (len % 64 ≠ 0) || decide (4096 < len) || decide (off % 64 ≠ 0) || decide (4096 < off % 4096 + len)
  else decide (len ≠ 0) || (typ = 0x1A && decide (off % (if wide then 8 else 4) ≠ 0))

/-- The class a type travels in (R324); a REEL may also be class 3. -/
def classOk (typ cls : Nat) : Bool :=
  if typ = 0x0A then cls = 1 || cls = 3
  else if typ = 0x08 ∨ typ = 0x09 ∨ typ = 0x0B then cls = 1
  else if typ = 0x10 ∨ typ = 0x11 ∨ typ = 0x12 then cls = 2
  else if 0x18 ≤ typ ∧ typ ≤ 0x1C then cls = 3
  else cls = 0

/-- The checks of R328 that come before every region check: a status, 0 where all pass. A packet of a reserved TYPE is malformed
whatever else it carries (R324). -/
def State.earlyStatus (s : State) (typ : Nat) (p : Pkt) : Nat :=
  let commit := typ = 0x09 ∨ typ = 0x1C
  let sched := typ = 0x08 ∨ typ = 0x0A ∨ typ = 0x0B ∨ commit
  if packetTypes.contains p.typ.toNat = false ∨ classOk typ p.cls.toNat = false ∨ badLen typ p.len.toNat p.off.toNat p.wide = true ∨ (typ = 0x1A ∧ 3 < p.aop.toNat) ∨
      (p.arrEn = true ∧ 47 < p.dset.toNat) then 8
  else if sched ∧ p.bar.toNat ≠ s.bar % 65536 then 7
  else if s.rd R.PART_STATUS_STATE p.part = 2 then 6
  else if sched ∧ (s.st p.dset.toNat).fenced = true then 4
  else 0

/-- Whether an entry permits a type (R327). -/
def Region.permits (r : Region) (typ : Nat) (arrEn : Bool) : Bool :=
  if typ = 0x18 then r.rd
  else if typ = 0x19 ∨ typ = 0x08 ∨ typ = 0x1B then r.wr
  else if typ = 0x1A then r.at_
  else !arrEn || r.arrive

/-- Bytes a packet reaches in its region. -/
def reach (typ : Nat) (p : Pkt) : Nat := if typ = 0x1A then (if p.wide then 8 else 4) else p.len.toNat

/-- The region checks of R328. -/
def regionStatus (typ : Nat) (p : Pkt) (en : Bool) (r : Region) : Nat :=
  if en = false ∨ r.valid = false ∨ r.tag ≠ p.key.toNat / 1024 then 1
  else if r.fence then 4
  else if r.anyPart = false ∧ r.srcPart ≠ p.srcPart.val then 5
  else if r.permits typ p.arrEn = false then 2
  else if r.len < p.off.toNat + reach typ p then 3
  else 0

/-- Every check of R328: the state with the entry cached, the status and the device address reached. -/
def State.checkPkt (s : State) (typ : Nat) (p : Pkt) : State × Nat × Nat :=
  let s := s.settleKeys
  let e := s.earlyStatus typ p
  if e ≠ 0 then (s, e, 0)
  else if (mget 0 s.fab.keys p.part).testBit 48 = false then (s, 1, 0)
  else
    let (s, r) := s.region p.portUnit p.part (p.key.toNat % 1024)
    (s, regionStatus typ p true r, r.base + p.off.toNat)

/-! ### Responses -/

/-- The answer to a packet (R324): class 2, back to its issuer. -/
def State.answerTo (s : State) (p : Pkt) (typ status : Nat) : Pkt :=
  { s.blank 2 typ with
    dst := p.src, unit := p.unit, reqid := p.reqid, status := BitVec.ofNat 8 status, part := p.srcPart, via := p.via }

/-- Send a response: back on the port its request came in on, where that carries it, or through the loopback (R316, R325, R326). -/
def State.respond (s : State) (a : Pkt) : State :=
  if a.dst.val = s.pkgId then { s with fab := { s.fab with loop := s.fab.loop ++ [a] } }
  else if s.hears a then (s.transmit (a.via.toList.map (·.val)) a).emit (.reply a)
  else s

/-- Count and log a refusal (R328, R337); a stale commit also counts as a stale increment (R80). -/
def State.noteRefusal (s : State) (typ : Nat) (p : Pkt) (st : Nat) : State :=
  let who := p.src.val * 256 + p.unit.toNat
  let s := s.raiseAs p.portUnit E.FAB_REFUSED_IN 0 [who, st]
  let s := if st = 7 then s.raiseAs p.portUnit E.FAB_STALE_IN 0 [who] else s
  let s := if st = 7 ∧ (typ = 0x09 ∨ typ = 0x1C) ∧ p.arrEn = true then s.raise E.SCHED_ARR_STALE p.dset.toNat else s
  (s.wr R.FAB_LAST_REFUSED_PKG p.src.val).wr R.FAB_LAST_REFUSED_STATUS st

/-- The type that answers a refused packet (R324): ARESP for an ATOMIC, ACK for the others. -/
def refusalType (typ : Nat) : Nat := if typ = 0x1A then 0x12 else 0x10

/-- The answer that refuses a packet (R324, R328); an ARESP has its 8 bytes, which R339 makes the issuer replace. -/
def State.refusal (s : State) (typ : Nat) (p : Pkt) (st : Nat) : Pkt :=
  { s.answerTo p (refusalType typ) st with data := if typ = 0x1A then List.replicate 8 0 else [] }

/-- Refuse a packet (R328): the response carries the status, and the packet does nothing else. -/
def State.refuse (s : State) (typ : Nat) (p : Pkt) (st : Nat) : State := (s.noteRefusal typ p st).respond (s.refusal typ p st)

/-! ### Kept outcomes (R332) -/

/-- The kept outcome a packet repeats. -/
def State.keptFor (s : State) (p : Pkt) : Option Kept :=
  s.fab.kept.find? (fun k => k.pkg = p.src.val && k.unit = p.unit.toNat && k.reqid = p.reqid.toNat &&
    decide (s.tempo.now < k.until_))

/-- Keep the outcome of a packet performed (R332). -/
def State.keep (s : State) (p a : Pkt) : State :=
  let k : Kept := ⟨p.src.val, p.unit.toNat, p.reqid.toNat, s.tempo.now + 2048 * s.rd R.FAB_DEAD_BEATS, a⟩
  { s with fab := { s.fab with kept := s.fab.kept ++ [k] } }

/-- OUTCOME_EXPIRY (R332): outcomes past their time are forgotten, and what waits for a REQID whose time is over is sent. -/
def outcomeExpiryEffect (s : State) : State :=
  let s := { s with fab := { s.fab with kept := s.fab.kept.filter (fun k => decide (s.tempo.now < k.until_)) } }
  s.releaseIds s.fab.ops.length

/-- OUTCOME_EXPIRY. -/
def execOutcomeExpiry (s : State) : Res := .next (outcomeExpiryEffect s)

/-! ### Arrival (R328, R330, R335, R338) -/

/-- The data of a packet with the mark of each line (R338), padded with zeros to LEN. -/
def pktData (p : Pkt) : List MarkByte :=
  (List.range p.len.toNat).map (fun i => (p.data.getD i 0, p.poison.toNat.testBit (i / 64)))

/-- Increment an arrival counter of a Set (R80): the engine of the Set counts it. -/
def State.arrive (s : State) (set arr : Nat) : State :=
  (s.bump R.SCHED_ARR_COUNT 1 set arr).bump R.COPY_ARR_IN_INCREMENTS 1 (set % 16)

/-- A write that arrives: SDATA, UDATA or STORE. -/
def State.landWrite (s : State) (typ : Nat) (p : Pkt) : State :=
  let (s, st, a) := s.checkPkt typ p
  if st ≠ 0 then s.refuse typ p st else (s.devWrite a (pktData p)).respond (s.answerTo p 0x10 0)

/-- A commit that arrives: SCOMMIT or UCOMMIT, performed once (R332). -/
def State.landCommit (s : State) (typ : Nat) (p : Pkt) : State :=
  match s.keptFor p with
  | some k => s.respond { k.ans with via := p.via }
  | none =>
    let (s, st, _) := s.checkPkt typ p
    if st ≠ 0 then s.refuse typ p st
    else
      let a := s.answerTo p 0x10 0
      let s := if p.arrEn then s.arrive p.dset.toNat p.arr.toNat else s
      (s.keep p a).respond a

/-- A LOAD that arrives (R330, R338). -/
def State.landLoad (s : State) (p : Pkt) : State :=
  let (s, st, a) := s.checkPkt 0x18 p
  if st ≠ 0 then s.refuse 0x18 p st
  else
    let n := p.len.toNat
    let marks := sumOf ((List.range (ceilDiv n 64)).map (fun i => b2n (s.lineMark (a + 64 * i)) * 2 ^ i))
    s.respond { s.answerTo p 0x11 0 with len := p.len, data := s.devBytes a n, poison := BitVec.ofNat 64 marks }

/-- The new value of an atomic, if it writes (R330). -/
def atomicNew (aop w : Nat) (uns : Bool) (old x cmp : Nat) : Option Nat :=
  let m := 2 ^ (8 * w)
  let less := fun (a b : Nat) => if uns then decide (a < b) else decide (signed (8 * w) a < signed (8 * w) b)
  match aop with
  | 0 => some ((old + x) % m)
  | 1 => some (if less x old then x else old)
  | 2 => some (if less old x then x else old)
  | _ => if old = cmp then some x else none

/-- An ATOMIC that arrives (R330, R332): performed once, and the old value goes back. -/
def State.landAtomic (s : State) (p : Pkt) : State :=
  match s.keptFor p with
  | some k => s.respond { k.ans with via := p.via }
  | none =>
    let (s, st, a) := s.checkPkt 0x1A p
    if st ≠ 0 then s.refuse 0x1A p st
    else
      let w := if p.wide then 8 else 4
      let old := s.devNat a w
      let m := 2 ^ (8 * w)
      let ans := { s.answerTo p 0x12 0 with data := toLE 8 old }
      let s := match atomicNew p.aop.toNat w p.uns old (ofLE (p.data.take 8) % m) (ofLE ((p.data.drop 8).take 8) % m) with
        | some v => s.devWrite a (clean (toLE w v))
        | none => s
      (s.keep p ans).respond ans

/-- SDATA (R335). -/
def sdataEffect (p : Pkt) (s : State) : State := s.landWrite 0x08 p
/-- SDATA. -/
def execSdata (p : Pkt) (s : State) : Res := .next (if s.hears p then sdataEffect p s else s)

/-- UDATA (R334). -/
def udataEffect (p : Pkt) (s : State) : State := s.landWrite 0x1B p
/-- UDATA. -/
def execUdata (p : Pkt) (s : State) : Res := .next (if s.hears p then udataEffect p s else s)

/-- STORE over the fabric (R330). -/
def fabricStoreEffect (p : Pkt) (s : State) : State := s.landWrite 0x19 p
/-- FABRIC_STORE. -/
def execFabricStore (p : Pkt) (s : State) : Res := .next (if s.hears p then fabricStoreEffect p s else s)

/-- SCOMMIT (R335). -/
def scommitEffect (p : Pkt) (s : State) : State := s.landCommit 0x09 p
/-- SCOMMIT. -/
def execScommit (p : Pkt) (s : State) : Res := .next (if s.hears p then scommitEffect p s else s)

/-- UCOMMIT (R334). -/
def ucommitEffect (p : Pkt) (s : State) : State := s.landCommit 0x1C p
/-- UCOMMIT. -/
def execUcommit (p : Pkt) (s : State) : Res := .next (if s.hears p then ucommitEffect p s else s)

/-- LOAD over the fabric (R330). -/
def fabricLoadEffect (p : Pkt) (s : State) : State := s.landLoad p
/-- FABRIC_LOAD. -/
def execFabricLoad (p : Pkt) (s : State) : Res := .next (if s.hears p then fabricLoadEffect p s else s)

/-- ATOMIC over the fabric (R330). -/
def fabricAtomicEffect (p : Pkt) (s : State) : State := s.landAtomic p
/-- FABRIC_ATOMIC. -/
def execFabricAtomic (p : Pkt) (s : State) : Res := .next (if s.hears p then fabricAtomicEffect p s else s)

end Sys2Proof.Machine
end

