-- ==== Sys2Proof/Machine/Copy.lean ====
section
/-! DEFINITION. FCOPY and the descriptors of the copy engines (R96, R326, R333 to R336, R338). -/

namespace Sys2Proof.Machine

/-- Source unit of a copy engine (R66). -/
def copyUnit (e : Nat) : Nat := 0x78 + e

/-- The package that holds a rank (R94); `none` where VALID is 0. -/
def State.holder (s : State) (rank : Nat) : Option Nat :=
  let e := mget 0 s.roles.ranks rank
  if e = 0 then none else some (e - 1)

/-! ### Packets of a transfer -/

/-- The pieces of `n` bytes at a remote offset, split at 4 KiB boundaries of the offset: position and length (R334). -/
def pieces (off n : Nat) : List (Nat × Nat) :=
  if n = 0 then []
  else (List.range ((off + n - 1) / 4096 - off / 4096 + 1)).map (fun i =>
    let lo := max off ((off / 4096 + i) * 4096)
    let hi := min (off + n) ((off / 4096 + i + 1) * 4096)
    (lo - off, hi - lo))

/-- The POISON word of data: bit i where any word of line i is marked (R338). -/
def poisonWord (bs : List MarkByte) : Nat :=
  sumOf ((List.range (ceilDiv bs.length 64)).map (fun i => b2n (((bs.drop (64 * i)).take 64).any (·.2)) * 2 ^ i))

/-- A packet with data. -/
def withData (p : Pkt) (bs : List MarkByte) : Pkt :=
  { p with len := BitVec.ofNat 13 bs.length, data := bs.map (·.1), poison := BitVec.ofNat 64 (poisonWord bs) }

/-- The fields of a packet to a remote address (R326). -/
def State.toRemote (s : State) (cls typ dst part key off srcPart : Nat) : Pkt :=
  { s.blank cls typ with
    dst := Fin.ofNat 4096 dst, part := Fin.ofNat 16 part, key := BitVec.ofNat 16 key, off := BitVec.ofNat 40 off
    srcPart := Fin.ofNat 16 srcPart, bar := BitVec.ofNat 16 s.bar }

/-! ### FCOPY (R75, R96, R335) -/

/-- LEN of an FCOPY. -/
def fcLen (c : Cmd) : Nat := bits c.w1 63 33

/-- The rows an FCOPY reads, or why it may not (R335, R388); scratchpad rows are of the lowest tile. -/
def State.fcopyRow (s : State) (g : Go) (x : Ecc) (r : Nat) : Except Cause (List MarkByte) :=
  let a := bits g.c.w3 47 0 + r * fcLen g.c
  if g.c.w3.testBit 63 then
    let bs := s.sram (g.c.tile0 g.set) false (bits g.c.w3 31 0 + r * fcLen g.c) (fcLen g.c)
    .ok (if g.second && eccBad x (g.c.tile0 g.set) then bs.map (fun b => (b.1, true)) else bs)
  else if inView a then .error .view
  else if (s.ownerOf g.set).isSome ∧ s.mayRead (s.partOf g.set) a (fcLen g.c) = true then .ok (s.devMarked a (fcLen g.c))
  else .error .access

/-- The destination of an FCOPY: its package, or the holder of its rank (R96, R326). -/
def State.fcopyDst (s : State) (c : Cmd) : Option Nat :=
  if c.w1.testBit 12 then s.holder (bits c.w1 11 0) else some (bits c.w1 11 0)

/-- A packet of an FCOPY at a remote offset (R335). -/
def State.fcopyPkt (s : State) (set typ : Nat) (f : FcopySt) (off : Nat) : Pkt :=
  { s.toRemote 1 typ f.dst f.part f.key off (s.partOf set) with
    arr := BitVec.ofNat 5 f.arr, dset := BitVec.ofNat 6 f.dset }

/-- Send a row of an FCOPY as SDATA (R335). -/
def State.sendRow (s : State) (set idx : Nat) (f : FcopySt) (off : Nat) (bs : List MarkByte) : State :=
  (pieces off bs.length).foldl (fun t (o, n) =>
    let p := withData (t.fcopyPkt set 0x08 f (off + o)) ((bs.drop o).take n)
    t.issueOp (copyUnit (set % 16)) p (.fcopy set idx)) s

/-- FCOPY at its issue (R96, R335): its causes, or its packets sent and its record; a Set in poison marks all it sends (R81,
R149). -/
def State.fcopyIssue (s : State) (g : Go) (x : Ecc) : State × FlightKind × Eff :=
  let ecc := if g.c.w3.testBit 63 ∧ g.n ≠ 0 then eccEff [g.c.tile0 g.set] x else .none
  let mark := s.on R.SCHED_STATUS_POISON g.set
  let rows := (List.range g.n).map (fun i => (s.fcopyRow g x i).map (fun bs => if mark then bs.map (fun b => (b.1, true)) else bs))
  let bad := (rows.filterMap (fun r => match r with | .error c => some c | .ok _ => none)).eraseDups
  let rank := if (s.fcopyDst g.c).isNone then [Cause.rank] else []
  let causes := rank ++ bad ++ ecc.causes
  let f : FcopySt := {
    dst := (s.fcopyDst g.c).getD 0, part := bits g.c.w1 16 13, key := bits g.c.w1 32 17, off := bits g.c.w2 39 0,
    arr := bits g.c.w2 44 40, dset := bits g.c.w2 50 45, left := [], lost := decide (rank ++ bad ≠ []), rows := [] }
  let e := { ecc with causes := causes }
  if causes ≠ [] ∧ g.second = false then (s, .plain, e)
  else if rank ++ bad ≠ [] then (s, .fcopy f, e)
  else
    let from_ := s.nextId (copyUnit (g.set % 16))
    let t := rows.zipIdx.foldl (fun t (r, i) => match r with
      | .ok bs => t.sendRow g.set g.idx f (f.off + i * fcLen g.c) bs
      | .error _ => t) s
    let count := sumOf ((List.range g.n).map (fun i => (pieces (f.off + i * fcLen g.c) (fcLen g.c)).length))
    let sent := rows.zipIdx.filterMap (fun (r, i) => match r with
      | .ok bs => some (f.off + i * fcLen g.c, bs)
      | .error _ => none)
    let f := { f with left := (List.range count).map (from_ + ·), rows := if mark then [] else sent }
    (t, .fcopy f, e)

/-- FCOPY (R335). -/
def fcopyEffect (set : Nat) (x : Ecc) (s : State) : State := s.issueEvent set (isOp 7) (fun s g => s.fcopyIssue g x)

/-- FCOPY. -/
def execFcopy (set : SetId) (x : Ecc) (s : State) : Res := .next (fcopyEffect set x s)

/-! ### Copy descriptors (R333, R334) -/

/-- A descriptor's words. -/
structure DescWords where
  w0 : Nat
  roff : Nat
  laddr : Nat
  w3 : Nat
  w4 : Nat
  operand : Nat
  compare : Nat
  w7 : Nat
  deriving DecidableEq, Repr

/-- The descriptor at an address. -/
def State.descAt (s : State) (a : Nat) : DescWords :=
  let w := fun (i : Nat) => s.devWord (a + 8 * i)
  ⟨w 0, w 1, w 2, w 3, w 4, w 5, w 6, w 7⟩

/-- Entries of an engine's ring. -/
def State.copyRing (s : State) (e : Nat) : Nat := 2 ^ s.rd R.COPY_RING_LOG2N e

/-- The descriptors of an engine in flight. -/
def State.inFlight (s : State) (e : Nat) : List Desc := s.fab.descs.filter (fun d => d.eng = e)

/-- The next descriptor of an engine, if it may be taken now (R334). -/
def State.nextDescOf (s : State) (e : Nat) : Option DescWords :=
  let h := s.rd R.COPY_HEAD_HEAD e
  let d := s.descAt (s.rd R.COPY_RING_BASE e + 64 * h)
  if s.on R.COPY_CTL_EN e ∧ h ≠ s.rd R.COPY_TAIL_TAIL e % s.copyRing e ∧ (s.inFlight e).length < 64 ∧
      (d.w0.testBit 5 = false ∨ s.inFlight e = []) then some d else none

/-- Whether a descriptor is malformed (R13, R334): reserved codes and bits, lengths, a local Set above S47, a local
range outside the partition, a rank that nobody holds (log 30). -/
def State.descBad (s : State) (part : Nat) (d : DescWords) : Bool :=
  let op := bits d.w0 3 0
  let len := bits d.w3 31 0
  let moves := op = 0 ∨ op = 1
  decide (3 < op) || !onlyBits d.w0 0xFFFFFFFF7F || !onlyBits d.roff (2 ^ 40 - 1) || !onlyBits d.laddr (2 ^ 48 - 1) ||
  !onlyBits d.w3 (2 ^ 38 - 1) || !onlyBits d.w4 0xFFF || !onlyBits d.w7 (2 ^ 48 - 1) ||
  (decide moves && (len = 0 || decide (len % 64 ≠ 0) || !s.inPart part d.laddr len)) ||
  (op = 2 && decide (3 < bits d.w3 35 32)) ||
  (d.w4.testBit 11 && decide (47 < bits d.w4 10 5)) ||
  (decide (op ≠ 3) && d.w0.testBit 4 && (s.holder (bits d.w0 19 8)).isNone)

/-- Take the descriptor at the head: its record goes in flight, and the head moves (R334). -/
def State.takeDesc (s : State) (e : Nat) (d : DescWords) : State × Desc :=
  let h := s.rd R.COPY_HEAD_HEAD e
  let bad := s.descBad (s.rd R.COPY_CTL_PART e) d
  let dst := if d.w0.testBit 4 then (s.holder (bits d.w0 19 8)).getD 0 else bits d.w0 19 8
  let x : Desc := {
    eng := e, num := s.fab.nextDesc, index := h, op := bits d.w0 3 0, dst := dst, part := bits d.w0 23 20,
    key := bits d.w0 39 24, roff := d.roff, laddr := d.laddr,
    arr := if d.w4.testBit 11 then some (bits d.w4 10 5, bits d.w4 4 0) else none,
    irq := d.w0.testBit 6, cpl := d.w7, bar := s.bar, status := if bad then 8 else 0, old := 0, left := [],
    committed := false }
  let s := { s with fab := { s.fab with descs := s.fab.descs ++ [x], nextDesc := s.fab.nextDesc + 1 } }
  let s := s.wr R.COPY_HEAD_HEAD ((h + 1) % s.copyRing e) e
  (if bad then s.raise E.COPY_MALFORMED e [h] else s, x)

/-- Change a descriptor in flight. -/
def State.setDesc (s : State) (num : Nat) (f : Desc → Desc) : State :=
  { s with fab := { s.fab with descs := s.fab.descs.map (fun d => if d.num = num then f d else d) } }

/-- Issue the parts of a transfer; `mk` makes the packet of a part (R334). -/
def State.sendParts (s : State) (x : Desc) (ps : List (Nat × Nat)) (mk : State → Nat → Nat → Pkt) : State :=
  let u := copyUnit x.eng
  let from_ := s.nextId u
  let s := ps.foldl (fun t (o, n) => t.issueOp u (mk t o n) (.copyPart x.eng x.num o)) s
  s.setDesc x.num (fun d => { d with left := (List.range ps.length).map (from_ + ·) })

/-- COPY_PUT (R334): local lines go as UDATA. -/
def copyPutEffect (e : Nat) (s : State) : State :=
  match s.nextDescOf e with
  | some d =>
    if bits d.w0 3 0 = 0 then
      let (s, x) := s.takeDesc e d
      if x.status ≠ 0 then s
      else
        let len := bits d.w3 31 0
        s.sendParts x (pieces d.roff len) (fun t o n =>
          withData (t.toRemote 3 0x1B x.dst x.part x.key (d.roff + o) (t.rd R.COPY_CTL_PART e)) (t.devMarked (d.laddr + o) n))
    else s
  | none => s

/-- COPY_PUT. -/
def execCopyPut (eng : CopyId) (s : State) : Res := .next (copyPutEffect eng s)

/-- COPY_GET (R334): LOAD requests for the remote bytes. -/
def copyGetEffect (e : Nat) (s : State) : State :=
  match s.nextDescOf e with
  | some d =>
    if bits d.w0 3 0 = 1 then
      let (s, x) := s.takeDesc e d
      if x.status ≠ 0 then s
      else s.sendParts x (pieces d.roff (bits d.w3 31 0)) (fun t o n =>
        { t.toRemote 3 0x18 x.dst x.part x.key (d.roff + o) (t.rd R.COPY_CTL_PART e) with len := BitVec.ofNat 13 n })
    else s
  | none => s

/-- COPY_GET. -/
def execCopyGet (eng : CopyId) (s : State) : Res := .next (copyGetEffect eng s)

/-- COPY_ATOMIC (R333): one remote atomic. -/
def copyAtomicEffect (e : Nat) (s : State) : State :=
  match s.nextDescOf e with
  | some d =>
    if bits d.w0 3 0 = 2 then
      let (s, x) := s.takeDesc e d
      if x.status ≠ 0 then s
      else s.sendParts x [(0, 0)] (fun t _ _ =>
        { t.toRemote 3 0x1A x.dst x.part x.key d.roff (t.rd R.COPY_CTL_PART e) with
          aop := BitVec.ofNat 4 (bits d.w3 35 32), wide := d.w3.testBit 36, uns := d.w3.testBit 37
          data := toLE 8 d.operand ++ toLE 8 d.compare })
    else s
  | none => s

/-- COPY_ATOMIC. -/
def execCopyAtomic (eng : CopyId) (s : State) : Res := .next (copyAtomicEffect eng s)

/-- COPY_FENCE (R333): no transfer; a descriptor with a reserved OP is taken here too, and is malformed. -/
def copyFenceEffect (e : Nat) (s : State) : State :=
  match s.nextDescOf e with
  | some d => if 3 ≤ bits d.w0 3 0 then (s.takeDesc e d).1 else s
  | none => s

/-- COPY_FENCE. -/
def execCopyFence (eng : CopyId) (s : State) : Res := .next (copyFenceEffect eng s)

/-- Whether a descriptor has nothing outstanding (R334): its UCOMMIT, where it sends one, is answered too. -/
def Desc.over (d : Desc) : Bool := d.left.isEmpty && (d.committed || d.arr.isNone || decide (d.op ≠ 0) || decide (d.status ≠ 0))

/-- The UCOMMIT of a PUT whose data is all acknowledged (R334): it carries the bar in which it is sent. -/
def State.putCommit (s : State) (d : Desc) : State :=
  match d.arr with
  | some (set, arr) =>
    if d.op = 0 ∧ d.left = [] ∧ d.committed = false ∧ d.status = 0 then
      let u := copyUnit d.eng
      let p := { s.toRemote 3 0x1C d.dst d.part d.key d.roff (s.rd R.COPY_CTL_PART d.eng) with
        arr := BitVec.ofNat 5 arr, dset := BitVec.ofNat 6 set, arrEn := true }
      let id := s.nextId u
      (s.issueOp u p (.copyCommit d.eng d.num)).setDesc d.num (fun x => { x with left := [id], committed := true })
    else s
  | none => s

/-- The group that signals an engine's completions (R382). -/
def State.copyGroup (s : State) (e : Nat) : Nat :=
  if s.locked (s.rd R.COPY_CTL_PART e) then s.rd R.COPY_CTL_PART e else 16

/-- Finish a descriptor (R333, R334): a GET's increment, the completion record, the count, the interrupt. -/
def State.endDesc (s : State) (d : Desc) : State :=
  let s := { s with fab := { s.fab with descs := s.fab.descs.filter (fun x => x.num ≠ d.num) } }
  let s := match d.arr with
    | some (set, arr) =>
      if d.op = 1 ∧ d.status = 0 then (if d.bar = s.bar then s.arrive set arr else s.raise E.SCHED_ARR_STALE set) else s
    | none => s
  let s := if d.cpl = 0 then s
    else s.devWrite d.cpl (clean ([d.status, s.stamp, d.old, d.index].flatMap (toLE 8)))
  let s := s.bump R.COPY_DONE_DESCS 1 d.eng
  if d.irq then s.signal (s.copyGroup d.eng) (s.rd R.PCIE_GRP_CTL_COPY_VEC 0 (s.copyGroup d.eng)) else s

/-- COPY_COMPLETE (R334): the descriptor at a ring index whose transfers are all answered. -/
def copyCompleteEffect (e i : Nat) (s : State) : State :=
  match s.fab.descs.find? (fun d => d.eng = e && d.index = i && d.over) with
  | some d => s.endDesc d
  | none => s

/-- COPY_COMPLETE. -/
def execCopyComplete (eng : CopyId) (index : Nat) (s : State) : Res := .next (copyCompleteEffect eng index s)

/-! ### Answers to the copy engines (R334, R336, R339) -/

/-- An FCOPY packet is answered: not OK abandons the FCOPY, and what of it is not sent yet never is (R336). -/
def State.fcopyAnswer (s : State) (set idx reqid status : Nat) : State :=
  let unsent := s.fab.ops.filter (fun o => (o.waiting || (o.port.isNone && o.lost.isNone && decide (o.dst ≠ s.pkgId))) &&
    decide (o.owner = .fcopy set idx) && decide (status ≠ 0))
  let s := { s with fab := { s.fab with ops := s.fab.ops.filter (fun o => !unsent.contains o) } }
  let x := s.st set
  let upd := fun (f : Flight) => match f.kind with
    | .fcopy k => if f.idx = idx ∧ k.left.contains reqid then
        { f with kind := .fcopy { k with
          left := (k.left.erase reqid).filter (fun n => !unsent.any (fun o => o.reqid = n)), lost := k.lost || decide (status ≠ 0) } } else f
    | _ => f
  s.setSt set { x with flights := x.flights.map upd }

/-- An SCOMMIT is answered (R335, R336): OK counts the FCOPY as committed at its destination. -/
def State.scommitAnswer (s : State) (set status : Nat) : State :=
  if status = 0 then s.bump R.COPY_FCOPY_COMMITTED 1 (set % 16) else s.raise E.COPY_ABANDONED (set % 16) [set]

/-- A part of a descriptor is answered: GET data lands, an ATOMIC's old value is kept, the first bad status stays, and the
descriptor takes on the bar of its last answer, which a GET's increment carries; a PUT with all its data acknowledged commits
(R334). -/
def State.partAnswer (s : State) (num off reqid status : Nat) (data : List MarkByte) : State :=
  match s.fab.descs.find? (fun d => d.num = num) with
  | some d =>
    let s := if d.op = 1 then s.devWrite (d.laddr + off) data else s
    let old := if d.op = 2 then ofLE (data.map (·.1)) else d.old
    let d := { d with
      left := d.left.erase reqid, status := if d.status = 0 then status else d.status, old := old, bar := s.bar }
    (s.setDesc num (fun _ => d)).putCommit d
  | none => s

end Sys2Proof.Machine
end

