-- ==== Sys2Proof/Machine/Promenade.lean ====
section
/-! DEFINITION. The Promenade engines: what a move writes, the three queues, and the allowance of a bar (R307, R308, R312). -/

namespace Sys2Proof.Machine

/-! ### What a move writes (R305, R307) -/

/-- Bytes of DST. -/
def Move.size (m : Move) : Nat := if m.kind = 2 then m.len * m.count else m.len

/-- Whether the engines write the move's bytes line by line; those of another move are written when the command that ends it is
taken, and until then a reader may see any mixture (R307). -/
def Move.byLine (m : Move) : Bool :=
  match m.why with
  | .prefetch _ | .sample _ _ _ _ _ => true
  | _ => false

/-- The 64-byte lines of a range that a die owns, counted from its start (R305). -/
def State.ownLines (s : State) (a n die : Nat) : List Nat :=
  (List.range (n / 64)).filter (fun i => s.ownerDie (a + 64 * i) = die)

/-- How many lines of some ranges each die owns. -/
def State.linesOf (s : State) (rs : List (Nat × Nat)) : List Nat :=
  (List.range 4).map (fun die => sumOf (rs.map (fun r => (s.ownLines r.1 r.2 die).length)))

/-- Line `i` of what a move writes (R307). What lies on a failed page of NV comes from the replica holder (R297); its bytes are taken
as those that were programmed, whose digest the holder's copy shares (DESIGN CHOICE, log 204). -/
def State.moveLine (s : State) (m : Move) (i : Nat) : List MarkByte :=
  if m.kind = 1 then clean (mgetList 0 s.nv.data (m.slot * 2 ^ 40 + m.src + 64 * i) 64)
  else s.devMarked (m.src + (if m.kind = 2 then 64 * i % max 1 m.len else 64 * i)) 64

/-! ### Queues and allowance (R308) -/

/-- Whether a vendor's debugger keeps NV slots shut (R470). -/
def State.nvShut (s : State) : Bool := s.on R.SEC_STATUS_DEBUG && s.on R.SEC_STATUS_DEBUG_KIND

/-- Put a move that writes some ranges into its queue; a read of an NV slot is refused while KIND 1 debug is unlocked (R470). -/
def State.queueMove (s : State) (m : Move) (rs : List (Nat × Nat)) : State :=
  if m.byLine ∧ m.kind = 1 ∧ s.nvShut = true then s
  else { s with moves := s.moves ++ [{ m with todo := s.linesOf rs }] }

/-- A move with no data of its own: its queue, its partition, whether it reads and writes HBM, and what it is for. -/
def jobMove (queue part : Nat) (fromHbm toHbm : Bool) (why : MoveFor) : Move :=
  { queue := queue, kind := b2n (!fromHbm), part := part, slot := 0, src := 0, dst := if toHbm then 0 else 0x010000000000
    len := 0, count := 0, todo := [0, 0, 0, 0], why := why }

/-- The place of the move a die's engine works on: the first, in the highest queue, of which it has lines left to write. While the
memories are in self-refresh the engines stand still (R420). -/
def State.frontOf (s : State) (die : Nat) : Option Nat :=
  if s.power.selfRefresh then none
  else (List.range 3).findSome? (fun q => s.moves.findIdx? (fun m => decide (m.queue = q) && decide (m.todo.getD die 0 ≠ 0)))

/-- Whether a device address is in HBM (R304). -/
def inHbm (a : Nat) : Bool := decide (a < 0x8000000000)

/-- HBM bytes that writing one line of a move touches, read and written (R308); they are charged to the engine that writes
the line (log 171). -/
def Move.lineCost (m : Move) : Nat := 64 * (b2n (inHbm m.dst) + b2n (decide (m.kind ≠ 1) && inHbm m.src))

/-- The lines of a move that the bar's allowance still lets a die write (R308): with no Figure loaded there is no limit, nor
with ALLOW 0. -/
def State.allowed (s : State) (m : Move) (die : Nat) : Nat :=
  let left := m.todo.getD die 0
  let allow := s.rd R.PROM_ALLOW_ALLOW
  if allow = 0 ∨ s.tempo.barOn = false ∨ m.lineCost = 0 then left
  else min left ((allow * 1000000 - s.weights.used.getD die 0) / m.lineCost)

/-- Write the next `n` lines of a die's part. -/
def State.writeLines (s : State) (m : Move) (die n : Nat) : State :=
  if m.byLine then
    let ls := s.ownLines m.dst m.size die
    ((ls.drop (ls.length - m.todo.getD die 0)).take n).foldl (fun t i => t.devWrite (m.dst + 64 * i) (s.moveLine m i)) s
  else s

/-- A die's engine works on the move at a place of the queues: it writes what the allowance lets it, raises ALLOW_HIT where
lines are left, and counts the move where its part is done (R308, R312). -/
def State.turn (s : State) (die i : Nat) : State :=
  match s.moves[i]? with
  | none => s
  | some m =>
    let left := m.todo.getD die 0
    let n := s.allowed m die
    let t := s.writeLines m die n
    let t := { t with
      moves := t.moves.set i { m with todo := m.todo.set die (left - n) }
      weights := { t.weights with used := t.weights.used.set die (t.weights.used.getD die 0 + n * m.lineCost) } }
    let t := t.bump R.PROM_BYTES_BYTES (64 * n) die
    if n < left then t.raise E.PROM_ALLOW_HIT die else t.bump R.PROM_MOVES_MOVES 1 die

/-- Whether every part of a move is written. -/
def Move.written (m : Move) : Bool := m.todo.all (· = 0)

/-- Every engine that works on the move for something goes on with it: the state after, and whether it is written. -/
def State.runJob (s : State) (why : MoveFor) : State × Bool :=
  match s.moves.findIdx? (fun m => decide (m.why = why)) with
  | none => (s, true)
  | some i =>
    let t := (List.range 4).foldl (fun (t : State) die => if t.frontOf die = some i then t.turn die i else t) s
    (t, (t.moves[i]?).all Move.written)

/-- Take the move for something out of its queue. -/
def State.dropJob (s : State) (why : MoveFor) : State := { s with moves := s.moves.filter (fun m => decide (m.why ≠ why)) }

/-- Leave the move for something to run out with no effect: a move is never cut short (R307). -/
def State.orphanJob (s : State) (why : MoveFor) : State :=
  { s with moves := s.moves.map (fun m => if m.why = why then { m with why := .none } else m) }

/-- Moves waiting in a queue of a die's engine (R312): those of which it has lines left to write, 255 where they are more
(DESIGN CHOICE, log 206). -/
def State.queued (s : State) (die q : Nat) : Nat :=
  min 255 (s.moves.filter (fun m => decide (m.queue = q) && decide (m.todo.getD die 0 ≠ 0))).length

end Sys2Proof.Machine
end

