-- ==== Sys2Proof/Machine/KvPool.lean ====
section
/-! DEFINITION. The Caller's side of the KV cache: frames, free and quarantine stacks, page tables, mapping and eviction
(R235, R240, R245, R246). -/

namespace Sys2Proof.Machine

/-! ### Frames -/

/-- FREE_BASE and FREE_TOP, QUAR_BASE and QUAR_TOP of a partition (R237). -/
def State.freeTop (s : State) (p : Nat) : Nat := bits (s.devWord ((s.kvDesc p).base + 64)) 23 0
/-- Base of the free-frame stack. -/
def State.freeBase (s : State) (p : Nat) : Nat := bits (s.devWord ((s.kvDesc p).base + 56)) 47 0
/-- Frames in quarantine. -/
def State.quarTop (s : State) (p : Nat) : Nat := bits (s.devWord ((s.kvDesc p).base + 80)) 23 0
/-- Base of the quarantine stack. -/
def State.quarBase (s : State) (p : Nat) : Nat := bits (s.devWord ((s.kvDesc p).base + 72)) 47 0

/-- Counter words of the KV descriptor that the Caller writes (R237): EVICTED, REPREFILL, QUARANTINED. -/
def kvEvicted : Nat := 16
/-- REPREFILL. -/
def kvReprefill : Nat := 18
/-- QUARANTINED. -/
def kvQuarantined : Nat := 19

/-- Add to a counter of the KV descriptor. -/
def State.kvCount (s : State) (p word n : Nat) : State :=
  let a := (s.kvDesc p).base + 8 * word
  s.devSetNat a 8 ((s.devWord a + n) % 2 ^ 64)

/-- Pop `n` frames from the free stack; the frames in the order popped. -/
def State.popFrames (s : State) (p n : Nat) : State × List Nat :=
  let top := s.freeTop p
  let fs := (List.range n).map (fun i => s.devNat (s.freeBase p + 4 * (top - 1 - i)) 4)
  (s.devSetNat ((s.kvDesc p).base + 64) 8 (top - n), fs)

/-- Push frames on the free stack. -/
def State.pushFrames (s : State) (p : Nat) (fs : List Nat) : State :=
  let top := s.freeTop p
  let s := s.devSet (s.freeBase p + 4 * top) (fs.flatMap (toLE 4))
  s.devSetNat ((s.kvDesc p).base + 64) 8 (top + fs.length)

/-- A cleared tag (R235). -/
def tagBytes : List Byte := toLE 8 0 ++ toLE 8 (2 ^ 64 - 1) ++ toLE 8 0 ++ toLE 8 0

/-- The cleared tags of a frame. -/
def frameTags : List Byte := (List.range 64).flatMap (fun _ => tagBytes)

/-- Clear every tag of a frame (R235). -/
def State.clearTags (s : State) (p f : Nat) : State := s.devSet ((s.kvDesc p).tagAt f 0) frameTags

/-- The frames that a page table lists. -/
def State.tableFrames (s : State) (root : Nat) : List Nat := (List.range (s.ptNf root)).map (s.ptFrame root)

/-- The ranges of a frame: its main pages, its draft pages and its tags. -/
def State.frameParts (s : State) (p f : Nat) : List (Nat × Nat) :=
  let d := s.kvDesc p
  [(d.mainPage f 0, d.lm * d.pm), (d.draftPage f 0, d.ld * d.pd), (d.tagAt f 0, 2048)]

/-- Frames of quarantined sets wait for a Promenade engine to rewrite them (R240, R308). -/
def State.quarantine (s : State) (p : Nat) (fs : List Nat) : State :=
  let top := s.quarTop p
  let s := s.devSet (s.quarBase p + 4 * top) (fs.flatMap (toLE 4))
  let s := s.devSetNat ((s.kvDesc p).base + 80) 8 (top + fs.length)
  let s := s.kvCount p kvQuarantined fs.length
  fs.foldl (fun t f => t.queueMove (jobMove 1 p false true (.quarantine p f)) (t.frameParts p f)) s

/-- The end of a frame's rewrite (R240): null pages, cleared tags, and back to the free stack. -/
def State.rewriteFrame (s : State) (p f : Nat) : State :=
  let d := s.kvDesc p
  let s := (List.range d.lm).foldl (fun t l => t.devLoad (d.mainPage f l) (t.nullPage d false l)) s
  let s := (List.range d.ld).foldl (fun t l => t.devLoad (d.draftPage f l) (t.nullPage d true l)) s
  let s := (s.devLoad (d.tagAt f 0) frameTags).devSetNat (d.base + 80) 8 (s.quarTop p - 1)
  let qs := ((List.range (s.quarTop p + 1)).map (fun i => s.devNat (s.quarBase p + 4 * i) 4)).erase f
  let s := s.devSet (s.quarBase p) (qs.flatMap (toLE 4))
  (s.bump R.CALLER_PART_KVUSE_KV_USED (2 ^ 25 - 64) 0 p).pushFrames p [f]

/-! ### Page tables (R240) -/

/-- A page table with every slot free and every position unmapped. -/
def tableBytes (d : KvDesc) (fs : List Nat) : List Byte :=
  toLE 8 fs.length ++ List.replicate 56 0 ++
  (List.range d.fmax).flatMap (fun j => toLE 4 (fs.getD j 0xFFFFFFFF)) ++
  (List.range d.fmax).flatMap (fun j => toLE 8 (if j < fs.length then 2 ^ 64 - 1 else 0)) ++
  List.replicate (2 * d.mapn) 0xFF

/-- Bytes of a page table. -/
def KvDesc.tableLen (d : KvDesc) : Nat := 64 + 12 * d.fmax + 2 * d.mapn

/-- Pop frames for a sequence, clear their tags and write its page table (R240). -/
def State.newTable (s : State) (p root n : Nat) : State :=
  let (s, fs) := s.popFrames p n
  let s := fs.foldl (fun t f => t.clearTags p f) s
  s.devSet root (tableBytes (s.kvDesc p) fs)

/-- Add frames after those a page table holds (R240). -/
def State.growTable (s : State) (p root n : Nat) : State :=
  let (s, fs) := s.popFrames p n
  let s := fs.foldl (fun t f => t.clearTags p f) s
  let d := s.kvDesc p
  let nf := s.ptNf root
  let s := s.devSet (root + 0x40 + 4 * nf) (fs.flatMap (toLE 4))
  let s := s.devSet (d.bitmapAt root + 8 * nf) (fs.flatMap (fun _ => toLE 8 (2 ^ 64 - 1)))
  s.devSetNat root 8 (nf + fs.length)

/-! ### Mapping and eviction (R245, R246) -/

/-- The lowest free slot of a page table. -/
def State.freeSlot (s : State) (d : KvDesc) (root : Nat) : Option Nat :=
  (List.range (64 * s.ptNf root)).find? (fun k => (s.devByte (d.bitmapAt root + k / 8)).toNat.testBit (k % 8))

/-- Address of the tag of slot `k`. -/
def State.slotTag (s : State) (d : KvDesc) (root k : Nat) : Nat := d.tagAt (s.ptFrame root (k / 64)) (k % 64)

/-- Whether one score is less than another: numeric order, zeros equal, a NaN above every number (R246). -/
def scoreLess (a b : Nat) : Bool :=
  let z := fun (x : Nat) => if x % 2 ^ 31 = 0 then 0 else x
  if isNan a then false else if isNan b then true else decide (fKey (z a) < fKey (z b))

/-- Whether the slot's position may be evicted (R246): used, live, neither a sink nor recent. -/
def State.evictable (s : State) (d : KvDesc) (root c k : Nat) : Bool :=
  let t := s.slotTag d root k
  let w0 := s.devWord t
  let pos := bits w0 23 0
  w0.testBit 24 && decide (s.devWord (t + 8) = 2 ^ 64 - 1) && decide (d.sinks ≤ pos) && decide (pos + d.recent < c)

/-- The victim of an eviction (R246): the least score of the bar's half, the lowest position among equals. -/
def State.victim (s : State) (d : KvDesc) (root c n : Nat) : Option Nat :=
  let score := fun (k : Nat) => s.devNat (s.slotTag d root k + 16 + 4 * (n % 2)) 4
  let pos := fun (k : Nat) => bits (s.devWord (s.slotTag d root k)) 23 0
  ((List.range (64 * s.ptNf root)).filter (s.evictable d root c)).foldl (fun best k => match best with
    | none => some k
    | some b => if scoreLess (score k) (score b) ∨ (scoreLess (score b) (score k) = false ∧ pos k < pos b) then some k
        else some b) none

/-- Map one position to a slot (R245, R246); `none` when no slot is free and no victim exists. -/
def State.mapOne (s : State) (p root c n q : Nat) : Option State :=
  let d := s.kvDesc p
  let put := fun (t : State) (k : Nat) => t.devSetNat (d.mapAt root + 2 * (q % max 1 d.mapn)) 2 k
  match s.freeSlot d root with
  | some k =>
    let a := d.bitmapAt root + k / 8
    let b := (s.devByte a).toNat
    some (put (s.devSetNat a 1 (b - 2 ^ (k % 8))) k)
  | none => match s.victim d root c n with
    | some k => some ((put (s.devSetNat (s.slotTag d root k + 8) 8 (n + 2)) k).kvCount p kvEvicted 1)
    | none => none

/-- Map positions from `q` on, `m` of them, as far as slots and victims go; the first position left unmapped. -/
def State.mapMany (s : State) (p root c n : Nat) : Nat → Nat → State × Nat
  | q, 0 => (s, q)
  | q, m + 1 => match s.mapOne p root c n q with
    | some t => t.mapMany p root c n (q + 1) m
    | none => (s, q)

/-- Map every position below `hi` that is not yet mapped, and move MAPPED_TO (R245); whether a slot or a victim was found for
each: what was released before stays released (R246). -/
def State.mapTo (s : State) (p root c n hi : Nat) : State × Bool :=
  let from_ := s.ptMapped root
  let (t, q) := s.mapMany p root c n from_ (hi - from_)
  (t.devSetNat (root + 8) 8 q, decide (hi ≤ q))

/-- The Caller writes the free-frame stack of a partition at its first OPEN since setup (R237): every frame of the pools, frame
0 lowest, FREE_TOP = NFRAMES, and QUAR_TOP = 0. The order is the model's choice (DESIGN CHOICE, log 176). -/
def State.stackFrames (s : State) (p : Nat) : State :=
  if s.caller.stacked.contains p then s
  else
    let d := s.kvDesc p
    let s := s.devSet (s.freeBase p) ((List.range d.nframes).flatMap (toLE 4))
    let s := (s.devSetNat (d.base + 64) 8 d.nframes).devSetNat (d.base + 80) 8 0
    { s with caller := { s.caller with stacked := p :: s.caller.stacked } }

end Sys2Proof.Machine
end

