-- ==== Sys2Proof/Machine/Doorbells.lean ====
section
/-! DEFINITION. Doorbells (R356, R364 to R366, R400). -/

namespace Sys2Proof.Machine

/-- Drop a doorbell write (R366): DB_BAD, with its group, offset and value latched. -/
def State.badBell (s : State) (g off v : Nat) : State :=
  (((s.raise E.PCIE_DB_BAD 0 [g, off, v]).wr R.PCIE_LAST_DB_GROUP g).wr R.PCIE_LAST_DB_OFFSET off).wr
    R.PCIE_LAST_DB_VALUE v

/-- Slots of a ring from one index to another, going up and wrapping at its size. -/
def ringGap (n lo hi : Nat) : Nat := (hi + n - lo % n) % n

/-- Entries of a group's submission ring. -/
def State.sqSize (s : State) (g : Nat) : Nat := 2 ^ s.rd R.PCIE_GRP_SQ_CFG_LOG2N 0 g

/-- Whether a new SQ tail keeps the ring at most full (R364, R366). -/
def State.sqTailOk (s : State) (g v : Nat) : Bool :=
  let n := s.sqSize g
  let h := s.rd R.PCIE_GRP_SQ_CFG_HEAD 0 g
  let t := s.rd R.PCIE_GRP_SQ_CFG_TAIL 0 g
  decide (v < n) && decide (ringGap n h t + ringGap n t v ≤ n - 1)

/-- Whether a new CQ head does not pass the package's tail (R366). -/
def State.cqHeadOk (s : State) (g c v : Nat) : Bool :=
  let n := s.cqSize g c
  let h := s.rd R.PCIE_CQ_CFG_HEAD 0 g c
  decide (v < n) && decide (ringGap n h v ≤ ringGap n h (s.rd R.PCIE_CQ_CFG_TAIL 0 g c))

/-- Whether a group may move the tail of a copy engine's ring to an index (R365, R366). -/
def State.copyTailOk (s : State) (g e v : Nat) : Bool :=
  decide (v < 2 ^ s.rd R.COPY_RING_LOG2N e) && (g = 16 || s.rd R.COPY_CTL_PART e = g)

/-- A doorbell takes effect (R365, R366). -/
def State.bell (s : State) (g off v : Nat) : State :=
  if s.on R.PCIE_GRP_CTL_EN 0 g = false then s.badBell g off v
  else if off = 0 then
    if s.sqTailOk g v then s.wr R.PCIE_GRP_SQ_CFG_TAIL v 0 g else s.badBell g off v
  else if off < 0x100 then
    if s.copyTailOk g ((off - 0x40) / 8) v then s.wr R.COPY_TAIL_TAIL v ((off - 0x40) / 8) else s.badBell g off v
  else
    let c := (off - 0x100) / 8
    if s.cqHeadOk g c v then (s.wr R.PCIE_CQ_CFG_HEAD v 0 g c).cqDrain g c ((s.cq g c).blCount + (s.cq g c).waiting.length) else s.badBell g off v

/-- A write to a doorbell page (R356, R366, R400): the PF's to a page a VF serves is dropped; one of another size is
bad; one to a partition in reset is held. -/
def State.ring (s : State) (g off : Nat) (fromPf : Bool) (size v : Nat) : State :=
  let vf := s.on R.PCIE_GRP_CTL_VF 0 g
  if fromPf ∧ vf then s.raise E.PCIE_PF_DROP 0 [g]
  else if fromPf = false ∧ vf = false then s
  else if size ≠ 4 ∧ size ≠ 8 then s.badBell g off v
  else if g < 16 ∧ s.rd R.PART_STATUS_STATE g = 2 then
    { s with host := { s.host with bells := s.host.bells ++ [⟨g, off, v⟩] } }
  else s.bell g off v

/-- SQ_TAIL (R365). -/
def sqTailEffect (g : Nat) (fromPf : Bool) (size v : Nat) (s : State) : State := s.ring g 0 fromPf size (v % 65536)

/-- SQ_TAIL. -/
def execSqTail (grp : GroupId) (fromPf : Bool) (size : Nat) (val : Word) (s : State) : Res :=
  .next (sqTailEffect grp fromPf size val.toNat s)

/-- COPY_TAIL (R334, R365). -/
def copyTailEffect (g e : Nat) (fromPf : Bool) (size v : Nat) (s : State) : State :=
  s.ring g (0x40 + 8 * e) fromPf size (v % 65536)

/-- COPY_TAIL. -/
def execCopyTail (grp : GroupId) (eng : CopyId) (fromPf : Bool) (size : Nat) (val : Word) (s : State) : Res :=
  .next (copyTailEffect grp eng fromPf size val.toNat s)

/-- CQ_HEAD (R365, R378, R380): entries are released, and the backlog drains into their slots. -/
def cqHeadEffect (g c : Nat) (fromPf : Bool) (size v : Nat) (s : State) : State :=
  s.ring g (0x100 + 8 * c) fromPf size (v % 65536)

/-- CQ_HEAD. -/
def execCqHead (grp : GroupId) (cq : CqId) (fromPf : Bool) (size : Nat) (val : Word) (s : State) : Res :=
  .next (cqHeadEffect grp cq fromPf size val.toNat s)

end Sys2Proof.Machine
end

