-- ==== Sys2Proof/Machine/Requests.lean ====
section
/-! DEFINITION. Taking requests: types, fields, and the submission ring (R367 to R370, R373, R400). -/

namespace Sys2Proof

/-- Word `i` of a request, counted from word 0; its own words begin at word 3 (R369). -/
def Req.w (r : Req) (i : Nat) : Nat := (r.body.getD (i - 3) 0).toNat

/-- Bits [hi:lo] of word `i` of a request (R370). -/
def Req.f (r : Req) (i hi lo : Nat) : Nat := Machine.bits (r.w i) hi lo

end Sys2Proof

namespace Sys2Proof.Machine

/-! ### Status codes (R208, R373) -/

/-- Status codes of completions. -/
def stNoSlot : Nat := 0x01
/-- NO_KV. -/
def stNoKv : Nat := 0x02
/-- TABLE_FULL. -/
def stTableFull : Nat := 0x03
/-- STALE. -/
def stStale : Nat := 0x04
/-- NOT_FOUND. -/
def stNotFound : Nat := 0x05
/-- BAD_STATE. -/
def stBadState : Nat := 0x06
/-- BAD_ARG. -/
def stBadArg : Nat := 0x07
/-- REHOMED. -/
def stRehomed : Nat := 0x08
/-- EXPIRED. -/
def stExpired : Nat := 0x09
/-- LOST. -/
def stLost : Nat := 0x0A
/-- CLOSED. -/
def stClosed : Nat := 0x0B
/-- TIMEOUT. -/
def stTimeout : Nat := 0x0C
/-- DENIED. -/
def stDenied : Nat := 0x10
/-- BOUNDS. -/
def stBounds : Nat := 0x11
/-- LATE. -/
def stLate : Nat := 0x12
/-- SUPERSEDED. -/
def stSuperseded : Nat := 0x13
/-- FIGURE_BAD. -/
def stFigureBad : Nat := 0x14
/-- FULL. -/
def stFull : Nat := 0x15
/-- SIG_BAD. -/
def stSigBad : Nat := 0x16
/-- MANIFEST_BAD. -/
def stManifestBad : Nat := 0x17
/-- BUSY. -/
def stBusy : Nat := 0x18
/-- EPOCH_OLD. -/
def stEpochOld : Nat := 0x19
/-- VERIFY. -/
def stVerify : Nat := 0x1A
/-- WORN. -/
def stWorn : Nat := 0x1B
/-- RANK_MISMATCH. -/
def stRankMismatch : Nat := 0x1C
/-- STAGE_FAIL. -/
def stStageFail : Nat := 0x1D
/-- NOT_READY. -/
def stNotReady : Nat := 0x1E
/-- BAD_TABLE. -/
def stBadTable : Nat := 0x1F
/-- CANCELLED. -/
def stCancelled : Nat := 0x20
/-- HOST_ERR. -/
def stHostErr : Nat := 0x21
/-- RESET. -/
def stReset : Nat := 0xFD
/-- MALFORMED. -/
def stMalformed : Nat := 0xFF

/-! ### Fields (R369, R370) -/

/-- The bits of words 3 onward that a request type uses; `none` where the type is not listed (R370). -/
def bodyMasks (typ : Nat) : Option (List Nat) :=
  let w64 := 2 ^ 64 - 1
  let w48 := 2 ^ 48 - 1
  let w32 := 2 ^ 32 - 1
  match typ with
  | 0x01 => some [2 ^ 40 - 1, w32, w64, w48, 2 ^ 24 - 1, w48]
  | 0x02 => some []
  | 0x03 => some [w32]
  | 0x04 => some [w32]
  | 0x05 => some [2 ^ 14 - 1]
  | 0x10 => some [w48, w32, w64, w64, w64, w64, w64, w64, w64]
  | 0x11 => some [3, w48]
  | 0x12 => some [w64, w48, w32]
  | 0x13 => some [w64, w48, w32]
  | 0x14 => some [w48, w48, w48]
  | 0x20 => some [w48]
  | 0x21 => some [0xF, w48]
  | 0x22 => some [1, w64, w32, w64]
  | 0x23 => some []
  | 0x24 => some [1]
  | 0x25 => some [2 ^ 38 - 1]
  | 0x26 => some [w64, w32, w64, w32]
  | 0x27 => some [w32, w64, 1]
  | _ => none

/-- Whether a type is listed for a group's ring (R363, R370). -/
def typeAllowed (g typ : Nat) : Bool :=
  (bodyMasks typ).isSome && (if g < 16 then decide (typ < 0x20) else decide (0x20 ≤ typ) || typ = 0x12 || typ = 0x13)

/-- Whether a value has bits outside a mask. -/
def stray (x mask : Nat) : Bool := decide (x &&& mask ≠ x)

/-- Whether an entry of a listed type has a reserved bit set (R12, R13, R369, R370). -/
def entryBad (typ w0 handle : Nat) (body : List Nat) : Bool :=
  let masks := (bodyMasks typ).getD []
  let onSeq := decide (2 ≤ typ) && decide (typ ≤ 5)
  stray w0 0xFFFF0FFF || stray handle (if onSeq then 2 ^ 46 - 1 else 0) ||
  (body.zipIdx.any (fun (x, i) => stray x (masks.getD i 0)))

/-- The words of an entry's bytes. -/
def entryOf (bs : List Byte) : List Nat := (List.range 16).map (fun i => ofLE ((bs.drop (8 * i)).take 8))

/-- The request that an entry's words give. -/
def reqOf (g : GroupId) (w : List Nat) : Req where
  grp := g
  cq := Fin.ofNat 16 (bits (w.getD 0 0) 11 8)
  cid := BitVec.ofNat 16 (bits (w.getD 0 0) 31 16)
  tag := BitVec.ofNat 64 (w.getD 1 0)
  handle := BitVec.ofNat 64 (w.getD 2 0)
  body := (w.drop 3).map (BitVec.ofNat 64)

/-! ### Taking (R367, R368) -/

/-- Whether an entry of any completion ring of a group waits in firmware memory (R380). -/
def State.anyWaiting (s : State) (g : Nat) : Bool := (List.range 16).any (fun c => (s.cq g c).waiting ≠ [])

/-- Whether a group may take a request (R358, R367, R368, R380), its turn aside. A ring that a partition reset drains is read
whatever is open, since its entries complete at once (R400). -/
def State.mayTake (s : State) (g : Nat) : Bool :=
  s.hostOk g && decide (s.rd R.PCIE_GRP_SQ_CFG_HEAD 0 g ≠ s.rd R.PCIE_GRP_SQ_CFG_TAIL 0 g) &&
  !s.on R.PCIE_GRP_CTL_SQ_HALT 0 g &&
  (decide ((s.openIn g).length < 256) || (decide (g < 16) && decide (s.rd R.PART_STATUS_STATE g = 2))) && !s.anyWaiting g

/-- Whether it is a ring's turn (R189): the Caller takes from the partitions' rings round-robin, from the one after the partition
it served last; group 16 is no partition. -/
def State.ringTurn (s : State) (g : Nat) : Bool :=
  decide (16 ≤ g) || ((List.range 16).map (fun i => (s.caller.served + 1 + i) % 16)).find? s.mayTake == some g

/-- Take a request: the head advances, and it is open (R367). -/
def State.takeReq (s : State) (r : Req) (typ : Nat) : State :=
  let g := r.grp.val
  let s := { s with
    host := { s.host with reqs := s.host.reqs ++ [(⟨r, typ, s.tempo.now⟩ : OpenReq)] }
    caller := { s.caller with served := if g < 16 then g else s.caller.served } }
  let s := s.wr R.PCIE_GRP_SQ_CFG_HEAD ((s.rd R.PCIE_GRP_SQ_CFG_HEAD 0 g + 1) % s.sqSize g) 0 g
  (s.bump R.PCIE_GRP_TAKEN_TAKEN 1 0 g).wr R.PCIE_GRP_SQ_CFG_OPEN (s.openIn g).length 0 g

/-- Complete an entry with a reserved encoding, and record the fault (R13). -/
def State.refuseEntry (s : State) (r : Req) (status : Nat) : State :=
  (s.note 0x8C (.malformedEntry r.grp.val r.cid.toNat)).finish r status

/-- Act on an entry read from the ring (R13, R369, R373, R400). -/
def State.takeEntry (s : State) (g : GroupId) (w : List Nat) : State :=
  let typ := bits (w.getD 0 0) 7 0
  let r := reqOf g w
  let t := s.takeReq r typ
  if g.val < 16 ∧ s.rd R.PART_STATUS_STATE g.val = 2 then t.finish r stReset
  else if (bodyMasks typ).isNone then t.refuseEntry r stDenied
  else if typeAllowed g.val typ = false then t.finish r stDenied
  else if entryBad typ (w.getD 0 0) (w.getD 2 0) (w.drop 3) then t.refuseEntry r stMalformed
  else t

/-- REQUEST_TAKE (R189, R359, R360, R364, R367, R368): the next entry is read, at BASE + 128 * head, and taken; a read that failed halts the ring. -/
def requestTakeEffect (g : GroupId) (entry : HostData) (s : State) : State :=
  if s.mayTake g.val ∧ s.ringTurn g.val = true then
    let s := s.fetch g.val (4096 * s.rd R.PCIE_GRP_SQ_BASE_BASE 0 g.val + 128 * s.rd R.PCIE_GRP_SQ_CFG_HEAD 0 g.val) 128
    match entry with
    | .data bs => s.takeEntry g (entryOf bs)
    | d => ((s.aerRead d).wr R.PCIE_GRP_CTL_SQ_HALT 1 0 g.val).raise E.PCIE_SQ_ERR 0 [g.val]
  else s

/-- REQUEST_TAKE. -/
def execRequestTake (grp : GroupId) (entry : HostData) (s : State) : Res := .next (requestTakeEffect grp entry s)

/-- SQ_RESTART (R368): a halted ring reads its failed entry again. -/
def sqRestartEffect (g : Nat) (s : State) : State := s.wr R.PCIE_GRP_CTL_SQ_HALT 0 0 g

/-- SQ_RESTART. -/
def execSqRestart (grp : GroupId) (s : State) : Res := .next (sqRestartEffect grp.val s)

end Sys2Proof.Machine
end

