-- ==== Sys2Proof/Machine/Transfers.lean ====
section
/-! DEFINITION. Transfers between host and device memory (R354, R358 to R360, R371). -/

namespace Sys2Proof.Machine

/-! ### Reads of host memory -/

/-- Bytes of the longest payload and of the longest read request, and reads outstanding at most (R354). -/
def maxPayload : Nat := 512
/-- Maximum Read Request Size. -/
def maxRead : Nat := 4096
/-- Non-posted requests outstanding. -/
def maxReads : Nat := 512

/-- The Completion Timeout Ranges supported (R359). -/
def timeoutRanges : List Char := ['B', 'C', 'D']

/-- Host reads outstanding. -/
def State.readsOut (s : State) : Nat := (s.host.xfers.filter (fun x => x.tag.isSome)).length

/-- The bytes of a transfer's next read: to the next 4 KiB boundary of the host address (R354). -/
def Xfer.next (x : Xfer) : Nat := min x.left (maxRead - x.haddr % maxRead)

/-- A free tag of the 1,024 that 10 bits give, from the last one used on (R354). -/
def State.newTag (s : State) : Nat :=
  (((List.range 1024).map (fun i => (s.host.nextTag + i) % 1024)).find? (fun t =>
    !s.host.xfers.any (fun x => decide (x.tag = some t)))).getD 0

/-- Start the read of one transfer if it may have one (R354, R358); none while the memories are in self-refresh (R420). -/
def State.startRead (s : State) (x : Xfer) : Xfer × State :=
  if x.tag.isSome ∨ x.left = 0 ∨ s.busOk x.grp = false ∨ maxReads ≤ s.readsOut ∨ s.power.selfRefresh = true then (x, s)
  else
    let t := s.newTag
    ({ x with tag := some t, ask := x.next },
      ({ s with host := { s.host with nextTag := (t + 1) % 1024 } }).emit (.hostRead t (s.fnOf x.grp) x.haddr x.next))

/-- Start every read that may start, oldest transfer first. -/
def State.pump (s : State) : State :=
  s.host.xfers.zipIdx.foldl (fun t (x, i) =>
    let (y, t) := State.startRead t x
    { t with host := { t.host with xfers := t.host.xfers.set i y } }) s

/-- Begin a transfer from the host. -/
def State.addXfer (s : State) (x : Xfer) : State :=
  ({ s with host := { s.host with xfers := s.host.xfers ++ [x] } }).pump

/-- Forget the transfers for a purpose. -/
def State.dropXfer (s : State) (why : ReadFor) : State :=
  { s with host := { s.host with xfers := s.host.xfers.filter (fun x => x.why ≠ why) } }

/-! ### TO_DEVICE and TO_HOST (R371) -/

/-- HBM or the warm shelf, whole (R304, R371). -/
def inDevice (a n : Nat) : Bool :=
  within a n 0 0x8000000000 || within a n 0x010000000000 0x4000000000

/-- The status of a copy request's fields, 0 where they are legal (R371; log 31). -/
def State.copyStatus (s : State) (r : Req) : Nat :=
  let h := r.w 3
  let d := r.f 4 47 0
  let n := r.f 5 31 0
  if h % 64 ≠ 0 ∨ d % 64 ≠ 0 ∨ n % 64 ≠ 0 ∨ n = 0 then stBadArg
  else if (if r.grp.val < 16 then s.inPart r.grp.val d n else inDevice d n) then 0 else stBounds

/-- TO_DEVICE (R371): the bytes are read from the host; a bad range completes at once. -/
def toDeviceEffect (r : Req) (s : State) : State :=
  if s.openAs 0x12 r = false ∨ s.host.xfers.any (fun x => x.why = .toDevice r) then s
  else if s.copyStatus r ≠ 0 then s.finish r (s.copyStatus r)
  else s.addXfer ⟨.toDevice r, r.grp.val, r.w 3, r.f 4 47 0, r.f 5 31 0, [], none, 0⟩

/-- TO_DEVICE. -/
def execToDevice (r : Req) (s : State) : Res := .next (toDeviceEffect r s)

/-- The writes of one TO_HOST, none longer than Maximum Payload Size: each line with the EP bit of its mark (R354, R360, R371). -/
def State.sendLines (s : State) (g h d n : Nat) : State :=
  (List.range (n / 64)).foldl (fun t i =>
    t.emit (.hostWrite (t.fnOf g) (h + 64 * i) (t.devBytes (d + 64 * i) 64) (t.lineMark (d + 64 * i)))) s

/-- TO_HOST (R358, R360, R371): lines go to the host; marked ones with EP. While the function may not reach the host, or
the memories are in self-refresh (R420), the request waits. -/
def toHostEffect (r : Req) (s : State) : State :=
  if s.openAs 0x13 r = false ∨ s.busOk r.grp.val = false ∨ s.power.selfRefresh = true then s
  else if s.copyStatus r ≠ 0 then s.finish r (s.copyStatus r)
  else
    let n := r.f 5 31 0
    let d := r.f 4 47 0
    let bad := s.rangeMarked d n
    let s := s.sendLines r.grp.val (r.w 3) d n
    (if bad then s.raise E.PCIE_EP_TX 0 [r.grp.val] else s).complete r 0 r.handle.toNat [] bad

/-- TO_HOST. -/
def execToHost (r : Req) (s : State) : Res := .next (toHostEffect r s)

/-- The bytes that a completion brings of the `n` a read still lacks (R354): a completion carries at most Maximum Payload Size, so a read
is answered by several, and a command with more bytes stands for those in a row. A poisoned one marks every line it touches
(R148, R360). -/
def arrived (h : HostData) (n : Nat) : Option (List MarkByte) :=
  match h with
  | .data bs => some ((bs.take n).map (fun b => (b, false)))
  | .poisoned bs => some ((bs.take n).map (fun b => (b, true)))
  | .failed => none

/-- A copy request whose read fails completes with HOST_ERR (R359, R369). -/
def State.failCopy (s : State) (r : Req) : State :=
  (((s.raise E.PCIE_HOST_ERR 0 [r.grp.val]).dropXfer (.toDevice r)).finish r stHostErr).pump

/-- A transfer after bytes of its read have come; the read is over with the last of them. -/
def Xfer.moved (x : Xfer) (n : Nat) : Xfer :=
  { x with haddr := x.haddr + n, left := x.left - n, ask := x.ask - n, tag := if n < x.ask then x.tag else none }

/-- A copy request's read is answered: its bytes are kept, and written when the last has come (R360, R371). -/
def State.copyArrived (s : State) (r : Req) (x : Xfer) (bs : List MarkByte) : State :=
  let y := { x.moved bs.length with got := x.got ++ bs }
  if y.left = 0 then
    let s := s.dropXfer x.why
    ((s.devWrite x.daddr y.got).complete r 0 r.handle.toNat [] (y.got.any (·.2))).pump
  else ({ s with host := { s.host with xfers := s.host.xfers.map (fun z => if z = x then y else z) } }).pump

/-- The transfer that a tag's answer belongs to. -/
def State.xferOf (s : State) (tag : Nat) : Option Xfer := s.host.xfers.find? (fun x => x.tag = some tag)

end Sys2Proof.Machine
end

