-- ==== Sys2Proof/Machine/Caller.lean ====
section
/-! DEFINITION. The Caller's table, mirror, ledger and records (R183 to R189, R197, R199 to R205, R209). -/

namespace Sys2Proof.Machine

/-! ### Entries (R183 to R187) -/

/-- The entry at an index. -/
def State.seq (s : State) (i : Nat) : Entry := mget Entry.init s.caller.seqs i

/-- Words 0 to 30 of an entry (R186). -/
def Entry.words (e : Entry) : List Nat :=
  [e.state + e.part * 2 ^ 4 + e.cls * 2 ^ 8 + b2n e.rehomed * 2 ^ 10 + b2n e.atRisk * 2 ^ 11 + e.gen * 2 ^ 16 +
    e.epoch * 2 ^ 32,
   e.admitStamp, e.tag, e.home + e.buddy * 2 ^ 12 + e.cq * 2 ^ 24 + e.slot * 2 ^ 32, e.promptLen + e.pfDone * 2 ^ 24,
   e.pos + e.maxNew * 2 ^ 24 + e.generated * 2 ^ 38, e.kvRoot, e.shelfRoot, e.kvRes, e.histPtr, e.histCap,
   e.draft + e.dres * 2 ^ 4 + b2n e.heads * 2 ^ 8 + e.acc * 2 ^ 16, e.ttl, e.expiry, e.startBar, e.firstBar, e.endBar,
   e.firstBeat, e.ptBeats + e.slip * 2 ^ 32, e.energy, e.lastBar] ++ List.replicate 10 0

/-- The 256 bytes of an entry, with its CRC (R186). -/
def Entry.image (e : Entry) : List Byte :=
  let b := e.words.flatMap (toLE 8)
  b ++ toLE 8 (crc32c b)

/-- The entry that 256 bytes hold (R186). -/
def entryFrom (bs : List Byte) : Entry :=
  let w := fun (i : Nat) => ofLE ((bs.drop (8 * i)).take 8)
  { Entry.init with
    state := bits (w 0) 3 0, part := bits (w 0) 7 4, cls := bits (w 0) 9 8, rehomed := (w 0).testBit 10
    atRisk := (w 0).testBit 11, gen := bits (w 0) 31 16, epoch := bits (w 0) 63 32, admitStamp := w 1, tag := w 2
    home := bits (w 3) 11 0, buddy := bits (w 3) 23 12, cq := bits (w 3) 27 24, slot := bits (w 3) 44 32
    promptLen := bits (w 4) 23 0, pfDone := bits (w 4) 47 24, pos := bits (w 5) 23 0, maxNew := bits (w 5) 37 24
    generated := bits (w 5) 51 38, kvRoot := bits (w 6) 47 0, shelfRoot := bits (w 7) 47 0, kvRes := bits (w 8) 23 0
    histPtr := bits (w 9) 47 0, histCap := bits (w 10) 23 0, draft := bits (w 11) 3 0, dres := bits (w 11) 7 4
    heads := (w 11).testBit 8, acc := bits (w 11) 31 16, ttl := bits (w 12) 31 0, expiry := w 13, startBar := w 14
    firstBar := w 15, endBar := w 16, firstBeat := w 17, ptBeats := bits (w 18) 31 0, slip := bits (w 18) 63 32
    energy := w 19, lastBar := w 20 }

/-- Whether an entry's image carries its CRC (R186, R187). -/
def imageGood (bs : List Byte) : Bool := decide (crc32c (bs.take 248) = ofLE ((bs.drop 248).take 4))

/-- Address of an entry (R183). -/
def State.seqAt (s : State) (i : Nat) : Nat := s.rd R.CALLER_TABLE_BASE_BASE + 256 * i

/-- The handle of an entry (R184). -/
def State.handle (s : State) (i : Nat) : Nat := i + (s.seq i).gen * 2 ^ 18 + s.pkgId * 2 ^ 34

/-- The source unit of the active Caller (R66, R189). -/
def State.callerInst (s : State) : Nat := if s.on R.CALLER_STATUS_ACTIVE 0 then 0 else 1

/-- Raise a flag of the Caller, in the active instance's name. -/
def State.callerRaise (s : State) (e : EvFlag) (args : List Nat) : State := s.raise e s.callerInst args

/-- The standby Caller's check of an operation (R209; log 44): the active result stands; a difference raises MISMATCH and is
put right from HBM, and one that repeats makes firmware write SWITCH. -/
def State.standby (s : State) (op : Nat) : State :=
  if Config.standbyDiffers s.tempo.now op 0 then
    let s := s.callerRaise E.CALLER_MISMATCH [op]
    if Config.standbyDiffers s.tempo.now op 1 then { s with caller := { s.caller with switch := true } } else s
  else s

/-- Whether the Caller runs (R211). -/
def State.callerOn (s : State) : Bool := s.on R.CALLER_CTL_EN

/-! ### The buddy mirror (R205) -/

/-- The buddy package (R205). -/
def State.buddy (s : State) : Option Nat := match s.rank with
  | some r => if s.roles.nranks = 0 then none else s.holder ((r + s.rd R.CALLER_JOURNAL_OFF) % s.roles.nranks)
  | none => none

/-- The buddy under the pending role table, where that is another package (R205): the mirror is copied to it before the change
takes effect. -/
def State.nextBuddy (s : State) : Option Nat := match s.rolePend with
  | some x => ({ s with roles := x.tab }).buddy.filter (fun b => decide (some b ≠ s.buddy))
  | none => none

/-- The pieces of a write at an offset that a STORE may carry (R330, R488): whole lines where it can, words elsewhere. -/
def storeCuts (off n : Nat) : List (Nat × Nat) :=
  let head := min n ((64 - off % 64) % 64)
  let body := (n - head) / 64 * 64
  let words := fun (lo m : Nat) => (List.range (m / 4)).map (fun i => (lo + 4 * i, 4))
  words 0 head ++ (pieces (off + head) body).map (fun e => (e.1 + head, e.2)) ++ words (head + body) (n - head - body)

/-- Send a mirror write to a package (R205). -/
def State.sendWrite (s : State) (m : MirrorWr) (b : Nat) : State :=
  let off := s.rd R.CALLER_JOURNAL_OFFSET_OFFSET + m.off
  let p := withData (s.toRemote 3 0x19 b (s.rd R.CALLER_JOURNAL_PART) (s.rd R.CALLER_JOURNAL_KEY) off
    (s.seq m.index).part) (clean m.data)
  let t := s.issueOp (srcUnit 0x40 s.callerInst) p (.mirror m.num)
  { t with caller := { t.caller with mirror := t.caller.mirror.map (fun y =>
      if y.num = m.num then { y with sent := some t.tempo.now } else y) } }

/-- Send all that a package is still to have of the mirror ahead of a change of the buddy, whatever is unacknowledged: the whole
mirror goes before the change takes effect (R205). -/
def State.flushAhead (s : State) (b : Nat) : State :=
  s.caller.mirror.foldl (fun t m => if m.ahead = some b ∧ m.sent = none then t.sendWrite m b else t) s

/-- Send the mirror writes that may go: the oldest unsent one of an entry to a package with none unacknowledged there
(R205). -/
def State.sendMirror (s : State) : State :=
  s.caller.mirror.foldl (fun t m =>
    let first := t.caller.mirror.find? (fun x => decide (x.index = m.index) && decide (x.ahead = m.ahead))
    match first, m.ahead.orElse (fun _ => t.buddy) with
    | some x, some b => if x.num = m.num ∧ m.sent = none then t.sendWrite m b else t
    | _, _ => t) s

/-- Queue a write of the mirror on the buddy, or on the package that is to be it, in the pieces a STORE may carry (R205). -/
def State.queueMirror (s : State) (ahead : Option Nat) (i off : Nat) (data : List Byte) : State :=
  if s.on R.CALLER_JOURNAL_EN ∧ (ahead.orElse (fun _ => s.buddy)).isSome then
    let cuts := storeCuts (s.rd R.CALLER_JOURNAL_OFFSET_OFFSET + off) data.length
    let from_ := s.caller.nextMirror
    let ws := cuts.zipIdx.map (fun ((o, n), k) => (⟨from_ + k, i, off + o, (data.drop o).take n, none, ahead⟩ : MirrorWr))
    ({ s with caller := { s.caller with
      mirror := s.caller.mirror ++ ws, nextMirror := from_ + cuts.length } }).sendMirror
  else s

/-- Queue a write of the mirror for an entry: on the buddy, and on the next one while a pending table names one (R205). -/
def State.mirrorWrite (s : State) (i off : Nat) (data : List Byte) : State :=
  let s := s.queueMirror none i off data
  match s.nextBuddy with
  | some b => s.queueMirror (some b) i off data
  | none => s

/-- Offset in the mirror of a history byte (R205). -/
def State.histMirror (s : State) (a : Nat) : Nat := 0x04000000 + (a - s.rd R.CALLER_HIST_BASE_BASE)

/-- Mirror history bytes (R205). -/
def State.mirrorHist (s : State) (i a : Nat) (data : List Byte) : State := s.mirrorWrite i (s.histMirror a) data

/-- Firmware copies the whole mirror to the package that is to be the buddy (R205): the image of every entry that was ever written,
and before it the history of a live one. -/
def State.copyMirrorTo (s : State) (to_ : Option Nat) : State :=
  if to_ = s.caller.copied then s
  else
    let s : State := { s with caller := { s.caller with
      copied := to_, mirror := s.caller.mirror.filter (fun m => m.ahead.isNone) } }
    match to_ with
    | none => s
    | some b => s.caller.seqs.foldl (fun (t : State) (e : Nat × Entry) =>
        let t := if e.2.state = 0 then t
          else t.queueMirror (some b) e.1 (t.histMirror e.2.histPtr)
            (t.devBytes e.2.histPtr (4 * (e.2.promptLen + e.2.generated)))
        t.queueMirror (some b) e.1 (256 * e.1) e.2.image) s

/-- A pending table has the mirror copied to the package that it makes the buddy (R205). -/
def State.copyMirror (s : State) : State := s.copyMirrorTo s.nextBuddy

/-- Change an entry: the table in HBM holds its image, and the mirror follows (R183, R205). -/
def State.putSeq (s : State) (i : Nat) (e : Entry) : State :=
  let s := { s with caller := { s.caller with seqs := mset Entry.init i e s.caller.seqs } }
  (s.devSet (s.seqAt i) e.image).mirrorWrite i (256 * i) e.image

/-- Whether a move of an entry is in progress. -/
def State.moving (s : State) (i : Nat) : Bool := s.caller.moves.any (fun m => m.index = i)

/-- Whether a record of a sequence, named by its handle, waits for mirror writes (R205). -/
def State.recordWaits (s : State) (h : Nat) : Bool := s.caller.waiting.any (fun w => w.words.getD 3 0 = h)

/-- Complete the Cancels that nothing holds any more (R188, R202): no move of the entry, and no token record emitted before
the Cancel that has still to be written. Each reports the tokens emitted before it. -/
def State.settleCancels (s : State) : State :=
  s.caller.waits.foldl (fun t w =>
    if w.cancel ∧ t.moving w.index = false ∧ t.recordWaits w.req.handle.toNat = false then
      State.complete { t with caller := { t.caller with waits := t.caller.waits.filter (fun x => x ≠ w) } }
        w.req 0 w.req.handle.toNat [w.generated]
    else t) s

/-- Write the ring entries whose mirror writes are acknowledged, oldest first (R205), note a finished harvest, and complete
the Cancels that waited for them. -/
def State.flushWaiting (s : State) : State :=
  let ready := s.caller.waiting.takeWhile (fun w => w.deps = [])
  let rest := s.caller.waiting.drop ready.length
  let s := { s with caller := { s.caller with waiting := rest } }
  let s : State := ready.foldl (fun (t : State) (w : Waiting) => t.cqPost w.grp w.cq w.words) s
  (if rest.isEmpty ∧ 0 < s.caller.harvested then s.wr R.CALLER_HARVEST_BAR_BAR (s.caller.harvested - 1)
  else s).settleCancels

/-- A mirror write is over, acknowledged or given up (R205). -/
def State.mirrorDone (s : State) (num : Nat) : State :=
  let ws := s.caller.waiting.map (fun w => { w with deps := w.deps.erase num })
  (({ s with caller := { s.caller with
    mirror := s.caller.mirror.filter (fun m => m.num ≠ num), waiting := ws } }).sendMirror).flushWaiting

/-- Queue a ring entry behind the mirror writes of an entry that are under way (R205); while a mirror is rebuilt, JOURNAL_LOST
applies and none waits (R437). -/
def State.queueEntry (s : State) (i grp cq : Nat) (words : List Nat) : State :=
  let deps := if s.health.rebuild then []
    else (s.caller.mirror.filter (fun m => decide (m.index = i) && m.ahead.isNone)).map (·.num)
  { s with caller := { s.caller with waiting := s.caller.waiting ++ [(⟨grp, cq, words, s.bar, deps⟩ : Waiting)] } }

/-! ### The cache (R187) -/

/-- Whether an entry is pinned in the cache (R187). -/
def State.pinned (s : State) (i : Nat) : Bool :=
  let e := s.seq i
  e.state = 2 || e.state = 3 || e.state = 7 || (e.state = 1 && decide (e.startBar ≤ s.bar + 2))

/-- Make an entry the most recently used; the least recently used unpinned one leaves a full cache (R187). -/
def State.useEntry (s : State) (i : Nat) : State :=
  let l := s.caller.cached.filter (· ≠ i)
  let l := if l.length < 16384 then l
    else match l.reverse.find? (fun j => !s.pinned j) with
      | some j => l.filter (· ≠ j)
      | none => l
  { s with caller := { s.caller with cached := i :: l } }

/-! ### The ledger (R197, R200) -/

/-- Token slots that a reservation takes in a bar (R197). -/
def Resv.tok (v : Resv) (b : Nat) : Nat :=
  if b < v.lo + ceilDiv v.pre v.chunk then min v.chunk (v.pre - (b - v.lo) * v.chunk) else 1 + v.dres

/-- The reservations of a partition that cover a bar. -/
def State.covering (s : State) (p b : Nat) : List Resv :=
  s.caller.ledger.filter (fun v => v.part = p && decide (v.lo ≤ b) && decide (b < v.hi))

/-- Reserved sequence slots of a bar. -/
def State.seqUsed (s : State) (p b : Nat) : Nat := (s.covering p b).length
/-- Reserved token slots of a bar. -/
def State.tokUsed (s : State) (p b : Nat) : Nat := sumOf ((s.covering p b).map (fun v => v.tok b))

/-- Whether an entry has a reservation in a bar. -/
def State.reserved (s : State) (i b : Nat) : Bool :=
  s.caller.ledger.any (fun v => v.index = i && decide (v.lo ≤ b) && decide (b < v.hi))

/-- KV_USED of a partition. -/
def State.kvUsed (s : State) (p : Nat) : Nat := s.rd R.CALLER_PART_KVUSE_KV_USED 0 p

/-- The first bar not yet planned, from which reservations are released (R200). -/
def State.unplanned (s : State) : Nat := max (s.bar + 1) s.caller.planned

/-- Release an entry's bars after the last one planned (R200). -/
def State.releaseBars (s : State) (i : Nat) : State :=
  { s with caller := { s.caller with ledger := s.caller.ledger.map (fun v =>
      if v.index = i then { v with hi := min v.hi s.unplanned } else v) } }

/-- KV positions that an entry's reservation still counts. -/
def State.kvHeld (s : State) (i : Nat) : Nat := sumOf ((s.caller.ledger.filter (fun v => v.index = i)).map (·.kv))

/-- Release an entry's KV_RES (R200), unless its set is to go to quarantine, where it goes on counting (R240). -/
def State.releaseKv (s : State) (i : Nat) : State :=
  if (s.seq i).dirty then s
  else
    let s := s.wr R.CALLER_PART_KVUSE_KV_USED (s.kvUsed (s.seq i).part - s.kvHeld i) 0 (s.seq i).part
    { s with caller := { s.caller with ledger := s.caller.ledger.map (fun v =>
        if v.index = i then { v with kv := 0 } else v) } }

/-- Forget reservations that lie behind. -/
def State.pruneLedger (s : State) : State :=
  { s with caller := { s.caller with ledger := s.caller.ledger.filter (fun v => decide (s.bar < v.hi) || decide (v.kv ≠ 0)) } }

/-! ### The end of a sequence (R185, R200, R202, R240) -/

/-- Give an entry's frames back: to the free stack, or to quarantine after poison (R240, R252). The KV_RES of a quarantined set
counts in KV_USED until its frames return, also where a Cancel released it before. -/
def State.dropFrames (s : State) (i : Nat) : State :=
  let e := s.seq i
  if e.framed then
    let fs := s.tableFrames e.kvRoot
    if e.dirty then
      (s.wr R.CALLER_PART_KVUSE_KV_USED (s.kvUsed e.part + (64 * fs.length - s.kvHeld i)) 0 e.part).quarantine e.part fs
    else s.pushFrames e.part fs
  else s

/-- Free the shelf bytes of an entry. -/
def State.dropShelf (s : State) (i : Nat) : State :=
  { s with caller := { s.caller with shelf := s.caller.shelf.filter (fun x => x.index ≠ i) } }

/-- An entry becomes FREE (R185, R202): GEN moves unless a Cancel moved it; its index is free again. -/
def State.freeSeq (s : State) (i : Nat) : State :=
  let s := (s.dropFrames i).dropShelf i
  let e := s.seq i
  let gen := if e.cancelled then e.gen else (e.gen + 1) % 65536
  let s := s.putSeq i { e with
    state := 0, gen := gen, slot := 0x1FFF, shelfRoot := 0, cancelled := false, dirty := false, framed := false,
    lastPlan := 0, again := false }
  { s with caller := { s.caller with
    freed := s.caller.freed ++ [i], cached := s.caller.cached.filter (· ≠ i)
    ledger := s.caller.ledger.filter (fun v => v.index ≠ i) } }

/-- Whether a closing entry's last planned bar has been harvested (R202), and no move of it is in progress (R188). -/
def State.closable (s : State) (i : Nat) : Bool :=
  (s.seq i).state = 7 && decide ((s.seq i).lastPlan ≤ s.caller.harvested) && !s.moving i

/-- Free an entry once it may become FREE. -/
def State.tryFree (s : State) (i : Nat) : State := if s.closable i then s.freeSeq i else s

/-- A sequence event goes to the sequence's CQ (R374). -/
def State.seqEvent (s : State) (i status handle : Nat) (rest : List Nat) : State :=
  let e := s.seq i
  (s.queueEntry i e.part e.cq (entryWords 3 status 0 false e.tag handle rest)).flushWaiting

/-- The Pause of an entry that closed first completes with CLOSED (R203, R208). -/
def State.endPause (s : State) (i status : Nat) (rest : List Nat) : State :=
  match s.caller.waits.find? (fun w => w.index = i && !w.cancel) with
  | some w =>
    let s := { s with caller := { s.caller with waits := s.caller.waits.filter (fun x => x ≠ w) } }
    s.complete w.req status w.req.handle.toNat rest
  | none => s

/-- A sequence starts to close (R200): its reservation is released. -/
def State.startClose (s : State) (i : Nat) : State :=
  let s := (s.releaseBars i).releaseKv i
  (s.putSeq i { s.seq i with state := 7 }).endPause i stClosed []

/-- Close a sequence as LOST (R187, R200, R229). -/
def State.lose (s : State) (i : Nat) : State :=
  let h := s.handle i
  ((s.startClose i).seqEvent i stLost h []).tryFree i

/-- Whether the mirror holds a sound copy of an entry (R187): what stands on the buddy is another package's, so whether its CRC
holds is free (DESIGN CHOICE, log 177). -/
def State.mirrorSound (s : State) (i : Nat) : Bool :=
  s.on R.CALLER_JOURNAL_EN && s.buddy.isSome && !Config.mirrorBad s.tempo.now i

/-- Bring an entry into the cache for an operation on it (R187): an image whose CRC fails is taken again from the mirror, or the
sequence is lost. -/
def State.loadEntry (s : State) (i : Nat) : State :=
  if (s.seq i).state = 0 then s
  else if s.caller.cached.contains i then s.useEntry i
  else if imageGood (s.devBytes (s.seqAt i) 256) then s.useEntry i
  else
    let s := s.callerRaise E.CALLER_ENTRY_CRC [i]
    if s.mirrorSound i then (s.devSet (s.seqAt i) (s.seq i).image).useEntry i else s.lose i

end Sys2Proof.Machine
end

