-- ==== Sys2Proof/Machine/Admission.lean ====
section
/-! DEFINITION. Requests on sequences: admission, cancel, pause, resume, extend, and what follows them (R184, R185, R197 to
R208, R240, R369, R370). -/

namespace Sys2Proof.Machine

/-! ### The decision of R198 -/

/-- What a sequence asks for: partition, class, prompt positions, generation limit, first-token limit in beats, the
tick it was taken at, the first bar it may start in, the KV it needs if that is fixed, and whether it takes a new entry: an
Admit, or a sequence restored by one (R206). -/
structure Ask where
  part : Nat
  cls : Nat
  p : Nat
  g : Nat
  ttft : Nat
  tick : Nat
  floor : Nat
  kv : Option Nat
  isAdmit : Bool
  deriving DecidableEq, Repr

/-- An accepted reservation and its promise. -/
structure Deal where
  lo : Nat
  first : Nat
  hi : Nat
  beat : Nat
  kv : Nat
  deriving DecidableEq, Repr

/-- DRES of a class (R211). -/
def State.dresOf (s : State) (p k : Nat) : Nat := s.rd R.CALLER_PART_DRES_DRES 0 p / 16 ^ k % 16

/-- PF_CHUNK of a partition. -/
def State.chunkOf (s : State) (p : Nat) : Nat := max 1 (s.rd R.CALLER_ADMIT_CTL_PF_CHUNK 0 p)

/-- KV positions for a prompt and a limit (R197). -/
def State.kvFor (s : State) (p n : Nat) : Nat := 64 * ceilDiv (min (n + 8) (s.rd R.CALLER_PART_KV_RETAIN 0 p)) 64

/-- Entries of a partition that are not FREE. -/
def State.liveIn (s : State) (p : Nat) : Nat := (s.caller.seqs.filter (fun e => e.2.state ≠ 0 && e.2.part = p)).length

/-- The index the next entry takes (R185, R198). -/
def State.nextIndex (s : State) : Option Nat :=
  if s.caller.fresh < 262144 then some s.caller.fresh else s.caller.freed.head?

/-- F0 of R198: the first bar whose plan has not begun. -/
def State.floorBar (s : State) : Nat := if s.caller.planned = s.bar + 2 then s.bar + 2 else s.bar + 1

/-- The reservation of an ask from a bar on. -/
def State.resvAt (s : State) (a : Ask) (i lo hi kv : Nat) : Resv :=
  ⟨i, a.part, lo, hi, a.p, s.chunkOf a.part, s.dresOf a.part a.cls, kv⟩

/-- Whether a bar has room for a reservation (R198). -/
def State.barFits (s : State) (v : Resv) (b : Nat) : Bool :=
  decide (s.seqUsed v.part b + 1 ≤ s.rd R.CALLER_ADMIT_CTL_SEQ_CAP 0 v.part) &&
  decide (s.tokUsed v.part b + v.tok b ≤ s.rd R.CALLER_ADMIT_CTL_TOK_CAP 0 v.part)

/-- The ledger search (R198): the first start from which every bar fits, below the horizon. -/
def State.findStart (s : State) (a : Ask) (l c : Nat) : Nat → Nat → Option Nat
  | 0, _ => none
  | n + 1, f =>
    if c + 16384 < f + l then none
    else match (List.range l).find? (fun j => !s.barFits (s.resvAt a 0 f (f + l) 0) (f + j)) with
      | some j => s.findStart a l c n (f + j + 1)
      | none => some f

/-- The decision of R198: a status, or the reservation and promise. -/
def State.decideAsk (s : State) (a : Ask) : Except Nat Deal :=
  let kpf := if a.p = 0 then 0 else ceilDiv a.p (s.chunkOf a.part)
  let l := if kpf = 0 then a.g else kpf + a.g - 1
  let kv := a.kv.getD (s.kvFor a.part (a.p + a.g))
  if a.g = 0 ∨ 8192 < a.g ∨ s.on R.CALLER_ADMIT_CTL_OPEN 0 a.part = false then .error stBadArg
  else if a.isAdmit ∧ a.p = 0 then .error stBadArg
  else if a.isAdmit ∧ (s.rd R.CALLER_PART_DRES_ENTRY_CAP 0 a.part ≤ s.liveIn a.part ∨ s.nextIndex = none) then
    .error stTableFull
  else if s.rd R.CALLER_PART_KV_KV_CAP 0 a.part < s.kvUsed a.part + kv then .error stNoKv
  else match s.findStart a l s.bar 16385 a.floor with
    | none => .error stNoSlot
    | some f =>
      let first := if kpf = 0 then f else f + kpf - 1
      let beat := s.rd R.TEMPO_BAR_START_START / 1024 + (first + 1 - s.bar) * s.rd R.TEMPO_BAR_CFG_BAR_LEN +
        s.rd R.CALLER_WL_CFG_HARVEST
      if a.ttft ≠ 0 ∧ a.tick / 1024 + a.ttft < beat then .error stNoSlot else .ok ⟨f, first, f + l, beat, kv⟩

/-! ### Filling an entry -/

/-- Reserve an accepted ask for an entry (R198). -/
def State.reserve (s : State) (a : Ask) (i : Nat) (d : Deal) : State :=
  let s := s.wr R.CALLER_PART_KVUSE_KV_USED (s.kvUsed a.part + d.kv) 0 a.part
  { s with caller := { s.caller with
    ledger := s.caller.ledger.filter (fun v => v.index ≠ i) ++ [s.resvAt a i d.lo d.hi d.kv] } }

/-- The promise written into an entry (R198). -/
def Entry.promise (e : Entry) (d : Deal) (barLen stamp : Nat) : Entry :=
  { e with
    startBar := d.lo, firstBar := d.first, endBar := d.hi, firstBeat := d.beat * 1024, ptBeats := barLen
    kvRes := d.kv, admitStamp := stamp, slip := 0 }

/-- Result words of an accepted sequence (R370). -/
def Entry.dealWords (e : Entry) : List Nat := [e.firstBar, e.firstBeat, e.ptBeats]

/-- Map the first positions of an entry (R245). -/
def State.mapFirst (s : State) (i : Nat) : State :=
  let e := s.seq i
  let (t, ok) := s.mapTo e.part e.kvRoot (e.pos - 1) s.bar (min (e.pos + 2 * s.chunkOf e.part) (e.promptLen + 9))
  if ok then t else t.lose i

/-- α of a new entry, and whether it uses prediction heads (R219 to R226). -/
def State.specInit (s : State) (p : Nat) : Nat := s.rd R.CALLER_SPEC_CFG_INIT 0 p

/-- HEADS at admission (R219). -/
def State.headsFor (s : State) (p k : Nat) : Bool := k = 0 && decide (s.rd R.CALLER_SPEC_CFG_HEADS_N 0 p ≠ 0)

/-- Take an index for a new entry: its generation stays (R185). -/
def State.takeIndex (s : State) (i : Nat) : State :=
  if i = s.caller.fresh then { s with caller := { s.caller with fresh := i + 1 } }
  else { s with caller := { s.caller with freed := s.caller.freed.erase i } }

/-- Seat a new entry with frames; its first mappings follow its completion, since an entry they lose is reported after it (R198,
R240, R245, R379). -/
def State.seatEntry (s : State) (i : Nat) (e : Entry) : State :=
  let s := (s.takeIndex i).newTable e.part e.kvRoot (e.kvRes / 64)
  (s.putSeq i { e with framed := true }).useEntry i

/-! ### ADMIT -/

/-- The ask of an ADMIT taken at a tick (R198, R370). F0 is moved past the `late` bars whose plans begin before the copy of the
prompt completes (log 36). -/
def State.admitAsk (s : State) (r : Req) (late tick : Nat) : Ask :=
  ⟨r.grp.val, r.f 3 39 38, r.f 3 23 0, r.f 3 37 24, r.f 4 31 0, tick, s.floorBar + late, none, true⟩

/-- Whether the memory an ADMIT names serves (R370). -/
def State.admitMemory (s : State) (r : Req) : Bool :=
  let p := r.grp.val
  decide (r.f 3 23 0 + r.f 3 37 24 + 8 ≤ r.f 7 23 0) && s.inPart p (r.f 6 47 0) (4 * r.f 7 23 0) &&
  s.inPart p (r.f 8 47 0) (s.kvDesc p).tableLen && decide (r.w 5 % 4 = 0)

/-- The tick at which an open request was taken. -/
def State.takenAt (s : State) (r : Req) : Nat :=
  match s.host.reqs.find? (fun o => o.req = r) with
  | some o => o.stamp
  | none => s.tempo.now

/-- A tick as a Tempo Stamp (R52). -/
def State.asStamp (s : State) (tick : Nat) : Nat := if s.on R.TEMPO_STATUS_COUNT_VALID then tick % 2 ^ 64 else 0

/-- The entry of an accepted ADMIT (R186, R198). -/
def State.admitEntry (s : State) (r : Req) (i : Nat) (d : Deal) : Entry :=
  let p := r.grp.val
  let k := r.f 3 39 38
  Entry.promise { Entry.init with
    state := 1, part := p, cls := k, atRisk := s.power.held, gen := (s.seq i).gen, epoch := s.rd R.PROM_EPOCH_EPOCH, tag := r.tag.toNat
    home := s.pkgId, buddy := s.buddy.getD 0, cq := r.cq.val, slot := 0x1FFF, promptLen := r.f 3 23 0
    maxNew := r.f 3 37 24, kvRoot := r.f 8 47 0, histPtr := r.f 6 47 0, histCap := r.f 7 23 0, dres := s.dresOf p k
    heads := s.headsFor p k, acc := s.specInit p } d (s.rd R.TEMPO_BAR_CFG_BAR_LEN) (s.asStamp (s.takenAt r))

/-- The request that the Caller executes next (R189): it takes requests one at a time and each is atomic, so the first one taken
that is not executed yet; a Pause or a Cancel that waits has been. -/
def State.nextSeqReq (s : State) : Option OpenReq :=
  s.host.reqs.find? (fun o => decide (1 ≤ o.typ) && decide (o.typ ≤ 5) && !s.caller.waits.any (fun w => w.req = o.req))

/-- Whether it is the turn of an open request of a type (R189). -/
def State.seqTurn (s : State) (typ : Nat) (r : Req) : Bool :=
  s.openAs typ r && s.nextSeqReq.any (fun o => o.req = r)

/-- ADMIT (R189, R198): a refusal, or the reservation, the entry, the completion and the copy of the prompt. -/
def admitEffect (r : Req) (late : Nat) (s : State) : State :=
  if s.seqTurn 0x01 r = false ∨ s.callerOn = false then s
  else
    let p := r.grp.val
    let out := if s.preempted p then .error stBadState
      else if s.admitMemory r then s.decideAsk (s.admitAsk r late (s.takenAt r)) else .error stBadArg
    match out, s.nextIndex with
    | .ok d, some i =>
      let e := s.admitEntry r i d
      let s := ((s.reserve (s.admitAsk r late (s.takenAt r)) i d).bump R.CALLER_PART_ADMIT_N_ACCEPTED 1 0 p).seatEntry i e
      let s := (s.complete r 0 (s.handle i) e.dealWords).mapFirst i
      (s.addXfer ⟨.prompt i e.gen, p, r.w 5, e.histPtr, 4 * e.promptLen, [], none, 0⟩).standby i
    | .error st, _ => (s.bump R.CALLER_PART_ADMIT_N_REFUSED 1 0 p).finish r st
    | .ok _, none => (s.bump R.CALLER_PART_ADMIT_N_REFUSED 1 0 p).finish r stTableFull

/-- ADMIT. -/
def execAdmitSeq (r : Req) (late : Nat) (s : State) : Res := .next (admitEffect r late s)

/-- Bytes of a prompt arrive: they go to the history, and to the mirror; a failed read closes the sequence as LOST
(R198, R205, R369). -/
def State.promptArrived (s : State) (i gen : Nat) (x : Xfer) (bs : Option (List MarkByte)) : State :=
  let live := (s.seq i).state ≠ 0 ∧ (s.seq i).gen = gen
  match bs with
  | some d =>
    let y := { x.moved d.length with daddr := x.daddr + d.length }
    let s := { s with host := { s.host with
      xfers := (s.host.xfers.map (fun z => if z = x then y else z)).filter (fun z => z.left ≠ 0) } }
    let s := if live then (s.devWrite x.daddr d).mirrorHist i x.daddr (d.map (·.1)) else s
    s.pump
  | none =>
    let s := (s.raise E.PCIE_HOST_ERR 0 [x.grp]).dropXfer x.why
    (if live then s.lose i else s).pump

/-! ### Naming a sequence (R184) -/

/-- The entry a handle names for a group, or NOT_FOUND or STALE (R184). -/
def State.lookup (s : State) (g h : Nat) : Except Nat Nat :=
  let i := bits h 17 0
  let e := s.seq i
  if bits h 45 34 ≠ s.pkgId ∨ e.state = 0 ∨ e.part ≠ g then .error stNotFound
  else if bits h 33 18 ≠ e.gen then .error stStale
  else .ok i

/-- Take a request on a sequence in its turn: its entry is brought into the cache first (R184, R187, R189). -/
def State.onSeq (s : State) (typ : Nat) (r : Req) (f : State → Nat → State) : State :=
  if s.seqTurn typ r = false ∨ s.callerOn = false then s
  else match s.lookup r.grp.val r.handle.toNat with
    | .error st => s.finish r st
    | .ok i =>
      let s := s.loadEntry i
      match s.lookup r.grp.val r.handle.toNat with
      | .error st => s.finish r st
      | .ok i => (f s i).standby i

/-! ### Re-admission (R206, R252, R302) -/

/-- Readmit an entry in place from its history (R206): a new handle and promise, or LOST. Its old frames go to
quarantine (R240). A Promenade move of the entry is completed first, and a Cancel taken before wins (R188, R252); an entry
whose image fails its CRC closes with LOST (R252). -/
def State.readmit (s : State) (i : Nat) : State :=
  let e := s.seq i
  let old := s.handle i
  if e.maxNew ≤ e.generated ∨ e.state = 0 ∨ e.state = 7 ∨ e.cancelled = true then s
  else if s.moving i then s.putSeq i { e with again := true }
  else if imageGood (s.devBytes (s.seqAt i) 256) = false then
    ((s.callerRaise E.CALLER_ENTRY_CRC [i]).putSeq i { e with dirty := true }).lose i
  else
    let s := s.putSeq i { e with dirty := true }
    let kv := s.kvHeld i
    let s := (s.dropFrames i).dropShelf i
    let s := if e.framed then s.kvCount e.part kvReprefill 1 else s.wr R.CALLER_PART_KVUSE_KV_USED (s.kvUsed e.part - kv) 0 e.part
    let s := { s with caller := { s.caller with ledger := s.caller.ledger.filter (fun v => v.index ≠ i) } }
    let a : Ask := ⟨e.part, e.cls, e.promptLen + e.generated, e.maxNew - e.generated, 0, s.tempo.now, s.floorBar, none, false⟩
    let s := s.endPause i stClosed []
    match s.decideAsk a with
    | .error _ =>
      let s := s.putSeq i { e with state := 7, dirty := false, framed := false, slot := 0x1FFF }
      (s.seqEvent i stLost old []).tryFree i
    | .ok d =>
      let s := (s.reserve a i d).newTable e.part e.kvRoot (d.kv / 64)
      let e' := Entry.promise { e with
        state := 1, gen := (e.gen + 1) % 65536, promptLen := e.promptLen + e.generated, pfDone := 0, pos := 0
        rehomed := true, slot := 0x1FFF, shelfRoot := 0, acc := s.specInit e.part, draft := 0, framed := true
        dirty := false, lastPlan := 0, again := false } d (s.rd R.TEMPO_BAR_CFG_BAR_LEN) s.stamp
      let s := s.putSeq i e'
      (s.seqEvent i stRehomed (s.handle i) (e'.dealWords ++ [old])).mapFirst i

/-! ### CANCEL (R200, R202, R203) -/

/-- A Cancel on a live entry (R188, R200, R202): GEN moves and the reservation is released at once; the entry closes, at once or
after the move in progress, and the completion follows every record emitted before. -/
def State.cancelSeq (s : State) (r : Req) (i : Nat) : State :=
  let e := s.seq i
  let s := s.putSeq i { e with gen := (e.gen + 1) % 65536, cancelled := true }
  let s : State := { s with caller := { s.caller with waits := s.caller.waits ++ [(⟨i, true, r, e.generated⟩ : SeqWait)] } }
  if s.moving i then ((s.releaseBars i).releaseKv i).endPause i stClosed []
  else ((s.startClose i).settleCancels).tryFree i

/-- CANCEL (R202). -/
def cancelEffect (r : Req) (s : State) : State := s.onSeq 0x02 r (fun s i => s.cancelSeq r i)

/-- CANCEL. -/
def execCancel (r : Req) (s : State) : Res := .next (cancelEffect r s)

/-- A move is over: an entry with a Cancel closes and the Cancel completes (R188); otherwise `f`, and the re-prefill that waited
for the move (R302). -/
def State.afterMove (s : State) (i : Nat) (f : State → State) : State :=
  if (s.seq i).cancelled then ((s.startClose i).settleCancels).tryFree i
  else
    let s := f s
    if (s.seq i).again then s.readmit i else s

/-! ### PAUSE (R203, R204) -/

/-- Bytes of a frame on the warm shelf: its main pages, draft pages and tags. -/
def KvDesc.frameLen (d : KvDesc) : Nat := d.lm * d.pm + d.ld * d.pd + 2048

/-- Bytes of a page set of `n` frames with its page table. -/
def KvDesc.setLen (d : KvDesc) (n : Nat) : Nat := up64 d.tableLen + n * d.frameLen

/-- The lowest place in a partition's shelf share with room for `n` bytes (log 33). -/
def State.shelfRoom (s : State) (p n : Nat) : Option Nat :=
  let base := s.rd R.PART_SHELF_BASE p
  let places := base :: s.caller.shelf.map (fun u => u.base + u.len)
  let ok := places.filter (fun a => within a n base (s.rd R.PART_SHELF_LEN_LEN p) &&
    !s.caller.shelf.any (fun u => overlaps a n u.base u.len))
  match ok with
  | [] => none
  | a :: r => some (minOr a r)

/-- The move to the warm shelf starts once the last planned bar is harvested (R204). -/
def State.startPauseMove (s : State) (i : Nat) : State :=
  let e := s.seq i
  match s.caller.shelf.find? (fun u => u.index = i) with
  | some u =>
    if e.state = 4 ∧ e.lastPlan ≤ s.caller.harvested ∧ s.moving i = false then
      let s := s.putSeq i { e with shelfRoot := u.base }
      let s := s.queueMove (jobMove 1 e.part true false (.pause i)) [(u.base, u.len)]
      { s with caller := { s.caller with moves := s.caller.moves ++ [(⟨i, true, u.base, []⟩ : SeqMove)] } }
    else s
  | none => s

/-- A Pause (R204). -/
def State.pauseSeq (s : State) (r : Req) (i : Nat) : State :=
  let e := s.seq i
  let d := s.kvDesc e.part
  let n := d.setLen (s.ptNf e.kvRoot)
  if e.state ≠ 2 ∧ e.state ≠ 3 then s.finish r stBadState
  else if r.f 3 31 0 = 0 then s.finish r stBadArg
  else match s.shelfRoom e.part n with
    | none => s.finish r stNoKv
    | some a =>
      let s := (s.releaseBars i).putSeq i { e with state := 4, ttl := r.f 3 31 0 }
      let s := { s with caller := { s.caller with
        waits := s.caller.waits ++ [(⟨i, false, r, 0⟩ : SeqWait)]
        shelf := s.caller.shelf ++ [(⟨i, a, n⟩ : ShelfUse)] } }
      s.startPauseMove i

/-- PAUSE (R204). -/
def pauseEffect (r : Req) (s : State) : State := s.onSeq 0x03 r (fun s i => s.pauseSeq r i)

/-- PAUSE. -/
def execPause (r : Req) (s : State) : Res := .next (pauseEffect r s)

/-- Move one part of a frame: copies bytes and marks. -/
def State.copyBytes (s : State) (src dst n : Nat) : State := s.devWrite dst (s.devMarked src n)

/-- Move a frame between the pools and its place on the shelf. -/
def State.moveFrame (s : State) (d : KvDesc) (f place : Nat) (out : Bool) : State :=
  let parts := [(d.mainPage f 0, 0, d.lm * d.pm), (d.draftPage f 0, d.lm * d.pm, d.ld * d.pd),
    (d.tagAt f 0, d.lm * d.pm + d.ld * d.pd, 2048)]
  parts.foldl (fun t (a, o, n) => if out then t.copyBytes a (place + o) n else t.copyBytes (place + o) a n) s

/-- The bytes of a page set go to the shelf (R204). -/
def State.setOut (s : State) (p root base : Nat) : State :=
  let d := s.kvDesc p
  let s := s.copyBytes root base d.tableLen
  (s.tableFrames root).zipIdx.foldl (fun t (f, j) => t.moveFrame d f (base + up64 d.tableLen + j * d.frameLen) true) s

/-- The bytes of a page set come back into new frames; of the page table only the frame list is new (R204, R240). -/
def State.setIn (s : State) (p root base : Nat) (fs : List Nat) : State :=
  let d := s.kvDesc p
  let s := s.copyBytes base root d.tableLen
  let s := s.devSet (root + 0x40) (fs.flatMap (toLE 4))
  fs.zipIdx.foldl (fun t (f, j) => t.moveFrame d f (base + up64 d.tableLen + j * d.frameLen) false) s

/-- Forget a move of an entry. -/
def State.endMove (s : State) (i : Nat) : State :=
  let s := (s.dropJob (.pause i)).dropJob (.resume i)
  { s with caller := { s.caller with moves := s.caller.moves.filter (fun m => m.index ≠ i) } }

/-- The move of an entry that closed while it ran, as LOST or by its harvest, is over: the entry goes on to FREE (R188). -/
def State.moveOfLost (s : State) (i : Nat) : State := ((s.endMove i).settleCancels).tryFree i

/-- PAUSE_MOVE_COMPLETE (R204, R308): the engines go on with the move; once all of it is written the set is on the shelf, its frames
are free, and the entry is PAUSED until EXPIRY. -/
def pauseMoveCompleteEffect (i : Nat) (s : State) : State :=
  match s.caller.moves.find? (fun m => m.index = i && m.toShelf) with
  | none => s
  | some m =>
    let (s, done) := s.runJob (.pause i)
    if done = false then s
    else
    let s := s.loadEntry i
    let e := s.seq i
    if e.state ≠ 4 then s.moveOfLost i
    else
    let s := ((s.setOut e.part e.kvRoot m.base).endMove i).dropFrames i
    let s := s.releaseKv i
    let expiry := s.stamp + e.ttl * 1024
    let s := s.putSeq i { e with state := 5, expiry := expiry, framed := false, slot := 0x1FFF }
    (s.afterMove i (fun s => s.endPause i 0 [expiry])).standby i

/-- PAUSE_MOVE_COMPLETE. -/
def execPauseMoveComplete (index : Nat) (s : State) : Res := .next (pauseMoveCompleteEffect index s)

/-- A PAUSED entry expires (R204): it becomes FREE, with an EXPIRED event. -/
def State.expire (s : State) (i : Nat) : State :=
  ((s.callerRaise E.CALLER_EXPIRED [i]).seqEvent i stExpired (s.handle i) []).freeSeq i

/-- Whether a tick is not before tick 0 of an entry's EXPIRY beat (R203). -/
def State.expiredBy (s : State) (i tick : Nat) : Bool := decide ((s.seq i).expiry / 1024 ≤ tick / 1024)

/-- Whether a Resume taken before an entry's EXPIRY beat is still to be executed (R203). -/
def State.resumeFirst (s : State) (i : Nat) : Bool :=
  s.host.reqs.any (fun o => o.typ = 0x04 && decide (o.req.handle.toNat = s.handle i) && !s.expiredBy i o.stamp)

/-- PAUSE_EXPIRY (R203, R204): a PAUSED entry at its EXPIRY becomes FREE, unless a Resume was taken before. -/
def pauseExpiryEffect (i : Nat) (s : State) : State :=
  if (s.seq i).state = 5 ∧ s.expiredBy i s.tempo.now = true ∧ s.resumeFirst i = false then
    let s := s.loadEntry i
    (if (s.seq i).state = 5 then s.expire i else s).standby i
  else s

/-- PAUSE_EXPIRY. -/
def execPauseExpiry (index : Nat) (s : State) : Res := .next (pauseExpiryEffect index s)

/-! ### RESUME (R198, R204) -/

/-- Ticks a move of `n` bytes takes at one warm-shelf group's 200 GB/s, and two beats (R204). -/
def State.moveTicks (s : State) (n : Nat) : Nat :=
  ceilDiv (n * 2048) (200000 * max 1 (s.rd R.TEMPO_PERIOD_HALF_US)) + 2 * 1024

/-- The tick at which the plan of a bar begins, bars running at their nominal length (R190). -/
def State.planTick (s : State) (b : Nat) : Nat :=
  let len := s.rd R.TEMPO_BAR_CFG_BAR_LEN
  s.rd R.TEMPO_BAR_START_START + ((b - 1 - s.bar) * len + (len - s.rd R.CALLER_WL_CFG_CUT)) * 1024

/-- The first bar whose plan begins after a tick (R204). -/
def State.barAfter (s : State) (tick : Nat) : Nat :=
  match ((List.range 16384).map (s.floorBar + ·)).find? (fun b => decide (tick < s.planTick b)) with
  | some b => b
  | none => s.bar + 16385

/-- A Resume (R198, R203, R204): refused, or re-admitted with its move back under way. One taken from the EXPIRY beat on finds the
entry FREE. -/
def State.resumeSeq (s : State) (r : Req) (i : Nat) : State :=
  let e := s.seq i
  let p := e.part
  if e.state = 5 ∧ s.expiredBy i (s.takenAt r) = true then (s.expire i).finish r stNotFound
  else if e.state ≠ 5 ∨ s.preempted p = true then s.finish r stBadState
  else match s.caller.shelf.find? (fun u => u.index = i) with
    | none => s.finish r stBadState
    | some u =>
      let tick := s.takenAt r
      let a : Ask := ⟨p, e.cls, e.promptLen - e.pfDone, e.maxNew - e.generated, r.f 3 31 0, tick,
        s.barAfter (tick + s.moveTicks u.len), some e.kvRes, false⟩
      match s.decideAsk a with
      | .error st => s.finish r st
      | .ok d =>
        let (t, fs) := (s.reserve a i d).popFrames p (e.kvRes / 64)
        let e' := Entry.promise { e with state := 6, dres := s.dresOf p e.cls, cq := r.cq.val, framed := true } d
          (s.rd R.TEMPO_BAR_CFG_BAR_LEN) (s.asStamp tick)
        let t := fs.foldl (fun t f => t.clearTags p f) t
        let t := (t.devSet (e.kvRoot + 0x40) (fs.flatMap (toLE 4))).putSeq i e'
        let t := t.queueMove (jobMove 1 p false true (.resume i))
          ((e.kvRoot, up64 (s.kvDesc p).tableLen) :: fs.flatMap (t.frameParts p))
        let t := { t with caller := { t.caller with
          moves := t.caller.moves ++ [(⟨i, false, u.base, fs⟩ : SeqMove)] } }
        t.complete r 0 (t.handle i) e'.dealWords

/-- RESUME (R204). -/
def resumeEffect (r : Req) (s : State) : State := s.onSeq 0x04 r (fun s i => s.resumeSeq r i)

/-- RESUME. -/
def execResume (r : Req) (s : State) : Res := .next (resumeEffect r s)

/-- The state a resumed entry goes on in (R188). -/
def Entry.resumed (e : Entry) : Nat := if e.pfDone < e.promptLen then 2 else 3

/-- RESUME_MOVE_COMPLETE (R188, R204, R308): once all of the move is written the set is back in its frames; an entry whose START_BAR is already planned goes
on in PREFILL or DECODE, another when it is planned. -/
def resumeMoveCompleteEffect (i : Nat) (s : State) : State :=
  match s.caller.moves.find? (fun m => m.index = i && !m.toShelf) with
  | none => s
  | some m =>
    let (s, done) := s.runJob (.resume i)
    if done = false then s
    else
    let s := s.loadEntry i
    let e := s.seq i
    if e.state ≠ 6 then s.moveOfLost i
    else
    let s := (((s.setIn e.part e.kvRoot m.base m.frames).endMove i).dropShelf i)
    let st := if e.startBar < s.caller.planned then e.resumed else e.state
    let s := s.putSeq i { e with shelfRoot := 0, state := st }
    (s.afterMove i id).standby i

/-- RESUME_MOVE_COMPLETE. -/
def execResumeMoveComplete (index : Nat) (s : State) : Res := .next (resumeMoveCompleteEffect index s)

/-! ### EXTEND (R200) -/

/-- Whether every added bar of an Extend has room. -/
def State.extendFits (s : State) (e : Entry) (n : Nat) : Bool :=
  (List.range n).all (fun j =>
    decide (s.seqUsed e.part (e.endBar + j) + 1 ≤ s.rd R.CALLER_ADMIT_CTL_SEQ_CAP 0 e.part) &&
    decide (s.tokUsed e.part (e.endBar + j) + 1 + e.dres ≤ s.rd R.CALLER_ADMIT_CTL_TOK_CAP 0 e.part))

/-- An Extend (R200, R240, R370). -/
def State.extendSeq (s : State) (r : Req) (i : Nat) : State :=
  let e := s.seq i
  let n := r.f 3 13 0
  let kv := s.kvFor e.part (e.promptLen + e.maxNew + n)
  if e.state ≠ 1 ∧ e.state ≠ 2 ∧ e.state ≠ 3 then s.finish r stBadState
  else if n = 0 ∨ 8191 < n ∨ 8192 < e.maxNew + n then s.finish r stBadArg
  else if s.bar + 16384 < e.endBar + n ∨ s.extendFits e n = false then s.finish r stNoSlot
  else if s.rd R.CALLER_PART_KV_KV_CAP 0 e.part < s.kvUsed e.part + (kv - e.kvRes) then s.finish r stNoKv
  else
    let s := s.wr R.CALLER_PART_KVUSE_KV_USED (s.kvUsed e.part + (kv - e.kvRes)) 0 e.part
    let s := if e.kvRes < kv then s.growTable e.part e.kvRoot ((kv - e.kvRes) / 64) else s
    let s := { s with caller := { s.caller with ledger := s.caller.ledger.map (fun (v : Resv) =>
      if v.index = i then { v with hi := v.hi + n, kv := v.kv + (kv - e.kvRes) } else v) } }
    let e' := { e with kvRes := max kv e.kvRes, maxNew := e.maxNew + n, endBar := e.endBar + n }
    (s.putSeq i e').complete r 0 r.handle.toNat [e'.endBar, e'.maxNew]

/-- EXTEND (R200). -/
def extendEffect (r : Req) (s : State) : State := s.onSeq 0x05 r (fun s i => s.extendSeq r i)

/-- EXTEND. -/
def execExtend (r : Req) (s : State) : Res := .next (extendEffect r s)

/-! ### Bounds, switch, open (R190, R205, R207, R209, R211) -/

/-- JOURNAL_LOST (R205): a mirror write of the entry has waited TMO beats; its records go on without it. -/
def journalLostEffect (i : Nat) (s : State) : State :=
  let late := fun (m : MirrorWr) => m.index = i && (match m.sent with
    | some t => decide (t + s.rd R.CALLER_JOURNAL_TMO * 1024 ≤ s.tempo.now)
    | none => false)
  match s.caller.mirror.find? late with
  | some m => (s.callerRaise E.CALLER_JOURNAL_LOST [i]).mirrorDone m.num
  | none => s

/-- JOURNAL_LOST. -/
def execJournalLost (index : Nat) (s : State) : Res := .next (journalLostEffect index s)

/-- The documented completion bound of a request type, in beats (R198, R370). -/
def boundOf (typ : Nat) : Option Nat :=
  if typ = 0x01 ∨ typ = 0x02 ∨ typ = 0x04 ∨ typ = 0x05 ∨ typ = 0x23 then some 2 else none

/-- Whether an open request is past its bound (R207). -/
def State.pastBound (s : State) (o : OpenReq) : Bool :=
  match boundOf o.typ with
  | some b => decide (o.stamp + (b + s.rd R.CALLER_JOURNAL_TMO + 4) * 1024 ≤ s.tempo.now)
  | none => false

/-- REQUEST_TIMEOUT (R207): a request past its bound completes with TIMEOUT, and is logged. -/
def requestTimeoutEffect (g cid : Nat) (s : State) : State :=
  match s.host.reqs.find? (fun o => o.req.grp.val = g && o.req.cid.toNat = cid && s.pastBound o) with
  | some o => (s.note 0x01 (.requestTimeout g cid)).finish o.req stTimeout
  | none => s

/-- REQUEST_TIMEOUT. -/
def execRequestTimeout (grp : GroupId) (cid : BitVec 16) (s : State) : Res :=
  .next (requestTimeoutEffect grp.val cid.toNat s)

/-- CALLER_SWITCH (R209): the Callers exchange at the next bar boundary. -/
def callerSwitchEffect (s : State) : State := { s with caller := { s.caller with switch := true } }

/-- CALLER_SWITCH. -/
def execCallerSwitch (s : State) : Res := .next (callerSwitchEffect s)

/-- Whether a partition may open (R211, R390, R392). -/
def State.mayOpen (s : State) (p : Nat) : Bool :=
  let cells := s.rd R.CALLER_PART_CELLS_CELL_BASE 0 p
  let total := fun (f : Fld) => sumOf ((List.range 16).map (fun q => s.rd f 0 q))
  s.locked p && !s.on R.PART_CTL_KIND p && decide (s.rd R.CALLER_ADMIT_CTL_SEQ_CAP 0 p ≤ s.devNat (cells + 4) 4) &&
  decide (s.rd R.CALLER_ADMIT_CTL_TOK_CAP 0 p ≤ s.devNat (cells + 196) 4) &&
  decide (total R.CALLER_ADMIT_CTL_SEQ_CAP ≤ 4096) && decide (total R.CALLER_ADMIT_CTL_TOK_CAP ≤ 16384) &&
  decide (s.rd R.CALLER_ADMIT_CTL_PF_CHUNK 0 p ≤ s.rd R.CALLER_ADMIT_CTL_TOK_CAP 0 p) &&
  decide (total R.CALLER_PART_DRES_ENTRY_CAP ≤ 262144)

/-- CALLER_OPEN (R211, R237): the first one since setup finds the free-frame stack written. -/
def callerOpenEffect (p : Nat) (on : Bool) (s : State) : State :=
  if on = false then s.wr R.CALLER_ADMIT_CTL_OPEN 0 0 p
  else if s.mayOpen p then (s.stackFrames p).wr R.CALLER_ADMIT_CTL_OPEN 1 0 p else s

/-- CALLER_OPEN. -/
def execCallerOpen (part : PartId) (on : Bool) (s : State) : Res := .next (callerOpenEffect part.val on s)

end Sys2Proof.Machine
end

