-- ==== Sys2Proof/Machine/ReelBase.lean ====
section
/-! DEFINITION. The Reel area, its packets, and the release of combine waves (R258, R263, R267, R268, R270, R274). -/

namespace Sys2Proof.Machine

/-! ### The Reel area (R267, R268) -/

/-- The Reel area of a partition. -/
def State.reelArea (s : State) (p : Nat) : Nat := s.rd R.REEL_AREA_BASE 0 p

/-- The header of a Reel area (R267). -/
structure ReelHdr where
  nl : Nat
  nom : Nat
  cap : Nat
  nw : Nat
  toks : Nat
  hslots : Nat
  hrows : Nat
  width : Nat
  kPos : Nat
  keyOff : Nat
  gathOff : Nat
  cntOff : Nat
  deriving DecidableEq, Repr

/-- The header of a partition's Reel area. -/
def State.reelHdr (s : State) (p : Nat) : ReelHdr :=
  let a := s.reelArea p
  let w0 := s.devWord a
  let w1 := s.devWord (a + 8)
  { nl := bits w0 8 0, nom := bits w0 12 9, cap := bits w0 26 13, nw := max 1 (bits w0 30 27), toks := bits w0 45 31
    hslots := bits w0 49 46, hrows := bits w1 13 0, width := bits w1 29 16, kPos := bits w1 57 32
    keyOff := s.devWord (a + 16), gathOff := s.devWord (a + 24), cntOff := s.devWord (a + 32) }

/-- Bytes of a dispatch row (R265). -/
def ReelHdr.drow (h : ReelHdr) : Nat := 64 + h.width + h.width / 32
/-- Bytes of a combine row (R265). -/
def ReelHdr.crow (h : ReelHdr) : Nat := 64 + 2 * h.width / h.nw

/-- Word `i` of a layer's descriptor (R268). -/
def State.reelDesc (s : State) (p l i : Nat) : Nat := s.devWord (s.reelArea p + 0x1000 + 128 * l + 8 * i)
/-- An address field of a layer's descriptor: bits 47 to 0 of a word. -/
def State.reelPtr (s : State) (p l i : Nat) : Nat := bits (s.reelDesc p l i) 47 0

/-- The rack of a package (R264). -/
def State.rackOf (s : State) (p pkg : Nat) : Nat := (s.devByte (s.reelArea p + 0x9000 + pkg)).toNat

/-- The key table of a member in the half of a bar (R267). -/
def State.keyTable (s : State) (p bar m : Nat) : Nat :=
  let h := s.reelHdr p
  s.reelArea p + h.keyOff + (bar % 2 * s.roles.nranks + m) * h.toks * 16
/-- The gathered nominations of a member in the half of a layer (R267). -/
def State.gathered (s : State) (p l m : Nat) : Nat :=
  let h := s.reelHdr p
  s.reelArea p + h.gathOff + (l % 2 * s.roles.nranks + m) * h.toks * h.nom * 4
/-- The current placement table, and the pending one (R263, R267). -/
def State.placeTab (s : State) (p : Nat) (pend : Bool) : Nat := s.reelArea p + 0x10000 + (if pend then 0x400020 else 0)

/-- One replica of an expert in a placement table (R263). -/
structure Replica where
  rank : Nat
  share : Nat
  hslot : Nat
  valid : Bool
  deriving DecidableEq, Repr

/-- Replica `k` of an expert of a layer in the table at an address (R263). -/
def State.replica (s : State) (tab l e k : Nat) : Replica :=
  let w := s.devNat (tab + 32 + 32 * (512 * l + e) + 4 * k) 4
  ⟨bits w 11 0, bits w 25 12, bits w 28 26, w.testBit 31⟩

/-- The expert that the current table places in a host slot of a rank. -/
def State.expertAt (s : State) (p l rank h : Nat) : Option Nat :=
  (List.range 512).find? (fun e => (List.range 8).any (fun k =>
    let x := s.replica (s.placeTab p false) l e k
    x.valid && x.rank = rank && x.hslot = h))

/-- Whether the Reel runs for a partition: enabled, serving, with an area, on a package that holds a rank, in a bar
(R270, R390), and that sends scheduled traffic still (R56). -/
def State.reelOn (s : State) (p : Nat) : Bool :=
  s.on R.REEL_CTL_EN && s.tempo.barOn && !s.on R.PART_CTL_KIND p && decide (s.reelArea p ≠ 0) && s.rank.isSome && !s.stranded

/-! ### The work of the bar -/

/-- The Reel's work for a partition. -/
def State.reelOf (s : State) (p : Nat) : ReelPart := mget ReelPart.init s.reel p
/-- Replace it. -/
def State.setReel (s : State) (p : Nat) (x : ReelPart) : State := { s with reel := mset ReelPart.init p x s.reel }
/-- A layer of the bar. -/
def State.layerOf (s : State) (p l : Nat) : ReelLayer := mget ReelLayer.init (s.reelOf p).layers l
/-- Replace it. -/
def State.setLayer (s : State) (p l : Nat) (x : ReelLayer) : State :=
  let r := s.reelOf p
  s.setReel p { r with layers := mset ReelLayer.init l x r.layers }

/-- Whether a position of the bar has been reached (R73, R270). -/
def State.reached (s : State) (pos : Nat) : Bool := decide (s.rd R.TEMPO_BAR_START_START + pos ≤ s.tempo.now)

/-- The VALUE of a cell written in the current bar, 0 otherwise (R88, R270). -/
def State.cellNow (s : State) (a : Nat) : Nat :=
  if s.devWord (a + 8) = s.bar ∧ s.cellGood a = true ∧ s.lineMark a = false then bits (s.devWord a) 31 0 else 0

/-- Source unit of the Reel instance of an expert (R66; even experts on X0, odd on X1). -/
def reelUnit (expert : Nat) : Nat := 0x88 + expert % 2

/-! ### Packets (R322, R325; log 55) -/

/-- A Reel packet to a device address of a member: OFFSET holds its low 40 bits, KEY the rest. -/
def State.reelPkt (s : State) (typ dst p a sets arr : Nat) : Pkt :=
  { s.toRemote 1 typ dst p (a / 2 ^ 40) (a % 2 ^ 40) p with
    dset := BitVec.ofNat 6 ((maskBits 48 sets).headD 0), arr := BitVec.ofNat 5 arr }

/-- The pieces that a transfer to a device address is cut into. -/
def reelCuts (a n : Nat) : List (Nat × Nat) := pieces (a % 2 ^ 40) n

/-- Send bytes to a device address of another member as REEL packets. -/
def State.reelSend (s : State) (unit dst p l a sets arr : Nat) (bs : List MarkByte) : State :=
  (reelCuts a bs.length).foldl (fun t (o, n) =>
    t.issueOp unit (withData (t.reelPkt 0x0A dst p (a + o) sets arr) ((bs.drop o).take n)) (.reel p l 0)) s

/-! ### Release of a wave (R274) -/

/-- The layer whose release cell lies at an address: the one in progress if it does, else the first. -/
def State.releaseLayer (s : State) (p a : Nat) : Option Nat :=
  let mine := fun (l : Nat) => decide (s.reelPtr p l 13 = a)
  match (s.reelOf p).cur with
  | some l => if mine l then some l else (List.range (s.reelHdr p).nl).find? mine
  | none => (List.range (s.reelHdr p).nl).find? mine

/-- Hold a release of a wave. -/
def State.holdRelease (s : State) (p l home w : Nat) : State :=
  let x := s.layerOf p l
  if x.rels.contains (home, w) then s else s.setLayer p l { x with rels := x.rels ++ [(home, w)] }

/-- The commit of a cell write: where the cell is a release cell, REEL_REL goes to every other member (R274). -/
def State.releaseWave (s : State) (p a v : Nat) : State :=
  if s.reelOn p = false ∨ v = 0 then s
  else match s.releaseLayer p a with
    | none => s
    | some l =>
      let s := s.holdRelease p l s.pkgId (v - 1)
      (s.members.filter (· ≠ s.pkgId)).foldl (fun t q =>
        t.issueOp 0x88 { t.reelPkt 0x0B q p 0 0 0 with data := toLE 8 (l + (v - 1) * 2 ^ 8) } (.reel p l (v - 1))) s

/-! ### Token keys (R258) -/

/-- A token key: admission stamp, position, home package and index. -/
def tokenKey (admitStamp pos home index : Nat) : Nat := admitStamp * 2 ^ 64 + pos % 2 ^ 24 * 2 ^ 40 + home * 2 ^ 28 + index * 2 ^ 10

/-- Write the key table of the package for a bar: the keys of its occupied token slots, all ones elsewhere (R258). -/
def State.writeKeys (s : State) (p bar : Nat) (keys : List Nat) : State :=
  match s.rank with
  | some m =>
    if s.on R.PART_CTL_KIND p ∨ s.reelArea p = 0 then s
    else s.devSet (s.keyTable p bar m)
      ((List.range (s.reelHdr p).toks).flatMap (fun t => toLE 16 (keys.getD t (2 ^ 128 - 1))))
  | none => s

end Sys2Proof.Machine
end

