-- ==== Sys2Proof/Machine/VopRows.lean ====
section
/-! DEFINITION. The vector operations, one command each (R123 to R127, R143, R159): each is a VOP with its VFN. -/

namespace Sys2Proof.Machine

/-- Whether a command is a VOP with a VFN between two codes (R124, R143). -/
def isVop (lo hi : Nat) (c : Cmd) : Bool := c.op = 3 && decide (lo ≤ c.vfn) && decide (c.vfn ≤ hi)

/-- A VOP of a range of VFN codes: every tile of TILES runs it on its own SRAM (R75, R107, R113). -/
def vopEffect (lo hi set : Nat) (x : Ecc) (s : State) : State :=
  s.issueEvent set (isVop lo hi) (fun s g =>
    if g.idle then (s, .plain, .none)
    else (s, .plain, Eff.and (eccEff (g.c.tiles set) x)
      (Eff.all ((g.c.tiles set).map (fun t => s.vopEff set t g.c g.n (g.second && eccBad x t))))))

/-- COPY copies FP32 elements (R124). -/
def execCopy (set : SetId) (x : Ecc) (s : State) : Res := .next (vopEffect 0x00 0x00 set x s)

/-- ADD adds (R123, R124). -/
def execAdd (set : SetId) (x : Ecc) (s : State) : Res := .next (vopEffect 0x01 0x01 set x s)

/-- SUB subtracts (R123, R124). -/
def execSub (set : SetId) (x : Ecc) (s : State) : Res := .next (vopEffect 0x02 0x02 set x s)

/-- MUL multiplies (R123, R124). -/
def execMul (set : SetId) (x : Ecc) (s : State) : Res := .next (vopEffect 0x03 0x03 set x s)

/-- FMA adds SRC0 × SRC1 to DST with one rounding (R123, R124). -/
def execFma (set : SetId) (x : Ecc) (s : State) : Res := .next (vopEffect 0x04 0x04 set x s)

/-- MAX takes the larger (R123, R124). -/
def execMax (set : SetId) (x : Ecc) (s : State) : Res := .next (vopEffect 0x05 0x05 set x s)

/-- MIN takes the smaller (R123, R124). -/
def execMin (set : SetId) (x : Ecc) (s : State) : Res := .next (vopEffect 0x06 0x06 set x s)

/-- EXP takes the exponential (R123, R124). -/
def execExp (set : SetId) (x : Ecc) (s : State) : Res := .next (vopEffect 0x08 0x08 set x s)

/-- RECIP takes the reciprocal (R123, R124). -/
def execRecip (set : SetId) (x : Ecc) (s : State) : Res := .next (vopEffect 0x09 0x09 set x s)

/-- RSQRT takes the reciprocal square root (R123, R124). -/
def execRsqrt (set : SetId) (x : Ecc) (s : State) : Res := .next (vopEffect 0x0A 0x0A set x s)

/-- SQRT takes the square root (R123, R124). -/
def execSqrt (set : SetId) (x : Ecc) (s : State) : Res := .next (vopEffect 0x0B 0x0B set x s)

/-- SILU takes x × sigmoid(x) (R123, R124). -/
def execSilu (set : SetId) (x : Ecc) (s : State) : Res := .next (vopEffect 0x0C 0x0C set x s)

/-- ROWMAX reduces a row to its maximum (R124). -/
def execRowmax (set : SetId) (x : Ecc) (s : State) : Res := .next (vopEffect 0x10 0x10 set x s)

/-- ROWSUM reduces a row to its tree sum (R124). -/
def execRowsum (set : SetId) (x : Ecc) (s : State) : Res := .next (vopEffect 0x11 0x11 set x s)

/-- CVT_BF16 narrows FP32 to BF16 (R124). -/
def execCvtBf16 (set : SetId) (x : Ecc) (s : State) : Res := .next (vopEffect 0x18 0x18 set x s)

/-- CVT_FP32 widens BF16 to FP32 (R124). -/
def execCvtFp32 (set : SetId) (x : Ecc) (s : State) : Res := .next (vopEffect 0x19 0x19 set x s)

/-- QUANT quantises to an object of the format VFN names (R143). -/
def execQuant (set : SetId) (x : Ecc) (s : State) : Res := .next (vopEffect 0x20 0x29 set x s)

/-- DEQUANT decodes an object to FP32 (R143). -/
def execDequant (set : SetId) (x : Ecc) (s : State) : Res := .next (vopEffect 0x2A 0x2A set x s)

/-- AMAX records the largest magnitude in the context (R143). -/
def execAmax (set : SetId) (x : Ecc) (s : State) : Res := .next (vopEffect 0x2B 0x2B set x s)

/-- QDIVERGE measures the divergence of two vectors (R159). -/
def execQdiverge (set : SetId) (x : Ecc) (s : State) : Res := .next (vopEffect 0x2F 0x2F set x s)

/-- ROT rotates chunks by Pirouette (R126). -/
def execRot (set : SetId) (x : Ecc) (s : State) : Res := .next (vopEffect 0x30 0x32 set x s)

/-- IROT rotates chunks back (R126). -/
def execIrot (set : SetId) (x : Ecc) (s : State) : Res := .next (vopEffect 0x34 0x36 set x s)

/-- LSRND rounds long-sum rows to FP32 (R119, R124). -/
def execLsrnd (set : SetId) (x : Ecc) (s : State) : Res := .next (vopEffect 0x38 0x38 set x s)

/-- LSPACK packs long-sum rows into records (R121, R124). -/
def execLspack (set : SetId) (x : Ecc) (s : State) : Res := .next (vopEffect 0x39 0x39 set x s)

/-- LSADD adds long-sum rows (R117, R124). -/
def execLsadd (set : SetId) (x : Ecc) (s : State) : Res := .next (vopEffect 0x3A 0x3A set x s)

/-- LSADDRND adds long-sum rows and rounds (R117, R119, R124). -/
def execLsaddrnd (set : SetId) (x : Ecc) (s : State) : Res := .next (vopEffect 0x3B 0x3B set x s)

/-- LSCLEAR clears the VALID bits of long-sum rows (R117, R124). -/
def execLsclear (set : SetId) (x : Ecc) (s : State) : Res := .next (vopEffect 0x3C 0x3C set x s)

end Sys2Proof.Machine
end

