-- ==== Sys2Proof/Machine/Completion.lean ====
section
/-! DEFINITION. Completion, commit, timeout and kill of Set commands (R79 to R87, R93, R101, R103, R145, R242). -/

namespace Sys2Proof.Machine

/-! ### Completion (R79, R82) -/

/-- Make one write of working state (R82). -/
def State.applyWork (s : State) (set : Nat) (w : Wk) : State :=
  match w with
  | .sram k d => s.sramPut k d
  | .tag k v => s.setTag k v
  | .shape k v m =>
    let s := (s.wr R.SCHED_SHAPE_VALUE v set k).wr R.SCHED_SHAPE_MAX m set k
    let x := s.st set
    s.setSt set { x with loaded := x.loaded ||| 2 ^ k }
  | .pass t => s.bump R.TILE_PASS_CNT_PASSES 1 t

/-- The command of a Set in flight at an index and not completed. -/
def State.flightAt (s : State) (set idx : Nat) : Option Flight := (s.st set).flights.find? (fun f => f.idx = idx && !f.done)

/-- The pass records that stay when a pass completes: a tile on which no pass runs any more has none to chain onto. -/
def keepPasses (fs : List Flight) (ps : List PassRec) : List PassRec :=
  ps.filter (fun p => fs.any (fun f => !f.done && decide (f.unit = .array) && f.tiles.contains p.tile))

/-- Complete a command (R79, R82): its working state is written, its token set. -/
def State.completeFlight (s : State) (set : Nat) (f : Flight) : State :=
  let s := f.work.foldl (fun t w => t.applyWork set w) s
  let x := s.st set
  let fs := x.flights.map (fun g => if g.idx = f.idx then { g with done := true } else g)
  let s := s.setSt set { x with flights := fs, passes := keepPasses fs x.passes }
  match f.ssb with
  | some b => s.wr R.SCHED_SB_SB (s.rd R.SCHED_SB_SB set ||| 2 ^ b) set
  | none => s

/-- Whether a command in flight may complete: a WAIT needs its counter, an FCOPY its answers (R81, R335). -/
def State.mayComplete (s : State) (set : Nat) (f : Flight) : Bool :=
  match f.kind with
  | .wait arr target _ => decide (target ≤ s.rd R.SCHED_ARR_COUNT set arr)
  | .fcopy k => k.left.isEmpty
  | _ => true

/-- COMMAND_COMPLETE (R79, R82). -/
def commandCompleteEffect (set idx : Nat) (s : State) : State :=
  match s.flightAt set idx with
  | some f => if s.mayComplete set f then s.completeFlight set f else s
  | none => s

/-- COMMAND_COMPLETE. -/
def execCommandComplete (set : SetId) (idx : Nat) (s : State) : Res := .next (commandCompleteEffect set idx s)

/-- Whether a WAIT has reached its deadline without its counter (R81). -/
def State.overdue (s : State) (set : Nat) (f : Flight) : Bool :=
  match f.kind with
  | .wait arr target (some d) => decide (d ≤ s.tempo.now) && decide (s.rd R.SCHED_ARR_COUNT set arr < target)
  | _ => false

/-- ARR_TIMEOUT (R81): the WAIT completes and the Set is in poison. -/
def arrTimeoutEffect (set idx : Nat) (s : State) : State :=
  match s.flightAt set idx with
  | some f =>
    if s.overdue set f then
      ((s.raise E.SCHED_ARR_TIMEOUT set [idx]).wr R.SCHED_STATUS_POISON 1 set).completeFlight set f
    else s
  | none => s

/-- ARR_TIMEOUT. -/
def execArrTimeout (set : SetId) (idx : Nat) (s : State) : Res := .next (arrTimeoutEffect set idx s)

/-! ### Commit (R82, R83, R86) -/

/-- Mark data when the group commits poisoned (R81, R86). -/
def poisoned (bad : Bool) (d : List MarkByte) : List MarkByte := if bad then d.map (fun b => (b.1, true)) else d

/-- Make one held effect architectural (R82, R89, R145, R242, R274). -/
def State.applyHeld (s : State) (set : Nat) (bad : Bool) (h : Held) : State :=
  match h with
  | .mem a d => s.devWrite a (poisoned bad d)
  | .score t par d =>
    let w0 := s.devWord t
    let w0 := w0 - (if w0.testBit 25 then 2 ^ 25 else 0) + par * 2 ^ 25
    (s.devWrite t (poisoned bad (clean (toLE 8 w0)))).devWrite (t + 16 + 4 * par) (poisoned bad d)
  | .cell a v mark =>
    if s.devNat (a + 4) 4 < v then s.raise E.SCHED_SHAPE_BOUND set
    else (s.cellWrite a v s.bar (s.pkgId * 256 + srcUnit 0x10 set) (mark || bad)).releaseWave (s.partOf set) a v
  | .stat base cs =>
    let a := base + 32 * (s.bar % 2)
    cs.zipIdx.foldl (fun t (c, i) =>
      t.devWrite (a + 8 * i) (poisoned bad (clean (toLE 8 (t.devWord (a + 8 * i) + c))))) s

/-- The commit of an FCOPY (R335, R336): one SCOMMIT, or an abandoned copy. In a group that commits poisoned, the rows that went
out without the mark go out again with it first (R81, R86, R149; log 163). -/
def State.commitCopy (s : State) (set idx : Nat) (bad : Bool) (k : FcopySt) : State :=
  if k.lost then s.raise E.COPY_ABANDONED (set % 16) [set]
  else
    let s := if bad then k.rows.foldl (fun t r => t.sendRow set idx k r.1 (poisoned true r.2)) s else s
    let p := { s.fcopyPkt set 0x09 k k.off with arrEn := true }
    s.issueOp (copyUnit (set % 16)) p (.scommit set s.bar)

/-- Whether every Set of a mask is DONE. -/
def State.allDone (s : State) (mask : Nat) : Bool := (maskBits 48 mask).all (fun n => s.setState n = 4)

/-- Complete the RUN_FIGURE requests whose Sets have all reached DONE (R370). -/
def State.runsDone (s : State) : State :=
  let ended := fun (r : Req) => s.allDone ((r.body.getD 1 0).toNat % 2 ^ 48)
  (s.runs.filter ended).foldl (fun t r => t.finish r 0) { s with runs := s.runs.filter (fun r => !ended r) }

/-- The commit of END (R93, R101, R103): the Set has completed its bar or its pass. -/
def State.commitEnd (s : State) (set : Nat) : State :=
  let x := s.st set
  let nominal := x.start + s.rd R.TEMPO_BAR_CFG_BAR_LEN * 1024
  let s := (s.wr R.SCHED_STATUS_STATE 4 set).wr R.SCHED_DONE_STAMP_STAMP s.stamp set
  let s := s.wr R.SCHED_SLACK_TICKS (if s.timed set then nominal - s.tempo.now else 0) set
  let s := s.wr R.SCHED_LATE_MAX_LAST (min 0xFFFF x.late) set
  if s.timed set then s else (s.wr R.SCHED_STATUS_POISON 0 set).runsDone

/-- Commit one command of a group. -/
def State.commitFlight (s : State) (set : Nat) (bad : Bool) (f : Flight) : State :=
  let s := f.held.foldl (fun t h => t.applyHeld set bad h) s
  match f.kind with
  | .fcopy k => s.commitCopy set f.idx bad k
  | .endOfBar => s.commitEnd set
  | _ => s

/-- The oldest group of a Set when it is whole and completed (R83). -/
def State.readyGroup (s : State) (set : Nat) : Option (List Flight) :=
  match (s.st set).flights with
  | [] => none
  | f :: r =>
    let g := (f :: r).takeWhile (fun x => x.grp = f.grp)
    if g.all (·.done) ∧ (g.getLast?.map (·.cp)) = some true then some g else none

/-- GROUP_COMMIT (R83): the oldest completed group becomes architectural at once. -/
def groupCommitEffect (set : Nat) (s : State) : State :=
  match s.readyGroup set with
  | none => s
  | some g =>
    let x := s.st set
    let fail := match g with
      | f :: _ => x.failed.contains f.grp
      | [] => false
    let bad := fail || s.on R.SCHED_STATUS_POISON set
    let toks := g.foldl (fun m f => match f.ssb with | some b => m ||| 2 ^ b | none => m) x.sbHeld
    let last := ((g.getLast?.map (·.idx)).getD 0) + 1
    let s := s.setSt set { x with flights := x.flights.drop g.length, sbHeld := toks }
    let s := s.wr R.SCHED_STATUS_COMMIT_IDX last set
    let s := g.foldl (fun t f => t.commitFlight set bad f) s
    if fail then s.raise E.SCHED_RERUN_FAIL set else s

/-- GROUP_COMMIT. -/
def execGroupCommit (set : SetId) (s : State) : Res := .next (groupCommitEffect set s)

/-! ### Control (R85, R87, R101, R103) -/

/-- SCHED_KILL (R85, R101). That a KILL of a Set in IDLE does nothing is the model's choice: R103 names HALTED, and R101 gives
IDLE no such move (DESIGN CHOICE, log 164). -/
def schedKillEffect (set : Nat) (s : State) : State :=
  if s.setState set = 0 ∨ s.setState set = 5 then s else s.kill set

/-- SCHED_KILL. -/
def execSchedKill (set : SetId) (s : State) : Res := .next (schedKillEffect set s)

/-- SCHED_RESUME (R101, R103): a Set killed in a bar or pass still in progress re-issues; any other waits in ARMED. One halted by
holdover expiry stays (R56). A write that also carries KILL is treated as KILL. -/
def schedResumeEffect (set : Nat) (kill : Bool) (s : State) : State :=
  if kill then schedKillEffect set s
  else if s.setState set = 5 ∧ (s.st set).why ≠ .expiry then
    let x := s.st set
    let on := x.halted.isSome ∧ (s.timed set = false ∨ x.haltBar = s.bar)
    (s.setSt set { x with halted := none }).wr R.SCHED_STATUS_STATE (if on then 2 else 1) set
  else s

/-- SCHED_RESUME. -/
def execSchedResume (set : SetId) (kill : Bool) (s : State) : Res := .next (schedResumeEffect set kill s)

/-- SCHED_ENABLE (R101, R103): EN set needs the owner's lock and arms an IDLE Set with a stream; EN cleared leaves HALTED,
ARMED and DONE for IDLE. That a RUNNING or DRAINING Set whose EN is cleared runs on to its END is the model's choice (DESIGN
CHOICE, log 193). -/
def schedEnableEffect (set : Nat) (on : Bool) (s : State) : State :=
  if on then
    if (s.ownerOf set).isSome then
      let s := s.wr R.SCHED_CTL_EN 1 set
      if s.setState set = 0 ∧ s.stranded = false ∧ s.rd R.SCHED_STREAM_LEN_LEN set ≠ 0 then s.wr R.SCHED_STATUS_STATE 1 set else s
    else s
  else
    let s := s.wr R.SCHED_CTL_EN 0 set
    if s.setState set = 5 ∨ s.setState set = 1 ∨ s.setState set = 4 then
      let x := s.st set
      (s.setSt set { x with halted := none }).wr R.SCHED_STATUS_STATE 0 set
    else s

/-- SCHED_ENABLE. -/
def execSchedEnable (set : SetId) (on : Bool) (s : State) : Res := .next (schedEnableEffect set on s)

end Sys2Proof.Machine
end

