-- ==== Sys2Proof/Machine/DanceCard.lean ====
section
/-! DEFINITION. The Dance Card: its words, its regeneration, and reading it over I3C (R30 to R45, R424, R450, R468). -/

namespace Sys2Proof.Machine

/-! ### Unit classes (R40) and their feature words -/

/-- A unit class: code, counts, whether it has a map, and its feature words, `none` where no chapter defines them. -/
structure ClassRow where
  code : Nat
  lcount : Nat
  pcount : Nat
  mapped : Bool
  feat0 : Option Nat
  feat1 : Option Nat
  deriving DecidableEq, Repr

/-- The classes of R40 in card order, with the feature words of R102, R128, R179, R181, R210, R282, R350, R352, R385,
R403, R448 and R472 and of the NVC, PROM, COPY, PWR and TEMPO maps. -/
def classRows : List ClassRow := [
  ⟨0x01, 10, 10, false, none, none⟩,
  ⟨0x02, 8, 8, false, none, none⟩,
  ⟨0x03, 1, 1, false, some 0, some 0⟩,
  ⟨0x10, 48, 48, false, some 0x10082040, some 0⟩,
  ⟨0x11, 384, 400, true, some 0x010000800080, some 0x10000703FF⟩,
  ⟨0x12, 384, 400, true, some 0x040C021020, some 0x00F⟩,
  ⟨0x13, 4, 4, false, some 16, some 0⟩,
  ⟨0x20, 8, 8, false, none, none⟩,
  ⟨0x21, 4, 4, false, none, none⟩,
  ⟨0x22, 4, 4, false, some (64 + 3000 * 2 ^ 16 + 8 * 2 ^ 32), some 0⟩,
  ⟨0x23, 4, 4, false, none, none⟩,
  ⟨0x24, 4, 4, false, some (3 + 2 * 2 ^ 8 + 400 * 2 ^ 16), some 0⟩,
  ⟨0x30, 24, 24, false, some (8 + 4 * 2 ^ 8 + 4 * 2 ^ 16 + 448 * 2 ^ 24), some (1024 + 1024 * 2 ^ 16)⟩,
  ⟨0x31, 192, 200, true, some (448 + 31 * 2 ^ 16), some 0⟩,
  ⟨0x32, 16, 16, false, some (64 + 16 * 2 ^ 8), some 0⟩,
  ⟨0x33, 2, 2, false, some (8 + 8 * 2 ^ 4 + 8 * 2 ^ 8 + 512 * 2 ^ 12 + 256 * 2 ^ 22), some 512⟩,
  ⟨0x40, 2, 2, false, some (262144 + 16384 * 2 ^ 20 + 4096 * 2 ^ 36),
    some (16384 + 16384 * 2 ^ 16 + 4 * 2 ^ 31 + 8 * 2 ^ 35)⟩,
  ⟨0x41, 16, 16, false, some (16 + 3 * 2 ^ 8 + 64 * 2 ^ 16 + 4 * 2 ^ 24), some 0⟩,
  ⟨0x42, 1, 1, false, some (7 + 8 * 2 ^ 4 + 17 * 2 ^ 8 + 16 * 2 ^ 16 + 8 * 2 ^ 24 + 2048 * 2 ^ 32),
    some (16 + 64 * 2 ^ 8 + 256 * 2 ^ 16)⟩,
  ⟨0x43, 2, 2, false, some (4 + 64 * 2 ^ 8 + 8 * 2 ^ 16 + 2 * 2 ^ 24), some 0⟩,
  ⟨0x44, 2, 2, false, some (16 + 22 * 2 ^ 8 + 3600 * 2 ^ 16), some 0⟩,
  ⟨0x45, 1, 1, false, some (2048 + 4 * 2 ^ 12 + 32 * 2 ^ 16 + 1 * 2 ^ 24), some 0⟩]

/-- A build-decided field of a class, cut to its width. -/
def cardNat (cls field wid : Nat) : Nat := (Config.cardField cls field).toNat % 2 ^ wid

/-- The class whose mask block and map a class uses: EXPAND uses TILE's (R40). -/
def maskClass (cls : Nat) : Nat := if cls = 0x12 then 0x11 else cls

/-- Words of a mask block (R36). -/
def ClassRow.maskWords (r : ClassRow) : Nat := 3 * ceilDiv r.pcount 64 + ceilDiv r.lcount 64

/-! ### Where the build puts windows and blocks (R30, R34 to R38) -/

/-- Where the build puts what belongs to one class: register windows, mask block, map and descriptor (R34). -/
structure CardPlace where
  cls : Nat
  base : Nat
  stride : Nat
  maskOff : Nat
  mapOff : Nat
  descOff : Nat
  descLen : Nat
  descVer : Nat
  deriving DecidableEq, Repr

/-- The build's choice for the whole card: one place for each class, and LENGTH. -/
structure CardPlan where
  places : List CardPlace
  length : Nat
  deriving DecidableEq, Repr

/-- First byte after the end entry. -/
def dataStart : Nat := 0x40 + 64 * (classRows.length + 1)

/-- Bytes of a class's register window: up to its last register. -/
def windowSize (cls : Nat) : Nat :=
  max 8 (maxOf ((R.all.filter (fun f => f.cls = cls)).map (fun f => f.off + f.s1 * (f.n1 - 1) + f.s2 * (f.n2 - 1) + 8)))

/-- Whether no two of a list of (start, length) runs share a byte. -/
def runsApart : List (Nat × Nat) → Bool
  | [] => true
  | a :: r => r.all (fun b => decide (a.1 + a.2 ≤ b.1) || decide (b.1 + b.2 ≤ a.1)) && runsApart r

/-- The windows of a class's instances: start and length (R35). -/
def CardPlace.windows (c : CardPlace) (r : ClassRow) : List (Nat × Nat) :=
  (List.range r.lcount).map (fun i => (c.base + i * c.stride, windowSize r.code))

/-- The blocks of the data area that a class owns: start and length. -/
def CardPlace.blocks (c : CardPlace) (r : ClassRow) : List (Nat × Nat) :=
  (if maskClass r.code = r.code then (c.maskOff, 8 * r.maskWords) ::
      (if r.mapped then [(c.mapOff, 8 * ceilDiv r.lcount 4)] else []) else []) ++
  (if c.descOff = 0 then [] else [(c.descOff, c.descLen)])

/-- Whether a plan keeps what the manual says of it: windows apart from each other, at or above 0x0010_0000 and inside
BAR0 (R30, R35, R357); blocks apart from each other, on word boundaries, in the data area and below LENGTH; a descriptor
as long as its header at least (R38). -/
def CardPlan.good (p : CardPlan) : Bool :=
  let both := p.places.zip classRows
  let ws := both.flatMap (fun (c, r) => c.windows r)
  let bs := both.flatMap (fun (c, r) => c.blocks r)
  decide (p.places.map (·.cls) = classRows.map (·.code)) &&
  decide (p.length % 8 = 0) && decide (dataStart ≤ p.length) && decide (p.length ≤ 0x100000) &&
  ws.all (fun w => decide (0x100000 ≤ w.1) && decide (w.1 % 8 = 0) && decide (w.1 + w.2 ≤ 2 ^ 26)) && runsApart ws &&
  bs.all (fun b => decide (dataStart ≤ b.1) && decide (b.1 % 8 = 0) && decide (b.1 + b.2 ≤ p.length)) && runsApart bs &&
  p.places.all (fun c => c.descOff = 0 || decide (8 ≤ c.descLen))

/-- What the build's free choice says. -/
def CardPlan.free : CardPlan where
  places := classRows.map (fun r =>
    let d := cardNat r.code 3 56
    ⟨r.code, cardNat r.code 1 32, cardNat r.code 2 32, cardNat r.code 4 32, cardNat r.code 5 32, d % 2 ^ 32,
      bits d 47 32, bits d 55 48⟩)
  length := cardNat 0 0 32

/-- A plan with everything side by side and no descriptors. -/
def CardPlan.compact : CardPlan :=
  let x := classRows.foldl (fun (x : List CardPlace × Nat × Nat) r =>
    let w := windowSize r.code
    let owns := maskClass r.code = r.code
    let m := if owns then 8 * r.maskWords else 0
    let p := if owns ∧ r.mapped = true then 8 * ceilDiv r.lcount 4 else 0
    (x.1 ++ [⟨r.code, x.2.1, w, x.2.2, x.2.2 + m, 0, 0, 0⟩], x.2.1 + r.lcount * w, x.2.2 + m + p)) ([], 0x100000, dataStart)
  ⟨x.1, x.2.2⟩

/-- The plan of the card: any that the manual allows (log 46). -/
def cardPlan : CardPlan := if CardPlan.free.good then CardPlan.free else CardPlan.compact

/-- The place of a class. -/
def cardPlace (cls : Nat) : CardPlace := (cardPlan.places.find? (fun c => c.cls = cls)).getD ⟨cls, 0, 0, 0, 0, 0, 0, 0⟩

/-- Card offset of a class's mask block. -/
def maskOff (cls : Nat) : Nat := (cardPlace (maskClass cls)).maskOff
/-- Card offset of a class's map. -/
def mapOff (cls : Nat) : Nat := (cardPlace (maskClass cls)).mapOff

/-- LENGTH of the card. -/
def cardLength : Nat := cardPlan.length

/-- HBMC's FEAT1: the channels available on every stack (R40; log 46). -/
def Layout.channelMask (y : Layout) : Nat :=
  sumOf (((List.range 32).filter (fun c => (List.range 8).all (fun k => !y.channels.contains (32 * k + c)))).map (2 ^ ·))

/-- A feature word of a class. -/
def featWord (y : Layout) (r : ClassRow) (k : Nat) : Nat :=
  if r.code = 0x20 ∧ k = 1 then y.channelMask
  else (if k = 0 then r.feat0 else r.feat1).getD (cardNat r.code (10 + k) 64)

/-- Word `k` of a unit entry (R34). -/
def entryWord (y : Layout) (r : ClassRow) (k : Nat) : Nat :=
  match k with
  | 0 => 0x0801 + r.code * 2 ^ 16 + cardNat r.code 0 16 * 2 ^ 32 + r.lcount * 2 ^ 48
  | 1 => (cardPlace r.code).base
  | 2 => (cardPlace r.code).stride + r.pcount * 2 ^ 32
  | 3 => featWord y r 0
  | 4 => featWord y r 1
  | 5 => maskOff r.code + ceilDiv r.pcount 64 * 2 ^ 32 + ceilDiv r.lcount 64 * 2 ^ 40
  | 6 => let c := cardPlace r.code
    if c.descOff = 0 then 0 else c.descOff + c.descLen * 2 ^ 32 + c.descVer * 2 ^ 48
  | _ => if r.mapped then mapOff r.code else 0

/-! ### Masks and maps (R36, R37) -/

/-- The class whose retirements a class shares. -/
def Layout.marked (l : List (Nat × Nat)) (cls n : Nat) : Bool := l.contains (maskClass cls, n)

/-- Where a logical instance stands with no repair. -/
def homeOf (cls i : Nat) : Nat := if maskClass cls = 0x11 then tileHome i else if cls = 0x31 then laneHome i else i

/-- Bit `n` of one of the four arrays of a mask block. -/
def Layout.maskBit (y : Layout) (r : ClassRow) (arr n : Nat) : Bool :=
  match arr with
  | 0 => Layout.marked y.fused r.code n
  | 1 => Layout.marked y.retired r.code n
  | 2 => (List.range r.lcount).any (fun i => y.phys r.code i = n && decide (homeOf r.code i ≠ n))
  | _ => decide (n < r.lcount) && y.phys r.code n = 0xFFFF

/-- Word `k` of a mask block. -/
def Layout.maskWord (y : Layout) (r : ClassRow) (k : Nat) : Nat :=
  let w := ceilDiv r.pcount 64
  let arr := min 3 (k / w)
  let base := 64 * (k - arr * w)
  sumOf (((List.range 64).filter (fun b => y.maskBit r arr (base + b))).map (2 ^ ·))

/-- Word `k` of a map. -/
def Layout.mapWord (y : Layout) (r : ClassRow) (k : Nat) : Nat :=
  sumOf ((List.range 4).map (fun j => if 4 * k + j < r.lcount then y.phys r.code (4 * k + j) * 2 ^ (16 * j) else 0))

/-- The header that every per-unit descriptor begins with (R38). -/
def CardPlace.descHead (c : CardPlace) : Nat := c.cls + c.descLen * 2 ^ 16 + c.descVer * 2 ^ 32

/-- A word of the data area at card offset `o` (R36 to R38): masks, maps, descriptor headers; what the rest of a descriptor
and unused space hold, no chapter says. -/
def Layout.dataWord (y : Layout) (o : Nat) : Nat :=
  match classRows.find? (fun r => decide (maskOff r.code ≤ o) && decide (o < maskOff r.code + 8 * r.maskWords)) with
  | some r => y.maskWord r ((o - maskOff r.code) / 8)
  | none => match classRows.find? (fun r =>
      r.mapped && decide (mapOff r.code ≤ o) && decide (o < mapOff r.code + 8 * ceilDiv r.lcount 4)) with
    | some r => y.mapWord r ((o - mapOff r.code) / 8)
    | none => match cardPlan.places.find? (fun c => c.descOff ≠ 0 && decide (c.descOff = o)) with
      | some c => c.descHead
      | none => (Config.cardData o).toNat

/-- The word at offset `o` of a card, CRC and header counters apart (R32, R34). -/
def Layout.bodyWord (y : Layout) (o : Nat) : Nat :=
  if o < dataStart - 64 then
    match classRows[(o - 0x40) / 64]? with
    | some r => entryWord y r ((o - 0x40) % 64 / 8)
    | none => 0
  else if o < dataStart then 0
  else if o < cardLength then y.dataWord o
  else 0

/-- A header word (R32), its CRC as given. -/
def State.headWord (s : State) (gen crc k : Nat) : Nat :=
  match k with
  | 0 => 0x0001_4344_4853
  | 1 => gen
  | 2 => cardLength + classRows.length * 2 ^ 32 + 0x40 * 2 ^ 48
  | 3 => s.fuses.partnum % 2 ^ 16 + s.fuses.stepping * 2 ^ 16 + s.pkgId * 2 ^ 24
  | 4 => crc
  | 5 => s.card.stamp
  | 6 => s.card.cause + s.card.causeClass * 2 ^ 8 + s.card.causeInst * 2 ^ 20
  | _ => 0

/-- The bytes of a card with a DC_GEN, for a layout, its CRC field 0. -/
def State.cardBytes (s : State) (y : Layout) (gen : Nat) : List Byte :=
  (List.range (cardLength / 8)).flatMap (fun k =>
    toLE 8 (if k < 8 then s.headWord gen 0 k else y.bodyWord (8 * k)))

/-- DC_CRC of the card that is shown, with its final even DC_GEN (R32). -/
def State.cardCrc (s : State) : Nat := crc32c (s.cardBytes s.card.shown (s.card.gen + s.card.gen % 2))

/-- The word at offset `o` as a reader sees it now (R30, R42, R45, R456): 0, DC_GEN included, until the boot build is
complete; a mixture of old and new while DC_GEN is odd. -/
def State.cardWord (s : State) (o : Nat) : Nat :=
  let g := s.card.gen
  let y := if g % 2 = 1 ∧ Config.cardEarly g o = true then s.card.next else s.card.shown
  if g < 2 then 0 else if o < 0x40 then s.headWord g s.cardCrc (o / 8) else y.bodyWord o

/-! ### READ_DANCE_CARD (R31) -/

/-- Whether a Read Dance Card request is legal (R31). -/
def cardRequestGood (off len : Nat) : Bool :=
  off % 8 = 0 && len % 8 = 0 && decide (8 ≤ len) && decide (len ≤ 256) && decide (off + len ≤ 0x100000)

/-- READ_DANCE_CARD (R31): the bytes with DC_GEN, or an error without them. -/
def readDanceCardEffect (off len : Nat) (s : State) : State :=
  if cardRequestGood off len then
    s.emit (.cardData ((List.range (len / 8)).flatMap (fun i => toLE 8 (s.cardWord (off + 8 * i)))) s.card.gen)
  else s.emit .cardError

/-- READ_DANCE_CARD. -/
def execReadDanceCard (off len : Nat) (s : State) : Res := .next (readDanceCardEffect off len s)

/-! ### DANCE_CARD_REGEN (R42, R43) -/

/-- Whether one change comes before another: lower class, then lower physical instance (R42). -/
def CardChange.before (a b : CardChange) : Bool := decide (a.cls < b.cls) || (a.cls = b.cls && decide (a.phys < b.phys))

/-- The change that DC_CAUSE names. -/
def firstChange : List CardChange → Option CardChange
  | [] => none
  | c :: r => some (r.foldl (fun a b => if b.before a then b else a) c)

/-- The lasting layout: a spare that the margin re-plan borrows is left out of it (R43). -/
def State.lasting (s : State) : Layout :=
  match s.health.replan with
  | some r =>
    if s.layout.tile r.tile = r.spare ∧ s.layout.retired.contains (0x11, r.phys) = false then
      s.layout.mapTile r.tile r.phys
    else s.layout
  | none => s.layout

/-- Begin a regeneration (R42): DC_GEN goes odd, and the changes decided so far are in it. -/
def State.beginCard (s : State) : State :=
  { s with card := { s.card with
    gen := s.card.gen + 1, next := s.lasting, batch := s.card.waiting, waiting := [] } }

/-- The die-to-die lanes that the fault log records as replaced (R462). -/
def State.lanesNoted (s : State) : List (Nat × Nat) := s.log.filterMap (fun r => match r.what with
  | .note (.d2dLane k l) => some (k, l)
  | _ => none)

/-- The bytes of the log's ring that no commit has taken yet: at most the whole ring (R440). -/
def State.newLog (s : State) : List Byte :=
  let base := s.rd R.HEALTH_LOG_BASE
  let last := s.rd R.HEALTH_LOG_SEQ_SEQ
  let first := max s.health.committed (last - 32768)
  (List.range (last - first)).flatMap (fun i => s.devBytes (base + 32 * ((first + i) % 32768)) 32)

/-- Cut bytes into NV pages of 64 KiB. -/
def pagesOf (bs : List Byte) : List (List Byte) :=
  (List.range (ceilDiv bs.length 65536)).map (fun i => (bs.drop (65536 * i)).take 65536)

/-- Commit the log's ring to the log area (R440): page after page, from N0 to N3 in turn, round a ring of 128 MiB per stack (log
213). -/
def State.commitPages (s : State) : State :=
  let nv := (pagesOf s.newLog).foldl (fun (v : Nv) pg =>
    { v with logPages := mset [] (v.logNext % 8192) pg v.logPages, logNext := v.logNext + 1 }) s.nv
  { s with nv := nv, health := { s.health with committed := s.rd R.HEALTH_LOG_SEQ_SEQ } }

/-- The ageing records as they stand (R424). -/
def State.ageing (s : State) : Ageing :=
  ⟨s.health.slack, s.health.results, s.health.days, s.rd R.HEALTH_FORECAST_MONTHS, s.rd R.HEALTH_FORECAST_CLASS,
    s.rd R.HEALTH_FORECAST_INSTANCE⟩

/-- Commit the fault log, the retirement record and the ageing records to NV (R424, R440, R446, R449, R462); none starts in supply
sag, which holds it back. -/
def State.commitLog (s : State) : State :=
  if s.on R.PWR_STATUS_SAG then { s with power := { s.power with logHeld := true } }
  else
    let fs := (List.range 4).map (fun k => s.rd R.HEALTH_MARGIN_FORECAST 0 k)
    let lanes := s.nv.d2d ++ s.lanesNoted.filter (fun e => !s.nv.d2d.contains e)
    let s := s.commitPages
    { s.wr R.HEALTH_LOG_COMMIT_STAMP s.stamp with
      nvLog := s.log
      nv := { s.nv with
        retired := s.nv.retired ++ s.layout.retired.filter (fun u => !s.nv.retired.contains u)
        channels := s.nv.channels ++ s.layout.channels.filter (fun c => !s.nv.channels.contains c)
        forecasts := fs, d2d := lanes, ageing := s.ageing } }

/-- Firmware reads the forecasts and the ageing records of the last commit at boot (R446, R449). -/
def State.readAgeing (s : State) : State :=
  let a := s.nv.ageing
  let s := (s.nv.forecasts.take 4).zipIdx.foldl (fun (t : State) (m, k) => t.wr R.HEALTH_MARGIN_FORECAST m 0 k) s
  let s := ((s.wr R.HEALTH_FORECAST_MONTHS a.months).wr R.HEALTH_FORECAST_CLASS a.cls).wr R.HEALTH_FORECAST_INSTANCE a.inst
  { s with health := { s.health with slack := a.slack, results := a.results, days := a.days } }

/-- Report the units of a regeneration that were retired (R450). -/
def State.reportRetired (s : State) (cs : List CardChange) : State :=
  (cs.filter (fun c => c.cause ≠ 6)).foldl (fun t c => t.mgmtTray 0x0203 [c.cls + c.phys * 2 ^ 16, t.card.gen]) s

/-- The Dance Card's change event: fault log, rings and management (R43). -/
def State.cardEvent (s : State) : State :=
  let pay := [s.card.gen, s.card.stamp, s.card.cause]
  ((s.note 0x01 (.cardChange s.card.gen s.card.stamp)).mgmtAll 0x0001 pay).emit (.mctp 0x0001 pay)

/-- The card of another package id (R45, R454): DC_PART and DC_CRC change, so a card that stands goes through a whole regeneration,
and a copy taken across it shows; one under construction takes the id as it ends. That it is one, with DC_CAUSE as it was, is the
model's choice (DESIGN CHOICE, log 46). -/
def State.recard (s : State) : State :=
  if s.card.gen % 2 = 0 ∧ 2 ≤ s.card.gen then
    State.cardEvent { s with card := { s.card with gen := s.card.gen + 2, stamp := s.stamp } }
  else s

/-- End a regeneration (R42, R43, R424): DC_STAMP, DC_CAUSE (the boot build's is 0x01 whatever was retired before it, R32), an
even DC_GEN, the change event, and the commit that each retirement brings. That the boot build too sends the event is the
model's choice: R43 speaks of a regeneration (DESIGN CHOICE, log 46). -/
def State.endCard (s : State) : State :=
  let cs := s.card.batch
  let c := if s.card.gen = 1 then ⟨0x01, 0, 0⟩ else (firstChange cs).getD ⟨0x01, 0, 0⟩
  let s := { s with card := { s.card with
    gen := s.card.gen + 1, stamp := s.stamp, cause := c.cause, causeClass := c.cls % 4096, causeInst := c.phys % 65536
    shown := s.card.next, batch := [] } }
  let s := (s.cardEvent.reportRetired cs).measure
  if cs.isEmpty then s else s.commitLog

/-- Whether the card is due: the boot build from stage MAP on, in which the map stands (R455), or with changes waiting (R42). -/
def State.cardDue (s : State) : Bool :=
  if s.card.gen = 0 then decide (6 ≤ s.rd R.SEC_STATUS_STAGE) && decide (s.rd R.SEC_STATUS_STAGE ≤ 8)
  else !s.card.waiting.isEmpty

/-- DANCE_CARD_REGEN (R42): an odd DC_GEN is completed; an even one goes odd if a regeneration is due. -/
def danceCardRegenEffect (s : State) : State :=
  if s.card.gen % 2 = 1 then s.endCard
  else if s.cardDue then s.beginCard
  else s

/-- DANCE_CARD_REGEN. -/
def execDanceCardRegen (s : State) : Res := .next (danceCardRegenEffect s)

end Sys2Proof.Machine
end

