-- ==== Sys2Proof/Machine/Sha.lean ====
section
/-! DEFINITION. SHA-384 (FIPS 180-4), the digest that R70, R286, R289 and R290 name; PRESUMED, the manual does not
define it (log 35). -/

namespace Sys2Proof.Machine

/-- A 64-bit word of the hash. -/
abbrev ShaWord := BitVec 64

/-- Whether a number below 441 is a prime: no number from 2 to 20 but itself divides it. -/
def smallPrime (p : Nat) : Bool := decide (2 ≤ p) && (List.range 19).all (fun i => i + 2 = p || p % (i + 2) ≠ 0)

/-- The integer `d`-th root of a number, by its bits from bit 66 down. -/
def intRoot (d x : Nat) : Nat := (List.range 67).foldr (fun i r => if (r + 2 ^ i) ^ d ≤ x then r + 2 ^ i else r) 0

/-- The first 64 bits of the fractional part of the `d`-th root of a number. -/
def rootWord (d p : Nat) : ShaWord := BitVec.ofNat 64 (intRoot d (p * 2 ^ (64 * d)))

/-- The first 80 primes. -/
def shaPrimes : List Nat := (List.range 410).filter smallPrime

/-- Round constants: the fractional parts of the cube roots of the first 80 primes. -/
def shaK : List ShaWord := shaPrimes.map (rootWord 3)

/-- Initial value of SHA-384: the fractional parts of the square roots of the 9th to 16th primes. -/
def shaIv : List ShaWord := ((shaPrimes.drop 8).take 8).map (rootWord 2)

/-- Big-endian bytes of a number. -/
def toBE (n x : Nat) : List Byte := (toLE n x).reverse

/-- The number big-endian bytes spell. -/
def ofBE (bs : List Byte) : Nat := ofLE bs.reverse

/-- Message schedule, newest word first: `n` words more. -/
def shaExtend : Nat → List ShaWord → List ShaWord
  | 0, w => w
  | n + 1, w =>
    let a := w.getD 1 0
    let b := w.getD 14 0
    let s1 := a.rotateRight 19 ^^^ a.rotateRight 61 ^^^ (a >>> 6)
    let s0 := b.rotateRight 1 ^^^ b.rotateRight 8 ^^^ (b >>> 7)
    shaExtend n ((s1 + w.getD 6 0 + s0 + w.getD 15 0) :: w)

/-- One round on the working variables a to h. -/
def shaRound (v : List ShaWord) (kw : ShaWord) : List ShaWord :=
  match v with
  | [a, b, c, d, e, f, g, h] =>
    let t1 := h + (e.rotateRight 14 ^^^ e.rotateRight 18 ^^^ e.rotateRight 41) + ((e &&& f) ^^^ (~~~e &&& g)) + kw
    let t2 := (a.rotateRight 28 ^^^ a.rotateRight 34 ^^^ a.rotateRight 39) + ((a &&& b) ^^^ (a &&& c) ^^^ (b &&& c))
    [t1 + t2, a, b, c, d + t1, e, f, g]
  | _ => v

/-- One block of 128 bytes. -/
def shaBlock (h : List ShaWord) (bs : List Byte) : List ShaWord :=
  let w := (List.range 16).map (fun i => BitVec.ofNat 64 (ofBE ((bs.drop (8 * i)).take 8)))
  let ws := (shaExtend 64 w.reverse).reverse
  h.zipWith (· + ·) ((ws.zipWith (· + ·) shaK).foldl shaRound h)

/-- Blocks of a padded message. -/
def shaBlocks : Nat → List ShaWord → List Byte → List ShaWord
  | 0, h, _ => h
  | n + 1, h, bs => shaBlocks n (shaBlock h (bs.take 128)) (bs.drop 128)

/-- The padding of a message of `n` bytes. -/
def shaPad (n : Nat) : List Byte := 0x80 :: (List.replicate ((239 - n % 128) % 128) 0 ++ toBE 16 (8 * n))

/-- SHA-384 of a byte string, 48 bytes, most significant first. -/
def sha384 (bs : List Byte) : List Byte :=
  let m := bs ++ shaPad bs.length
  ((shaBlocks (m.length / 128) shaIv m).take 6).flatMap (fun w => toBE 8 w.toNat)

end Sys2Proof.Machine
end

