-- ==== Sys2Proof/Machine/Ecdsa.lean ====
section
/-! DEFINITION. ECDSA verification on brainpoolP384r1 with SHA-384, and HMAC-SHA-384, which R288, R459, R464 to R466 and
R470 name; PRESUMED from RFC 5639, FIPS 186 and RFC 2104, the manual does not define them (log 35). -/

namespace Sys2Proof.Machine

/-- The field's prime. -/
def bpP : Nat := 0x8CB91E82A3386D280F5D6F7E50E641DF152F7109ED5456B412B1DA197FB71123ACD3A729901D1A71874700133107EC53
/-- Coefficient a of the curve. -/
def bpA : Nat := 0x7BC382C63D8C150C3C72080ACE05AFA0C2BEA28E4FB22787139165EFBA91F90F8AA5814A503AD4EB04A8C7DD22CE2826
/-- Coefficient b. -/
def bpB : Nat := 0x04A8C7DD22CE28268B39B55416F0447C2FB77DE107DCD2A62E880EA53EEB62D57CB4390295DBC9943AB78696FA504C11
/-- The order of the base point. -/
def bpN : Nat := 0x8CB91E82A3386D280F5D6F7E50E641DF152F7109ED5456B31F166E6CAC0425A7CF3AB6AF6B7FC3103B883202E9046565

/-- A point in Jacobian coordinates; Z = 0 is the neutral element. -/
structure Pt where
  x : Nat
  y : Nat
  z : Nat
  deriving DecidableEq, Repr

/-- The base point. -/
def bpG : Pt where
  x := 0x1D1C64F068CF45FFA2A63A81B7C13F6B8847A3E77EF14FE3DB7FCAFE0CBD10E8E826E03436D646AAEF87B2E247D4AF1E
  y := 0x8ABE1D7520F9C2A45CB1EB8E95CFD55262B70B29FEEC5864E19C054FF99129280E4646217791811142820341263C5315
  z := 1

/-- Difference modulo `m`. -/
def subMod (m a b : Nat) : Nat := (a % m + (m - b % m)) % m

/-- `b ^ e` modulo `m`, by the bits of `e` from the top. -/
def powMod (m b e : Nat) : Nat :=
  (List.range 384).reverse.foldl (fun r i => if e.testBit i then r * r % m * b % m else r * r % m) 1

/-- Twice a point. -/
def Pt.double (p : Pt) : Pt :=
  let yy := p.y * p.y % bpP
  let s := 4 * p.x * yy % bpP
  let zz := p.z * p.z % bpP
  let m := (3 * p.x * p.x + bpA * zz % bpP * zz) % bpP
  let x := subMod bpP (m * m) (2 * s)
  ⟨x, subMod bpP (m * subMod bpP s x) (8 * yy * yy), 2 * p.y * p.z % bpP⟩

/-- The sum of two points. -/
def Pt.add (p q : Pt) : Pt :=
  if p.z = 0 then q
  else if q.z = 0 then p
  else
    let z1 := p.z * p.z % bpP
    let z2 := q.z * q.z % bpP
    let u1 := p.x * z2 % bpP
    let u2 := q.x * z1 % bpP
    let s1 := p.y * z2 % bpP * q.z % bpP
    let s2 := q.y * z1 % bpP * p.z % bpP
    if u1 = u2 then (if s1 = s2 then p.double else ⟨1, 1, 0⟩)
    else
      let h := subMod bpP u2 u1
      let r := subMod bpP s2 s1
      let hh := h * h % bpP
      let hhh := hh * h % bpP
      let v := u1 * hh % bpP
      let x := subMod bpP (r * r) (hhh + 2 * v)
      ⟨x, subMod bpP (r * subMod bpP v x) (s1 * hhh), h * p.z % bpP * q.z % bpP⟩

/-- A multiple of a point. -/
def Pt.times (p : Pt) (k : Nat) : Pt :=
  (List.range 384).reverse.foldl (fun (r : Pt) i => if k.testBit i then r.double.add p else r.double) ⟨1, 1, 0⟩

/-- The point of a 97-byte uncompressed encoding, if it is on the curve. -/
def pointOf (bs : List Byte) : Option Pt :=
  let x := ofBE ((bs.drop 1).take 48)
  let y := ofBE ((bs.drop 49).take 48)
  if bs.length = 97 ∧ bs.head? = some 4 ∧ x < bpP ∧ y < bpP ∧ y * y % bpP = (x * x % bpP * x + bpA * x + bpB) % bpP
  then some ⟨x, y, 1⟩ else none

/-- Whether a 96-byte signature, r then s, of a message verifies under a public point. -/
def ecdsaOk (point msg sig : List Byte) : Bool :=
  match pointOf point with
  | none => false
  | some q =>
    let r := ofBE (sig.take 48)
    let s := ofBE (sig.drop 48)
    if sig.length = 96 ∧ 0 < r ∧ r < bpN ∧ 0 < s ∧ s < bpN then
      let w := powMod bpN s (bpN - 2)
      let e := ofBE (sha384 msg)
      let p := (bpG.times (e * w % bpN)).add (q.times (r * w % bpN))
      let zi := powMod bpP p.z (bpP - 2)
      decide (p.z ≠ 0) && decide (p.x * (zi * zi % bpP) % bpP % bpN = r)
    else false

/-- HMAC-SHA-384. -/
def hmac384 (key msg : List Byte) : List Byte :=
  let k := if 128 < key.length then sha384 key else key
  let k := k ++ List.replicate (128 - k.length) 0
  sha384 (k.map (· ^^^ 0x5C) ++ sha384 (k.map (· ^^^ 0x36) ++ msg))

/-- The private scalar of a derived value (R466). -/
def scalarOf (h : List Byte) : Nat := ofBE h % (bpN - 1) + 1

end Sys2Proof.Machine
end

