-- ==== Sys2Proof/Machine/Plan.lean ====
section
/-! DEFINITION. The plan of the next bar: slots, draft lengths, work list and shape cells (R190 to R196, R222, R225, R227,
R302). -/

namespace Sys2Proof.Machine

/-! ### Order -/

/-- Insert into a list in rising order of a key. -/
def insertBy {α : Type} (key : α → Nat) (x : α) : List α → List α
  | [] => [x]
  | y :: r => if key x < key y then x :: y :: r else y :: insertBy key x r

/-- Sort by a key. -/
def sortBy {α : Type} (key : α → Nat) : List α → List α
  | [] => []
  | x :: r => insertBy key x (sortBy key r)

/-- CLASS, then ADMIT_STAMP, then index (R194, R206, R227). -/
def Entry.rankKey (e : Entry) (i : Nat) : Nat := e.cls * 2 ^ 82 + e.admitStamp * 2 ^ 18 + i

/-! ### Seats (R194) -/

/-- A sequence seated in the bar being planned. -/
structure Seat where
  slot : Nat
  index : Nat
  cont : Bool
  kind : Nat
  tokN : Nat
  pos0 : Nat
  lastPf : Bool
  heads : Bool
  cls : Nat
  want : Nat
  base : Nat
  draft : Nat
  probe : Bool
  deriving DecidableEq, Repr

/-- Prefill positions planned so far: those done, and a chunk of the running bar not yet harvested (R194). -/
def State.pfPlanned (s : State) (e : Entry) : Nat :=
  if e.lastPlan = s.bar + 1 ∧ s.caller.harvested ≤ s.bar then
    let x := s.slotEntry (slotAt (s.wlHalf e.part s.bar) e.slot)
    if x.kind = 1 then e.pfDone + x.tokN else e.pfDone
  else e.pfDone

/-- Whether an entry keeps its slot in bar `b` (R194). -/
def State.keepsSlot (s : State) (i b : Nat) : Bool :=
  let e := s.seq i
  decide (e.slot < 4096) && e.lastPlan = b && (e.state = 2 || e.state = 3 || e.state = 4) && s.reserved i b

/-- Whether an entry takes a free slot in bar `b` (R194, R204). -/
def State.takesSlot (s : State) (i b : Nat) : Bool :=
  let e := s.seq i
  (e.state = 1 || e.state = 2 || e.state = 3 || (e.state = 6 && !s.moving i)) && decide (e.startBar ≤ b) &&
  s.reserved i b && !s.keepsSlot i b

/-- The entries of a partition, in the order of R194. -/
def State.partSeqs (s : State) (p : Nat) : List Nat :=
  (sortBy (fun (e : Nat × Entry) => e.2.rankKey e.1) (s.caller.seqs.filter (fun e => e.2.part = p && e.2.state ≠ 0))).map (·.1)

/-- The slots that a plan gives: kept ones, then the lowest free ones. -/
def State.assign (s : State) (p b : Nat) : List (Nat × Nat × Bool) :=
  let kept := ((s.partSeqs p).filter (fun i => s.keepsSlot i b)).map (fun i => ((s.seq i).slot, i, true))
  let new := (s.partSeqs p).filter (fun i => s.takesSlot i b)
  let free := ((List.range (kept.length + new.length)).filter (fun n => !kept.any (fun x => x.1 = n)))
  sortBy (fun (x : Nat × Nat × Bool) => x.1) (kept ++ (new.zip free).map (fun (i, n) => (n, i, false)))

/-! ### Draft lengths (R227) -/

/-- The draft length α supports (R227). -/
def wantLoop (alpha least : Nat) : Nat → Nat → Nat → Nat
  | 0, d, _ => d
  | n + 1, d, q =>
    let q := q * alpha / 65536
    if q < least then d else wantLoop alpha least n (d + 1) q

/-- want of R227, and whether it is a probe. -/
def State.want (s : State) (p i b : Nat) : Nat × Bool :=
  let e := s.seq i
  let cap := if e.heads then s.rd R.CALLER_SPEC_CFG_HEADS_N 0 p
    else min 8 (s.devNat (s.rd R.CALLER_PART_CELLS_CELL_BASE 0 p + 324) 4)
  let d := wantLoop e.acc (s.rd R.CALLER_SPEC_CFG_MIN 0 p) cap 0 65536
  let probe := s.rd R.CALLER_SPEC_CFG_PROBE 0 p
  if d = 0 ∧ 0 < cap ∧ probe ≠ 0 ∧ (b + i) % probe = 0 then (1, true) else (d, false)

/-- A seat before its draft length is granted. -/
def State.seatOf (s : State) (p b : Nat) (x : Nat × Nat × Bool) : Seat :=
  let e := s.seq x.2.1
  let done := s.pfPlanned e
  let pre := decide (done < e.promptLen)
  let n := min (s.chunkOf p) (e.promptLen - done)
  let (w, probe) := s.want p x.2.1 b
  { slot := x.1, index := x.2.1, cont := x.2.2, kind := if pre then 1 else 2, tokN := if pre then n else 0
    pos0 := if pre then done else e.pos, lastPf := pre && decide (done + n = e.promptLen), heads := e.heads, cls := e.cls
    want := if pre then 0 else w, base := if pre then 0 else min w (s.dresOf p e.cls), draft := 0
    probe := !pre && probe }

/-- Grant draft slots from the spare pool, in the order of R227. -/
def grant : Nat → List Seat → List Seat
  | _, [] => []
  | spare, x :: r =>
    let g := min (x.want - x.base) spare
    { x with draft := x.base + g, tokN := if x.kind = 2 then 1 + x.base + g else x.tokN } :: grant (spare - g) r

/-- The seats of a bar with their draft lengths, in slot order (R194, R227). -/
def State.seats (s : State) (p b : Nat) : List Seat :=
  let xs := (s.assign p b).map (s.seatOf p b)
  let used := sumOf (xs.map (fun x => if x.kind = 2 then 1 + x.base else x.tokN))
  let spare := s.rd R.CALLER_ADMIT_CTL_TOK_CAP 0 p - used
  let ordered := sortBy (fun (x : Seat) => (s.seq x.index).rankKey x.index) xs
  sortBy (fun (x : Seat) => x.slot) (grant spare ordered)

/-! ### What the plan writes (R191, R192, R195, R222, R225) -/

/-- The slot entry of a seat whose token slots begin at `first` (R192). -/
def State.seatBytes (s : State) (x : Seat) (first : Nat) : List Byte :=
  let e := s.seq x.index
  slotBytes { index := x.index, gen := e.gen, kind := x.kind, cls := x.cls, draft := x.draft, heads := x.heads
              lastPf := x.lastPf, cont := x.cont, tokFirst := first, tokN := x.tokN, pos0 := x.pos0
              root := e.kvRoot, hist := e.histPtr }

/-- The token slots before each seat. -/
def firsts : Nat → List Seat → List (Seat × Nat)
  | _, [] => []
  | n, x :: r => (x, n) :: firsts (n + x.tokN) r

/-- The decode seats on the draft path (R222). -/
def draftPath (xs : List Seat) : List Seat := xs.filter (fun x => x.kind = 2 && !x.heads)

/-- STEPN[j] (R222). -/
def stepN (xs : List Seat) (j : Nat) : Nat := ((draftPath xs).filter (fun x => j = 1 || decide (j ≤ x.draft))).length

/-- The draft order list: DRAFT descending, then slot (R222). -/
def draftOrder (xs : List Seat) : List Nat :=
  (sortBy (fun (x : Seat) => (15 - x.draft) * 4096 + x.slot) (draftPath xs)).map (·.slot)

/-- The step table and the draft order list (R222). -/
def stepBytes (xs : List Seat) : List Byte :=
  let table := (List.range 8).flatMap (fun j => toLE 4 (stepN xs (j + 1)))
  let order := (draftOrder xs).flatMap (toLE 2)
  table ++ toLE 4 (crc32c (table ++ order)) ++ List.replicate 28 0 ++ order ++
    List.replicate (2 * (4096 - (draftOrder xs).length)) 0xFF

/-- The header of a work list (R191). -/
def headerBytes (bar epoch nslot ntok p : Nat) (entries : List Byte) : List Byte :=
  let w := toLE 8 bar ++ toLE 8 (epoch + nslot * 2 ^ 32) ++ toLE 8 ntok ++ toLE 8 p ++ List.replicate 24 0
  w ++ toLE 8 (crc32c (w ++ toLE 8 0 ++ entries))

/-- The values of cells 0 to 7 (R195, R225). -/
def cellValues (xs : List Seat) (nslot ntok : Nat) : List Nat :=
  let dec := xs.filter (fun x => x.kind = 2)
  [nslot, dec.length, sumOf ((xs.filter (fun x => x.kind = 1)).map (·.tokN)), ntok, sumOf (dec.map (·.draft)),
    maxOf ((draftPath xs).map (·.draft)), stepN xs 1, (dec.filter (fun x => x.heads && decide (0 < x.draft))).length]

/-- One shape cell of the plan (R89, R195): a value above MAX is refused. -/
def State.planCell (s : State) (p b half epoch n v : Nat) : State :=
  let a := s.rd R.CALLER_PART_CELLS_CELL_BASE 0 p + 64 * n
  if s.devNat (a + 4) 4 < v then s.callerRaise E.CALLER_SHAPE_BOUND [p, n]
  else s.devWrite a (clean (s.cellImage a v b (s.pkgId * 256 + srcUnit 0x40 s.callerInst)
    (toLE 8 half ++ toLE 8 epoch ++ toLE 8 0)))

/-- The weight epoch of a bar (R196, R302). -/
def State.epochFor (s : State) (b : Nat) : Nat := match s.swap with
  | some w => if w.bar = b then w.epoch else s.rd R.PROM_EPOCH_EPOCH
  | none => s.rd R.PROM_EPOCH_EPOCH

/-- The keys of the token slots of a bar, in slot order (R258): a decode slot's inputs stand from one before its
committed position as known at plan, which is at least the whole prompt, and a prefill slot's from it (R194, R213; log 54). -/
def State.seatKeys (s : State) (xs : List Seat) : List Nat :=
  xs.flatMap (fun x => (List.range x.tokN).map (fun i =>
    let e := s.seq x.index
    tokenKey e.admitStamp (if x.kind = 2 then max x.pos0 e.promptLen + i - 1 else x.pos0 + i) s.pkgId x.index))

/-- Write the work list and key table of a partition for a bar, then its cells (R191, R195, R258). -/
def State.writePlan (s : State) (p b : Nat) (xs : List Seat) : State :=
  let half := s.wlHalf p b
  let epoch := s.epochFor b
  let nslot := maxOf (xs.map (fun x => x.slot + 1))
  let ntok := sumOf (xs.map (·.tokN))
  let s := (s.devZero half 64).devZero (half + 0x1000) 0x20000
  let s := (firsts 0 xs).foldl (fun t (x, n) => t.devSet (slotAt half x.slot) (t.seatBytes x n)) s
  let s := s.devSet (half + 0x41000) (stepBytes xs)
  let s := s.devSet half (headerBytes b epoch nslot ntok p (s.devBytes (half + 0x1000) (32 * nslot)))
  let s := s.writeKeys p b (s.seatKeys xs)
  (cellValues xs nslot ntok).zipIdx.foldl (fun t (v, n) => t.planCell p b half epoch n v) s

/-- The state of a seated entry (R188). -/
def Entry.seated (e : Entry) : Nat := if e.state = 1 then 2 else if e.state = 6 then e.resumed else e.state

/-- The plan's update of every entry of a partition (R188, R194, R227): seated ones take their slot and draft; others
give theirs up. -/
def State.planEntries (s : State) (p b : Nat) (xs : List Seat) : State :=
  (s.partSeqs p).foldl (fun t i =>
    let e := t.seq i
    match xs.find? (fun x => x.index = i) with
    | some x => t.putSeq i { e with state := e.seated, slot := x.slot, draft := x.draft, lastPlan := b + 1 }
    | none => if e.slot < 4096 then t.putSeq i { e with slot := 0x1FFF } else t) s

/-- The counters of R231. -/
def State.planCounts (s : State) (p : Nat) (xs : List Seat) : State :=
  let dec := xs.filter (fun x => x.kind = 2)
  let s := s.bump R.CALLER_SPEC_GRANTED_GRANTED (sumOf (dec.map (fun x => x.draft - x.base))) 0 p
  let s := s.bump R.CALLER_SPEC_CLIPPED_CLIPPED (sumOf (dec.map (fun x => x.want - x.draft))) 0 p
  s.bump R.CALLER_SPEC_PROBES_PROBES (dec.filter (fun x => x.probe && x.draft = 1)).length 0 p

/-- Bring the entries that a bar seats into the cache (R187). -/
def State.loadSeats (s : State) (p b : Nat) : State :=
  ((s.partSeqs p).filter (fun i => s.keepsSlot i b || s.takesSlot i b)).foldl State.loadEntry s

/-- Plan a bar for one partition. -/
def State.planPart (s : State) (p b : Nat) : State :=
  let s := s.loadSeats p b
  let xs := s.seats p b
  (((s.writePlan p b xs).planCounts p xs).planEntries p b xs).standby (2 ^ 18 + p)

/-- The partitions the Caller plans for: those given sequence slots (log 34), and not pre-empted (R395). -/
def State.planned (s : State) : List Nat :=
  (List.range 16).filter (fun p => s.rd R.CALLER_ADMIT_CTL_SEQ_CAP 0 p ≠ 0 && !s.preempted p)

/-- Every live entry is re-prefilled at the plan of a swap that asks for it (R206, R302). -/
def State.reprefillAll (s : State) : State :=
  (sortBy (fun (e : Nat × Entry) => e.2.rankKey e.1) s.caller.seqs).foldl (fun t e => t.readmit e.1) s

/-- Whether the plan of the next bar may begin (R190). -/
def State.planDue (s : State) : Bool :=
  let len := s.rd R.TEMPO_BAR_CFG_BAR_LEN
  s.callerOn && s.tempo.barOn && decide (len ≠ 0) && decide (s.caller.planned < s.bar + 2) &&
  decide (s.rd R.TEMPO_BAR_START_START + (len - s.rd R.CALLER_WL_CFG_CUT) * 1024 ≤ s.tempo.now)

/-- CALLER_PLAN (R190). -/
def callerPlanEffect (s : State) : State :=
  if s.planDue then
    let b := s.bar + 1
    let s := { s with caller := { s.caller with planned := b + 1 } }
    let force := match s.swap with
      | some w => decide (w.bar = b) && w.force
      | none => false
    let s := if force then s.reprefillAll else s
    (s.planned.foldl (fun t p => t.planPart p b) s).wr R.CALLER_PLAN_BAR_BAR b
  else s

/-- CALLER_PLAN. -/
def execCallerPlan (s : State) : Res := .next (callerPlanEffect s)

end Sys2Proof.Machine
end

