-- ==== Sys2Proof/Machine/Figures.lean ====
section
/-! DEFINITION. Figure images and role tables: verification, loading, running a pass, and pending role changes (R69 to
R72, R94, R95, R309, R370, R390, R392). -/

namespace Sys2Proof.Machine

/-! ### Reading an image (R69, R309) -/

/-- Word `i` of an image's header. -/
def State.figWord (s : State) (a i : Nat) : Nat := s.devWord (a + 8 * i)

/-- The streams that SET_MASK names. -/
def State.figStreams (s : State) (a : Nat) : List Stream :=
  (maskBits 48 (s.figWord a 2)).map (fun n =>
    let e := s.devWord (a + bits (s.figWord a 4) 31 0 + 8 * n)
    ⟨n, bits e 31 0, bits e 49 32⟩)

/-- The shape cells of an image. -/
def State.figCells (s : State) (a : Nat) : List CellDef :=
  (List.range (bits (s.figWord a 1) 47 32)).map (fun k =>
    let c := a + bits (s.figWord a 3) 31 0 + 16 * k
    ⟨bits (s.devWord c) 47 0, bits (s.devWord (c + 8)) 31 0, bits (s.devWord (c + 8)) 39 32⟩)

/-- PREF_OFF of an image. -/
def State.figPref (s : State) (a : Nat) : Nat := bits (s.figWord a 3) 63 32

/-- The image at an address, as its header spells it, for a partition, an index and an effective bar, with its digest. -/
def State.figImage (s : State) (part idx a eff : Nat) (digest : List Byte) : Image :=
  let pf := s.figPref a
  { part := part, idx := idx, addr := a, rank := bits (s.figWord a 0) 59 48, timed := (s.figWord a 0).testBit 60
    barLen := bits (s.figWord a 1) 15 0, mhz := bits (s.figWord a 1) 31 16, sets := bits (s.figWord a 2) 47 0
    streams := s.figStreams a, cells := s.figCells a, eff := eff, active := false
    pref := if pf = 0 then 0 else a + pf, npf := if pf = 0 then 0 else bits (s.devWord (a + pf)) 15 0
    allow := if pf = 0 then 0 else bits (s.devWord (a + pf)) 31 16, nextPf := 0, digest := digest }

/-! ### Verification (R70) -/

/-- MAGIC, FMT_MAJOR, FMT_MINOR, the ranges of the header's fields, and its reserved fields. -/
def State.figHeaderGood (s : State) (a n : Nat) : Bool :=
  let w := s.figWord a
  let timed := (w 0).testBit 60
  bits (w 0) 31 0 = 0x47464853 && bits (w 0) 39 32 = 1 && bits (w 0) 47 40 = 0 && decide (bits (w 0) 63 61 = 0) &&
  (if timed then decide (bits (w 1) 15 0 ≠ 0) else decide (bits (w 1) 15 0 = 0)) &&
  decide (600 ≤ bits (w 1) 31 16) && decide (bits (w 1) 31 16 ≤ 1040) && decide (bits (w 1) 47 32 ≤ 4096) &&
  decide (bits (w 1) 63 48 = 0) && decide (bits (w 2) 63 48 = 0) && decide (bits (w 4) 63 32 ≤ 0x10000000) &&
  decide (bits (w 4) 63 32 ≤ n) && decide (w 5 = 0) && decide (w 6 = 0) && decide (w 7 = 0) &&
  decide (bits (w 3) 31 0 + 16 * bits (w 1) 47 32 ≤ bits (w 4) 63 32) &&
  decide (bits (w 4) 31 0 + 8 * 48 ≤ bits (w 4) 63 32)

/-- Whether the shape-cell entries are in range: 64-byte aligned, KIND 0 or 1. That the bits which R69's table leaves out, here
and in a stream entry, are reserved and must be 0 is the model's choice (DESIGN CHOICE, log 157). -/
def State.figCellsGood (s : State) (a : Nat) : Bool :=
  (s.figCells a).all (fun c => c.addr % 64 = 0 && decide (c.kind ≤ 1)) &&
  (List.range (bits (s.figWord a 1) 47 32)).all (fun k =>
    let c := a + bits (s.figWord a 3) 31 0 + 16 * k
    decide (bits (s.devWord c) 63 48 = 0) && decide (bits (s.devWord (c + 8)) 63 40 = 0))

/-- Whether bits [63:50] of the stream entries of Sets in SET_MASK are 0 (log 157). -/
def State.figStreamsGood (s : State) (a : Nat) : Bool :=
  (maskBits 48 (s.figWord a 2)).all (fun n => decide (bits (s.devWord (a + bits (s.figWord a 4) 31 0 + 8 * n)) 63 50 = 0))

/-- The lengths of a stream's commit groups never exceed 16, and END is its last command only. -/
def groupsGood : Nat → List Cmd → Bool
  | _, [] => false
  | n, [c] => c.op = 0x3F && c.cp && decide (n < 16)
  | n, c :: r => decide (c.op ≠ 0x3F) && decide (n < 16) && groupsGood (if c.cp then 0 else n + 1) r

/-- A stream in range whose commands an image may hold, in groups of at most 16, with one END, the last. -/
def State.streamGood (s : State) (a len : Nat) (x : Stream) : Bool :=
  x.off % 32 = 0 && decide (1 ≤ x.len) && decide (x.len ≤ 131072) && decide (x.off + 32 * x.len ≤ len) &&
  (let cs := (List.range x.len).map (fun i => s.cmdAt (a + x.off + 32 * i))
   cs.all Cmd.imageLegal && groupsGood 0 cs)

/-- The prefetch schedule in range: ALLOW not 0, KIND 0 or 1, reserved fields 0 (R307, R309). -/
def State.prefGood (s : State) (a len : Nat) : Bool :=
  let pf := s.figPref a
  let h := s.devWord (a + pf)
  if pf = 0 then true
  else
    decide (pf + 32 + 32 * bits h 15 0 ≤ len) && decide (bits h 31 16 ≠ 0) && decide (bits h 63 32 = 0) &&
    (List.range 3).all (fun i => s.devWord (a + pf + 8 + 8 * i) = 0) &&
    (List.range (bits h 15 0)).all (fun k =>
      let w := fun (i : Nat) => s.devWord (a + pf + 32 + 32 * k + 8 * i)
      decide (bits (w 0) 3 0 ≤ 1) && decide (bits (w 0) 37 10 = 0) && decide (bits (w 1) 63 48 = 0) &&
      decide (bits (w 2) 63 48 = 0) && decide (bits (w 3) 63 51 = 0) && decide (bits (w 3) 39 0 % 64 = 0))

/-- Whether the image of `n` bytes at an address is one that firmware accepts for a partition (R70, R390). -/
def State.figGood (s : State) (part a n : Nat) (digest : List Byte) : Bool :=
  let len := bits (s.figWord a 4) 63 32
  decide (64 ≤ n) && decide (sha384 (s.devBytes a n) = digest) && s.figHeaderGood a n && s.figCellsGood a &&
  (s.figStreams a).all (s.streamGood a len) && s.figStreamsGood a && s.prefGood a len &&
  onlyBits (bits (s.figWord a 2) 47 0) (s.rd R.PART_SETS_SETS part) &&
  decide ((s.figWord a 0).testBit 60 ≠ s.on R.PART_CTL_KIND part)

/-! ### Activation (R70, R72, R88) -/

/-- Write every shape cell of an image: VALUE 0, its MAX, BAR all ones and KIND (R70, R88). That WRITER is control core 0 and
STAMP the present stamp is the model's choice (DESIGN CHOICE, log 156). -/
def State.initCells (s : State) (im : Image) : State :=
  im.cells.foldl (fun t c =>
    let body := toLE 4 0 ++ toLE 4 c.max ++ toLE 8 (2 ^ 64 - 1) ++ toLE 8 (t.pkgId * 256 + 0x01 + c.kind * 2 ^ 20) ++
      toLE 8 t.stamp ++ List.replicate 24 0
    t.devWrite c.addr (clean (body ++ toLE 8 (crc32c body)))) s

/-- The state in which a Set takes a new stream (R56, R101): EN set arms it, and it leaves HALTED only after ROLE_NOT_READY
or, once a role is handed afresh, after holdover expiry. That a DONE Set too becomes ARMED when a new image that names it is
activated is the model's choice (DESIGN CHOICE, log 194). -/
def State.armSet (s : State) (n : Nat) : State :=
  let st := s.setState n
  if s.on R.SCHED_CTL_EN n ∧ s.stranded = false ∧ (st = 0 ∨ st = 4 ∨ (st = 5 ∧ (s.st n).why ≠ .kill)) then
    s.wr R.SCHED_STATUS_STATE 1 n
  else s

/-- Write the stream registers of an image's Sets (R70). For a Set whose untimed pass still runs, that its indices return to 0
and its commands in flight stay is the model's choice (DESIGN CHOICE, log 162). -/
def State.loadStreams (s : State) (im : Image) : State :=
  im.streams.foldl (fun t x =>
    let t := ((t.wr R.SCHED_STREAM_ADDR (im.addr + x.off) x.set).wr R.SCHED_STREAM_LEN_LEN x.len x.set).wr
      R.SCHED_IMG_TIMED (b2n im.timed) x.set
    let t := (t.wr R.SCHED_STATUS_ISSUE_IDX 0 x.set).wr R.SCHED_STATUS_COMMIT_IDX 0 x.set
    t.armSet x.set) s

/-- A Set that no active image names any more has no stream (R101); one that holdover expiry halted stays in HALTED (R56). -/
def State.dropStreams (s : State) (mask : Nat) : State :=
  (maskBits 48 mask).foldl (fun t n =>
    let stays := t.setState n = 5 ∧ (t.st n).why = .expiry
    let t := ((t.discard n).wr R.SCHED_STREAM_ADDR 0 n).wr R.SCHED_STREAM_LEN_LEN 0 n
    (t.wr R.SCHED_IMG_TIMED 0 n).wr R.SCHED_STATUS_STATE (if stays then 5 else 0) n) s

/-- Replace an image of the list. -/
def State.setFig (s : State) (im : Image) : State :=
  { s with figs := s.figs.map (fun x => if x.part = im.part ∧ x.idx = im.idx then im else x) }

/-- Whether one image supersedes another at activation: same partition, same RANK (R70). -/
def Image.supersedes (a b : Image) : Bool := a.part = b.part && a.rank = b.rank && b.active && decide (a.idx ≠ b.idx)

/-- Activate an image (R70): it replaces the partition's active image of its RANK. -/
def State.activate (s : State) (im : Image) : State :=
  let old := s.figs.filter im.supersedes
  let gone := old.foldl (fun m x => m ||| x.sets) 0
  let s := { s with figs := s.figs.filter (fun x => !im.supersedes x) }
  let s := s.dropStreams (gone &&& (gone ^^^ im.sets))
  ((s.setFig { im with active := true, nextPf := 0 }).loadStreams im).initCells im

/-- The active timed images. -/
def State.timedFigs (s : State) : List Image := s.figs.filter (fun x => x.timed && x.active)

/-- Whether images agree in RANK, BAR_LEN, BUDGET_MHZ and ALLOW (R72). -/
def agree : List Image → Bool
  | [] => true
  | a :: r => r.all (fun b => a.rank = b.rank && a.barLen = b.barLen && a.mhz = b.mhz && a.allow = b.allow)

/-- Report the values that the active timed images share (R72). -/
def State.reportFigs (s : State) : State :=
  let v := fun (f : Image → Nat) => match s.timedFigs with
    | x :: _ => f x
    | [] => 0
  ((s.wr R.TEMPO_BAR_CFG_BAR_LEN (v (·.barLen))).wr R.SCHED_IMG_BUDGET_MHZ (v (·.mhz))).wr R.PROM_ALLOW_ALLOW (v (·.allow))

/-! ### LOAD_FIGURE (R70, R370, R390, R392) -/

/-- Images a partition holds. -/
def State.figsOf (s : State) (p : Nat) : List Image := s.figs.filter (fun x => x.part = p)

/-- The index a new image takes: that of an inactive image of the same RANK, else the lowest free one of four (R370). -/
def State.figIndex (s : State) (p rank : Nat) : Option Nat :=
  match (s.figsOf p).find? (fun x => x.rank = rank && !x.active) with
  | some x => some x.idx
  | none => (List.range 4).find? (fun i => (s.figsOf p).all (fun x => x.idx ≠ i))

/-- Whether the bar an image names has started (R70). -/
def State.barBegun (s : State) (eff : Nat) : Bool := s.tempo.barOn && decide (eff ≤ s.bar)

/-- Hold a verified image; an untimed one on a package in no bar is active at once (log 40). -/
def State.holdFig (s : State) (im : Image) : State :=
  let s := { s with figs := s.figs.filter (fun x => !(x.part = im.part && x.idx = im.idx)) ++ [im] }
  if im.timed = false ∧ s.tempo.barOn = false then (s.activate im).reportFigs else s

/-- The digest of a LOAD_FIGURE request (R370). -/
def Req.digest (r : Req) : List Byte := (List.range 6).flatMap (fun i => toLE 8 (r.w (6 + i)))

/-- LOAD_FIGURE (R70, R370, R468). -/
def loadFigureEffect (r : Req) (s : State) : State :=
  let p := r.grp.val
  let a := r.f 3 47 0
  let n := r.f 4 31 0
  if s.openAs 0x10 r = false then s
  else if s.locked p = false then s.finish r stBadState
  else if s.inPart p a n = false then s.finish r stBounds
  else if s.figGood p a n (Req.digest r) = false then s.finish r stFigureBad
  else if s.barBegun (r.w 5) then s.finish r stLate
  else match s.figIndex p (bits (s.figWord a 0) 59 48) with
    | none => s.finish r stFull
    | some i => ((s.holdFig (s.figImage p i a (r.w 5) (Req.digest r))).measure).complete r 0 r.handle.toNat [i]

/-- LOAD_FIGURE. -/
def execLoadFigure (r : Req) (s : State) : Res := .next (loadFigureEffect r s)

/-! ### RUN_FIGURE (R71, R101, R370) -/

/-- Start a pass of an untimed Set: counters and registers as at a bar's start, from command 0 (R93, R101). -/
def State.startPass (s : State) (n : Nat) : State :=
  let x := s.st n
  let s := { s with gate := s.gate.afresh n }
  let s := s.setSt n { SetSt.init with start := s.tempo.now, fenced := x.fenced, vecTo := x.vecTo }
  let s := (List.range 32).foldl (fun t k => t.wr R.SCHED_ARR_COUNT 0 n k) s
  let s := (List.range 8).foldl (fun t k => (t.wr R.SCHED_SHAPE_VALUE 0 n k).wr R.SCHED_SHAPE_MAX 0 n k) s
  let s := ((s.wr R.SCHED_SB_SB 0 n).wr R.SCHED_STATUS_POISON 0 n).wr R.SCHED_STATUS_ISSUE_IDX 0 n
  (s.wr R.SCHED_STATUS_COMMIT_IDX 0 n).wr R.SCHED_STATUS_STATE 2 n

/-- Whether a Set may begin a pass: ARMED, or DONE with its last one (R56, R72, R101). -/
def State.passReady (s : State) (n : Nat) : Bool :=
  s.on R.SCHED_CTL_EN n && (s.setState n = 1 || s.setState n = 4) && !s.notReady && !s.stranded && !s.barred n

/-- RUN_FIGURE (R370): every named Set runs one pass; the request completes when all have reached DONE. In a partition that runs
thread programs, or whose Sets are saved, no Set may begin one (R341, R394): the request completes with BAD_STATE (DESIGN CHOICE, log 207). -/
def runFigureEffect (r : Req) (s : State) : State :=
  let p := r.grp.val
  let mask := r.f 4 47 0
  if s.openAs 0x11 r = false ∨ s.runs.contains r = true then s
  else match (s.figsOf p).find? (fun x => x.idx = r.f 3 1 0) with
    | none => s.finish r stNotFound
    | some im =>
      if onlyBits mask im.sets = false ∨ mask = 0 then s.finish r stBadArg
      else if im.timed = true ∨ im.active = false ∨ (maskBits 48 mask).all s.passReady = false then s.finish r stBadState
      else (maskBits 48 mask).foldl State.startPass { s with runs := s.runs ++ [r] }

/-- RUN_FIGURE. -/
def execRunFigure (r : Req) (s : State) : Res := .next (runFigureEffect r s)

/-! ### Role tables (R94, R95) -/

/-- The table at an address. -/
def State.roleTable (s : State) (a : Nat) : RoleTab where
  gen := s.devWord (a + 8)
  eff := s.devWord (a + 16)
  nranks := bits (s.devWord a) 12 0
  ranks := (List.range (bits (s.devWord a) 12 0)).filterMap (fun r =>
    let e := s.devWord (a + 32 + 8 * r)
    if e.testBit 12 then some (r, bits e 11 0 + 1) else none)

/-- Whether a list has no repeats. -/
def distinct : List Nat → Bool
  | [] => true
  | x :: r => !r.contains x && distinct r

/-- Whether the table at an address is well formed (R94). -/
def State.roleGood (s : State) (a : Nat) : Bool :=
  let n := bits (s.devWord a) 12 0
  decide (1 ≤ n) && decide (n ≤ 4096) && decide (bits (s.devWord a) 63 13 = 0) && decide (s.devWord (a + 24) = 0) &&
  (List.range n).all (fun r => decide (bits (s.devWord (a + 32 + 8 * r)) 63 13 = 0)) &&
  distinct ((s.roleTable a).ranks.map (·.2))

/-- Complete the request behind a pending table. -/
def State.endRole (s : State) (x : RolePend) (status : Nat) : State :=
  match x.req with
  | some r => s.complete r status r.handle.toNat [x.tab.gen]
  | none => s

/-- Take a pending table (R95): rejected when late, or when its GEN is not above the current one and the pending one, be that by
request or by takeover. -/
def State.offerRole (s : State) (x : RolePend) : State :=
  if s.barBegun x.tab.eff then (s.raise E.SCHED_ROLE_LATE).endRole x stLate
  else if x.tab.gen ≤ s.roles.gen ∨ (s.tableHere = true ∧ x.tab.gen ≤ s.tableGen) then s.endRole x stSuperseded
  else match s.rolePend with
    | none => State.copyMirror { s with rolePend := some x }
    | some y =>
      if x.tab.gen ≤ y.tab.gen then s.endRole x stSuperseded
      else (State.copyMirror { s with rolePend := some x }).endRole y stSuperseded

/-- ROLE_CHANGE (R95, R370). -/
def roleChangeEffect (r : Req) (s : State) : State :=
  if s.openAs 0x20 r = false ∨ (s.rolePend.any (fun x => x.req = some r)) = true then s
  else if s.roleGood (r.f 3 47 0) = false then s.complete r stBadTable r.handle.toNat [(s.roleTable (r.f 3 47 0)).gen]
  else s.offerRole ⟨s.roleTable (r.f 3 47 0), some r⟩

/-- ROLE_CHANGE. -/
def execRoleChange (r : Req) (s : State) : Res := .next (roleChangeEffect r s)

end Sys2Proof.Machine
end

