-- ==== Sys2Proof/Machine/Harvest.lean ====
section
/-! DEFINITION. Bar-done and the harvest of a bar (R59, R93, R190, R201, R205, R226, R229, R245, R252, R377). -/

namespace Sys2Proof.Machine

/-! ### Slot results (R193, R224) -/

/-- A slot result. -/
structure Result where
  pos : Nat
  acc : Nat
  done : Bool
  valid : Bool
  gen : Nat
  proposed : Nat
  accepted : Nat
  allRej : Bool
  missing : Bool
  deriving DecidableEq, Repr

/-- The slot result at an address (R193, R224). -/
def State.resultOf (s : State) (a : Nat) : Result :=
  let w := s.devWord a
  let v := s.devWord (a + 8)
  { pos := bits w 23 0, acc := bits w 27 24, done := w.testBit 28, valid := w.testBit 29, gen := bits w 47 32
    proposed := bits v 3 0, accepted := bits v 7 4, allRej := v.testBit 8, missing := v.testBit 9 }

/-- Address of the token output of token slot `t`. -/
def tokenAt (half t : Nat) : Nat := half + 0x31000 + 4 * t

/-! ### α (R226) -/

/-- One outcome of R226. -/
def alphaStep (shift alpha : Nat) (hit : Bool) : Nat :=
  ((alpha : Int) + (((if hit then 65536 else 0 : Int) - alpha) >>> shift)).toNat

/-- α after a bar with `d` proposals of which `a` were accepted (R226). -/
def alphaAfter (shift alpha d a : Nat) : Nat :=
  (List.range (if a = d then d else a + 1)).foldl (fun x i => alphaStep shift x (decide (i < a))) alpha

/-! ### One slot -/

/-- Whether a decode slot's result is malformed (R229). -/
def Result.bad (r : Result) (x : Slot) : Bool :=
  x.kind = 2 && (decide (x.draft < r.proposed) || decide (r.proposed < r.accepted) ||
    (!r.done && decide (r.acc ≠ r.accepted + 1)) || (r.done && decide (r.accepted + 1 < r.acc)))

/-- Word 4 and the tokens of a token record (R377). -/
def recordWords (pos n bar : Nat) (first last : Bool) (toks : List Nat) : List Nat :=
  let t := fun (i : Nat) => if i < n then toks.getD i 0 else 0
  (pos + n * 2 ^ 24 + b2n first * 2 ^ 28 + b2n last * 2 ^ 29 + bar % 2 ^ 32 * 2 ^ 32) ::
    (List.range 5).map (fun i => t (2 * i) + t (2 * i + 1) * 2 ^ 32)

/-- Count a harvested slot (R231). -/
def State.countResult (s : State) (p : Nat) (r : Result) : State :=
  let s := (s.bump R.CALLER_SPEC_PROPOSED_PROPOSED r.proposed 0 p).bump R.CALLER_SPEC_ACCEPTED_ACCEPTED r.accepted 0 p
  (s.bump R.CALLER_SPEC_ALLREJ_ALLREJ (b2n r.allRej) 0 p).bump R.CALLER_SPEC_MISSING_MISSING (b2n r.missing) 0 p

/-- Queue the token record of a slot: `m` tokens from history position `at_` (R201, R372, R377). -/
def State.queueRecord (s : State) (i n at_ m : Nat) (first last : Bool) (toks : List Nat) : State :=
  if m = 0 then s
  else
    let e := s.seq i
    s.queueEntry i e.part e.cq (entryWords 2 0 0 false e.tag (s.handle i) (recordWords at_ m n first last toks))

/-- The upper end of the mapping of an entry (R245). -/
def State.mapEnd (s : State) (e : Entry) : Nat :=
  if e.pfDone < e.promptLen then min (e.pos + 2 * s.chunkOf e.part) (e.promptLen + 9)
  else min (e.pos + 17) (e.promptLen + e.maxNew + 8)

/-- The entry after a valid result of a bar that ran on weight epoch `ep` (R186, R188, R201, R226, R229). -/
def Entry.after (e : Entry) (x : Slot) (r : Result) (n ep m shift : Nat) : Entry :=
  let pf := if x.kind = 1 then e.pfDone + x.tokN else e.pfDone
  { e with
    pos := r.pos, pfDone := pf, generated := e.generated + m, lastBar := n, epoch := ep
    state := if x.lastPf ∧ e.state = 2 then 3 else e.state
    acc := if x.kind = 2 ∧ 0 < r.proposed then min 65535 (alphaAfter shift e.acc r.proposed r.accepted) else e.acc }

/-- Harvest a valid, sound result of a live sequence (R201): history, entry, record, mapping, and the close. -/
def State.harvestGood (s : State) (p n half : Nat) (x : Slot) (r : Result) : State :=
  let i := x.index
  let e := s.seq i
  let emits : Bool := x.kind = 2 || x.lastPf
  let acc := if emits then r.acc else 0
  let m := min acc (e.maxNew - e.generated)
  let at_ := if x.kind = 1 then e.promptLen else e.pos
  let toks := (List.range acc).map (fun k => s.devNat (tokenAt half (x.tokFirst + k)) 4)
  let data := toks.flatMap (toLE 4)
  let s := if acc = 0 then s else (s.devSet (e.histPtr + 4 * at_) data).mirrorHist i (e.histPtr + 4 * at_) data
  let e' := e.after x r n (s.devNat (half + 8) 4) m (s.rd R.CALLER_SPEC_CFG_SHIFT 0 p)
  let ends := r.done || decide (e'.generated = e'.maxNew)
  let s := ((s.countResult p r).putSeq i e').queueRecord i n at_ m (decide (e.generated = 0)) ends toks
  let (t, ok) := s.mapTo p e'.kvRoot (e'.pos - 1) n (s.mapEnd e')
  if ends then t.startClose i else if ok then t else t.lose i

/-- Whether a slot's result, or one of its first ACC token outputs, is poisoned (R252). -/
def State.slotPoisoned (s : State) (half i : Nat) (x : Slot) (r : Result) : Bool :=
  s.lineMark (resultAt half i) || (List.range r.acc).any (fun k => s.lineMark (tokenAt half (x.tokFirst + k)))

/-- Harvest a valid, sound result of a sequence that closed on its own account before (R201): its tokens are appended and counted,
as far as its history buffer goes (DESIGN CHOICE, log 45), and no record is queued. -/
def State.harvestClosed (s : State) (p n half : Nat) (x : Slot) (r : Result) : State :=
  let i := x.index
  let e := s.seq i
  let acc := if x.kind = 2 ∨ x.lastPf = true then r.acc else 0
  let at_ := if x.kind = 1 then e.promptLen else e.pos
  let toks := (List.range (min acc (e.histCap - at_))).map (fun k => s.devNat (tokenAt half (x.tokFirst + k)) 4)
  let data := toks.flatMap (toLE 4)
  let s := if toks = [] then s else (s.devSet (e.histPtr + 4 * at_) data).mirrorHist i (e.histPtr + 4 * at_) data
  (s.countResult p r).putSeq i
    (e.after x r n (s.devNat (half + 8) 4) (min acc (e.maxNew - e.generated)) (s.rd R.CALLER_SPEC_CFG_SHIFT 0 p))

/-- Harvest one slot (R201, R229, R252). -/
def State.harvestSlot (s : State) (p n half i : Nat) : State :=
  let x := s.slotEntry (slotAt half i)
  let r := s.resultOf (resultAt half i)
  let s := if x.kind = 0 then s else s.loadEntry x.index
  let e := s.seq x.index
  let bad := s.slotPoisoned half i x r
  let stale : Bool := decide (x.gen ≠ e.gen) || e.cancelled
  if x.kind = 0 then s
  else if stale then
    let s := if bad && e.cancelled then s.putSeq x.index { e with dirty := true } else s
    s.bump R.CALLER_DISCARD_DISCARDED 1
  else if bad then s.readmit x.index
  else if r.gen ≠ e.gen then s.bump R.CALLER_DISCARD_DISCARDED 1
  else if r.valid = false ∨ e.state = 0 then s
  else if r.bad x then
    let s := s.callerRaise E.CALLER_SPEC_BAD [x.index]
    if e.state = 7 then s else s.lose x.index
  else if e.state = 7 then s.harvestClosed p n half x r
  else s.harvestGood p n half x r

/-- Harvest the work list of a partition, if it was planned for the bar. -/
def State.harvestPart (s : State) (n p : Nat) : State :=
  let half := s.wlHalf p n
  if s.devWord half = n ∧ n < s.caller.planned then
    State.standby ((List.range (bits (s.devWord (half + 8)) 44 32)).foldl (fun t i => t.harvestSlot p n half i) s) (2 ^ 19 + p)
  else s

/-- What waits for the harvest of a bar: moves to the shelf, and entries that may become FREE (R202, R204). -/
def State.afterHarvest (s : State) : State :=
  let is := s.caller.seqs.map (·.1)
  let s := is.foldl State.startPauseMove s
  (is.foldl State.tryFree s).flushWaiting

/-- The harvest of bar `n` (R190, R201). -/
def State.harvest (s : State) (n : Nat) : State :=
  if s.callerOn then
    let s := { s with caller := { s.caller with harvested := n + 1, harvestLate := false } }
    ((List.range 16).foldl (fun t p => if t.rd R.CALLER_ADMIT_CTL_SEQ_CAP 0 p ≠ 0 then t.harvestPart n p else t) s).afterHarvest
  else s

/-! ### FIGURE_COMPLETE (R59, R93) -/

/-- Whether the package may send bar-done markers: it holds a rank, its role has not failed, its holdover has not
expired since it was handed its role, every serving partition runs, and it is not parked (R56, R59, R395, R420, R431). -/
def State.mayMark (s : State) : Bool :=
  s.rank.isSome && !s.stranded && !s.on R.HEALTH_STATUS_FAILED && !s.notReady &&
  (List.range 16).all (fun p => s.on R.PART_CTL_KIND p || !s.preempted p)

/-- Whether the package's Figure for the bar has completed (R93): every Set of every active timed image is DONE, and
every FCOPY of the bar has been answered. -/
def State.figureDone (s : State) : Bool :=
  s.tempo.barOn && !s.notReady && !s.timedFigs.isEmpty && s.timedFigs.all (fun x => s.allDone x.sets) &&
  s.fab.ops.all (fun o => decide (o.absorb ≠ none) || (match o.owner with
    | .scommit _ b => decide (b ≠ s.bar)
    | .fcopy _ _ => false
    | _ => true)) &&
  !s.tempo.marks.any (fun m => m.pkg = s.pkgId)

/-- Declare bar-done (R59): the own marker counts, and goes out on every plane in service, if there is one. -/
def State.barDoneNow (s : State) : State :=
  if s.mayMark then
    let s := { s with tempo := { s.tempo with marks := s.tempo.marks ++ [(⟨s.pkgId, s.stamp⟩ : Mark)] } }
    let p := { s.blank 0 0x01 with bcast := true, data := toLE 8 s.bar ++ toLE 8 s.stamp }
    if s.ports = [] then s else (s.transmit s.ports p).emit (.marker s.ports s.pkgId s.bar s.stamp)
  else s

/-- FIGURE_COMPLETE (R59, R93, R190): bar-done, and the harvest of the bar, once. -/
def figureCompleteEffect (s : State) : State :=
  if s.figureDone ∧ s.caller.harvested ≤ s.bar then
    if s.callerOn then s.barDoneNow.harvest s.bar
    else { s.barDoneNow with caller := { s.caller with harvested := s.bar + 1, harvestLate := false } }
  else s

/-- FIGURE_COMPLETE. -/
def execFigureComplete (s : State) : Res := .next (figureCompleteEffect s)

/-- HARVEST_LATE (R190): records of the last bar still wait HARVEST beats into the next one. -/
def harvestLateEffect (s : State) : State :=
  if s.tempo.barOn ∧ s.caller.harvestLate = false ∧ s.caller.waiting.any (fun w => decide (w.bar + 1 = s.bar)) = true ∧
      s.rd R.TEMPO_BAR_START_START + s.rd R.CALLER_WL_CFG_HARVEST * 1024 < s.tempo.now then
    ({ s with caller := { s.caller with harvestLate := true } }).callerRaise E.CALLER_HARVEST_LATE [s.bar - 1]
  else s

/-- HARVEST_LATE. -/
def execHarvestLate (s : State) : Res := .next (harvestLateEffect s)

end Sys2Proof.Machine
end

