-- ==== Sys2Proof/Machine/HealthBase.lean ====
section
/-! DEFINITION. Health records, reporting a role as failed, eligibility, and tiles that fail (R17, R41, R98, R429 to R434,
R468). -/

namespace Sys2Proof.Machine

/-! ### The ensemble and health records (R433, R434) -/

/-- The packages of the ensemble: those with a byte other than 0xFF in partition 0's rack map (R434). -/
def State.ensemble (s : State) : List Nat := (List.range 4096).filter (fun q => s.rackOf 0 q ≠ 0xFF)

/-- Whether every partition that owns Sets is locked, partition 0 with them, and the Caller caps of the serving ones are written;
what the other members' setups are the package cannot see (R433; log 57). -/
def State.setUp (s : State) : Bool :=
  s.locked 0 && (List.range 16).all (fun p => (s.rd R.PART_SETS_SETS p = 0 || s.locked p) &&
    (p ≠ 0 && (!s.locked p || s.on R.PART_CTL_KIND p) || decide (s.rd R.CALLER_ADMIT_CTL_SEQ_CAP 0 p ≠ 0)))

/-- Whether the package is eligible to take a rank (R433). -/
def State.eligible (s : State) : Bool :=
  s.rank.isNone && !s.on R.HEALTH_STATUS_FAILED && s.on R.TEMPO_STATUS_LOCKED && s.on R.TEMPO_STATUS_COUNT_VALID &&
  decide (s.rd R.TEMPO_STATUS_SEL ≠ 3) && decide (s.rd R.PWR_STATUS_MODE ≠ 4) && decide (s.rd R.PWR_STATUS_MODE ≠ 5) &&
  s.on R.PWR_STATUS_FLOW_OK && !s.layout.tiles.any (fun e => e.2 = 0xFFFF) && s.layout.channels.isEmpty &&
  decide (44 ≤ s.rd R.FAB_PLANES_E2) && s.setUp

/-- The health record (R434). -/
def State.healthWords (s : State) (eligible : Bool) : List Nat :=
  [s.pkgId + b2n s.rank.isSome * 2 ^ 12 + s.rank.getD 0 * 2 ^ 13 + b2n eligible * 2 ^ 25 +
      s.rd R.HEALTH_STATUS_FAILED * 2 ^ 26 + s.rd R.HEALTH_STATUS_CAUSE * 2 ^ 27,
    s.stamp, s.card.gen, s.rd R.HEALTH_FORECAST_MONTHS]

/-- A write into the takeover region of a package, at an offset in it, as STORE packets of a control core (R434). -/
def State.tkWrite (s : State) (dst off : Nat) (bs : List Byte) : State :=
  let at_ := s.rd R.HEALTH_TK_OFF_OFFSET + off
  (storeCuts at_ bs.length).foldl (fun t (o, n) =>
    t.issueOp 0x01 (withData (t.toRemote 3 0x19 dst 0 (t.rd R.HEALTH_TK_KEY_KEY) (at_ + o) 0)
      (clean ((bs.drop o).take n))) .core) s

/-- Write the health record into every package of the ensemble (R434). -/
def State.sendHealth (s : State) (eligible : Bool) : State :=
  let s := s.wr R.HEALTH_STATUS_ELIGIBLE (b2n eligible)
  let ws := s.healthWords eligible
  let s := { s with health := { s.health with record := ws.eraseIdx 1 } }
  s.ensemble.foldl (fun t q => t.tkWrite q (64 * s.pkgId) ((ws ++ [0, 0, 0, 0]).flatMap (toLE 8))) s

/-- Report the role as failed (R431, R432). -/
def State.reportFailed (s : State) (cause : Nat) : State :=
  let s := { s with health := { s.health with
    causes := if s.health.causes.contains cause then s.health.causes else s.health.causes ++ [cause] } }
  let s := (s.wr R.HEALTH_STATUS_FAILED 1).wr R.HEALTH_STATUS_CAUSE cause
  ((s.raise E.HEALTH_ROLE_FAILED 0 [cause]).mgmtTray 0x0201 [cause]).sendHealth false

/-- Reset a control core (R441): the third reset in 4,096 beats is a firmware fault that core recovery could not clear. -/
def State.resetCore (s : State) (core : Nat) : State :=
  let near := (s.health.resets ++ [(core, s.beat)]).filter (fun e => decide (s.beat ≤ e.2 + 4096))
  let s := { s with health := { s.health with resets := near } }
  if (near.filter (fun e => e.1 = core)).length = 3 then s.reportFailed 0x08 else s

/-- A cause no longer stands (R431). -/
def State.dropCause (s : State) (cause : Nat) : State :=
  { s with health := { s.health with causes := s.health.causes.filter (· ≠ cause) } }

/-! ### Tile and Set resets (R397 to R399) -/

/-- The logical tiles of a Set (R40). -/
def tilesOfSet (set : Nat) : List Nat := (List.range 8).map (8 * set + ·)

/-- Whether resets of a Set are held for a save (R402). -/
def State.saving (s : State) (set : Nat) : Bool := s.preempted (s.partOf set)

/-- Absorb the answers to a Set's operations (R399); those not sent yet are dropped. -/
def State.absorbOps (s : State) (p : Nat) (mine : Op → Bool) : State :=
  let ops := s.fab.ops.filter (fun o => !(o.waiting && mine o))
  { s with fab := { s.fab with ops := ops.map (fun o => if mine o then { o with absorb := some p } else o) } }

/-- Whether an operation was issued for a Set. -/
def Op.forSet (o : Op) (set : Nat) : Bool := match o.owner with
  | .fcopy n _ => n = set
  | .scommit n _ => n = set
  | .thread tile _ _ => tile / 8 = set
  | _ => false

/-- Write the SRAM of a tile to zero (R397). -/
def State.zeroTile (s : State) (tile : Nat) : State :=
  { s with
    tileMem := mkeep (fun k => k / 2 ^ 22 ≠ tile) s.tileMem
    tileMark := mkeep (fun k => k / 2 ^ 19 ≠ tile) s.tileMark }

/-- A Set issues again from its oldest uncommitted group (R85, R398). -/
def State.reissue (s : State) (set : Nat) : State :=
  let was := s.setState set
  let s := s.discard set
  if was = 3 then s.wr R.SCHED_STATUS_STATE 2 set else s

/-- The RUN_FIGURE requests that name a Set complete with RESET (R397). -/
def State.resetRuns (s : State) (set : Nat) : State :=
  let mine := fun (r : Req) => (r.f 4 47 0).testBit set
  (s.runs.filter mine).foldl (fun t r => t.finish r stReset) { s with runs := s.runs.filter (fun r => !mine r) }

/-- No HANDOFF sends to a tile's port any more (R129): TILE_STATUS [4:0] of it clears. -/
def State.freePort (s : State) (tile : Nat) : State :=
  { s with
    sets := s.sets.map (fun e => (e.1, { e.2 with
      flights := e.2.flights.map (fun f => if f.unit = .port then { f with tiles := f.tiles.filter (· ≠ tile) } else f) })) }

/-- A Set reset (R397, R399): its tiles are reset and zeroed, its answers absorbed, its packets fenced; a timed image runs
on in poison, an untimed one halts. -/
def State.resetSet (s : State) (set : Nat) : State :=
  let s := (tilesOfSet set).foldl (fun t i => ((t.clearValid i).zeroTile i).freePort i) s
  let s := s.absorbOps (s.partOf set) (fun o => o.forSet set)
  let s := if s.timed set then (s.reissue set).wr R.SCHED_STATUS_POISON 1 set
    else if s.setState set = 0 then s.discard set else s.kill set
  (s.setSt set { s.st set with fenced := true, repair := [] }).resetRuns set

/-- A tile reset (R397, R398), held while the partition is saved (R402): the Set's uncommitted groups are killed, the tile's VALID bits
and its port are cleared; the second in a bar in one Set is a Set reset. -/
def State.resetTile (s : State) (tile : Nat) : State :=
  let set := tile / 8
  if s.saving set then { s with resetHeld := s.resetHeld ++ [(set, some tile)] }
  else
    let second := s.tileResets.contains set
    let s := { s with tileResets := s.tileResets ++ [set] }
    if second then s.resetSet set else ((s.clearValid tile).reissue set).freePort tile

/-- The state of a tile moves to the physical tile that now stands behind it (R98): a swap under a running Set is a tile reset (R397). -/
def State.movedTile (s : State) (tile : Nat) : State := if s.setState (tile / 8) = 0 then s else s.resetTile tile

/-- What cannot be read of a tile that failed travels with the poison mark (R429): which words, the spec leaves open (log 209). -/
def State.markUnread (s : State) (tile : Nat) : State :=
  let ws := (Config.unreadable s.tempo.now tile).filter (· < 0x40000)
  let key := fun (w : Nat) => if w < 0x30000 then tileKey tile false (8 * w) / 8 else tileKey tile true (8 * (w - 0x30000)) / 8
  { s with tileMark := ws.foldl (fun m w => mset false (key w) true m) s.tileMark }

/-! ### Tiles that fail (R17, R41, R98, R429, R430) -/

/-- The free spare tiles of a compute die, ascending: not fused, not retired, behind no logical tile, and not borrowed
by the re-plan (R17, R41, R443). -/
def State.freeTiles (s : State) (die : Nat) : List Nat :=
  ((List.range 100).map (100 * die + ·)).filter (fun q =>
    !s.layout.fused.contains (0x11, q) && !s.layout.retired.contains (0x11, q) &&
    (List.range 96).all (fun t => s.layout.tile (96 * die + t) ≠ q) &&
    (match s.health.replan with
      | some r => decide (r.spare ≠ q) && decide (r.phys ≠ q)
      | none => true))

/-- Retire the physical tile behind a logical tile (R41, R430): the lowest free spare of its die takes it over; without
one the tile is unavailable and the role has failed. A spare that stood in for a tile under sweep is replaced as a stand-in, and
its own tile returns (R443). The change is a tile reset, and what cannot be read of the tile is poisoned (R397, R429). -/
def State.retireTile (s : State) (t cause : Nat) : State :=
  let old := s.layout.tile t
  if old = 0xFFFF then s
  else
    let spare := (s.freeTiles (t / 96)).head?
    let s := s.retireUnit cause 0x11 old
    let s := { s with health := { s.health with mapped := mset 0 t (s.tempo.now + 1) s.health.mapped } }
    match spare with
    | some q =>
      let stood := fun (r : Replan) => if r.tile = t ∧ r.spare = old then { r with spare := q } else r
      (State.movedTile { s with
        layout := s.layout.mapTile t q, health := { s.health with replan := s.health.replan.map stood } } t).markUnread t
    | none => ({ s with layout := s.layout.mapTile t 0xFFFF }).reportFailed 0x06

/-- Retire an HBM channel (R40, R430): the role has failed. -/
def State.retireChannel (s : State) (c : Nat) : State :=
  if s.layout.channels.contains c then s
  else
    let s := { s with
      layout := { s.layout with channels := s.layout.channels ++ [c] }
      card := { s.card with waiting := s.card.waiting ++ [(⟨4, 0x20, c / 32⟩ : CardChange)] } }
    ((s.note (srcUnit 0x20 (c / 32)) (.unitRetired 4 0x20 (c / 32))).raise E.HEALTH_RETIRED 0 [0x20, c / 32]).reportFailed 0x07

/-- Whether a tile has had two ECC_UNCORR in 4,096 bars since its last change (R429). -/
def State.eccBadTile (s : State) (t : Nat) : Bool :=
  let span := 4096 * s.rd R.TEMPO_BAR_CFG_BAR_LEN * 1024
  decide (2 ≤ (s.log.filter (fun r => decide (r.what = .flag E.TILE_ECC_UNCORR.flag t) &&
    decide (s.stamp ≤ r.stamp + span) && decide (mget 0 s.health.mapped t ≤ r.stamp + 1))).length)

/-- The logical tiles with ECC_UNCORR records. -/
def State.eccTiles (s : State) : List Nat :=
  ((s.log.filterMap (fun r => match r.what with
    | .flag f t => if f = E.TILE_ECC_UNCORR.flag then some t else none
    | .note _ => none)).eraseDups).filter s.eccBadTile

/-- The logical tiles found faulty in the bar (R98, R429). -/
def State.faultyTiles (s : State) : List Nat := (s.health.faulty ++ s.eccTiles).eraseDups

/-- Show the re-plan in its registers (R449). -/
def State.showReplan (s : State) : State :=
  match s.health.replan with
  | some r => (((s.wr R.HEALTH_REPLAN_TILE r.tile).wr R.HEALTH_REPLAN_PHYS r.phys).wr R.HEALTH_REPLAN_SPARE r.spare).wr
      R.HEALTH_REPLAN_STAGE r.stage
  | none => s.wr R.HEALTH_REPLAN_STAGE 0

/-- The sweep in progress ends; the map stands as it is (R447). -/
def State.dropReplan (s : State) : State :=
  State.showReplan { s with health := { s.health with replan := none } }

/-- Put a physical tile behind a logical one, which is a tile reset, and start its error count again (R37, R397, R429). -/
def State.standTile (s : State) (t q : Nat) : State :=
  State.movedTile { s with
    layout := s.layout.mapTile t q
    health := { s.health with mapped := mset 0 t (s.tempo.now + 1) s.health.mapped } } t

/-- The sweep in progress stops and its tile, if swapped out and sound, stands behind its logical tile again (R447). -/
def State.stopSweep (s : State) : State :=
  match s.health.replan with
  | some r => State.dropReplan (if 2 ≤ r.stage ∧ s.layout.retired.contains (0x11, r.phys) = false then
      s.standTile r.tile r.phys else s)
  | none => s

/-- At a bar boundary, spares take over the tiles found faulty in the bar (R98, R429). A tile whose die's only free spare
is borrowed waits a bar: the sweep stops and its tile returns (R447). -/
def State.swapFaulty (s : State) : State :=
  let stuck := fun (x : Nat) => match s.health.replan with
    | some r => decide (x / 96 = r.tile / 96) && (s.freeTiles (x / 96)).isEmpty
    | none => false
  let ts := s.faultyTiles
  let hit := match s.health.replan with
    | some r => ts.contains r.tile && stuck r.tile && decide (2 ≤ r.stage)
    | none => false
  let s' := { s with health := { s.health with
    faulty := ts.filter (fun x => stuck x && !(hit && (match s.health.replan with
      | some r => decide (x = r.tile)
      | none => false))) } }
  let s' := if ts.any stuck then
      (match s.health.replan with
        | some r => if hit then (s'.retireUnit 2 0x11 r.spare).stopSweep.markUnread r.tile else s'.stopSweep
        | none => s')
    else s'
  (ts.filter (fun x => !stuck x)).foldl (fun t x => t.retireTile x 2) s'

/-- Whether a code with an offset stays within 0.80 V (R444, R445). -/
def State.voltOk (s : State) (die c off : Nat) : Bool := decide ((s.fuses.vf.getD die []).getD c 0 + off ≤ 800)

/-- Whether some compute die is below its margin floor, or has fuses that R452 cannot go by (R444). -/
def State.belowFloor (s : State) : Bool :=
  s.fuses.badWords.any (fun e => e.1 = 9 || e.1 = 12) ||
  (List.range 4).any (fun k => decide (s.rd R.HEALTH_FLOOR_OFFSET_MAX < s.rd R.HEALTH_MARGIN_OFFSET 0 k) ||
    !s.voltOk k 17 (s.rd R.HEALTH_MARGIN_OFFSET 0 k))

/-- Whether a serving partition is in reset (R401). -/
def State.servingReset (s : State) : Bool := s.resets.any (fun e => e.2.isSome && !s.on R.PART_CTL_KIND e.1)

/-- The causes of R432 that still stand: holdover expiry stands while EXPIRED reads 1 (R67), a partition reset until it is over
(R401), a die below its floor until a sweep finds it above (R444). -/
def State.standing (s : State) : List Nat :=
  s.health.causes.filter (fun c => (c ≠ 2 || s.on R.TEMPO_STATUS_EXPIRED) && (c ≠ 5 || s.servingReset) && (c ≠ 9 || s.belowFloor))

/-- CLEAR_FAILED (R431): FAILED clears when no cause stands. -/
def clearFailedEffect (s : State) : State :=
  let s := { s with health := { s.health with causes := s.standing } }
  if s.health.causes.isEmpty then (s.wr R.HEALTH_STATUS_FAILED 0).wr R.HEALTH_STATUS_CAUSE 0 else s

/-- CLEAR_FAILED. -/
def execClearFailed (s : State) : Res := .next (clearFailedEffect s)

/-- Whether a health record is due: EN set, at a bar whose number is a multiple of 4,096, or when it says something else than the
last one (R434, R449). -/
def State.healthDue (s : State) : Bool :=
  s.on R.HEALTH_CTL_EN && ((s.tempo.barOn && s.bar % 4096 = 0) || (s.healthWords s.eligible).eraseIdx 1 ≠ s.health.record)

/-- HEALTH_RECORD (R434). -/
def healthRecordEffect (s : State) : State := if s.healthDue then s.sendHealth s.eligible else s

/-- HEALTH_RECORD. -/
def execHealthRecord (s : State) : Res := .next (healthRecordEffect s)

end Sys2Proof.Machine
end

