-- ==== Sys2Proof/Machine/Weights.lean ====
section
/-! DEFINITION. Weights at rest: NV slots and records, manifests, installation, and NV reads (R284 to R294, R297, R453,
R464, R470). -/

namespace Sys2Proof.Machine

/-! ### NV slots and records (R284 to R287) -/

/-- Bytes of a slot (R284). -/
def slotLen : Nat := 0x3000000000
/-- Key of a slot byte. -/
def nvKey (slot a : Nat) : Nat := slot * 2 ^ 40 + a
/-- `n` bytes of a slot. -/
def State.nvBytes (s : State) (slot a n : Nat) : List Byte := mgetList 0 s.nv.data (nvKey slot a) n
/-- Program bytes of a slot. -/
def State.nvPut (s : State) (slot a : Nat) (bs : List Byte) : State :=
  { s with nv := { s.nv with data := msetList 0 (nvKey slot a) bs s.nv.data } }

/-- The record of a slot. -/
def State.slotRec (s : State) (slot : Nat) : SlotRec := if slot = 0 then s.nv.recA else s.nv.recB

/-- The active slot (R287). -/
def State.activeSlot (s : State) : Option Nat :=
  if s.nv.recA.state = 3 ∧ (s.nv.recB.state ≠ 3 ∨ s.nv.recB.seq < s.nv.recA.seq) then some 0
  else if s.nv.recB.state = 3 then some 1
  else none

/-- Show the records in the NVC registers (R311). -/
def State.showNv (s : State) : State :=
  let act := s.activeSlot
  let s := (s.wr R.NVC_SLOT_STATE_A s.nv.recA.state).wr R.NVC_SLOT_STATE_B s.nv.recB.state
  let s := (s.wr R.NVC_SLOT_ACTIVE (act.getD 0)).wr R.NVC_SLOT_HAS_ACTIVE (b2n act.isSome)
  (s.wr R.NVC_EPOCH_EPOCH_A s.nv.recA.epoch).wr R.NVC_EPOCH_EPOCH_B s.nv.recB.epoch

/-- A record page (R286). -/
def recPage (slot : Nat) (r : SlotRec) : List Byte :=
  let body := toLE 8 (0x52534853 + slot * 2 ^ 32 + r.state % 4 * 2 ^ 33) ++ toLE 8 r.seq ++
    toLE 8 (r.epoch % 2 ^ 32 + r.rank % 4096 * 2 ^ 32) ++ toLE 8 (r.progress % 65536 + r.nshard % 65536 * 65536) ++
    (r.digest ++ List.replicate 48 0).take 48
  body ++ toLE 8 (crc32c body)

/-- The record that a page holds, unless its MAGIC or CRC fails (R287). -/
def pageRec (bs : List Byte) : Option SlotRec :=
  let w := fun (i : Nat) => ofLE ((bs.drop (8 * i)).take 8)
  if bs.length = 88 ∧ bits (w 0) 31 0 = 0x52534853 ∧ bits (w 10) 31 0 = crc32c (bs.take 80) then
    some ⟨bits (w 0) 34 33, w 1, bits (w 2) 31 0, bits (w 2) 43 32, bits (w 3) 15 0, bits (w 3) 31 16, (bs.drop 32).take 48⟩
  else none

/-- The record of a slot as its pages give it (R287): that of the valid copy with the highest SEQ. -/
def pagesRec (pages : List (List Byte)) (slot : Nat) : SlotRec :=
  (((pages.drop (4 * slot)).take 4).filterMap pageRec).foldl (fun a r => if a.seq < r.seq then r else a) .init

/-- Firmware reads every record copy at boot (R287). -/
def State.readRecords (s : State) : State :=
  State.showNv { s with nv := { s.nv with recA := pagesRec s.nv.pages 0, recB := pagesRec s.nv.pages 1 } }

/-- Write a slot's record (R287): SEQ is one above the highest, and the copies are written to N0, N1, N2 and N3 in turn. -/
def State.writeRecord (s : State) (slot : Nat) (r : SlotRec) : State :=
  let r := { r with seq := max s.nv.recA.seq s.nv.recB.seq + 1 }
  let pages := (List.range 4).foldl (fun ps k => ps.set (4 * slot + k) (recPage slot r)) s.nv.pages
  State.showNv { s with nv := if slot = 0 then { s.nv with recA := r, pages := pages }
    else { s.nv with recB := r, pages := pages } }

/-- Commit a slot's record; in supply sag no record commit begins, and it is held (R287, R423). -/
def State.commitRec (s : State) (slot : Nat) (r : SlotRec) : State :=
  if s.on R.PWR_STATUS_SAG then { s with weights := { s.weights with held := s.weights.held ++ [(slot, r)] } }
  else s.writeRecord slot r

/-- Commit the records that a sag held (R423). -/
def State.commitHeld (s : State) : State :=
  s.weights.held.foldl (fun t e => t.writeRecord e.1 e.2) { s with weights := { s.weights with held := [] } }

/-! ### Manifests (R288 to R291) -/

/-- Little-endian number of `n` bytes at an offset of a byte list. -/
def numAt (m : List Byte) (o n : Nat) : Nat := ofLE ((m.drop o).take n)
/-- Word `i` of a manifest's header. -/
def manWord (m : List Byte) (i : Nat) : Nat := numAt m (8 * i) 8

/-- EPOCH of a manifest. -/
def manEpoch (m : List Byte) : Nat := bits (manWord m 1) 31 0
/-- RANK. -/
def manRank (m : List Byte) : Nat := bits (manWord m 1) 43 32
/-- NSHARD. -/
def manShards (m : List Byte) : Nat := bits (manWord m 4) 15 0
/-- NOBJ. -/
def manObjs (m : List Byte) : Nat := bits (manWord m 4) 39 16
/-- SIG_OFF. -/
def manSig (m : List Byte) : Nat := bits (manWord m 9) 31 0
/-- REGION_LEN. -/
def manRegion (m : List Byte) : Nat := bits (manWord m 8) 39 0
/-- NSEED and the seed table. -/
def manSeeds (m : List Byte) : Nat := bits (manWord m 6) 40 32
/-- The seed table. -/
def manSeedBytes (m : List Byte) : List Byte := (m.drop (bits (manWord m 6) 31 0)).take (8 * manSeeds m)
/-- NEXP. -/
def manExperts (m : List Byte) : Nat := bits (manWord m 7) 55 32
/-- DIGEST of a manifest (R286). -/
def manDigest (m : List Byte) : List Byte := sha384 (m.take (manSig m + 96))
/-- The rank that holds the replica of a part (R289). -/
def manReplica (m : List Byte) (part : Nat) : Nat :=
  (manRank m + bits (manWord m 2) 11 0 * (part + 1)) % max 1 (bits (manWord m 1) 56 44)

/-- A shard entry (R289). -/
structure Shard where
  kind : Nat
  forRank : Nat
  part : Nat
  addr : Nat
  len : Nat
  digest : List Byte
  deriving DecidableEq, Repr

/-- Shard `i` of a manifest. -/
def manShard (m : List Byte) (i : Nat) : Shard :=
  let o := bits (manWord m 5) 31 0 + 64 * i
  let w0 := numAt m o 8
  let w1 := numAt m (o + 8) 8
  ⟨bits w0 3 0, bits w0 15 4, bits w0 19 16, bits w1 21 0 * 0x10000, bits w1 63 24, (m.drop (o + 16)).take 48⟩

/-- An object entry (R290). -/
structure WObj where
  crc : Nat
  shard : Nat
  ref : Bool
  host : Bool
  src : Nat
  dst : Nat
  len : Nat
  layer : Nat
  expert : Nat
  deriving DecidableEq, Repr

/-- Object `i` of a manifest. -/
def manObj (m : List Byte) (i : Nat) : WObj :=
  let o := bits (manWord m 5) 63 32 + 32 * i
  let w0 := numAt m o 8
  let w3 := numAt m (o + 24) 8
  { crc := bits w0 31 0, shard := bits w0 47 32, ref := w0.testBit 50, host := w0.testBit 51
    src := bits (numAt m (o + 8) 8) 39 0, dst := bits (numAt m (o + 16) 8) 39 0
    len := bits w3 31 0, layer := bits w3 39 32, expert := bits w3 49 40 }

/-- The objects of a manifest, with their indices. -/
def manObjList (m : List Byte) : List (Nat × WObj) := (List.range (manObjs m)).map (fun i => (i, manObj m i))
/-- Whether an object is staged into the region (R295). -/
def WObj.staged (o : WObj) : Bool := !o.ref && !o.host

/-- The digest and length of an expert in the expert table (R290). -/
def manExpert (m : List Byte) (layer expert : Nat) : Option (Nat × List Byte) :=
  let base := bits (manWord m 7) 31 0
  match (List.range (manExperts m)).find? (fun i => bits (numAt m (base + 64 * i) 8) 17 0 = layer + expert * 2 ^ 8) with
  | some i => some (bits (numAt m (base + 64 * i + 8) 8) 39 0, (m.drop (base + 64 * i + 16)).take 48)
  | none => none

/-- The HOST objects of an expert, in table order. -/
def manHostObjs (m : List Byte) (layer expert : Nat) : List WObj :=
  ((manObjList m).map (·.2)).filter (fun o => o.host && o.layer = layer && o.expert = expert)

/-- Whether an owner slot may verify (R291, R464): VALID, not REVOKED. -/
def OwnerSlot.good (o : OwnerSlot) : Bool := o.valid && !o.revoked

/-- The owner slots whose key page stands with their fuses, with the public point (R464). -/
def State.ownerKeys (s : State) : List (Nat × List Byte) :=
  s.nv.keyPages.filter (fun (k, pt) => match s.fuses.read.owners[k]? with
    | some o => o.good && o.hash = some (sha384 pt)
    | none => false)

/-- The owner slot under which a manifest verifies (R288, R291). -/
def State.manSigner (s : State) (m : List Byte) : Option Nat :=
  let key := (m.drop 80).take 16
  (s.ownerKeys.find? (fun (_, pt) => decide ((sha384 pt).take 16 = key) &&
    ecdsaOk pt (m.take (manSig m)) ((m.drop (manSig m)).take 96))).map (·.1)

/-- The seed indices that a held image's ROT commands use (R127, R291). -/
def State.seedsUsed (s : State) : List Nat :=
  s.figs.flatMap (fun im => im.streams.flatMap (fun x => (List.range x.len).filterMap (fun i =>
    let c := s.cmdAt (im.addr + x.off + 32 * i)
    if c.op = 3 ∧ 0x30 ≤ c.vfn ∧ c.vfn ≤ 0x36 then some (bits c.w3 23 16) else none)))

/-- Whether ranges of a list do not overlap one another. -/
def apart : List (Nat × Nat) → Bool
  | [] => true
  | (a, n) :: r => r.all (fun (b, k) => !overlaps a n b k) && apart r

/-- The conditions of R291 but the signature. -/
def State.manGood (s : State) (m : List Byte) : Bool :=
  let inSlot := fun (o n : Nat) => decide (o + n ≤ slotLen)
  let shards := (List.range (manShards m)).map (manShard m)
  bits (manWord m 0) 31 0 = 0x4D574853 && bits (manWord m 0) 39 32 = 1 &&
  inSlot (bits (manWord m 5) 31 0) (64 * manShards m) && inSlot (bits (manWord m 5) 63 32) (32 * manObjs m) &&
  inSlot (bits (manWord m 6) 31 0) (8 * manSeeds m) && inSlot (bits (manWord m 7) 31 0) (64 * manExperts m) &&
  inSlot (manSig m) 96 && shards.all (fun x => inSlot x.addr x.len) && apart (shards.map (fun x => (x.addr, x.len))) &&
  (manObjList m).all (fun (_, o) => decide (o.shard < manShards m) && decide (o.src + o.len ≤ (manShard m o.shard).len) &&
    (!o.staged || decide (o.dst + o.len ≤ manRegion m))) &&
  decide (manRegion m ≤ s.rd R.PROM_REGION_LEN_LEN) && s.seedsUsed.all (fun i => decide (i < manSeeds m))

/-- The status of a manifest: 0 where it is accepted (R291). -/
def State.manStatus (s : State) (m : List Byte) : Nat :=
  if s.manSigner m = none then stSigBad else if s.manGood m = false then stManifestBad else 0

/-- Bytes fetched whole from the host, cut to a length; `none` on a host read failure (R360, R369). -/
def fetched (d : HostData) (n : Nat) : Option (List Byte) :=
  match d with
  | .data bs => some ((List.range n).map (fun i => bs.getD i 0))
  | _ => none

/-- A request whose host read failed (R369). -/
def State.hostFail (s : State) (r : Req) : State := (s.raise E.PCIE_HOST_ERR 0 [r.grp.val]).finish r stHostErr

/-! ### Installation (R292 to R294) -/

/-- Pages of stack `k` that a slot range takes (R284, R285). -/
def pagesOn (k a n : Nat) : Nat :=
  if n = 0 then 0 else ((List.range ((a + n - 1) / 65536 - a / 65536 + 1)).filter (fun i => (a / 65536 + i) % 4 = k)).length

/-- Pages of a stack that programming a shard takes: the manifest goes with shard 0 (R292). -/
def shardPages (m : List Byte) (st k : Nat) : Nat :=
  pagesOn st (manShard m k).addr (manShard m k).len + (if k = 0 then pagesOn st 0 (manSig m + 96) else 0)

/-- Whether an interrupted Install of the same manifest goes on in a slot (R293). -/
def State.resumes (s : State) (slot : Nat) (m : List Byte) : Bool :=
  decide ((s.slotRec slot).state = 1) && decide ((s.slotRec slot).digest = manDigest m)

/-- Whether programming what an Install has left would wear a stack beyond 3,000 cycles (R293, R294). -/
def State.tooWorn (s : State) (slot : Nat) (m : List Byte) (skip : List Nat) : Bool :=
  let k := if s.resumes slot m then (s.slotRec slot).progress else 0
  let left := ((List.range (manShards m)).drop k).filter (fun i => !skip.contains i)
  (List.range 4).any (fun st => decide (3000 * 1572864 < s.nv.wear.getD st 0 + sumOf (left.map (shardPages m st))))

/-- Count the wear of programming a shard. -/
def State.wearOut (s : State) (m : List Byte) (k : Nat) : State :=
  { s with nv := { s.nv with wear := (List.range 4).map (fun st => s.nv.wear.getD st 0 + shardPages m st k) } }

/-- The status of an Install of a manifest into a slot before it starts (R292, R294, R470). -/
def State.installStatus (s : State) (slot : Nat) (m : List Byte) : Nat :=
  let old := fun (k : Nat) => 2 ≤ (s.slotRec k).state && decide (manEpoch m ≤ (s.slotRec k).epoch)
  if s.nvShut then stBadState
  else if s.manStatus m ≠ 0 then s.manStatus m
  else if s.weights.install.isSome ∨ s.activeSlot = some slot ∨ s.weights.staged.contains (some slot) = true then stBusy
  else if (old 0 || old 1) ∧ (s.slotRec slot).digest ≠ manDigest m then stEpochOld
  else if s.tooWorn slot m [] then stWorn
  else 0

/-- Show the Install that runs (R311). -/
def State.showInstall (s : State) : State :=
  match s.weights.install with
  | some i =>
    let s := (s.wr R.NVC_PROG_PROGRESS (s.slotRec i.slot).progress).wr R.NVC_PROG_NSHARD (s.slotRec i.slot).nshard
    (s.wr R.NVC_PROG_BUSY 1).wr R.NVC_PROG_SAG_HOLD (s.rd R.PWR_STATUS_SAG)
  | none => (s.wr R.NVC_PROG_BUSY 0).wr R.NVC_PROG_SAG_HOLD 0

/-- Start programming a slot (R292, R293, R297): an interrupted Install of the same manifest goes on from its
PROGRESS; another starts at shard 0, and spare pages stand in for the slot's retired ones. -/
def State.startInstall (s : State) (req : Option Req) (slot : Nat) (m : List Byte) (skip : List Nat)
    (table : List (Nat × Nat)) : State :=
  let s := if s.resumes slot m then s
    else s.commitRec slot ⟨1, 0, manEpoch m, manRank m, 0, manShards m, manDigest m⟩
  let s := { s with nv := { s.nv with holes := s.nv.holes.filter (fun h => decide (h.2 / 786432 ≠ slot)) } }
  State.showInstall { s with weights := { s.weights with install := some ⟨req, slot, m, 0, skip, table⟩ } }

/-- The data table of an Install (R370): the host address and the length of each shard. -/
def dataTable (bs : List Byte) (n : Nat) : List (Nat × Nat) :=
  (List.range n).map (fun k => (ofLE ((bs.drop (16 * k)).take 8), ofLE ((bs.drop (16 * k + 8)).take 8)))

/-- INSTALL (R292, R294, R370): the manifest is read from the host, and the data table where the checks pass. -/
def installEffect (r : Req) (d table : HostData) (s : State) : State :=
  if s.openAs 0x22 r = false ∨ s.weights.install.any (fun i => i.req = some r) = true then s
  else
    let s := s.fetch r.grp.val (r.w 4) (r.f 5 31 0)
    match fetched d (r.f 5 31 0) with
    | none => (s.aerRead d).hostFail r
    | some m =>
      let st := s.installStatus (r.f 3 0 0) m
      if st = stWorn then (s.raise E.NVC_WORN).finish r st
      else if st ≠ 0 then s.finish r st
      else
        let n := manShards m
        let s := s.fetch r.grp.val (r.w 6) (16 * n)
        match fetched table (16 * n) with
        | none => (s.aerRead table).hostFail r
        | some t => s.startInstall (some r) (r.f 3 0 0) m [] (dataTable t n)

/-- INSTALL. -/
def execInstall (r : Req) (d : InstallData) (s : State) : Res := .next (installEffect r d.manifest d.table s)

/-- A reinstall that leaves every shard out programs the manifest alone, and is complete with it (R299). -/
def State.adoptManifest (s : State) (slot : Nat) (m : List Byte) : State :=
  let r : SlotRec := ⟨1, 0, manEpoch m, manRank m, manShards m, manShards m, manDigest m⟩
  let s := (s.nvPut slot 0 m).commitRec slot { r with state := 2 }
  ((s.commitRec slot { s.slotRec slot with state := 3 }).wr R.PROM_EVENTS_REPLICA_EXPOSED 0).measure

/-- Start the reinstall that waits, once no Install runs (R292, R294, R299). -/
def State.nextInstall (s : State) : State :=
  match s.weights.redo with
  | none => s
  | some (m, skip) =>
    let slot := if s.activeSlot = some 0 then 1 else 0
    if s.weights.install.isSome ∨ s.nvShut then s
    else
      let s := { s with weights := { s.weights with redo := none } }
      if s.tooWorn slot m skip then s.raise E.NVC_WORN
      else if (List.range (manShards m)).all (skip.contains ·) then s.adoptManifest slot m
      else s.startInstall none slot m skip []

/-- End an Install with a status; its record stands as it is, one that sag holds is never committed, and a reinstall that
waited starts. -/
def State.endInstallWith (s : State) (i : Install) (st : Nat) : State :=
  let s := State.showInstall { s with weights := { s.weights with
    install := none, held := s.weights.held.filter (fun e => decide (e.1 ≠ i.slot)) } }
  (match i.req with
    | some r => s.finish r st
    | none => s).nextInstall

/-- CANCEL_INSTALL (R293, R370). -/
def cancelInstallEffect (r : Req) (s : State) : State :=
  if s.openAs 0x23 r = false then s
  else match s.weights.install with
    | some i => (s.endInstallWith i stCancelled).finish r 0
    | none => s.finish r stNotFound

/-- CANCEL_INSTALL. -/
def execCancelInstall (r : Req) (s : State) : Res := .next (cancelInstallEffect r s)

/-- The last shard is programmed (R292, R299): the slot is COMPLETE; a reinstall after a fill makes it ACTIVE. -/
def State.installDone (s : State) (i : Install) : State :=
  let r := s.slotRec i.slot
  let s := match i.req with
    | some _ => s.commitRec i.slot { r with state := 2 }
    | none => ((s.commitRec i.slot { r with state := 2 }).commitRec i.slot { r with state := 3 }).wr
        R.PROM_EVENTS_REPLICA_EXPOSED 0
  (s.measure).endInstallWith i 0

/-- The shard that an Install programs next: the first from PROGRESS on that it does not leave out. -/
def Install.next (i : Install) (r : SlotRec) : Option Nat :=
  (List.range r.nshard).find? (fun k => decide (r.progress ≤ k) && !i.skip.contains k)

/-- A shard is programmed and verified (R292): PROGRESS moves on, and the last one ends the Install. -/
def State.shardDone (s : State) (i : Install) (k : Nat) : State :=
  let r := s.slotRec i.slot
  let r := { r with progress := k + 1 }
  let r := if (i.next r).isNone then { r with progress := r.nshard } else r
  let s := s.commitRec i.slot r
  let s := State.showInstall { s with weights := { s.weights with install := some { i with tries := 0 } } }
  if r.progress = r.nshard then s.installDone i else s

/-- Read the shard that an Install programs from the place that its data table gives (R370); a reinstall's data come over the fabric
(R299). -/
def State.fetchShard (s : State) (i : Install) (k : Nat) : State :=
  match i.req with
  | some r => s.fetch r.grp.val (i.table.getD k (0, 0)).1 (i.table.getD k (0, 0)).2
  | none => s

/-- SHARD_PROGRAMMED (R292): the manifest goes with the first shard. The digests of what was written, of what was read back, and of
the manifest agree, or the shard is programmed once more, or the Install ends. -/
def shardProgrammedEffect (written readBack : HostData) (s : State) : State :=
  match s.weights.install with
  | none => s
  | some i =>
    match i.next (s.slotRec i.slot) with
    | none => s
    | some k =>
      let x := manShard i.manifest k
      if s.on R.NVC_PROG_SAG_HOLD then s
      else
        let s := s.fetchShard i k
        match fetched written x.len, fetched readBack x.len with
        | some w, some b =>
          let first := (List.range k).all (i.skip.contains ·)
          let s := (s.nvPut i.slot 0 (if first then i.manifest else [])).nvPut i.slot x.addr b
          let s := s.wearOut i.manifest k
          if sha384 w = x.digest ∧ sha384 b = x.digest then s.shardDone i k
          else if i.tries = 0 then { s with weights := { s.weights with install := some { i with tries := 1 } } }
          else (s.raise E.NVC_VERIFY_FAIL (x.addr / 65536 % 4)).endInstallWith i stVerify
        | _, _ => ((s.aerRead written).raise E.PCIE_HOST_ERR 0).endInstallWith i stHostErr

/-- SHARD_PROGRAMMED. -/
def execShardProgrammed (written readBack : HostData) (s : State) : Res := .next (shardProgrammedEffect written readBack s)

/-! ### Where objects come from (R296, R297) -/

/-- Whether a slot range meets a page that no copy stands for (R297). -/
def State.inHole (s : State) (slot a n : Nat) : Bool :=
  s.nv.holes.any (fun (k, p) => decide (p / 786432 = slot) && overlaps a n (p % 786432 * 0x40000 + k * 0x10000) 0x10000)

/-- A staging map entry (R296): address and ORIGIN, then where the origin holds the object. -/
def State.mapEntry (s : State) (slot : Nat) (m : List Byte) (region i : Nat) (o : WObj) : List Byte :=
  let x := manShard m o.shard
  let a := x.addr + o.src
  let addr := if o.staged then s.regionBase region + o.dst else 0
  if s.inHole slot a o.len then
    let q := manReplica m x.part
    toLE 8 (addr + 2 ^ 48) ++ toLE 8 (q + (Config.sourceIndex q i).toNat * 2 ^ 40)
  else toLE 8 addr ++ toLE 8 (a + i * 2 ^ 40)

/-- Rewrite the staging map of a region whose content came from a slot (R296, R297). -/
def State.remap (s : State) (slot region : Nat) : State :=
  if s.weights.staged.getD region none ≠ some slot then s
  else
    let m := s.weights.manifests.getD region []
    (manObjList m).foldl (fun t (i, o) => t.devSet (t.regionBase region + 0x1000 + 16 * i) (t.mapEntry slot m region i o)) s

end Sys2Proof.Machine
end

