-- ==== Sys2Proof/Machine/Power.lean ====
section
/-! DEFINITION. The power governor: windows, caps, budgets, floors, operating points, coolant, temperature and supply sag (R405
to R428, R477). -/

namespace Sys2Proof.Machine

/-- The PWR instance that acts (R428, R429). -/
def State.gov (s : State) : Nat := if s.on R.PWR_STATUS_ACTIVE 0 then 0 else 1

/-- Raise a flag of the governor, in the acting instance's name (R428). -/
def State.pwrRaise (s : State) (e : EvFlag) (args : List Nat) : State := s.raise e s.gov args

/-- Change the governor's own record. -/
def State.setPower (s : State) (f : Power → Power) : State := { s with power := f s.power }

/-! ### Modes (R428) -/

/-- Whether the package is parked or tripped: only UNPARK or a reset ends that (R420, R421). -/
def State.stopped (s : State) : Bool := s.rd R.PWR_STATUS_MODE = 4 || s.rd R.PWR_STATUS_MODE = 5

/-- MODE of a package that is neither parked nor tripped (R428; log 69): forced before held before throttled. -/
def State.setMode (s : State) (gate : Bool) : State :=
  if s.stopped then s
  else s.wr R.PWR_STATUS_MODE
    (if s.on R.PWR_CAP_C_FORCED then 3 else if s.power.held then 2 else if gate then 1 else 0)

/-! ### Budgets (R409, R410) -/

/-- Energy in fJ that a window of 4 µs at a guarded budget in W allows (R407). -/
def State.windowEnergy (s : State) (w : Nat) : Nat := w * 4000000000 * 100 / (100 + s.rd R.PWR_RAMP_GUARD)

/-- C′ of R410: C, or the effective floor where it is higher and C is not forced. -/
def State.target (s : State) : Nat :=
  let c := s.rd R.PWR_CAP_EFFECTIVE
  if s.on R.PWR_CAP_C_FORCED then c else max c (s.rd R.PWR_FLOOR_EFF)

/-- The package budget of the `i`-th window from the present one (R410). -/
def State.budgetAt (s : State) (i : Nat) : Nat :=
  match s.power.ramp with
  | none => s.target
  | some r =>
    if i < r.wait then r.held.getD i s.target
    else
      let k := r.steps + (i - r.wait) + 1
      if r.down then max s.target (r.p0 - k * s.rd R.PWR_RAMP_DN) else min s.target (r.p0 + k * s.rd R.PWR_RAMP_UP)

/-- Share an energy in proportion to demands; evenly where there is none (R409). -/
def shareOut (total : Nat) (ds : List Nat) : List Nat :=
  let sum := sumOf ds
  ds.map (fun d => if sum = 0 then total / ds.length else total * d / sum)

/-- Set the budget of window `i` of every compute die. -/
def Gate.setBudget (g : Gate) (i : Nat) (bs : List Nat) : Gate :=
  { g with budget := (g.budget.zip bs).map (fun (l, b) => l.set i b) }

/-- Charge new budgets from window `lo` on, in the shares that the demands give (R409, R410). -/
def State.rebudget (s : State) (lo nonTile : Nat) (ds : List Nat) : State :=
  { s with gate := ((List.range 4).filter (fun i => decide (lo ≤ i))).foldl (fun g i =>
      g.setBudget i (shareOut (s.windowEnergy (s.budgetAt i) - nonTile) ds)) s.gate }

/-- How many windows after the present one T begins (R410): the first that begins 4 µs or more after the arrival, which is the next
one where the present one has just begun (log 70). -/
def State.rampWait (s : State) : Nat := if s.on R.TEMPO_CTL_EN ∧ s.stamp = s.power.estStamp then 1 else 2

/-- The budgets of the present window and the next, which a change of C leaves as they are before window T (R410): a ramp on its way
goes on until then. -/
def State.heldBudgets (s : State) : List Nat := [s.power.budget, s.budgetAt 1]

/-- What the present window's die budgets leave to components other than tiles, in fJ (R409). -/
def State.nonTileNow (s : State) : Nat := s.windowEnergy s.power.budget - sumOf (s.gate.budget.map (fun l => l.getD 0 0))

/-- Start a ramp after a new target (R410). -/
def State.startRamp (s : State) (old : Nat) (held : List Nat) : State :=
  let nonTile := s.nonTileNow
  let now := (s.gate.budget.map (fun l => l.getD 0 0))
  let s := s.setPower (fun p => { p with ramp := some ⟨decide (s.target < old), p.est, s.rampWait, 0, held⟩ })
  s.rebudget s.rampWait nonTile now

/-! ### Caps and holds (R408, R413) -/

/-- A cap between 400 W and 3,600 W (R408). -/
def clampCap (w : Nat) : Nat := min 3600 (max 400 w)

/-- The limits on C and whether each is forced (R408). -/
def State.caps (s : State) : List (Nat × Bool) :=
  [(clampCap (s.rd R.PWR_CAP_MGMT), s.on R.PWR_CAP_FORCE), (clampCap (s.rd R.PWR_HOST_CAP_CAP), false)] ++
  (match s.power.thermal with | some w => [(w, true)] | none => []) ++
  (if s.on R.PWR_STATUS_SAG then [(s.rd R.PWR_SAG_SAG_CAP, s.on R.PWR_SAG_FORCE)] else [])

/-- C (R408). -/
def State.capNow (s : State) : Nat := minOr 3600 (s.caps.map (·.1))

/-- Whether a limit that sets C is forced (R408). -/
def State.capForced (s : State) : Bool := s.caps.any (fun c => c.1 = s.capNow && c.2)

/-- Whether a partition serves (R390). -/
def State.serves (s : State) (p : Nat) : Bool := s.locked p && !s.on R.PART_CTL_KIND p

/-- Set or clear AT_RISK in every live entry of the serving partitions (R413). -/
def State.setRisk (s : State) (on : Bool) : State :=
  s.caller.seqs.foldl (fun t e =>
    if e.2.state ≠ 0 ∧ t.serves e.2.part = true ∧ (t.seq e.1).atRisk ≠ on then t.putSeq e.1 { t.seq e.1 with atRisk := on }
    else t) s

/-- Start or end a hold at the floor (R413). -/
def State.reviewHold (s : State) : State :=
  let c := s.rd R.PWR_CAP_EFFECTIVE
  let low : Bool := decide (c < s.rd R.PWR_FLOOR_EFF)
  if low ∧ s.on R.PWR_CAP_C_FORCED = false ∧ s.power.held = false then
    let s := (s.setPower (fun p => { p with held := true })).pwrRaise E.PWR_FLOOR_HOLD [c, s.rd R.PWR_FLOOR_EFF]
    ((s.mgmtAll 0x0102 [c, s.rd R.PWR_FLOOR_EFF]).emit (.mctp 0x0102 [c, s.rd R.PWR_FLOOR_EFF])).setRisk true
  else if s.power.held ∧ low = false then
    ((s.setPower (fun p => { p with held := false })).setRisk false).mgmtAll 0x0103 [c]
  else s

/-- A limit may have changed: C, its event, its ramp and its hold (R408, R410, R413, R426). -/
def State.onCap (s : State) : State :=
  let old := s.target
  let held := s.heldBudgets
  let was := (s.rd R.PWR_CAP_EFFECTIVE, s.on R.PWR_CAP_C_FORCED)
  let c := s.capNow
  let f := s.capForced
  let s := (s.wr R.PWR_CAP_EFFECTIVE c).wr R.PWR_CAP_C_FORCED (b2n f)
  let s := if was = (c, f) then s else s.mgmt 16 0x0101 [c + b2n f * 2 ^ 16, s.rd R.PWR_FLOOR_EFF]
  let s := if s.target = old then s else s.startRamp old held
  s.reviewHold.setMode (s.rd R.PWR_STATUS_MODE = 1)

/-- SET_POWER_CAP (R408). -/
def setPowerCapEffect (w : Nat) (force : Bool) (s : State) : State :=
  ((s.wr R.PWR_CAP_MGMT w).wr R.PWR_CAP_FORCE (b2n force)).onCap

/-- SET_POWER_CAP. -/
def execSetPowerCap (watts : BitVec 16) (force : Bool) (s : State) : Res :=
  .next (setPowerCapEffect watts.toNat force s)

/-- HOST_CAP_WRITE (R408). -/
def hostCapWriteEffect (w : Nat) (s : State) : State := (s.wr R.PWR_HOST_CAP_CAP w).onCap

/-- HOST_CAP_WRITE. -/
def execHostCapWrite (watts : BitVec 16) (s : State) : Res := .next (hostCapWriteEffect watts.toNat s)

/-- FLOOR_DECL_WRITE (R391, R411, R412, R427): while partition 0 is locked another value is refused. -/
def floorDeclWriteEffect (w : Nat) (s : State) : State :=
  if s.locked 0 ∧ s.rd R.PWR_FLOOR_DECL ≠ w then s.raise E.PART_LOCK_VIOL 0
  else
    let old := s.target
    let held := s.heldBudgets
    let s := (s.wr R.PWR_FLOOR_DECL w).wr R.PWR_FLOOR_EFF w
    let s := if s.target = old then s else s.startRamp old held
    s.reviewHold.setMode (s.rd R.PWR_STATUS_MODE = 1)

/-- FLOOR_DECL_WRITE. -/
def execFloorDeclWrite (watts : BitVec 16) (s : State) : Res := .next (floorDeclWriteEffect watts.toNat s)

/-! ### Operating points (R414 to R416, R477) -/

/-- The code of a compute die (R414). -/
def State.opp (s : State) (die : Nat) : Nat := s.rd R.PWR_STATUS_OPP / 2 ^ (5 * die) % 32

/-- Clock of a code in MHz (R414). -/
def codeMhz (c : Nat) : Nat := 600 + 20 * c

/-- Put a die at a code. -/
def State.setOpp (s : State) (die c : Nat) : State :=
  let v := s.rd R.PWR_STATUS_OPP
  ({ s with tempo := { s.tempo with cycles := s.cyclesFrom s.tempo.now } }).wr R.PWR_STATUS_OPP
    (v - s.opp die * 2 ^ (5 * die) + c * 2 ^ (5 * die))

/-- The voltage of a code on a die in mV, with its ageing margin (R414, R445). -/
def State.milliVolts (s : State) (die c : Nat) : Nat := (s.fuses.vf.getD die []).getD c 0 + s.rd R.HEALTH_MARGIN_OFFSET 0 die

/-- Command a rail, if it is not there (R477). -/
def State.sendRail (s : State) (die c : Nat) : State :=
  let mv := s.milliVolts die c
  if s.power.rails.getD die 0 = mv then s
  else (s.setPower (fun p => { p with rails := p.rails.set die mv })).emit (.avs die mv)

/-- A die's record. -/
def State.dieClk (s : State) (die : Nat) : DieClk := s.power.dies.getD die ⟨none, none⟩

/-- Replace it. -/
def State.setDie (s : State) (die : Nat) (x : DieClk) : State := s.setPower (fun p => { p with dies := p.dies.set die x })

/-- Move a die towards a code (R416): raising moves the rail first, lowering the clock. -/
def State.moveDie (s : State) (die c : Nat) : State :=
  if s.opp die < c then
    if s.dieClk die = ⟨some c, none⟩ ∨ s.dieClk die = ⟨none, some c⟩ then s
    else (s.setDie die ⟨some c, none⟩).sendRail die c
  else if c < s.opp die then s.setDie die ⟨none, some c⟩
  else (s.setDie die ⟨none, none⟩).sendRail die c

/-- RAIL_SETTLED (R416): a raised rail has settled; the clock changes at the next beat boundary. -/
def railSettledEffect (die : Nat) (s : State) : State :=
  match (s.dieClk die).rising with
  | some c => s.setDie die ⟨none, some c⟩
  | none => s

/-- RAIL_SETTLED. -/
def execRailSettled (die : Fin 4) (s : State) : Res := .next (railSettledEffect die.val s)

/-- At a beat boundary the clocks change, and after a lowering the rail follows (R416). -/
def State.clockDies (s : State) : State :=
  (List.range 4).foldl (fun (t : State) die => match (t.dieClk die).next with
    | some c => ((t.setOpp die c).setDie die ⟨none, none⟩).sendRail die c
    | none => t) s

/-- Class code of compute dies in a FAULT event (R375: the DIE class). -/
def dieClass : Nat := 0x01

/-- AVS_ERROR (R375, R477): FAULT with the DIE class; the die holds its present code. -/
def avsErrorEffect (die : Nat) (s : State) : State :=
  (s.setDie die ⟨none, none⟩).mgmt 16 0x0007 [dieClass + die * 2 ^ 16, s.stamp]

/-- AVS_ERROR. -/
def execAvsError (die : Fin 4) (s : State) : Res := .next (avsErrorEffect die.val s)

/-- The Sets of a die that are in use: enabled in a locked partition (R415). -/
def State.usedSets (s : State) (die : Nat) : List Nat :=
  ((List.range 12).map (12 * die + ·)).filter (fun n => s.on R.SCHED_CTL_EN n && (s.ownerOf n).isSome)

/-- The phase of the present bar (R415): 0 idle, 1 prefill, 2 decode. -/
def State.phaseNow (s : State) : Nat :=
  let ps := (List.range 16).filter s.serves
  let cell := fun (p k : Nat) => s.cellNow (s.rd R.CALLER_PART_CELLS_CELL_BASE 0 p + 64 * k)
  let alone := (List.range 48).any (fun n => s.setState n = 2 && (match s.ownerOf n with
    | some p => s.on R.PART_CTL_KIND p
    | none => false))
  if ps.all (fun p => cell p 0 = 0) ∧ alone = false then 0
  else if sumOf (ps.map (fun p => cell p 3)) ≤ 2 * sumOf (ps.map (fun p => cell p 2)) then 1 else 2

/-- The preferred code of a die (R415, R416). -/
def State.prefOf (s : State) (die : Nat) : Nat :=
  let us := s.usedSets die
  let mine := fun (f : Nat → Bool) => us ≠ [] ∧ us.all f = true
  if mine (fun n => (s.rd R.PWR_DRAFT_SETS_SETS).testBit n) then s.rd R.PWR_OPP_PREF_DRAFT
  else if mine (fun n => match s.ownerOf n with | some p => s.on R.PART_CTL_KIND p | none => false) then
    s.rd R.PWR_OPP_PREF_PREFILL
  else match s.rd R.PWR_STATUS_PHASE with
    | 0 => s.rd R.PWR_OPP_PREF_IDLE
    | 1 => s.rd R.PWR_OPP_PREF_PREFILL
    | _ => s.rd R.PWR_OPP_PREF_DECODE

/-- The lower bound of a die's code: BUDGET_MHZ of the active timed images that name a Set of it, unless C is forced (R413,
R416). -/
def State.oppFloor (s : State) (die : Nat) : Nat :=
  let mhzs := (s.figs.filter (fun g => g.active && g.timed &&
    (List.range 12).any (fun n => g.sets.testBit (12 * die + n)))).map (·.mhz)
  if s.on R.PWR_CAP_C_FORCED then 0 else min (s.rd R.PWR_STATUS_OPP_MAX) (maxOf (mhzs.map (fun m => ceilDiv (m - 600) 20)))

/-- Whether a code's forecast fits the die's budget: its demand scales with the clock (R416; log 71). -/
def State.oppFits (s : State) (budget die demand c : Nat) : Bool := decide (demand * codeMhz c ≤ budget * s.mhz die)

/-- The energy in fJ that each die has in the present window (R409). -/
def State.budgetsNow (s : State) : List Nat := s.gate.budget.map (fun l => l.getD 0 0)

/-- The energy in fJ that each die has in a window at C′, shared as in the present one: what a bar's operating points are chosen
under (R427). -/
def State.budgetsAtC (s : State) : List Nat := shareOut (s.windowEnergy s.target - s.nonTileNow) s.budgetsNow

/-- Whether the words of a compute die's V/F curve can be read (R452): group 12 of the fuses. -/
def State.curveGood (s : State) (die : Nat) : Bool := !s.fuses.badWords.any (fun e => e.1 = 12 && e.2 % 16 = die)

/-- Choose the code of every die (R416), given its budget and the demand of its last window. -/
def State.chooseOpp (s : State) (budgets demands : List Nat) : State :=
  if s.stopped then s
  else (List.range 4).foldl (fun (t : State) die =>
    let pref := t.prefOf die
    let top := min pref (t.rd R.PWR_STATUS_OPP_MAX)
    let c := match ((List.range (top + 1)).reverse.find? (fun c => t.oppFits (budgets.getD die 0) die (demands.getD die 0) c)) with
      | some c => c
      | none => 0
    let low := t.oppFloor die
    let t := if pref < low then t.pwrRaise E.PWR_PREF_RAISED [die] else t
    t.moveDie die (if t.curveGood die then max c low else 0)) s

/-- The demand of each die in the present window: energy charged and energy held back (R409, R416). -/
def State.demands (s : State) : List Nat :=
  (List.range 4).map (fun die => (s.gate.forecast.getD die []).getD 0 0 + s.gate.asked.getD die 0)

/-! ### The window (R405 to R407, R409, R412, R418, R421) -/

/-- The guarded estimate of a window (R407). -/
def State.guarded (s : State) (w : Nat) : Nat := ceilDiv (w * (100 + s.rd R.PWR_RAMP_GUARD)) 100

/-- Report the temperatures of a window (R428), dies in the order of R40. -/
def State.setTemps (s : State) (ts : List Nat) : State :=
  let t := fun (i : Nat) => min 255 (ts.getD i 0)
  ((s.wr R.PWR_TEMP_C0_M3 (sumOf ((List.range 8).map (fun i => t i * 2 ^ (8 * i))))).wr R.PWR_THERM_X0 (t 8)).wr
    R.PWR_THERM_X1 (t 9)

/-- The thermal cap after a window (R421): it falls, is held, or rises until it no longer binds. -/
def State.stepThermal (s : State) (hot : Nat) : State :=
  match s.power.thermal with
  | none => s
  | some w =>
    let lim := s.rd R.PWR_THERM_THROTTLE
    let free : State := { s with power := { s.power with thermal := none } }
    let others := minOr 3600 (free.caps.map (·.1))
    let w' := if lim ≤ hot then w - s.rd R.PWR_RAMP_DN else if lim ≤ hot + 5 then w else w + s.rd R.PWR_RAMP_UP
    s.setPower (fun p => { p with thermal := if others ≤ w' ∧ hot + 5 < lim then none else some w' })

/-- The weight of a row of R406 in fJ per unit. -/
def State.weight (s : State) (k : Nat) : Nat := s.rd R.PWR_WEIGHT_WEIGHT 0 k

/-- The voltage of a compute die's rail in mV: the last commanded, at first the boot voltage of 0.70 V (R477, R478). -/
def State.railMv (s : State) (die : Nat) : Nat := if s.power.rails.getD die 0 = 0 then 700 else s.power.rails.getD die 0

/-- The voltage in mV of the rail behind an index of `Config.vref`: a compute die's as commanded, VSRAM's 0.75 V, else the one at
which it stands. -/
def State.voltage (s : State) (k : Nat) : Nat := if k < 4 then s.railMv k else if k = 4 then 750 else Config.fixedMv k

/-- A dynamic energy scaled by the square of its rail's voltage over the reference (R406). -/
def State.scaled (s : State) (k e : Nat) : Nat := e * s.voltage k ^ 2 / max 1 (Config.vref k ^ 2)

/-- The energy in fJ of a row of counts by tile, by the tiles that a test picks. -/
def State.cycleEnergy (s : State) (is : Nat → Bool) : Nat :=
  sumOf ((s.gate.cycles.filter (fun e => is (e.1 / 3))).map (fun (k, n) => s.scaled (k / 3 / 96) (n * s.weight (k % 3))))

/-- The energy in fJ that the tiles that a test picks take in a window: the cycles their activity counters counted, and their SRAM
ports' bytes (R406). -/
def State.tileEnergy (s : State) (a : Activity) (is : Nat → Bool) : Nat :=
  s.cycleEnergy is + sumOf ((a.tiles.filter (fun x => is x.tile)).map (fun x => s.scaled 4 (x.bytes * s.weight 3)))

/-- The energy in fJ that a partition's own activity takes in a window (R406, R418). -/
def State.ownEnergy (s : State) (a : Activity) (p : Nat) : Nat :=
  s.tileEnergy a (fun t => s.ownerOf (t / 8) = some p) + s.scaled 5 (a.hbm.getD p 0 * s.weight 4) +
    s.scaled 6 (a.shelf.getD p 0 * s.weight 5) + s.scaled 7 (a.nv.getD p 0 * s.weight 6) + s.scaled 8 (a.flits.getD p 0 * s.weight 7)

/-- The energy in fJ that all locked partitions share (R406, R418): tiles of none, the flits that no partition's packets filled,
refresh, the leakage of the ten dies, and the fixed 80 W. -/
def State.sharedEnergy (s : State) (a : Activity) : Nat :=
  s.tileEnergy a (fun t => (s.ownerOf (t / 8)).isNone) + s.scaled 8 ((s.gate.flits - sumOf a.flits) * s.weight 7) +
    s.scaled 5 a.refresh +
    sumOf ((List.range 10).map (fun d => Config.leakage s.fuses.leak d (a.temps.getD d 0) (if d < 4 then s.railMv d else Config.fixedMv (16 + d)))) +
    80 * 4000000000

/-- The energy of a window in fJ (R406). -/
def State.windowFj (s : State) (a : Activity) : Nat := sumOf ((List.range 16).map (s.ownEnergy a)) + s.sharedEnergy a

/-- The estimate of a window in W (R405, R406). -/
def State.watts (s : State) (a : Activity) : Nat := s.windowFj a / 4000000000

/-- The logical tiles that a locked partition owns (R418). -/
def State.tileShare (s : State) (p : Nat) : Nat := if s.locked p then 8 * popcount 48 (s.rd R.PART_SETS_SETS p) else 0

/-- The energy of a window attributed to each partition, in µJ (R418). -/
def State.partEnergies (s : State) (a : Activity) : List Nat :=
  let all := sumOf ((List.range 16).map s.tileShare)
  (List.range 16).map (fun p => (s.ownEnergy a p + s.sharedEnergy a * s.tileShare p / max 1 all) / 1000000000)

/-- Attribute the energy of a window of so many fJ, in µJ (R405, R418). -/
def State.addEnergy (s : State) (fj : Nat) (parts : List Nat) : State :=
  let s := s.bump R.PWR_ENERGY_ENERGY (fj / 1000000000)
  let s := (List.range 16).foldl (fun (t : State) p => t.bump R.PWR_PART_ENERGY_ENERGY (parts.getD p 0) 0 p) s
  s.setPower (fun p => { p with barPart := (List.range 16).map (fun i => p.barPart.getD i 0 + parts.getD i 0) })

/-- The window's own estimate, stamped by source package:0x8F (R405), and its place in the bar's statistics. -/
def State.addEstimate (s : State) (w : Nat) : State :=
  let g := s.guarded w
  (s.wr R.PWR_EST_LAST (min 65535 w)).setPower (fun p => { p with
    windows := p.windows + 1, est := g, estStamp := s.stamp, estUnit := s.pkgId * 256 + 0x8F, barWins := p.barWins + 1, barSum := p.barSum + w
    barPeak := max p.barPeak w, barGuard := max p.barGuard g })

/-- At the end of a bar in which a Set was late by the closed gate alone with C at or above DECL, the floor rises to the highest
guarded estimate of the bar's windows (R412; log 210). -/
def State.raiseFloor (s : State) : State :=
  let m := ceilDiv s.power.barGuard 10 * 10
  if s.power.floorDue ∧ s.rd R.PWR_FLOOR_EFF < m then
    let old := s.target
    let held := s.heldBudgets
    let s := ((s.wr R.PWR_FLOOR_MEAS m).wr R.PWR_FLOOR_EFF m).pwrRaise E.PWR_FLOOR_LOW [m]
    let s := s.mgmt 16 0x0107 [m]
    (if s.target = old then s else s.startRamp old held).reviewHold
  else s

/-- The ramp after one more window (R410): it ends at its target. -/
def Ramp.step (r : Ramp) : Ramp :=
  if 0 < r.wait then { r with wait := r.wait - 1, held := r.held.drop 1 } else { r with steps := r.steps + 1 }

/-- A list of a die's forecasts a window later: the present window's falls off, and there are four at least. -/
def laterForecast (l : List Nat) : List Nat := l.drop 1 ++ List.replicate (4 - (l.length - 1)) 0

/-- The gate when a window begins (R405, R409). -/
def State.newWindow (s : State) : Gate :=
  { s.gate with
    forecast := s.gate.forecast.map laterForecast, asked := [0, 0, 0, 0], shut := s.gate.closed
    begun := (List.range 4).map s.cycleNow, late := false, cycles := [], flits := 0 }

/-- The next window begins (R409, R410): its budget, and the forecasts of the windows that follow. -/
def State.nextWindow (s : State) (ds : List Nat) (nonTile : Nat) : State :=
  let b := s.budgetAt 1
  let s := s.setPower (fun p => { p with budget := b, ramp := p.ramp.map Ramp.step })
  let s := if s.power.ramp.any (fun r => r.wait = 0) ∧ b = s.target then s.setPower (fun p => { p with ramp := none }) else s
  ({ s with gate := s.newWindow }).rebudget 0 nonTile ds

/-- Whether every compute die runs at its lower bound or above (R100, R412). -/
def State.oppMet (s : State) : Bool := (List.range 4).all (fun die => decide (s.oppFloor die ≤ s.opp die))

/-- POWER_WINDOW (R405 to R412, R416, R418, R421). A new thermal cap arrives as the next window begins, so that its ramp waits for the
one behind (R410). -/
def powerWindowEffect (a : Activity) (s : State) : State :=
  let ds := s.demands
  let shut := s.gate.shut
  let nonTile := s.windowFj a - s.tileEnergy a (fun _ => true)
  let s := ((s.addEstimate (s.watts a)).addEnergy (s.windowFj a) (s.partEnergies a)).setTemps a.temps
  let s := if shut then (s.bump R.PWR_THR_WIN_WINDOWS 1).pwrRaise E.PWR_THROTTLE [] else s
  let s := if s.gate.late ∧ s.oppMet = true then s.setPower (fun p => { p with floorDue := true }) else s
  let s := s.nextWindow ds nonTile
  let s := (if s.power.thermal.isSome then (s.stepThermal (maxOf a.temps)).onCap else s).setMode shut
  if s.power.windows % 128 = 0 then s.chooseOpp s.budgetsNow ds else s

/-- POWER_WINDOW. -/
def execPowerWindow (a : Activity) (s : State) : Res := .next (powerWindowEffect a s)

/-! ### Temperature (R421) -/

/-- Position of a die in R40's order is its number; the THERMAL event's word (R426). -/
def thermalWord (die degC : Nat) (trip : Bool) : Nat := die + degC * 2 ^ 4 + b2n trip * 2 ^ 12

/-- THERMAL_THROTTLE (R421): the first die at THROTTLE starts the thermal cap at the last window's estimate. -/
def thermalThrottleEffect (die degC : Nat) (s : State) : State :=
  if s.rd R.PWR_THERM_THROTTLE ≤ degC ∧ s.power.thermal = none then
    let s := (s.setPower (fun p => { p with thermal := some p.est })).pwrRaise E.PWR_THERM_HOT [die, degC]
    (s.mgmt 16 0x0106 [thermalWord die degC false]).onCap
  else s

/-- THERMAL_THROTTLE. -/
def execThermalThrottle (die : DieId) (degC : BitVec 8) (s : State) : Res :=
  .next (thermalThrottleEffect die.val degC.toNat s)

/-- Close the gate of every Set and kill every Set (R420 step 1). -/
def State.stopSets (s : State) : State :=
  let s := { s with gate := { s.gate with closed := true, shut := true } }
  (List.range 48).foldl (fun (t : State) n => schedKillEffect n t) s

/-- Stop serving (R420 steps 1 and 2): FLOW_LOST is raised, no marker goes out after this, and the role has failed. A
thermal trip acts by the same two steps (R421). -/
def State.stopServing (s : State) : State :=
  ((s.stopSets.pwrRaise E.PWR_FLOW_LOST []).mgmt 16 0x0104 [s.stamp]).reportFailed 0x04

/-- THERMAL_TRIP (R421): at 110 °C THERM_TRIP_N is asserted and the package stops serving. -/
def thermalTripEffect (die degC : Nat) (s : State) : State :=
  if s.rd R.PWR_THERM_TRIP ≤ degC ∧ s.boot.trip = false then
    let s := ({ s with boot := { s.boot with trip := true } }).pwrRaise E.PWR_THERM_TRIP [die, degC]
    let s := ((s.emit .thermTrip).wr R.PWR_STATUS_MODE 5).mgmt 16 0x0106 [thermalWord die degC true]
    s.stopServing
  else s

/-- THERMAL_TRIP. -/
def execThermalTrip (die : DieId) (degC : BitVec 8) (s : State) : Res := .next (thermalTripEffect die.val degC.toNat s)

/-! ### Coolant (R420) -/

/-- Every compute die goes to code 0 and its lowest voltage (R420 step 3). -/
def State.parkDies (s : State) : State :=
  (List.range 4).foldl (fun (t : State) die => ((t.setOpp die 0).setDie die ⟨none, none⟩).sendRail die 0) s

/-- COOLANT_LOSS (R420): the Sets stop, the role has failed, the package parks, and HBM4 and LPDDR6 enter self-refresh: moves and host
copies wait, and what fabric requests ask for is still served. That the card goes on showing the map from
before a sweep whose spare the loss leaves standing (R447), until some other regeneration shows that spare as lasting, is
the model's choice (DESIGN CHOICE, log 191). -/
def coolantLossEffect (s : State) : State :=
  if s.on R.PWR_STATUS_FLOW_OK then
    let s := (s.wr R.PWR_STATUS_FLOW_OK 0).setPower (fun p => { p with flowBack := false })
    let s := s.stopServing.dropReplan
    let s := s.setPower (fun p => { p with selfRefresh := true })
    (if s.rd R.PWR_STATUS_MODE = 5 then s else s.wr R.PWR_STATUS_MODE 4).parkDies
  else s

/-- COOLANT_LOSS. -/
def execCoolantLoss (s : State) : Res := .next (coolantLossEffect s)

/-- UNPARK (R420): with flow back for 1 s the package leaves park; it serves again after takeover. -/
def unparkEffect (s : State) : State :=
  if s.rd R.PWR_STATUS_MODE = 4 ∧ s.on R.PWR_STATUS_FLOW_OK = true ∧ s.power.flowBack = true then
    let s := ({ s with gate := { s.gate with closed := false } }).setPower (fun p => { p with selfRefresh := false })
    (((s.wr R.PWR_STATUS_MODE 0).dropCause 0x04)).setMode false |>.pump
  else s

/-- UNPARK. -/
def execUnpark (s : State) : Res := .next (unparkEffect s)

/-! ### Supply sag (R422, R423) -/

/-- Sag is signalled (R423). -/
def State.startSag (s : State) : State :=
  ((((s.wr R.PWR_STATUS_SAG 1).pwrRaise E.PWR_SAG []).mgmt 16 0x0105 [1]).showInstall).onCap

/-- SUPPLY_SAG (R423, R486): while PERST_N is low the warning waits for stage ROM. -/
def supplySagEffect (s : State) : State :=
  if s.on R.PWR_STATUS_SAG then s else if s.boot.perst then s.wr R.PWR_STATUS_SAG 1 else s.startSag

/-- SUPPLY_SAG. -/
def execSupplySag (s : State) : Res := .next (supplySagEffect s)

/-- Carry out the commits that a sag held back (R423). -/
def State.sagOver (s : State) : State :=
  let s := s.commitHeld
  if s.power.logHeld then (s.setPower (fun p => { p with logHeld := false })).commitLog else s

/-- SAG_END (R423, R486). -/
def sagEndEffect (s : State) : State :=
  if s.on R.PWR_STATUS_SAG = false then s
  else if s.boot.perst then s.wr R.PWR_STATUS_SAG 0
  else ((((s.wr R.PWR_STATUS_SAG 0).mgmt 16 0x0105 [0]).sagOver).showInstall).onCap

/-- SAG_END. -/
def execSagEnd (s : State) : Res := .next (sagEndEffect s)

/-! ### The standby (R427, R429, R477) -/

/-- GOVERNOR_FAILOVER (R429): the governor on X1 acts; it holds the same caps and forecasts, and drives the rails. -/
def governorFailoverEffect (s : State) : State :=
  if s.on R.PWR_STATUS_ACTIVE 0 then
    let s := (s.wr R.PWR_STATUS_ACTIVE 0 0).wr R.PWR_STATUS_ACTIVE 1 1
    s.power.rails.zipIdx.foldl (fun (t : State) (mv, die) => if mv = 0 then t else t.emit (.avs die mv)) s
  else s

/-- GOVERNOR_FAILOVER. -/
def execGovernorFailover (s : State) : Res := .next (governorFailoverEffect s)

/-! ### At a bar boundary (R415, R416, R419, R428, R445) -/

/-- The power part of a bar start: the statistics of the bar that ended, the phase, and the operating points. -/
def State.powerBar (s : State) : State :=
  let s := s.raiseFloor
  let p := s.power
  let s := (s.wr R.PWR_EST_PEAK (min 65535 p.barPeak)).wr R.PWR_EST_MEAN (min 65535 (p.barSum / max 1 p.barWins))
  let s := (List.range 16).foldl (fun (t : State) q => t.wr R.PWR_PART_BAR_LAST (p.barPart.getD q 0 / 1000) 0 q) s
  let s := s.setPower (fun p => { p with
    barWins := 0, barSum := 0, barPeak := 0, barGuard := 0, floorDue := false, lastPart := p.barPart, barPart := List.replicate 16 0 })
  let s := match s.power.oppNext with
    | some c => (s.setPower (fun p => { p with oppNext := none })).wr R.PWR_STATUS_OPP_MAX c
    | none => s
  (s.wr R.PWR_STATUS_PHASE s.phaseNow).chooseOpp s.budgetsAtC s.demands

end Sys2Proof.Machine
end

