-- ==== Sys2Proof/Machine/FormatArea.lean ====
section
/-! DEFINITION. The Format Area and the Shadow cells (R150, R151, R156). -/

namespace Sys2Proof.Machine

/-- The Format Area of a partition. -/
def State.fmtArea (s : State) (p : Nat) : Nat := s.rd R.PART_FORMAT_BASE p

/-- Its layers. -/
def State.fmtLayers (s : State) (p : Nat) : List Nat := List.range (bits (s.devWord (s.fmtArea p + 8)) 8 0)

/-- Layer entry `l`. -/
def State.fmtEntry (s : State) (p l : Nat) : Nat := s.fmtArea p + 0x100 + 0x100 * l

/-- Replace bits [hi:lo] of a word. -/
def setBits (w hi lo v : Nat) : Nat := w - bits w hi lo * 2 ^ lo + v % 2 ^ (hi + 1 - lo) * 2 ^ lo

/-- Write bits [hi:lo] of a word of device memory. -/
def State.putBits (s : State) (a hi lo v : Nat) : State := s.devSetNat a 8 (setBits (s.devWord a) hi lo v)

/-- The Shadow shape cell of a slice and parity (R156). -/
def State.shadowCell (s : State) (p l k par : Nat) : Nat :=
  bits (s.devWord (s.fmtEntry p l + 88)) 47 0 + 64 * (2 * k + par)

/-- A cell written by a control core (R89): SRC is the Caller's die's firmware core. The write is stamped with the bar that
runs: R89 asks the bar served of a bar-exact write only, and that firmware's write of a Shadow cell is none is the model's
reading (DEDUCED, log 165). -/
def State.coreCell (s : State) (a v : Nat) : State := s.cellWrite a v s.bar (s.pkgId * 256 + 0x01) false

end Sys2Proof.Machine
end

