-- ==== Sys2Proof/Machine/Staging.lean ====
section
/-! DEFINITION. Staging, host slots, fills, epoch swaps, and Promenade moves (R295 to R303, R307 to R310, R463). -/

namespace Sys2Proof.Machine

/-! ### Writing an epoch region (R295, R296) -/

/-- The region that is not current. -/
def State.shadow (s : State) : Nat := 1 - s.rd R.PROM_EPOCH_REGION

/-- Remember what a region holds. -/
def State.noteRegion (s : State) (region : Nat) (slot : Option Nat) (m : List Byte) : State :=
  { s with weights := { s.weights with
    staged := s.weights.staged.set region slot, manifests := s.weights.manifests.set region m } }

/-- Write a region: seed table, header, objects, staging map (R295, R296); `bytesOf` and `entry` give an object's bytes
and its map entry. An engine moves the objects and the seed table, and their checksums stay as written; firmware writes the
header and the map (R174). -/
def State.writeRegion (s : State) (region : Nat) (m : List Byte) (bytesOf : WObj → List Byte)
    (entry : State → Nat → WObj → List Byte) : State :=
  let base := s.regionBase region
  let s := (s.devLoad (base + 0x800) (manSeedBytes m)).devSet base
    (toLE 8 (manEpoch m) ++ toLE 8 (manObjs m) ++ List.replicate 48 0)
  (manObjList m).foldl (fun t (i, o) =>
    let t := if o.staged then t.devLoad (base + o.dst) (bytesOf o) else t
    t.devSet (base + 0x1000 + 16 * i) (entry t i o)) s

/-- Show a region's content in PROM_EPOCH or PROM_SHADOW. -/
def State.showRegion (s : State) (region epoch : Nat) (full : Bool) : State :=
  if region = s.rd R.PROM_EPOCH_REGION then s.wr R.PROM_EPOCH_EPOCH epoch
  else (s.wr R.PROM_SHADOW_EPOCH epoch).wr R.PROM_SHADOW_STAGED (b2n full)

/-- The host slots that hold experts of an epoch, with where their objects lie, in order of partition, layer and slot. -/
def State.hostsOf (s : State) (epoch : Nat) : List (Nat × HostSlot) :=
  s.weights.hostSlots.filterMap (fun (k, x) => match x with
    | some x => if x.epoch = epoch then some (k, x) else none
    | none => none)

/-- The slot of own NV that holds the content of a manifest. -/
def State.slotOf (s : State) (m : List Byte) : Option Nat := (List.range 2).find? (fun k => (s.slotRec k).digest = manDigest m)

/-- Whether an object lies on a failed page of own NV (R297). -/
def State.objectLost (s : State) (m : List Byte) (o : WObj) : Bool :=
  match s.slotOf m with
  | some slot => s.inHole slot ((manShard m o.shard).addr + o.src) o.len
  | none => false

/-- The entries of the host-slot map for one host slot (R296, R297): ORIGIN 2 with the source rank, ORIGIN 1 with the replica holder
for what lies on a failed page, or own NV. -/
def State.hostEntries (s : State) (m : List Byte) (k : Nat) (x : HostSlot) : List (List Byte) :=
  let l := k / 8 % 256
  let from_ := fun (origin q i a : Nat) =>
    toLE 8 (a + origin * 2 ^ 48) ++ toLE 8 (q % 4096 + (Config.sourceIndex q i).toNat * 2 ^ 40)
  ((manObjList m).filter (fun o => o.2.host && o.2.layer = l && o.2.expert = x.expert)).map (fun (i, o) =>
    let a := Config.hostSlotAt (k / 8) (k % 8) + o.dst
    match x.source with
    | some q => from_ 2 q i a
    | none =>
      if s.objectLost m o then from_ 1 (manReplica m (manShard m o.shard).part) i a
      else toLE 8 a ++ toLE 8 ((manShard m o.shard).addr + o.src + i * 2 ^ 40))

/-- Write the host-slot map, which follows the staging map of a region (R296; its order is the model's, log 86). -/
def State.writeHostMap (s : State) (region : Nat) : State :=
  let m := s.weights.manifests.getD region []
  s.devSet (s.regionBase region + 0x1000 + 16 * manObjs m)
    ((s.hostsOf (manEpoch m)).flatMap (fun (k, x) => (s.hostEntries m k x).flatten))

/-- Write the host-slot maps of both regions again (R296, R297). -/
def State.remapHosts (s : State) : State :=
  (List.range 2).foldl (fun t r => if t.weights.manifests.getD r [] = [] then t else t.writeHostMap r) s

/-! ### NV reads (R297) -/

/-- NV_CODEWORD_READ (R297): up to 8 retries count in READ_RETRY; a codeword that still fails retires its page. -/
def nvCodewordReadEffect (k page fails : Nat) (s : State) : State :=
  if fails = 0 then s
  else if fails ≤ 8 then (s.raise E.NVC_READ_RETRY k [page]).bump R.NVC_RETRIES_CODEWORDS 1 k
  else
    let s := (s.raise E.NVC_NV_UNCORR k [page]).bump R.NVC_RETRIES_CODEWORDS 1 k
    if s.nv.holes.contains (k, page) then s
    else
      let s := { s with nv := { s.nv with badPages := s.nv.badPages ++ [(k, page)], holes := s.nv.holes ++ [(k, page)] } }
      ((s.remap (page / 786432) 0).remap (page / 786432) 1).remapHosts

/-- NV_CODEWORD_READ. -/
def execNvCodewordRead (stack : Fin 4) (page failures : Nat) (s : State) : Res :=
  .next (nvCodewordReadEffect stack.val page failures s)

/-! ### Staging (R295, R297, R463, R470) -/

/-- The manifest that a slot holds. -/
def State.nvManifest (s : State) (slot : Nat) : List Byte :=
  s.nvBytes slot 0 (manSig (s.nvBytes slot 0 256) + 96)

/-- The rank that a staging must serve (R295): the current one, or a spare's in its pending role change. -/
def State.rankToStage (s : State) : Option Nat :=
  match s.rank, s.rolePend with
  | some r, _ => some r
  | none, some x => (x.tab.ranks.find? (fun e => e.2 = s.pkgId + 1)).map (·.1)
  | none, none => none

/-- The status of a Stage Epoch before it starts (R295, R310). -/
def State.stageStatus (s : State) (slot : Nat) : Nat :=
  let m := s.nvManifest slot
  if (s.slotRec slot).state < 2 ∨ s.nvShut = true then stBadState
  else if s.weights.staging.isSome ∨ s.weights.fill.isSome ∨ s.swap.isSome then stBusy
  else if s.manStatus m ≠ 0 then stManifestBad
  else if s.rankToStage ≠ some (manRank m) then stRankMismatch
  else 0

/-- What a region's content is written to (R295, R296): seed table, header and staging map, and the staged objects. -/
def State.regionParts (s : State) (region : Nat) (m : List Byte) : List (Nat × Nat) :=
  let base := s.regionBase region
  (base, 0x1000 + 16 * manObjs m) :: ((manObjList m).filter (fun o => o.2.staged)).map (fun o => (base + o.2.dst, o.2.len))

/-- Start a staging into a region (R295, R308). -/
def State.startStaging (s : State) (req : Option Req) (slot region : Nat) : State :=
  let m := s.nvManifest slot
  let s := s.queueMove (jobMove 2 16 false true .staging) (s.regionParts region m)
  let s := (s.noteRegion region none []).showRegion region (manEpoch (s.nvManifest slot)) false
  let s := if region = s.rd R.PROM_EPOCH_REGION then s else s.wr R.PROM_SHADOW_STAGING 1
  { s with weights := { s.weights with staging := some ⟨req, slot, region⟩ } }

/-- STAGE_EPOCH (R295). -/
def stageEpochEffect (r : Req) (s : State) : State :=
  if s.openAs 0x24 r = false ∨ s.weights.staging.any (fun g => g.req = some r) = true then s
  else
    let st := s.stageStatus (r.f 3 0 0)
    let s := if s.nvShut then s.raise E.NVC_NO_WEIGHTS else s
    if st ≠ 0 then s.complete r st r.handle.toNat [manEpoch (s.nvManifest (r.f 3 0 0))] else s.startStaging (some r) (r.f 3 0 0) s.shadow

/-- STAGE_EPOCH. -/
def execStageEpoch (r : Req) (s : State) : Res := .next (stageEpochEffect r s)

/-- Staging at boot (R287, R455, R463, R470): the active slot into region 0, or NO_WEIGHTS. -/
def State.stageAtBoot (s : State) : State :=
  match s.activeSlot with
  | some slot =>
    if s.nvShut ∨ s.boot.failed.any (fun u => u.1 = 0x22) = true ∨ s.manStatus (s.nvManifest slot) ≠ 0 then s.raise E.NVC_NO_WEIGHTS else s.startStaging none slot 0
  | none => s.raise E.NVC_NO_WEIGHTS

/-- The shards that hold a staged object (R295). -/
def stagedShards (m : List Byte) : List Nat :=
  (List.range (manShards m)).filter (fun k => (manObjList m).any (fun (_, o) => o.staged && o.shard = k))

/-- The staged shards that have a failed page, whose data come from the replica holder of their part (R289, R297). -/
def State.lostShards (s : State) (slot : Nat) (m : List Byte) : List Nat :=
  (stagedShards m).filter (fun k => s.inHole slot (manShard m k).addr (manShard m k).len)

/-- The bytes of a shard as a staging reads them: `remote` holds what the replica holders send, in shard order (R297). -/
def State.shardBytes (s : State) (slot : Nat) (m : List Byte) (remote : List (List Byte)) (k : Nat) : List Byte :=
  let lost := s.lostShards slot m
  if lost.contains k then remote.getD (lost.idxOf k) [] else s.nvBytes slot (manShard m k).addr (manShard m k).len

/-- Whether every shard that holds a staged object has its digest (R295). -/
def State.shardsGood (s : State) (slot : Nat) (m : List Byte) (remote : List (List Byte)) : Bool :=
  (stagedShards m).all (fun k =>
    let bs := s.shardBytes slot m remote k
    decide (bs.length = (manShard m k).len) && decide (sha384 bs = (manShard m k).digest))

/-- End a staging: its request completes with EPOCH. -/
def State.endStaging (s : State) (g : Staging) (st epoch : Nat) : State :=
  let s := s.dropJob .staging
  let s := ({ s with weights := { s.weights with staging := none } }).wr R.PROM_SHADOW_STAGING 0
  match g.req with
  | some r => s.complete r st r.handle.toNat [epoch]
  | none => s

/-- Note the rank that the weights of the current region serve (R463). -/
def State.noteServes (s : State) : State :=
  let m := s.weights.manifests.getD (s.rd R.PROM_EPOCH_REGION) []
  if m = [] then s else { s with weights := { s.weights with serves := some (manRank m) } }

/-- A region of a package without a rank, or with a rank that its weights do not serve, becomes its current one: a filled one (R298, R310; log 58), or one staged for a swap
whose boundary passed while it filled (R310; log 172). -/
def State.adoptRegion (s : State) (epoch : Nat) : State :=
  if s.rank.isSome ∧ s.wrongRank = false then s
  else
    let s := if s.weights.owed = some epoch then { s with weights := { s.weights with owed := none } } else s
    ((((s.wr R.PROM_EPOCH_REGION s.shadow).wr R.PROM_EPOCH_EPOCH epoch).wr R.PROM_SHADOW_EPOCH 0).wr
      R.PROM_SHADOW_STAGED 0).noteServes

/-- A staging whose shards all have their digests (R295, R296, R463). -/
def State.staged (s : State) (g : Staging) (remote : List (List Byte)) : State :=
  let m := s.nvManifest g.slot
  let s := s.writeRegion g.region m (fun o => ((s.shardBytes g.slot m remote o.shard).drop o.src).take o.len)
    (fun t i o => t.mapEntry g.slot m g.region i o)
  let s := ((s.noteRegion g.region (some g.slot) m).showRegion g.region (manEpoch m) true).writeHostMap g.region
  let s := if g.req.isNone then ((s.wr R.SEC_STAGED_RANK_RANK (manRank m)).wr R.SEC_STAGED_RANK_VALID 1).noteServes else s
  let s := ((s.raise E.PROM_STAGE_DONE).dropCause 3).endStaging g 0 (manEpoch m)
  if s.weights.owed = some (manEpoch m) then s.adoptRegion (manEpoch m) else s

/-- STAGE_DONE (R295, R297, R308, R463): the engines go on with the staging; once it is all written, with every digest matched the
region is staged, and otherwise the staging has failed. `remote` holds the shards that replica holders send for failed pages. -/
def stageDoneEffect (remote : List (List Byte)) (s : State) : State :=
  match s.weights.staging with
  | none => s
  | some g =>
    let (s, done) := s.runJob .staging
    if done = false then s
    else if s.shardsGood g.slot (s.nvManifest g.slot) remote then s.staged g remote
    else ((s.raise E.PROM_STAGE_FAIL).reportFailed 0x03).endStaging g stStageFail (manEpoch (s.nvManifest g.slot))

/-- STAGE_DONE. -/
def execStageDone (remote : List (List Byte)) (s : State) : Res := .next (stageDoneEffect remote s)

/-! ### Host slots (R266, R290, R370) -/

/-- Key of a host slot. -/
def hostKey (p l h : Nat) : Nat := 8 * (256 * p + l) + h

/-- The manifest whose expert table a host slot is checked against: that of the region staged for the next epoch, else of
the current one. -/
def State.hostManifest (s : State) : List Byte :=
  let sh := s.weights.manifests.getD s.shadow []
  if s.on R.PROM_SHADOW_STAGED ∧ sh ≠ [] then sh else s.weights.manifests.getD (s.rd R.PROM_EPOCH_REGION) []

/-- The HOST objects of an expert in the slot of own NV that a manifest came from. -/
def State.ownExpert (s : State) (m : List Byte) (l e : Nat) : List Byte :=
  match s.slotOf m with
  | some slot => (manHostObjs m l e).flatMap (fun o => s.nvBytes slot ((manShard m o.shard).addr + o.src) o.len)
  | none => []

/-- Whether a HOST object of an expert lies on a failed page of own NV: its replica holder sends the expert instead (R297). -/
def State.expertLost (s : State) (m : List Byte) (l e : Nat) : Bool := (manHostObjs m l e).any (s.objectLost m)

/-- Data that came whole, or nothing. -/
def wholeData (d : HostData) : List Byte := match d with
  | .data b => b
  | _ => []

/-- Whether bytes are an expert's (R290). -/
def expertGood (m : List Byte) (l e : Nat) (bs : List Byte) : Bool :=
  match manExpert m l e with
  | some (len, d) => decide (bs.length = len) && decide (sha384 bs = d)
  | none => false

/-- Split bytes among objects, in order. -/
def splitObjs : List WObj → List Byte → List (WObj × List Byte)
  | [], _ => []
  | o :: r, bs => (o, bs.take o.len) :: splitObjs r (bs.drop o.len)

/-- Put an expert into a host slot (R290, R296; log 53). -/
def State.putExpert (s : State) (p l h e : Nat) (source : Option Nat) (m bs : List Byte) : State :=
  let s := (splitObjs (manHostObjs m l e) bs).foldl (fun t (o, b) =>
    t.devLoad (Config.hostSlotAt (256 * p + l) h + o.dst) b) s
  let s := { s with weights := { s.weights with
    hostSlots := mset none (hostKey p l h) (some ⟨e, source, manEpoch m⟩) s.weights.hostSlots } }
  (List.range 2).foldl (fun t r => if manEpoch (t.weights.manifests.getD r []) = manEpoch m then t.writeHostMap r else t) s

/-- The move of an expert into a host slot waits in Q2, once (R308). -/
def State.askHostSlot (s : State) (m : List Byte) (p l e h : Nat) : State :=
  let job := MoveFor.hostSlot (hostKey p l h)
  if s.moves.any (fun x => decide (x.why = job)) then s
  else s.queueMove (jobMove 2 p false true job) ((manHostObjs m l e).map (fun o =>
    (Config.hostSlotAt (256 * p + l) h + o.dst, o.len)))

/-- STAGE_HOST_SLOT (R308, R370): the engines move the expert in Q2, and the request stays open until all of it is written; its
bytes come from own NV or, as the command's data, from the source rank or the replica holder, whose bad copy fails the role
(R297). -/
def stageHostSlotEffect (r : Req) (d : HostData) (s : State) : State :=
  if s.openAs 0x25 r = false then s
  else
    let m := s.hostManifest
    let p := r.f 3 3 0
    let l := r.f 3 11 4
    let e := r.f 3 21 12
    let h := r.f 3 24 22
    let own := (r.w 3).testBit 37
    let bs := if own && !s.expertLost m l e then s.ownExpert m l e else wholeData d
    if own ∧ s.nvShut = true then s.finish r stBadState
    else
      let job := MoveFor.hostSlot (hostKey p l h)
      let (s, done) := (s.askHostSlot m p l e h).runJob job
      if done = false then s
      else if expertGood m l e bs then
        ((s.dropJob job).putExpert p l h e (if own then none else some (r.f 3 36 25)) m bs).finish r 0
      else
        let s := (s.dropJob job).raise E.PROM_STAGE_FAIL
        (if own && s.expertLost m l e then s.reportFailed 0x03 else s).finish r stStageFail

/-- STAGE_HOST_SLOT. -/
def execStageHostSlot (r : Req) (data : HostData) (s : State) : Res := .next (stageHostSlotEffect r data s)

/-! ### Fills (R298, R299) -/

/-- A host slot that a fill asks for: partition, layer, host slot, source rank. -/
def hostEntry (w : Nat) : Nat × Nat × Nat × Nat := (bits w 3 0, bits w 11 4, bits w 14 12, bits w 26 15)

/-- The expert a fill puts into a host slot, by the rank's placement (R298). -/
def State.fillExpert (s : State) (m : List Byte) (w : Nat) : Option Nat :=
  let (p, l, h, _) := hostEntry w
  s.expertAt p l (manRank m) h

/-- What a fill writes (R298): the region, and the host slots. -/
def State.fillParts (s : State) (m : List Byte) (hosts : List Nat) : List (Nat × Nat) :=
  s.regionParts s.shadow m ++ hosts.flatMap (fun w =>
    let (p, l, h, _) := hostEntry w
    match s.fillExpert m w with
    | some e => (manHostObjs m l e).map (fun o => (Config.hostSlotAt (256 * p + l) h + o.dst, o.len))
    | none => [])

/-- Start a fill into the shadow region (R298, R308): REPLICA_EXPOSED stands until the reinstall ends (R299). -/
def State.startFill (s : State) (req : Option Req) (m src : List Byte) (nhost : Nat) : State :=
  let ranks := (List.range (manShards m)).map (fun i => numAt src (2 * i) 2)
  let hosts := (List.range nhost).map (fun i => numAt src (2 * manShards m + 8 * i) 8)
  let s := s.queueMove (jobMove 2 16 false true .fill) (s.fillParts m hosts)
  let s := ((s.noteRegion s.shadow none []).showRegion s.shadow (manEpoch m) false).wr R.PROM_SHADOW_FILLING 1
  State.raise { s with weights := { s.weights with fill := some ⟨req, m, ranks, hosts, [], []⟩ } } E.PROM_REPLICA_EXPOSED

/-- FILL (R298): `held` says whether every source named answers that it holds what it is named for, a shard with the same digest in
its active slot or the expert in a staged host slot; a source that does not is no source (log 173). -/
def fillEffect (r : Req) (manifest sources : HostData) (held : Bool) (s : State) : State :=
  if s.openAs 0x26 r = false ∨ s.weights.fill.any (fun f => f.req = some r) = true then s
  else
    let s := s.fetch r.grp.val (r.w 3) (r.f 4 31 0)
    match fetched manifest (r.f 4 31 0) with
    | none => (s.aerRead manifest).hostFail r
    | some m =>
      let n := 2 * manShards m + 8 * r.f 6 31 0
      let s := s.fetch r.grp.val (r.w 5) n
      match fetched sources n with
      | none => (s.aerRead sources).hostFail r
      | some src =>
        if s.manStatus m ≠ 0 then s.finish r (s.manStatus m)
        else if s.weights.fill.isSome ∨ s.weights.staging.isSome then s.finish r stBadState
        else if held = false then (s.raise E.PROM_STAGE_FAIL).finish r stStageFail
        else s.startFill (some r) m src (r.f 6 31 0)

/-- FILL. -/
def execFill (r : Req) (manifest sources : HostData) (held : Bool) (s : State) : Res :=
  .next (fillEffect r manifest sources held s)

/-- The shards that a fill asks for, ascending. -/
def Fill.shards (f : Fill) : List Nat := (List.range (manShards f.manifest)).filter (fun i => f.sources.getD i 0xFFFF ≠ 0xFFFF)

/-- How many things a fill asks for: shards, then host slots. -/
def Fill.items (f : Fill) : Nat := f.shards.length + f.hosts.length

/-- What the fill holds of one of them. -/
def Fill.item (f : Fill) (i : Nat) : Option (List Byte) := f.got.lookup i

/-- Whether bytes have the digest of a thing that a fill asks for (R290, R298). -/
def State.itemGood (s : State) (f : Fill) (i : Nat) (b : List Byte) : Bool :=
  let n := f.shards.length
  match f.shards[i]? with
  | some k => decide (b.length = (manShard f.manifest k).len) && decide (sha384 b = (manShard f.manifest k).digest)
  | none => match f.hosts[i - n]? with
    | some w => match s.fillExpert f.manifest w with
      | some e => expertGood f.manifest (bits w 11 4) e b
      | none => false
    | none => true

/-- What a fill still waits for. -/
def Fill.wants (f : Fill) : List Nat := (List.range f.items).filter (fun i => (f.item i).isNone)

/-- Take what has arrived, in the order asked for (R298): each thing with its digest is kept, and the others are asked for again,
once. -/
def State.takeFill (s : State) (f : Fill) (ds : List HostData) : Fill :=
  let came : List (Nat × List Byte) := f.wants.zipIdx.map (fun x => (x.1, wholeData (ds.getD x.2 .failed)))
  let f' := { f with got := f.got ++ came.filter (fun (x : Nat × List Byte) => s.itemGood f x.1 x.2) }
  { f' with again := f'.wants }

/-- The bytes of an object in the shards of a fill. -/
def Fill.bytesOf (f : Fill) (o : WObj) : List Byte :=
  (((f.item (f.shards.idxOf o.shard)).getD []).drop o.src).take o.len

/-- A staging map entry of a fill (R296). -/
def State.fillEntry (s : State) (f : Fill) (region i : Nat) (o : WObj) : List Byte :=
  let q := f.sources.getD o.shard 0xFFFF
  toLE 8 ((if o.staged then s.regionBase region + o.dst else 0) + 2 ^ 48) ++
    toLE 8 (q % 4096 + (Config.sourceIndex q i).toNat * 2 ^ 40)

/-- Fill the host slots (R298). -/
def State.fillHosts (s : State) (f : Fill) : State :=
  f.hosts.zipIdx.foldl (fun t (w, i) =>
    let (p, l, h, src) := hostEntry w
    match t.fillExpert f.manifest w with
    | some e => t.putExpert p l h e (some src) f.manifest ((f.item (f.shards.length + i)).getD [])
    | none => t) s

/-- Tell a takeover's coordinator how the order ended (R434, R435). -/
def State.sendReady (s : State) (ok : Bool) : State :=
  match s.health.kit with
  | some k =>
    if k.ended then s
    else
      let s := { s with health := { s.health with kit := some { k with ended := true } } }
      s.tkWrite k.coord (0x40040 + 64 * s.pkgId) ([k.rank + b2n ok * 2 ^ 12, k.gen, 0, 0, 0, 0, 0, 0].flatMap (toLE 8))
  | none => s

/-- The ready record is written once the fill is done and the image verified (R435). -/
def State.tryReady (s : State) : State :=
  match s.health.kit with
  | some k => if k.filled ∧ k.image then s.sendReady true else s
  | none => s

/-- The fill of a takeover is done. -/
def State.kitFilled (s : State) : State :=
  match s.health.kit with
  | some k => State.tryReady { s with health := { s.health with kit := some { k with filled := true } } }
  | none => s

/-- End a fill with a status, for its request or for its takeover. -/
def State.endFill (s : State) (f : Fill) (st : Nat) : State :=
  let s := s.dropJob .fill
  let s := ({ s with weights := { s.weights with fill := none } }).wr R.PROM_SHADOW_FILLING 0
  match f.req with
  | some r => s.finish r st
  | none => if st = 0 then s.kitFilled else s.sendReady false

/-- The reinstall of the weights at rest (R299): into the slot that is not active; reference shards only if the fill asked for
them. It waits for an Install that runs, and is refused as WORN (R294); the other checks of R292 answer a request (log 174). -/
def State.reinstall (s : State) (f : Fill) : State :=
  let skip := (List.range (manShards f.manifest)).filter (fun i =>
    decide ((manShard f.manifest i).kind = 4) && f.sources.getD i 0xFFFF = 0xFFFF)
  State.nextInstall { s with weights := { s.weights with redo := some (f.manifest, skip) } }

/-- Every digest of a fill matched (R298). -/
def State.fillDone (s : State) (f : Fill) : State :=
  let region := s.shadow
  let s := s.writeRegion region f.manifest f.bytesOf (fun t i o => t.fillEntry f region i o)
  let s := (((s.noteRegion region none f.manifest).showRegion region (manEpoch f.manifest) true).writeHostMap region).fillHosts f
  let s := ((s.raise E.PROM_FILL_DONE).dropCause 3).adoptRegion (manEpoch f.manifest)
  (s.endFill f 0).reinstall f

/-- FILL_DONE (R298, R308): what has arrived is taken; what failed its digest is asked for once more, and then the fill has
failed. With every digest matched and everything written, the fill is done. -/
def fillDoneEffect (ds : List HostData) (s : State) : State :=
  match s.weights.fill with
  | none => s
  | some f =>
    let (s, done) := s.runJob .fill
    let f' := s.takeFill f ds
    let s := { s with weights := { s.weights with fill := some f' } }
    if f'.wants = [] then (if done then s.fillDone f' else s)
    else if f.again.any (f'.wants.contains ·) then ((s.raise E.PROM_STAGE_FAIL).reportFailed 0x03).endFill f' stStageFail
    else s

/-- FILL_DONE. -/
def execFillDone (shards : List HostData) (s : State) : Res := .next (fillDoneEffect shards s)

/-! ### Epoch swaps (R301 to R303) -/

/-- Whether the plan of a bar has begun, or the bar itself (R301). -/
def State.swapLate (s : State) (bar : Nat) : Bool := decide (bar + 1 ≤ s.caller.planned) || s.barBegun bar

/-- Hold a swap (R301). -/
def State.holdSwap (s : State) (w : Swap) : State := ({ s with swap := some w }).wr R.PROM_SWITCH_SWITCH_BAR w.bar

/-- SWAP_EPOCH (R301). -/
def swapEpochEffect (r : Req) (s : State) : State :=
  let w : Swap := ⟨r.f 3 31 0, r.w 4, (r.w 5).testBit 0, r⟩
  if s.openAs 0x27 r = false ∨ s.swap.any (fun x => x.req = r) = true then s
  else if s.swapLate w.bar then
    ((({ s with weights := { s.weights with missed := some w.bar } }).raise E.PROM_SWAP_LATE).finish r stLate)
  else match s.swap with
    | none => s.holdSwap w
    | some x => if x.epoch < w.epoch then (s.holdSwap w).finish x.req stSuperseded else s.finish r stSuperseded

/-- SWAP_EPOCH. -/
def execSwapEpoch (r : Req) (s : State) : Res := .next (swapEpochEffect r s)

/-- The package cannot take a swap (R303): it stops. -/
def State.epochNotReady (s : State) : State := ({ s with notReady := true }).raise E.PROM_EPOCH_NOT_READY

/-- The shadow becomes current (R302); firmware commits the new epoch's slot ACTIVE. -/
def State.switchRegions (s : State) (w : Swap) : State :=
  let new := s.shadow
  let old := s.rd R.PROM_EPOCH_EPOCH
  let slot := s.weights.staged.getD new none
  let s := { s with weights := { s.weights with staged := s.weights.staged.set (1 - new) none } }
  let s := (s.wr R.PROM_EPOCH_REGION new).wr R.PROM_EPOCH_EPOCH w.epoch
  let s := (s.wr R.PROM_SHADOW_EPOCH old).wr R.PROM_SHADOW_STAGED 0
  let s := match slot with
    | some k => s.commitRec k { s.slotRec k with state := 3 }
    | none => s
  ((s.noteServes.mgmtAll 0x0006 [w.epoch, w.bar]).measure).finish w.req 0

/-- A package that takes a rank without the epoch that a swap passed it by with (R310) cannot serve. -/
def State.checkOwed (s : State) : State :=
  if s.rank.isSome ∧ s.weights.owed.any (· ≠ s.rd R.PROM_EPOCH_EPOCH) = true then s.epochNotReady else s

/-- The boundary at which a bar starts takes the swap due at it (R302, R303); a spare without a rank that still fills stages the
new epoch next (R310). -/
def State.swapAt (s : State) (bar : Nat) : State :=
  let s := match s.weights.missed with
    | some b => if b ≤ bar then State.epochNotReady { s with weights := { s.weights with missed := none } } else s
    | none => s
  match s.swap with
  | none => s
  | some w =>
    if w.bar ≠ bar then s
    else
      let s := ({ s with swap := none }).wr R.PROM_SWITCH_SWITCH_BAR (2 ^ 64 - 1)
      if s.on R.PROM_SHADOW_STAGED ∧ s.rd R.PROM_SHADOW_EPOCH = w.epoch then s.switchRegions w
      else if s.rank.isNone ∧ s.weights.fill.isSome then
        (({ s with weights := { s.weights with owed := some w.epoch } }).finish w.req stNotReady)
      else s.epochNotReady.finish w.req stNotReady

/-! ### Promenade moves (R307, R308) -/

/-- The Shadow cell of a sample opens once every tile of it is staged, unless its bar has started (R157). -/
def State.openSample (s : State) (p l bar k g : Nat) : State :=
  if s.moves.any (fun m => decide (m.why = .sample p l bar k g)) ∨ bar ≤ s.bar then s
  else
    let e := s.fmtEntry p l
    let a := s.shadowCell p l k (bar % 2)
    ((s.coreCell a (s.devNat (a + 4) 4)).putBits (e + 48) 15 0 k).putBits (e + 48) 31 16 g

/-- What the completion of a move brings (R157, R240, R307): an arrival in the current bar, an open Shadow cell, or a frame's
rewrite. -/
def State.afterPromenade (s : State) (m : Move) : State :=
  match m.why with
  | .prefetch (some (arr, set)) => s.arrive set arr
  | .sample p l bar k g => s.openSample p l bar k g
  | .quarantine p f => s.rewriteFrame p f
  | _ => s

/-- Whether no other command ends a move. -/
def Move.endsHere (m : Move) : Bool :=
  match m.why with
  | .pause _ | .resume _ | .staging | .fill | .hostSlot _ => false
  | _ => true

/-- Complete the first move that is written and that no other command ends. -/
def State.endMoves (s : State) : State :=
  match s.moves.findIdx? (fun m => m.endsHere && m.written) with
  | none => s
  | some i => match s.moves[i]? with
    | none => s
    | some m => State.afterPromenade { s with moves := s.moves.eraseIdx i } m

/-- PROMENADE_MOVE_COMPLETE (R307, R308): the engine of a die writes its part of the move it works on, as far as the bar's
allowance goes; a move whose parts are all written completes. -/
def promenadeMoveCompleteEffect (die : Nat) (s : State) : State :=
  (match s.frontOf die with
    | none => s
    | some i => s.turn die i).endMoves

/-- PROMENADE_MOVE_COMPLETE. -/
def execPromenadeMoveComplete (die : Fin 4) (s : State) : Res := .next (promenadeMoveCompleteEffect die.val s)

/-- The end of a bar: USED reports what each engine moved in it (R308, R312). -/
def State.closeUsed (s : State) : State :=
  let s := (List.range 4).foldl (fun t k => t.wr R.PROM_ALLOW_USED (t.weights.used.getD k 0 / 1000000) k) s
  { s with weights := { s.weights with used := [0, 0, 0, 0] } }

/-! ### The prefetch schedule (R309) -/

/-- The move of an entry of a prefetch schedule (R307, R309). -/
def State.prefMove (s : State) (a : Nat) : Move :=
  let w0 := s.devWord a
  let w3 := s.devWord (a + 24)
  { queue := 0, kind := bits w0 3 0, part := bits w0 7 4, slot := bits w0 8 8, src := bits (s.devWord (a + 8)) 47 0
    dst := bits (s.devWord (a + 16)) 47 0, len := bits w3 39 0, count := bits w0 63 32, todo := [0, 0, 0, 0]
    why := .prefetch (if w0.testBit 9 then some (bits w3 44 40, bits w3 50 45) else none) }

/-- PREFETCH_ISSUE (R309): the next entry of the partition's active timed image goes into Q0 once its POS is reached. -/
def prefetchIssueEffect (p : Nat) (s : State) : State :=
  match s.timedFigs.find? (fun im => decide (im.part = p) && decide (im.nextPf < im.npf)) with
  | none => s
  | some im =>
    let a := im.pref + 32 + 32 * im.nextPf
    if s.tempo.barOn ∧ s.notReady = false ∧ s.on R.HEALTH_STATUS_FAILED = false ∧ s.reached (bits (s.devWord a) 63 38) = true then
      let m := s.prefMove a
      (s.queueMove m [(m.dst, m.size)]).setFig { im with nextPf := im.nextPf + 1 }
    else s

/-- PREFETCH_ISSUE. -/
def execPrefetchIssue (part : PartId) (s : State) : Res := .next (prefetchIssueEffect part.val s)

end Sys2Proof.Machine
end

