-- ==== Sys2Proof/Machine/Tempo.lean ====
section
/-! DEFINITION. Tempo: the beat inputs, lock, count, loss, holdover and selection (R46 to R57, R67). -/

namespace Sys2Proof.Machine

/-! ### One input -/

/-- The symbol of a beat: `none` invalid, `some none` the marker, `some (some b)` a bit (R46). -/
def beatSymbol (high : Nat) : Option (Option Bool) :=
  if 150 ≤ high ∧ high ≤ 350 then some (some false)
  else if 400 ≤ high ∧ high ≤ 600 then some none
  else if 650 ≤ high ∧ high ≤ 850 then some (some true)
  else none

/-- Whether the 62 beats after the marker hold a count that is a multiple of 64 and its CRC-8, and beat 63 is the 0 that the
layout gives it (R47). That a 1 on beat 63, a count of another multiple, or a beat without a bit makes the frame bad as a
failed CRC does is the model's choice (DESIGN CHOICE, log 14). -/
def frameGood (bs : List (Option Bool)) (last : Option Bool) : Bool :=
  let b := bs.map (·.getD false)
  last = some false && bs.all (·.isSome) && decide (ofMsb (b.drop 54) = crc8 (b.take 54)) && decide (ofMsb (b.take 54) % 64 = 0)

/-- A frame after one more beat: the frame in progress, whether a bad frame ended, and the count of a good frame that ended
(R47). A beat with an invalid symbol or no edge has no bit; the frame goes on to its beat 63. -/
def frameStep (fr : Option (List (Option Bool))) (sym : Option (Option Bool)) :
    Option (List (Option Bool)) × Bool × Option Nat :=
  match sym, fr with
  | some none, none => (some [], false, none)
  | some none, some _ => (some [], true, none)
  | _, none => (none, false, none)
  | _, some bs =>
    let b := sym.getD none
    if bs.length < 62 then (some (bs ++ [b]), false, none)
    else if frameGood bs b then (none, false, some (ofMsb ((bs.map (·.getD false)).take 54))) else (none, true, none)

/-- Whether an edge's timing is good: against the prediction once locked, else against the previous edge (R50).
The first edge of an input has no previous edge and is taken as in place (log 15). -/
def edgeTimely (locked : Bool) (x : TempoIn) (e : Edge) : Bool :=
  if locked then decide (e.off.natAbs ≤ 16) else !x.started || decide (e.ppm.natAbs ≤ 1000)

/-- Whether an edge lies outside 0.1 % of the programmed period after the previous one (R50). -/
def edgeOffPeriod (x : TempoIn) (e : Edge) : Bool := x.started && decide (1000 < e.ppm.natAbs)

/-- The record of an input. -/
def Tempo.inp (t : Tempo) (b : Bool) : TempoIn := if b then t.inB else t.inA

/-- Replace the record of an input. -/
def Tempo.setInp (t : Tempo) (b : Bool) (x : TempoIn) : Tempo := if b then { t with inB := x } else { t with inA := x }

/-- The qualified bit of an input (R67). -/
def qualFld (b : Bool) : Fld := if b then R.TEMPO_STATUS_B_QUAL else R.TEMPO_STATUS_A_QUAL

/-- The lost flag of an input (R53). -/
def lostFlag (b : Bool) : EvFlag := if b then E.TEMPO_B_LOST else E.TEMPO_A_LOST

/-- SEL's code of an input (R67). -/
def selCode (b : Bool) : Nat := if b then 2 else 1

/-- Whether an input is qualified. -/
def State.qual (s : State) (b : Bool) : Bool := s.on (qualFld b)

/-- A bad beat or a count fault of an input (R50, R52, R53): its count starts again; a qualified input is lost. -/
def State.badBeat (s : State) (b : Bool) : State :=
  let x := s.tempo.inp b
  let s := { s with tempo := s.tempo.setInp b { x with good := 0, fresh := false } }
  if s.qual b then
    let s := (s.wr (qualFld b) 0).raise (lostFlag b)
    if s.rd R.TEMPO_STATUS_SEL = selCode b then { s with tempo := { s.tempo with lost := true } } else s
  else s

/-- Select an input and lock on it, before any selection (R51). Where the other one was selected first in this same beat, PREF
decides between them, and the count that the other one has just loaded is dropped for this one's own. -/
def State.firstSelect (s : State) (b : Bool) : State :=
  let sel := s.rd R.TEMPO_STATUS_SEL
  let pref : Bool := s.on R.TEMPO_CTL_PREF
  let picked := fun (t : State) => { t with tempo := { t.tempo with picked := true } }
  if sel = 0 then picked ((s.wr R.TEMPO_STATUS_SEL (selCode b)).wr R.TEMPO_STATUS_LOCKED 1)
  else if sel = selCode (!b) ∧ s.tempo.picked = true ∧ (s.tempo.inp (!b)).fresh = true ∧ pref = b ∧ s.tempo.lost = false then
    (s.wr R.TEMPO_STATUS_SEL (selCode b)).wr R.TEMPO_STATUS_COUNT_VALID 0
  else s

/-- A good beat of an input: its eighth in a row qualifies it (R50). -/
def State.goodBeat (s : State) (b : Bool) : State :=
  let x := s.tempo.inp b
  let n := min 8 (x.good + 1)
  let s := { s with tempo := s.tempo.setInp b { x with good := n } }
  if n = 8 ∧ s.qual b = false then
    let x := s.tempo.inp b
    let s := { s with tempo := s.tempo.setInp b { x with fresh := true } }
    (s.wr (qualFld b) 1).firstSelect b
  else s

/-- A good frame of an input ends with its beat count (R52): the first on the selected input loads the count; every
later one on a qualified input is checked, and a difference is a count fault. -/
def State.frameEnd (s : State) (b : Bool) (count : Nat) : State :=
  if s.on R.TEMPO_STATUS_COUNT_VALID then
    if s.qual b ∧ (count + 63) % 2 ^ 54 ≠ s.tempo.now / 1024 % 2 ^ 54 then (s.raise E.TEMPO_COUNT_FAULT).badBeat b
    else s
  else if s.rd R.TEMPO_STATUS_SEL = selCode b then
    let s := s.wr R.TEMPO_STATUS_COUNT_VALID 1
    s.setNow ((count + 63) % 2 ^ 54 * 1024 + s.tempo.now % 1024)
  else s

/-- AB_SKEW: edge of B minus edge of A when both inputs are qualified and both edges of the beat are in (R67). That it keeps
its last value while they are not both qualified is the model's choice (DESIGN CHOICE, log 158). -/
def State.skew (s : State) : State :=
  if s.qual false ∧ s.qual true ∧ s.tempo.inA.seen ∧ s.tempo.inB.seen then
    s.wr R.TEMPO_STATUS_AB_SKEW (unsigned 8 (s.tempo.inB.off - s.tempo.inA.off))
  else s

/-- Eight consecutive edges outside the period raise PERIOD_FAULT, once for each run of eight (R50). -/
def State.periodCheck (s : State) (b : Bool) (e : Edge) : State :=
  let x := s.tempo.inp b
  let run := if edgeOffPeriod x e then x.offRun + 1 else 0
  if run = 8 then
    ({ s with tempo := s.tempo.setInp b { x with offRun := 0 } }).raise E.TEMPO_PERIOD_FAULT
  else { s with tempo := s.tempo.setInp b { x with offRun := run } }

/-- TEMPO_BEAT (R46, R47, R50 to R54): an edge with its pulse, judged. -/
def tempoBeatEffect (b : Bool) (e : Edge) (s : State) : State :=
  if s.on R.TEMPO_CTL_EN then
    let timely := edgeTimely (s.on R.TEMPO_STATUS_LOCKED) (s.tempo.inp b) e
    let s := s.periodCheck b e
    let x := s.tempo.inp b
    let sym := beatSymbol e.high
    let (fr, bad, done) := frameStep x.frame sym
    let s := { s with tempo := s.tempo.setInp b { x with started := true, seen := true, off := e.off, frame := fr } }
    let s := if timely && sym.isSome && !bad then s.goodBeat b else s.badBeat b
    let s := match done with
      | some c => s.frameEnd b c
      | none => s
    s.skew
  else s

/-- TEMPO_BEAT. -/
def execTempoBeat (b : Bool) (e : Edge) (s : State) : Res := .next (tempoBeatEffect b e s)

/-! ### Enable, disable, swap -/

/-- The registers that clearing EN puts back to reset (R67). -/
def tempoCleared : List Fld :=
  [R.TEMPO_STATUS_SEL, R.TEMPO_STATUS_LOCKED, R.TEMPO_STATUS_COUNT_VALID, R.TEMPO_STATUS_A_QUAL,
   R.TEMPO_STATUS_B_QUAL, R.TEMPO_STATUS_EXPIRED, R.TEMPO_STATUS_HOLD_BEATS, R.TEMPO_STATUS_AB_SKEW,
   R.TEMPO_BAR_NUM_BAR, R.TEMPO_BAR_START_START, R.TEMPO_OVR_LAST_BEATS, R.TEMPO_OVR_LAST_LATE_PKG,
   R.TEMPO_OVR_BAR_BAR, R.TEMPO_BAR_MISS_LOW_PKG, R.TEMPO_BAR_MISS_COUNT]

/-- Tempo from the beginning (R67): GUARD and TMO in effect stay, and the array's cycles run on. -/
def State.freshTempo (s : State) : State :=
  { s with
    tempo := { Tempo.init with guardEff := s.tempo.guardEff, tmoEff := s.tempo.tmoEff, cycles := s.cyclesFrom 0 } }

/-- TEMPO_ENABLE (R51, R67): EN goes from 0 to 1 and acquisition starts from the beginning. -/
def tempoEnableEffect (s : State) : State :=
  if s.on R.TEMPO_CTL_EN then s else (s.wr R.TEMPO_CTL_EN 1).freshTempo

/-- TEMPO_ENABLE. -/
def execTempoEnable (s : State) : Res := .next (tempoEnableEffect s)

/-- TEMPO_DISABLE (R67): Tempo stops; status, time and bar registers return to reset; GUARD, TMO, BAR_LEN, flags and
counters stay. -/
def tempoDisableEffect (s : State) : State :=
  ((s.wr R.TEMPO_CTL_EN 0).clearFields tempoCleared).freshTempo

/-- TEMPO_DISABLE. -/
def execTempoDisable (s : State) : Res := .next (tempoDisableEffect s)

/-- The input that is not selected. -/
def otherInp (sel : Nat) : Bool := decide (sel = 1)

/-- SWAP (R54, R57, R67): while both inputs are qualified, the other input is selected at the next boundary; a write
in the beat of a loss has no effect. -/
def swapEffect (s : State) : State :=
  let sel := s.rd R.TEMPO_STATUS_SEL
  if s.on R.TEMPO_CTL_EN ∧ (sel = 1 ∨ sel = 2) ∧ s.qual false ∧ s.qual true ∧ s.tempo.lost = false then
    { s with tempo := { s.tempo with swap := true } }
  else s

/-- SWAP. -/
def execSwap (s : State) : Res := .next (swapEffect s)

/-! ### The beat boundary -/

/-- An input that has given no edge by tick 900 of a beat delivers a bad beat: a beat of its frame without a bit (R47, R50,
R53). -/
def State.judgeMissing (s : State) (b : Bool) : State :=
  let x := s.tempo.inp b
  if x.seen then s
  else ({ s with tempo := s.tempo.setInp b { x with frame := (frameStep x.frame none).1 } }).badBeat b

/-- The input that holdover gives way to at a boundary, if any is qualified (R57). -/
def State.returning (s : State) : Option Bool :=
  match s.qual false, s.qual true with
  | true, true => some (s.on R.TEMPO_CTL_PREF)
  | true, false => some false
  | false, true => some true
  | false, false => none

/-- Selection at a boundary: failover, holdover, swap, return from holdover (R53 to R57). HOLD_BEATS counts the holdover
beat that ends here. That LOCKED stays 1 in holdover and after its expiry is the model's choice (DESIGN CHOICE, log 192). -/
def State.reselect (s : State) : State :=
  let sel := s.rd R.TEMPO_STATUS_SEL
  if s.tempo.lost then
    if s.qual (otherInp sel) then
      (s.wr R.TEMPO_STATUS_SEL (selCode (otherInp sel))).raise E.TEMPO_FAILOVER
    else ((s.wr R.TEMPO_STATUS_SEL 3).wr R.TEMPO_STATUS_HOLD_BEATS 0).raise E.TEMPO_HOLDOVER
  else if sel = 3 then
    if s.on R.TEMPO_STATUS_EXPIRED then s
    else
      let s := s.wr R.TEMPO_STATUS_HOLD_BEATS (min 256 (s.rd R.TEMPO_STATUS_HOLD_BEATS + 1))
      match s.returning with
      | some b => s.wr R.TEMPO_STATUS_SEL (selCode b)
      | none => s
  else if s.tempo.swap ∧ s.qual (otherInp sel) then s.wr R.TEMPO_STATUS_SEL (selCode (otherInp sel))
  else s

/-- The new beat begins at tick 0 (R51). -/
def Tempo.nextBeat (t : Tempo) : Tempo :=
  { t with
    now := (t.now / 1024 + 1) * 1024, lost := false, swap := false, picked := false,
    inA := { t.inA with seen := false, fresh := false }, inB := { t.inB with seen := false, fresh := false } }

/-- Tempo's own part of BEAT_BOUNDARY (R50 to R57): only a locked loop has boundaries. -/
def State.tempoBoundary (s : State) : State :=
  let s := s.reselect
  { s with tempo := s.tempo.nextBeat }

/-- One idle tick: the stamp advances within its beat (R51), and tick 900 of a locked loop's beat finds a missing edge (R53);
tick 1,023 waits for BEAT_BOUNDARY. -/
def State.idleTick (s : State) : State :=
  if s.on R.TEMPO_CTL_EN ∧ s.tempo.now % 1024 < 1023 then
    let s := { s with tempo := { s.tempo with now := s.tempo.now + 1 } }
    if s.on R.TEMPO_STATUS_LOCKED ∧ s.tempo.now % 1024 = 900 then (s.judgeMissing false).judgeMissing true else s
  else s

end Sys2Proof.Machine
end

