-- ==== Sys2Proof/Machine/Boot.lean ====
section
/-! DEFINITION. Package resets, the boot stages, and the firmware bundle (R17, R41, R397, R425, R451 to R463, R486). -/

namespace Sys2Proof.Machine

/-! ### Package reset (R397, R425, R457) -/

/-- Bit mask of the owner slots or firmware keys that pass a test. -/
def flagMask {α : Type} (l : List α) (f : α → Bool) : Nat := sumOf (l.zipIdx.map (fun (x, i) => b2n (f x) * 2 ^ i))

/-- Whether an owner slot is spoiled (R453). -/
def OwnerSlot.spoiled (o : OwnerSlot) : Bool := o.hash.isSome && !o.valid

/-- Show the fuses, as sensed, in the SEC registers (R452, R473). -/
def State.senseFuses (s : State) : State :=
  let f := s.fuses.read
  let s := (s.wr R.SEC_STATUS_LIFECYCLE f.lifecycle).wr R.SEC_STATUS_DEBUG_DISABLED (b2n f.noDebug)
  let s := (s.wr R.SEC_SVN_FUSED f.svn).wr R.SEC_OWNER_VALID (flagMask f.owners (·.valid))
  let s := (s.wr R.SEC_OWNER_REVOKED (flagMask f.owners (·.revoked))).wr R.SEC_OWNER_SPOILED
    (flagMask f.owners OwnerSlot.spoiled)
  let s := s.wr R.SEC_OWNER_FW_REVOKED (flagMask f.fwKeys (·.2))
  (s.wr R.SEC_UID_LO_UID f.uid).wr R.SEC_UID_HI_UID (f.uid / 2 ^ 64)

/-- Show the debug latch, which takes effect at a package reset (R470). -/
def State.showLatch (s : State) : State :=
  (s.wr R.SEC_STATUS_DEBUG (b2n s.boot.latch.isSome)).wr R.SEC_STATUS_DEBUG_KIND (b2n (s.boot.latch = some true))

/-- A package reset (R397, R425, R457): everything volatile is lost; NV contents, fuses and the count of nonces stay, the
debug latch and THERM_TRIP_N stay while the rails are up, and a sag that is signalled still is (R486). -/
def State.packageReset (s : State) (perst railsUp : Bool) : State :=
  let b : Boot := { Boot.init with
    perst := perst
    nonces := s.boot.nonces
    latch := if railsUp then s.boot.latch else none
    trip := railsUp && s.boot.trip }
  let t : State := { State.reset with
    pending := s.pending
    nv := s.nv
    fuses := s.fuses
    boot := b
    nvLog := s.nvLog
    out := s.out }
  let t := ((s.fuses.weights.take 8).zipIdx.foldl (fun (t : State) (w, n) => t.wr R.PWR_WEIGHT_WEIGHT w 0 n) t).senseFuses.showLatch
  if railsUp then t.wr R.PWR_STATUS_SAG (s.rd R.PWR_STATUS_SAG) else t

/-- PERST_ASSERT (R457): a package reset, held until PERST_N deasserts. -/
def perstAssertEffect (s : State) : State := s.packageReset true true

/-- PERST_ASSERT. -/
def execPerstAssert (s : State) : Res := .next (perstAssertEffect s)

/-- POWER_LOSS (R425): the main rails are gone, and with them all but NV contents and fuses. -/
def powerLossEffect (s : State) : State := s.packageReset true false

/-- POWER_LOSS. -/
def execPowerLoss (s : State) : Res := .next (powerLossEffect s)

/-! ### Stages (R454 to R456) -/

/-- Send Boot Status (R454): STAGE, BOOT_FAIL, and whether boot waits for flow (R486). -/
def State.sendBoot (s : State) : State :=
  s.emit (.i3c 0x20 true (toLE 4 (s.rd R.SEC_STATUS_STAGE + s.rd R.SEC_STATUS_BOOT_FAIL * 2 ^ 4 +
    b2n s.boot.waitFlow * 2 ^ 5)))

/-- Enter a stage. -/
def State.toStage (s : State) (n : Nat) : State := (s.wr R.SEC_STATUS_STAGE n).sendBoot

/-- Ask the tray for the piece of the bundle at an offset (R454). -/
def State.askChunk (s : State) (off : Nat) : State :=
  s.emit (.i3c 0x02 true (toLE 4 off ++ toLE 2 (Config.chunkLen off).toNat))

/-- Enter stage FETCH (R455). -/
def State.startFetch (s : State) : State :=
  (({ s with boot := { s.boot with sram := [] } }).toStage 2).askChunk 0

/-- A failure at stages 0 to 3 (R456): FETCH and VERIFY are retried once, then the boot has failed. -/
def State.bootFailed (s : State) : State :=
  if s.boot.retried then (s.wr R.SEC_STATUS_BOOT_FAIL 1).toStage 15
  else State.startFetch { s with boot := { s.boot with retried := true } }

/-- Start a boot at stage ROM (R455, R470, R486): a sag that is signalled applies from then. -/
def State.startBoot (s : State) : State :=
  let s := s.toStage 0
  let s := if s.on R.PWR_STATUS_SAG then s.startSag else s
  if s.on R.SEC_STATUS_DEBUG then s.raise E.SEC_DEBUG_ACTIVE else s

/-- PERST_DEASSERT (R455, R469, R481, R486): POS is sampled and the boot starts; it holds at stage ROM without flow; board scan
ends, for it never meets running logic. -/
def perstDeassertEffect (pos : Nat) (railsGood flowLow : Bool) (s : State) : State :=
  if s.boot.perst then
    let scan := [TapInstr.extest, .clamp, .highz].contains s.boot.tap
    let b := { s.boot with
      perst := false, waitRails := !railsGood, waitFlow := !flowLow, tap := if scan then .bypass else s.boot.tap }
    (((({ s with boot := b }).wr R.SEC_PKG_POS pos).wr R.PWR_STATUS_FLOW_OK (b2n flowLow))).startBoot
  else s

/-- PERST_DEASSERT. -/
def execPerstDeassert (pos : BitVec 6) (railsGood flowLow : Bool) (s : State) : Res :=
  .next (perstDeassertEffect pos.toNat railsGood flowLow s)

/-- Firmware's own package reset (R457): Boot Status with BOOT_FAIL first; POS stays as it was sampled. -/
def State.firmwareReset (s : State) : State :=
  let pos := s.rd R.SEC_PKG_POS
  let flow := s.rd R.PWR_STATUS_FLOW_OK
  let s := (s.wr R.SEC_STATUS_BOOT_FAIL 1).sendBoot
  let t := ((s.packageReset false true).wr R.SEC_PKG_POS pos).wr R.PWR_STATUS_FLOW_OK flow
  t.startBoot

/-- Whether every control core of X0 has had three resets within 4,096 beats: firmware then resets the package (R441, R457). -/
def State.coresLost (s : State) : Bool :=
  (List.range 4).all (fun k => decide (3 ≤ (s.health.resets.filter (fun e => e.1 = k)).length))

/-- A core was reset: with every core of X0 lost, firmware resets the package (R457). -/
def State.afterCore (s : State) : State := if s.coresLost then s.firmwareReset else s

/-- RAIL_FAULT (R486): a package reset, sent first as Boot Status with BOOT_FAIL. -/
def railFaultEffect (s : State) : State := if s.boot.perst then s else s.firmwareReset

/-- RAIL_FAULT. -/
def execRailFault (s : State) : Res := .next (railFaultEffect s)

/-- COOLANT_FLOW_RESTORED (R420, R486): flow has been back for 1 s. -/
def coolantFlowRestoredEffect (s : State) : State :=
  ({ s with boot := { s.boot with waitFlow := false }, power := { s.power with flowBack := true } }).wr
    R.PWR_STATUS_FLOW_OK 1

/-- COOLANT_FLOW_RESTORED. -/
def execCoolantFlowRestored (s : State) : Res := .next (coolantFlowRestoredEffect s)

/-! ### The bundle (R454, R458, R459) -/

/-- Bytes of boot SRAM. -/
def State.bootBytes (s : State) (o n : Nat) : List Byte := mgetList 0 s.boot.sram o n
/-- A little-endian number in boot SRAM. -/
def State.bootNum (s : State) (o n : Nat) : Nat := ofLE (s.bootBytes o n)

/-- LEN of the bundle. -/
def State.bundleLen (s : State) : Nat := s.bootNum 20 4

/-- FIRMWARE_CHUNK (R454): the piece goes to boot SRAM, and the next one is asked for until the bundle is whole. -/
def firmwareChunkEffect (off : Nat) (bs : List Byte) (s : State) : State :=
  if s.boot.perst = false ∧ s.rd R.SEC_STATUS_STAGE = 2 then
    let s := { s with boot := { s.boot with sram := msetList 0 off bs s.boot.sram } }
    if off + bs.length < s.bundleLen ∧ bs ≠ [] then s.askChunk (off + bs.length) else s
  else s

/-- FIRMWARE_CHUNK. -/
def execFirmwareChunk (off : Nat) (bytes : List Byte) (s : State) : Res := .next (firmwareChunkEffect off bytes s)

/-- Whether the bundle passes R459; an SVN beyond the 64 of R458 is none. -/
def State.bundleGood (s : State) : Bool :=
  let n := s.bundleLen
  let sig := s.bootNum 28 4
  let key := s.bootBytes (s.bootNum 24 4) 97
  let slot := b2n ((s.bootNum 8 8).testBit 40)
  let comps := s.bootNum 16 1
  decide (s.bootNum 0 4 = 0x57464853) && decide (s.bootNum 4 1 = 1) && decide (n ≤ 2 ^ 25) &&
  decide (1 ≤ comps) && decide (comps ≤ 32) &&
  (match s.fuses.read.fwKeys[slot]? with
    | some (h, revoked) => decide (h = sha384 key) && !revoked
    | none => false) &&
  ecdsaOk key (s.bootBytes 0 sig) (s.bootBytes sig 96) &&
  (List.range comps).all (fun i =>
    let o := 256 + 64 * i
    decide (sha384 (s.bootBytes (s.bootNum (o + 4) 4) (s.bootNum (o + 8) 4)) = s.bootBytes (o + 16) 48)) &&
  decide (s.fuses.read.svn ≤ bits (s.bootNum 8 8) 38 32) && decide (bits (s.bootNum 8 8) 38 32 ≤ 64)

/-- Take the bundle as the running one. -/
def State.runBundle (s : State) : State :=
  let w1 := s.bootNum 8 8
  let s := (s.wr R.SEC_SVN_IMAGE (bits w1 38 32)).wr R.SEC_SVN_VERSION (bits w1 31 0)
  { s with boot := { s.boot with keySlot := b2n (w1.testBit 40), revokeOther := w1.testBit 41 } }

/-- The dies that run the component of a unit class: those on which the class stands (R40, R458). -/
def classDies (cls : Nat) : List Nat :=
  if cls = 0x01 then List.range 10
  else if cls = 0x10 ∨ cls = 0x11 ∨ cls = 0x12 then List.range 4
  else if cls = 0x13 ∨ (0x20 ≤ cls ∧ cls ≤ 0x24) then [4, 5, 6, 7]
  else if cls = 0x42 then [8]
  else [8, 9]

/-- The entries of the component table whose components a die receives (R458). -/
def State.dieComps (s : State) (die : Nat) : List Nat :=
  ((List.range (s.bootNum 16 1)).map (fun i => 256 + 64 * i)).filter (fun o => (classDies (s.bootNum o 2)).contains die)

/-- Stage DIES (R460): the measurement register of every die holds the SHA-384 of each component that it received. -/
def State.measureDies (s : State) : State :=
  { s with boot := { s.boot with measured := (List.range 10).map (fun d =>
    (s.dieComps d).flatMap (fun o => sha384 (s.bootBytes (s.bootNum (o + 4) 4) (s.bootNum (o + 8) 4)))) } }

/-- Whether a die's measurement register is as the component table has it (R460). -/
def State.dieMatches (s : State) (die : Nat) : Bool :=
  s.boot.measured.getD die [] = (s.dieComps die).flatMap (fun o => s.bootBytes (o + 16) 48)

/-- X0 compares the measurement register of a die with the table (R456, R460): a mismatch fails the die. -/
def State.compareDie (s : State) (die : Nat) : State :=
  if s.dieMatches die then s else (s.raise E.SEC_FW_REJECT).reportFailed 0x01

/-- A die that received something else than its components at stage DIES: what its register holds is not given (R460; log 188). -/
def State.spoilMeasure (s : State) (die : Nat) : State :=
  { s with boot := { s.boot with measured := s.boot.measured.set die (Config.badMeasure die) } }

/-! ### Fuses at boot (R452) -/

/-- Whether a fuse group has a word that ECC cannot correct. Groups are numbered as the rows of R451 from 0, and a bad
word by its die + 16 × the word's place in the group. -/
def FuseBank.badGroup (f : FuseBank) (g : Nat) : Bool := f.badWords.any (fun e => e.1 = g)

/-- Words that stop the boot at IDENTITY: UID, PUF_HELPER and the key hashes. -/
def FuseBank.noIdentity (f : FuseBank) : Bool := (List.range 5).any (fun i => f.badGroup (i + 1))

/-- Units of a group that a bad word describes: 64 from the word's first. -/
def FuseBank.badUnits (f : FuseBank) (g : Nat) : List Nat :=
  (f.badWords.filter (fun e => e.1 = g)).flatMap (fun e =>
    ((List.range 64).map (fun i => 64 * (e.2 / 16) + i)).filterMap (fun i =>
      if i < 100 then some (100 * (if g = 14 then e.2 % 16 - 8 else e.2 % 16) + i) else none))

/-- Physical tiles and lanes that fuses rule out. -/
def FuseBank.fusedUnits (f : FuseBank) : List (Nat × Nat) :=
  ((f.tileBad ++ f.badUnits 10).eraseDups.map (fun q => (0x11, q))) ++
    ((f.laneBad ++ f.badUnits 14).eraseDups.map (fun q => (0x31, q)))

/-- Sensing the fuses raises FUSE_ECC for each bad word. -/
def State.senseWords (s : State) : State :=
  s.fuses.badWords.foldl (fun t (g, d) => t.raise E.SEC_FUSE_ECC 0 [g, d]) s

/-! ### The map (R17, R41, R455) -/

/-- Whether a physical unit may not serve. -/
def Layout.out (y : Layout) (cls q : Nat) : Bool := y.fused.contains (cls, q) || y.retired.contains (cls, q)

/-- Give one logical tile its physical tile: its own, or the lowest free spare of its die. -/
def State.seatTile (s : State) (t : Nat) : State :=
  if s.layout.out 0x11 (tileHome t) then
    { s with layout := s.layout.mapTile t ((s.freeTiles (t / 96)).headD 0xFFFF) }
  else s

/-- Give one logical lane its physical lane. -/
def State.seatLane (s : State) (l : Nat) : State :=
  if s.layout.out 0x31 (laneHome l) then
    { s with layout := s.layout.mapLane l ((s.freeLanes (laneDie l)).headD 0xFFFF) }
  else s

/-- Map tiles and lanes from fuses and the retirement record (R17, R41): no unit is both FUSED and RETIRED (R36). That several
fused or retired tiles (or lanes) of a die take its spares in the order of their logical indices is the model's choice: R41
orders the spares alone (DESIGN CHOICE, log 155). -/
def State.buildMap (s : State) : State :=
  let fused := s.fuses.fusedUnits
  let y : Layout := ⟨fused, s.nv.retired.filter (fun u => !fused.contains u), [], [], s.nv.channels⟩
  let s := (List.range 384).foldl State.seatTile { s with layout := y }
  let s := (List.range 192).foldl State.seatLane s
  if s.layout.tiles.any (fun e => e.2 = 0xFFFF) then s.reportFailed 0x06 else s

/-- Dies with a bad VF_CURVE or PWR_WEIGHTS word report their role as failed (R452). -/
def State.curveFailed (s : State) : State :=
  if s.fuses.badGroup 12 ∨ s.fuses.badGroup 9 = true then s.reportFailed 0x09 else s

/-! ### Keys (R466) -/

/-- UID as 16 bytes. -/
def State.uidBytes (s : State) : List Byte := toLE 16 s.fuses.uid

/-- The die-to-die lanes replaced so far: by a fuse that can be read (R452), in service before, and since the last commit (R24, R462). -/
def State.lanesOut (s : State) : List (Nat × Nat) := (s.fuses.usable 13 6 s.fuses.d2dRepair).map (fun r => (r.unit, r.place)) ++ s.nv.d2d ++ s.lanesNoted

/-- D2D_LANE_REPLACE (R16, R24, R461): a data link has 2 spares for every 64 lanes; beyond them the link is lost. Links 0 to
29 are the data links of R23, 30 to 39 the control ring, which has no spares. -/
def d2dLaneReplaceEffect (link lane : Nat) (s : State) : State :=
  if s.lanesOut.contains (link, lane) then s
  else if link < 30 ∧ (s.lanesOut.filter (fun e => e.1 = link && e.2 / 64 = lane / 64)).eraseDups.length < 2 then
    s.note (srcUnit 0x45 0) (.d2dLane link lane)
  else s.reportFailed 0x01

/-- 48 big-endian bytes of a scalar. -/
def beBytes (x : Nat) : List Byte := (toLE 48 x).reverse

/-- Stage IDENTITY: the PUF key is recovered, and the DeviceID scalar derived; with debug unlocked, a key from the UID alone (R466, R470). -/
def State.makeDevice (s : State) : State :=
  let k := if s.on R.SEC_STATUS_DEBUG then Config.debugKey s.fuses.uid
    else scalarOf (hmac384 (toLE 32 (Config.pufKey s.fuses.pufHelper).toNat) (s.uidBytes ++ [0x44, 0x45, 0x56, 0x49, 0x44]))
  { s with boot := { s.boot with deviceKey := some k } }

/-! ### Measurements (R466 to R468) -/

/-- Bytes as a number: a final 1 byte keeps their length. -/
def msgNum (m : List Byte) : Nat := ofLE (m ++ [1])

/-- The images held, in image-index order, partition after partition (R468). -/
def State.figsInOrder (s : State) : List Image :=
  (List.range 16).flatMap (fun p => (List.range 4).filterMap (fun i => s.figs.find? (fun x => x.part = p && x.idx = i)))

/-- What measurement `i` covers, as numbers (R468). -/
def State.covers (s : State) : Nat → List Nat
  | 1 => [s.fuses.stepping]
  | 2 => [s.rd R.SEC_SVN_VERSION, s.rd R.SEC_SVN_IMAGE, s.boot.keySlot]
  | 3 => [msgNum (s.bootBytes 256 (64 * s.bootNum 16 1)), msgNum (s.boot.measured.flatMap (· ++ [1]))]
  | 4 =>
    [s.rd R.SEC_STATUS_LIFECYCLE, s.rd R.SEC_SVN_FUSED, s.rd R.SEC_STATUS_DEBUG_DISABLED, s.rd R.SEC_STATUS_DEBUG,
      s.rd R.SEC_STATUS_DEBUG_KIND, s.rd R.SEC_OWNER_VALID, s.rd R.SEC_OWNER_REVOKED, s.rd R.SEC_OWNER_SPOILED]
  | 5 => (match s.activeSlot with
    | some k => [msgNum (s.slotRec k).digest, (s.slotRec k).epoch]
    | none => []) ++ [s.rd R.PROM_EPOCH_EPOCH]
  | 6 => s.figsInOrder.flatMap (fun x => [msgNum x.digest, x.rank])
  | 7 => [s.rd R.SEC_PKG_PKG_ID, s.rd R.SEC_PKG_POS, s.rank.getD 4096, s.roles.gen]
  | 8 => [s.card.gen, s.cardCrc]
  | _ => []

/-- A measurement block's digest (R468). -/
def State.block (s : State) (i : Nat) : BitVec 384 := Config.measurement i (s.covers i)

/-- Stage MAP: the alias scalar, its copy on X1, and the certificate that the DeviceID key signs; the DeviceID scalar is then
erased (R466, R467). -/
def State.makeAlias (s : State) : State :=
  match s.boot.deviceKey with
  | some k =>
    let m := fun (i : Nat) => beBytes (s.block i).toNat
    let a := scalarOf (hmac384 (beBytes k) (m 2 ++ m 3 ++ m 4 ++ [0x41, 0x4C, 0x49, 0x41, 0x53]))
    { s with boot := { s.boot with
      deviceKey := none, aliasKey := some a, aliasStandby := some a
      aliasCert := Config.aliasCert k a ([1, 2, 3, 4].map s.block) } }
  | none => s

/-! ### BOOT_STAGE_DONE (R455) -/

/-- The Dance Card is built at MAP (R42, R455). -/
def State.buildCard (s : State) : State :=
  if s.card.gen = 0 then s.beginCard.endCard else if s.card.gen = 1 then s.endCard else s

/-- The bundle is copied into reserved HBM (R441, R455). -/
def State.copyBundle (s : State) : State :=
  { s with boot := { s.boot with bundleCopy := msetList 0 0 (s.bootBytes 0 s.bundleLen) [] } }

/-- Enter READY (R455, R473). -/
def State.bootReady (s : State) : State :=
  (s.wr R.SEC_BOOT_TIME_MS (Config.bootMs s.out.length).toNat).toStage 8

/-- Stage VERIFY ends (R456, R459): the die code starts, and firmware sets TEMPO_CTL.EN (R455). -/
def State.verifyEnds (s : State) (passed : Bool) : State :=
  if passed ∧ s.bundleGood = true then tempoEnableEffect (s.runBundle.measure.toStage 4)
  else (s.raise E.SEC_FW_REJECT).bootFailed

/-- Stage MAP ends: the bundle's copy and the keys; then the active slot is staged, or the stage skipped (R455, R463). -/
def State.mapEnds (s : State) : State :=
  let s := (s.curveFailed.copyBundle.makeAlias.toStage 7).stageAtBoot
  if s.weights.staging.isNone then s.bootReady else s

/-- What the end of a stage brings (R455). A die whose component does not match fails, which is the loss of a whole die (R16,
R456, R460). The map stands from the start of stage MAP on. -/
def State.stageEnds (s : State) (passed : Bool) : State :=
  match s.rd R.SEC_STATUS_STAGE with
  | 0 => if s.boot.waitFlow then s
    else if passed then (State.senseWords { s with boot := { s.boot with waitRails := false } }).toStage 1
    else s.bootFailed
  | 1 => if s.fuses.noIdentity then (s.wr R.SEC_STATUS_BOOT_FAIL 1).toStage 15
    else if passed then s.makeDevice.startFetch else s.bootFailed
  | 2 => if passed then s.toStage 3 else s.bootFailed
  | 3 => s.verifyEnds passed
  | 4 => (if passed then s.measureDies else (s.measureDies.raise E.SEC_FW_REJECT).reportFailed 0x01).toStage 5
  | 5 => s.readRecords.readAgeing.buildMap.toStage 6
  | 6 => s.mapEnds
  | 7 => if s.weights.staging.isNone then s.bootReady else s
  | _ => s

/-- An LPDDR6 group or an NV stack that failed to train (R456): it is recorded; what else its failure does, the manual does not say,
but that no slot, whose shards lie on all stacks, can be read without a stack (DESIGN CHOICE, log 215). -/
def State.trainFailed (s : State) (cls inst : Nat) : State :=
  State.note { s with boot := { s.boot with failed := s.boot.failed ++ [(cls, inst)] } } (srcUnit cls inst) (.bootUnit cls inst)

/-- A unit that fails at stages DIES to MAP is retired or failed, and the boot goes on (R16, R24, R430, R455, R456). -/
def State.bootUnitFailed (s : State) (u : BootFail) : State :=
  match u with
  | .die d => (if s.rd R.SEC_STATUS_STAGE = 5 then (s.spoilMeasure d).compareDie d else s).reportFailed 0x01
  | .link _ => s.reportFailed 0x01
  | .lane l n => d2dLaneReplaceEffect l n s
  | .channel c => s.retireChannel c
  | .shelf g => s.trainFailed 0x21 g
  | .stack n => s.trainFailed 0x22 n
  | .tile q =>
    if s.layout.fused.contains (0x11, q) then s
    else match (List.range 384).find? (fun t => s.layout.tile t = q) with
      | some t => s.retireTile t 2
      | none => s.retireUnit 2 0x11 q

/-- Whether a failure of a unit can come to light at a stage: dies from DIES on, channels from MEMORY on, tiles at the
self-test of MAP (R455). -/
def bootFailAt (stage : Nat) : BootFail → Bool
  | .die _ => inRange 4 6 stage
  | .link _ => inRange 4 6 stage
  | .lane _ _ => inRange 4 6 stage
  | .shelf _ => inRange 5 6 stage
  | .stack _ => inRange 5 6 stage
  | .channel _ => inRange 5 6 stage
  | .tile _ => stage = 6

/-- BOOT_STAGE_DONE (R455, R456): the card that stage MAP builds shows what its self-test found. -/
def bootStageDoneEffect (passed : Bool) (units : List BootFail) (s : State) : State :=
  if s.boot.perst then s
  else
    let st := s.rd R.SEC_STATUS_STAGE
    let s := (units.filter (bootFailAt st)).foldl State.bootUnitFailed (s.stageEnds passed)
    if st = 6 then s.buildCard else s

/-- BOOT_STAGE_DONE. -/
def execBootStageDone (passed : Bool) (units : List BootFail) (s : State) : Res :=
  .next (bootStageDoneEffect passed units s)

/-- GET_BOOT_STATUS (R454). -/
def getBootStatusEffect (ms : Nat) (s : State) : State :=
  s.emit (.i3c 0x01 true (toLE 4 (s.rd R.SEC_STATUS_STAGE + s.rd R.SEC_STATUS_BOOT_FAIL * 2 ^ 4) ++ toLE 4 ms))

/-- GET_BOOT_STATUS. -/
def execGetBootStatus (elapsedMs : Nat) (s : State) : Res := .next (getBootStatusEffect elapsedMs s)

end Sys2Proof.Machine
end

