-- ==== Sys2Proof/Machine/Ports.lean ====
section
/-! DEFINITION. Ports and lanes: training, identity, links, PORT_STATE, bit-error tests (R316 to R321, R342, R346 to
R348). -/

namespace Sys2Proof.Machine

/-! ### Training (R316, R317) -/

/-- PORT_ENABLE (R316, R317, R454): EN set trains a port that is DOWN, and has no effect before a package id is assigned; EN
cleared takes the port DOWN. -/
def portEnableEffect (p : Nat) (on : Bool) (s : State) : State :=
  if on ∧ s.on R.SEC_PKG_ASSIGNED = false then s
  else
    let s := s.wr R.FAB_CTL_EN (b2n on) p
    if on then (if s.portState p = 0 then s.startTraining p else s) else s.portDown p

/-- PORT_ENABLE. -/
def execPortEnable (p : PortId) (on : Bool) (s : State) : Res := .next (portEnableEffect p on s)

/-- RETRAIN (R317): a port in service trains again. -/
def retrainEffect (p : Nat) (s : State) : State := if s.inService p then s.startTraining p else s

/-- RETRAIN. -/
def execRetrain (p : PortId) (s : State) : Res := .next (retrainEffect p s)

/-- PORT_TRAINED (R316, R317): HELLO is sent and the port checks its identity. -/
def portTrainedEffect (p : Nat) (s : State) : State :=
  if s.portState p = 1 then (s.enterCheck p).sendOn [p] 5 false [] else s

/-- PORT_TRAINED. -/
def execPortTrained (p : PortId) (s : State) : Res := .next (portTrainedEffect p s)

/-- TRAINING_TIMEOUT (R316): a port not trained goes DOWN with LINK_DOWN. -/
def trainingTimeoutEffect (p : Nat) (s : State) : State := if s.portState p = 1 then s.linkDown p else s

/-- TRAINING_TIMEOUT. -/
def execTrainingTimeout (p : PortId) (s : State) : Res := .next (trainingTimeoutEffect p s)

/-! ### Identity (R346, R347) -/

/-- The identity a port found, and the one it expects: TRAY, PLANE, SWPORT. -/
def State.foundId (s : State) (p : Nat) : Nat × Nat × Nat :=
  (s.rd R.FAB_FOUND_TRAY p, s.rd R.FAB_FOUND_PLANE p, s.rd R.FAB_FOUND_SWPORT p)
/-- The identity expected. -/
def State.wantId (s : State) (p : Nat) : Nat × Nat × Nat :=
  (s.rd R.FAB_EXPECT_TRAY p, s.rd R.FAB_EXPECT_PLANE p, s.rd R.FAB_EXPECT_SWPORT p)

/-- Whether what a port found lets it into service (R346). -/
def State.idAccepted (s : State) (p : Nat) : Bool :=
  s.rd R.FAB_FOUND_PLANE p = p && (!s.on R.FAB_EXPECT_CHECK_EN p || s.foundId p = s.wantId p)

/-- Record a crossed pair of cables: two HELD ports, each of which has found the other's expected identity (R347). -/
def State.crossed (s : State) (p : Nat) : State :=
  let held := fun (q : Nat) => s.portState q = 5 && s.on R.FAB_FOUND_VALID q
  let hit := fun (q : Nat) => q ≠ p && held p && held q && s.foundId p = s.wantId q && s.foundId q = s.wantId p
  match (List.range 24).find? hit with
  | some q =>
    if s.rd R.FAB_STATUS_SWAP_WITH p = q then s
    else ((s.wr R.FAB_STATUS_SWAP_WITH q p).wr R.FAB_STATUS_SWAP_WITH p q).note (srcUnit 0x30 p) (.crossedPorts p q)
  | none => s

/-- A port enters HELD; it may be one of a crossed pair (R316, R347). -/
def State.enterHeld (s : State) (p : Nat) : State := (s.moveTo p 5).crossed p

/-- A mismatch holds the port (R346, R347). -/
def State.holdPort (s : State) (p : Nat) : State := (s.raise E.FAB_CABLE_MISMATCH p).enterHeld p

/-- PORT_ID (R346): the first in CHECK is latched and judged; a later one that differs holds the port. -/
def portIdEffect (p tray plane swp : Nat) (s : State) : State :=
  if s.portState p = 2 then
    let s := (((s.wr R.FAB_FOUND_TRAY tray p).wr R.FAB_FOUND_PLANE plane p).wr R.FAB_FOUND_SWPORT swp p).wr
      R.FAB_FOUND_VALID 1 p
    if s.idAccepted p then s.fitWidth p else s.holdPort p
  else if s.portState p = 3 ∨ s.portState p = 4 ∨ s.portState p = 5 then
    if s.on R.FAB_FOUND_VALID p ∧ s.foundId p ≠ (tray, plane, swp) then s.holdPort p else s
  else s

/-- PORT_ID. -/
def execPortId (p : PortId) (tray : BitVec 8) (plane : BitVec 5) (swport : BitVec 8) (s : State) : Res :=
  .next (portIdEffect p tray.toNat plane.toNat swport.toNat s)

/-- PORT_ID_TIMEOUT (R316): no PORT_ID within 16 beats of CHECK holds the port. -/
def portIdTimeoutEffect (p : Nat) (s : State) : State :=
  if s.portState p = 2 ∧ (s.port p).since + 16 ≤ s.tempo.now / 1024 then s.enterHeld p else s

/-- PORT_ID_TIMEOUT. -/
def execPortIdTimeout (p : PortId) (s : State) : Res := .next (portIdTimeoutEffect p s)

/-! ### Lanes and links (R318, R321, R348) -/

/-- Whether what LANE_LOST names has happened (R318): more than 16 uncorrectable codewords in one beat, as the lane's flits showed
them, or CORR_HIGH raised; loss of lock and a bad eye are what its monitors report. -/
def State.laneFails (s : State) (l : Nat) : LaneCause → Bool
  | .uncorrectable => decide (16 < (mget (0, 0) s.fab.bad l).2)
  | .corrHigh => s.on R.LANE_EVENTS_CORR_HIGH l
  | .lock | .eye => true

/-- LANE_LOST (R318). -/
def laneLostEffect (l : Nat) (c : LaneCause) (s : State) : State :=
  if s.laneFails l c = true ∧ s.laneWorks l = true ∧ (s.inService (l / 8) = true ∨ s.portState (l / 8) = 2 ∨ s.portState (l / 8) = 5) then s.loseLane l
  else s

/-- LANE_LOST. -/
def execLaneLost (l : LaneId) (c : LaneCause) (s : State) : Res := .next (laneLostEffect l c s)

/-- CORR_HIGH (R348): `n` symbols were corrected over 1,024 beats; above the threshold the lane is lost. -/
def corrHighEffect (l n : Nat) (s : State) : State :=
  if s.inService (l / 8) = true ∧ s.laneWorks l = true ∧ s.rd R.FAB_LANE_THR_THR < n then
    (s.raise E.LANE_CORR_HIGH l [n]).loseLane l
  else s

/-- CORR_HIGH. -/
def execCorrHigh (l : LaneId) (symbols : Nat) (s : State) : Res := .next (corrHighEffect l symbols s)

/-- The ACK field of an accepted flit (R321): an acknowledgement, or a NAK that asks for a replay; the flit after ACK
replayed eight times without acceptance takes the port DOWN. -/
def State.heardAck (s : State) (p : Nat) (f : FlitIn) : State :=
  let x := s.port p
  let same := x.acked = f.ack
  if f.nak then
    if same ∧ 8 ≤ x.replays then s.linkDown p
    else
      let s := s.setPort p { x with acked := f.ack, replays := if same then x.replays + 1 else 1 }
      let flits := (x.replayed f.ack).map (flitLanes (decide (s.portState p = 4)))
      ((s.countFlits R.FAB_TX_FLITS_TX p flits.length).raise E.FAB_REPLAY p).emit (.replay p f.ack flits)
  else s.setPort p { x with acked := f.ack, replays := if same then x.replays else 0 }

/-- One more uncorrectable codeword of a lane in the beat (R318). -/
def State.badCodeword (s : State) (l : Nat) : State :=
  let beat := s.tempo.now / 1024
  let x := mget (0, 0) s.fab.bad l
  let n := if x.1 = beat then x.2 + 1 else 1
  { s with fab := { s.fab with bad := mset (0, 0) l (beat, n) s.fab.bad } }

/-- Count what a codeword that ends showed on its lane: symbols corrected, or a codeword that could not be (R318, R319, R352). -/
def State.countCodeword (s : State) (p : Nat) (c : Codeword) : State :=
  if !c.ends then s
  else if c.lost then (s.bump R.LANE_FEC_UNCORR_CODEWORDS 1 (8 * p + c.lane.val)).badCodeword (8 * p + c.lane.val)
  else s.bump R.LANE_FEC_CORR_SYMBOLS c.wrong (8 * p + c.lane.val)

/-- FLIT (R321): accepted in sequence, or discarded with a NAK. -/
def flitEffect (p : Nat) (f : FlitIn) (s : State) : State :=
  let x := s.port p
  let s := if s.portState p < 2 then s else f.codewords.foldl (fun t c => t.countCodeword p c) s
  if s.portState p < 2 then s
  else if f.crcGood ∧ f.uncorr = false ∧ f.seq = x.rxNext then
    ((s.setPort p { x with rxNext := (x.rxNext + 1) % 65536 }).countFlits R.FAB_RX_FLITS_RX p 1).heardAck p f
  else s.emit (.nak p ((x.rxNext + 65535) % 32768))

/-- FLIT. -/
def execFlit (p : PortId) (f : FlitIn) (s : State) : Res := .next (flitEffect p f s)

/-! ### PORT_STATE (R342) -/

/-- PORT_STATE (R342): the sender's ports, and re-sends of what can no longer reach it. -/
def portStateEffect (p : Pkt) (s : State) : State :=
  let w := ofLE p.data
  let off := 2 ^ 24 - 1 - bits w 23 0
  let s := { s with fab := { s.fab with peers := mset 0 p.src.val (off + bits w 47 24 * 2 ^ 24) s.fab.peers } }
  s.updatePlanes.repath

/-- PORT_STATE. -/
def execPortState (p : Pkt) (s : State) : Res := .next (if s.hears p then portStateEffect p s else s)

/-- PORT_STATE_BROADCAST (R342): 64 beats after the last one. -/
def portStateBroadcastEffect (s : State) : State := if s.passed (1024 * s.fab.cast) (64 * 1024) then s.castPorts else s

/-- PORT_STATE_BROADCAST. -/
def execPortStateBroadcast (s : State) : Res := .next (portStateBroadcastEffect s)

/-! ### Bit-error tests (R348) -/

/-- Begin a test of a lane against a borrowed spare, or skip it (R348). -/
def State.startTest (s : State) (l : Nat) : State :=
  match s.freeLanes (laneDie l) with
  | q :: _ =>
    let t : LaneTest := ⟨l, s.layout.lane l, q, false⟩
    let s := { s with fab := { s.fab with tests := s.fab.tests ++ [t] } }
    ((s.laneMap l q true).wr R.LANE_STATUS_STATE 3 l).wr R.LANE_STATUS_BORROWED 1 l
  | [] => s.raise E.LANE_TEST_SKIP l

/-- Whether a lane may be tested in service now: one lane at a time (R348). -/
def State.testable (s : State) (l : Nat) : Bool :=
  s.inService (l / 8) && s.laneWorks l && s.fab.tests.all (·.install)

/-- LANE_TEST (R348). -/
def laneTestEffect (l : Nat) (s : State) : State := if s.testable l then s.startTest l else s

/-- LANE_TEST. -/
def execLaneTest (l : LaneId) (s : State) : Res := .next (laneTestEffect l s)

/-- LANE_RETIRE (R41): the lane retires; with no spare its port narrows. -/
def laneRetireEffect (l : Nat) (s : State) : State :=
  if s.avail 0x31 l then
    let s := s.retireLane l
    if s.avail 0x31 l ∨ s.inService (l / 8) = false then s else s.narrow (l / 8)
  else s

/-- LANE_RETIRE. -/
def execLaneRetire (l : LaneId) (s : State) : Res := .next (laneRetireEffect l s)

/-- The first lane from a place on that may be tested. -/
def State.testFrom (s : State) (n : Nat) : Option Nat := (List.range 192).find? (fun l => decide (n ≤ l) && s.testable l)

/-- Whether a new pass over the lanes is due: INTERVAL bars after the last began (R348). -/
def State.passDue (s : State) : Bool := match s.fab.passBar with
  | some b => decide (b + s.rd R.FAB_BERT_CFG_INTERVAL ≤ s.bar)
  | none => true

/-- The next lane of the interval test, and the bar in which its pass begins: the pass goes on, or a new one is due (R348). -/
def State.nextTest (s : State) : Option (Nat × Nat) :=
  match s.fab.passBar, s.testFrom s.fab.nextLane with
  | some b, some l => some (l, b)
  | _, _ => if s.passDue then (s.testFrom 0).map (fun l => (l, s.bar)) else none

/-- INTERVAL_TEST (R348): the next lane in service is tested, each once every INTERVAL bars. -/
def intervalTestEffect (s : State) : State :=
  match s.on R.FAB_BERT_CFG_EN, s.nextTest with
  | true, some (l, b) => ({ s with fab := { s.fab with nextLane := l + 1, passBar := some b } }).startTest l
  | _, _ => s

/-- INTERVAL_TEST. -/
def execIntervalTest (s : State) : Res := .next (intervalTestEffect s)

/-- BERT (R316, R348): a port out of service is HELD while every lane that has a physical lane is tested. -/
def bertEffect (p : Nat) (s : State) : State :=
  let ls := (lanesOf p).filter (s.avail 0x31)
  if s.inService p = true ∨ (s.port p).bert = true ∨ ls = [] then s
  else
    let ts := ls.map (fun l => (⟨l, s.layout.lane l, 0xFFFF, true⟩ : LaneTest))
    let s := { s with fab := { s.fab with tests := s.fab.tests ++ ts } }
    ((s.setPort p { s.port p with bert := true }).setLanes p 3).enterHeld p

/-- BERT. -/
def execBert (p : PortId) (s : State) : Res := .next (bertEffect p s)

/-- The result of a test of a lane (R348). -/
def State.noteTest (s : State) (l errors : Nat) : State :=
  ((s.wr R.LANE_BER_ERRORS (min errors 0xFFFFFFFF) l).wr R.LANE_BER_PASS (b2n (decide (errors ≤ 2 ^ 20))) l).wr
    R.LANE_BER_STAMP_STAMP s.stamp l

/-- The end of an installation test of one lane; the last one of its port sends it to CHECK (R316, R348). -/
def State.endInstall (s : State) (t : LaneTest) (pass : Bool) : State :=
  let s := s.endTest t
  let s := if pass then s else (((s.raise E.LANE_TEST_FAIL t.lane).raise E.FAB_BERT_FAIL (t.lane / 8)).retireLane t.lane)
  if s.fab.tests.any (fun x => x.install && decide (x.lane / 8 = t.lane / 8)) then s else s.enterCheck (t.lane / 8)

/-- The end of an interval test (R348): the spare goes back, or stays behind a lane that failed. -/
def State.endInterval (s : State) (t : LaneTest) (pass : Bool) : State :=
  if pass then (s.laneMap t.lane t.spare false).endTest t
  else (s.raise E.LANE_TEST_FAIL t.lane).retireLane t.lane

/-- BERT_RUN_END (R348): at most 2 ^ 20 errors in 2 ^ 36 bits pass. -/
def bertRunEndEffect (l errors : Nat) (s : State) : State :=
  match s.fab.tests.find? (fun t => t.lane = l) with
  | some t =>
    let s := s.noteTest l errors
    if t.install then s.endInstall t (decide (errors ≤ 2 ^ 20)) else s.endInterval t (decide (errors ≤ 2 ^ 20))
  | none => s

/-- BERT_RUN_END. -/
def execBertRunEnd (l : LaneId) (errors : Nat) (s : State) : Res := .next (bertRunEndEffect l errors s)

end Sys2Proof.Machine
end

