-- ==== Sys2Proof/Machine/Ageing.lean ====
section
/-! DEFINITION. Ageing: monitors, the margin re-plan, offsets and forecasts, control cores, log commits, retraining, CHECK
windows (R16, R24, R182, R424, R441 to R446, R461, R462). -/

namespace Sys2Proof.Machine

/-- Whether monitors and re-plans run (R449). -/
def State.healthOn (s : State) : Bool := s.on R.HEALTH_CTL_EN

/-! ### Slacks and offsets (R443, R444) -/

/-- The least slack in ps of a tile's last sweep at a code. -/
def State.slackOf (s : State) (c t : Nat) : Option Int :=
  let v := mget 0 s.health.slack (32 * t + c)
  if v = 0 then none else some ((v : Int) - 65536)

/-- Keep a sweep's results, one per code from 0 on (R443). -/
def State.setSlack (s : State) (t : Nat) (ps : List Int) : State :=
  { s with health := { s.health with
    slack := (ps.take 23).zipIdx.foldl (fun m (x, c) => mset 0 (32 * t + c) (65536 + x).toNat m) s.health.slack } }

/-- Forget a tile's results. -/
def State.noSlack (s : State) (t : Nat) : State :=
  { s with health := { s.health with slack := mkeep (fun k => k / 32 ≠ t) s.health.slack } }

/-- The sensitivity that HEALTH_FLOOR.SENS reports, in 0.1 mV per ps (R444): the largest of the dies' (log 214). -/
def State.sens (s : State) : Nat := maxOf s.fuses.sens

/-- The offset in mV that a slack requires (R444). -/
def State.needed (s : State) (ps : Int) : Nat := ((s.rd R.HEALTH_FLOOR_SLACK_PS : Int) - ps).toNat * s.sens / 10

/-- The slacks at a code of a die's standing tiles. -/
def State.slacks (s : State) (die c : Nat) : List Int :=
  ((List.range 96).map (96 * die + ·)).filterMap (s.slackOf c)

/-- The least of a list. -/
def leastOf : List Int → Option Int
  | [] => none
  | x :: r => some (r.foldl min x)

/-! ### Forecasts (R446) -/

/-- Keep a monitor's result of the day among its last 64, in place of an earlier one of the day (R446). -/
def State.addResult (s : State) (key : Nat) (m : Int) : State :=
  let day := s.health.days + 1
  let l := (mget [] s.health.results key).filter (fun e => e.1 ≠ day) ++ [(day, m)]
  { s with health := { s.health with results := mset [] key (l.drop (l.length - 64)) s.health.results } }

/-- The fourth root of a number of days, in units of 2^-16, rounded down (log 62). -/
def root4 (t : Nat) : Nat := isqrt (isqrt (t * 2 ^ 64))

/-- The sum of a list of integers. -/
def sumInt (l : List Int) : Int := l.foldl (· + ·) 0

/-- Months from the last result until the line fitted by least squares to margins against the fourth root of their days comes down
to a floor (R446): 0 where it has, 4,095 where it does not in that time; `none` where the results give no line. With the sums
over n results, the slope is `num / den`, and the line meets the floor at
`((n * floor - Σy) * den + num * Σx) / (n * num)`. -/
def fitMonths (floor : Int) (rs : List (Nat × Int)) : Option Nat :=
  let xs : List (Int × Int) := rs.map (fun e => ((root4 e.1 : Int), e.2))
  let n : Int := xs.length
  let sx := sumInt (xs.map (·.1))
  let sy := sumInt (xs.map (·.2))
  let den := n * sumInt (xs.map (fun e => e.1 * e.1)) - sx * sx
  let num := n * sumInt (xs.map (fun e => e.1 * e.2)) - sx * sy
  let day := maxOf (rs.map (·.1))
  if den = 0 then none
  else if num * (n * (root4 day : Int) - sx) + sy * den ≤ n * floor * den then some 0
  else if 0 ≤ num then some 4095
  else
    let x := (((n * floor - sy) * den + num * sx) / (n * num)).toNat
    some (min 4095 ((x ^ 4 / 2 ^ 64 - day) / max 1 Config.monthDays))

/-- The forecast in months of the monitor behind a key (R446; log 62). -/
def State.monthsOf (s : State) (key : Nat) (floor : Int) : Nat :=
  let rs := mget [] s.health.results key
  if rs.isEmpty then 4095 else (fitMonths floor rs).getD (Config.forecast key rs).toNat

/-- The forecast of a die at a code (R446): the slack whose offset is OFFSET_MAX is its floor. -/
def State.forecastOf (s : State) (die c : Nat) : Nat :=
  s.monthsOf (32 * die + c) ((s.rd R.HEALTH_FLOOR_SLACK_PS : Int) - 10 * s.rd R.HEALTH_FLOOR_OFFSET_MAX / max 1 s.sens)

/-- Keys of the results of a die's ring monitors, of a lane, of an HBM channel and of an NV stack; those of a die's path-delay
monitors at a code are 32 × die + code. -/
def ringKey (die : Nat) : Nat := 0x10000 + die
/-- Key of a lane's eye. -/
def eyeKey (l : Nat) : Nat := 0x310000 + l
/-- Key of an HBM channel's margin. -/
def hbmKey (c : Nat) : Nat := 0x200000 + c
/-- Key of an NV stack's retries. -/
def retryKey (k : Nat) : Nat := 0x220000 + k

/-- Keep the day's results of the monitors that are not swept: drift, eyes, HBM margins and NV retries (R442, R446). -/
def State.keepDay (s : State) : State :=
  let s := (List.range 4).foldl (fun (t : State) k => t.addResult (ringKey k) (-((mget 0 t.health.drift k : Nat) : Int))) s
  let s := ((List.range 192).filter (fun l => s.rd R.LANE_STATUS_EYE_MV l ≠ 0)).foldl (fun (t : State) l =>
    t.addResult (eyeKey l) (t.rd R.LANE_STATUS_EYE_MV l)) s
  let s := s.health.hbm.foldl (fun (t : State) (c, n) => t.addResult (hbmKey c) ((n : Int) - 1)) s
  (List.range 4).foldl (fun (t : State) k => t.addResult (retryKey k) (t.rd R.NVC_RETRIES_CODEWORDS k)) s

/-- The forecasts of all monitors, each with the class and physical instance of its unit (R446). -/
def State.allForecasts (s : State) : List (Nat × Nat × Nat) :=
  (List.range 4).map (fun k => (s.rd R.HEALTH_MARGIN_FORECAST 0 k, 0x01, k)) ++
  (List.range 4).map (fun k => (s.monthsOf (ringKey k) (-((s.rd R.HEALTH_FLOOR_SLACK_PS : Int) / 2)), 0x01, k)) ++
  (List.range 192).map (fun l => (s.monthsOf (eyeKey l) (s.rd R.HEALTH_FLOOR_EYE_MV), 0x31, s.layout.lane l)) ++
  (List.range 256).map (fun c => (s.monthsOf (hbmKey c) (s.rd R.HEALTH_FLOOR_HBM_STEPS), 0x20, c / 32)) ++
  (List.range 4).map (fun k => ((Config.otherForecast k (mget [] s.health.results (retryKey k))).toNat, 0x22, k))

/-- The package forecast, with the class and physical instance of the unit that limits it (R446): the first in the order of
`allForecasts` where several do. -/
def State.packageForecast (s : State) : Nat × Nat × Nat :=
  s.allForecasts.foldl (fun b x => if x.1 < b.1 then x else b) (4095, 0, 0)

/-! ### The end of a sweep and of a re-plan (R444 to R446) -/

/-- The last tile of a die has been swept (R444, R446, R450): its offset, least slack and forecast; below its floor the
role has failed. -/
def State.endDie (s : State) (die : Nat) : State :=
  let xs := s.slacks die 17
  let off := maxOf (xs.map s.needed)
  let s := s.wr R.HEALTH_MARGIN_OFFSET (min 255 off) 0 die
  let s := match leastOf xs with
    | none => s
    | some x => s.wr R.HEALTH_MARGIN_SLACK (unsigned 8 x) 0 die
  let s := (List.range 23).foldl (fun (t : State) c => match leastOf (t.slacks die c) with
    | some x => t.addResult (32 * die + c) x
    | none => t) s
  let s := s.wr R.HEALTH_MARGIN_FORECAST (s.forecastOf die 17) 0 die
  let s := { s with health := { s.health with drift := mset 0 die 0 s.health.drift } }
  let s := (s.mgmtTray 0x0204 [die + off * 2 ^ 4]).note (srcUnit 0x45 0) (.healthEvent 0x0204 (die + off * 2 ^ 4))
  if s.rd R.HEALTH_FLOOR_OFFSET_MAX < off ∨ s.voltOk die 17 off = false then
    (s.raise E.HEALTH_MARGIN_LOW 0 [0x01, die]).reportFailed 0x09
  else s

/-- The highest code that every die can hold (R445). -/
def State.bestOpp (s : State) : Nat :=
  let ok := fun (c : Nat) => (List.range 4).all (fun die =>
    s.voltOk die c (s.rd R.HEALTH_MARGIN_OFFSET 0 die) &&
    decide (s.rd R.HEALTH_CFG_UNLOCK_MONTHS ≤ s.forecastOf die c))
  match [22, 21, 20, 19, 18].find? ok with
  | some c => c
  | none => 17

/-- The re-plan is over (R443, R445, R446): the forecasts, and OPP_MAX. A whole one closes a day of results. -/
def State.endReplan (s : State) : State :=
  let s := (s.wr R.HEALTH_STATUS_REPLAN 0).bump R.HEALTH_REPLAN_DONE 1
  let s := if s.health.whole then
      let s := s.keepDay
      { s with health := { s.health with days := s.health.days + 1 } }
    else s
  let (m, cls, inst) := s.packageForecast
  let s := ((s.wr R.HEALTH_FORECAST_MONTHS m).wr R.HEALTH_FORECAST_CLASS cls).wr R.HEALTH_FORECAST_INSTANCE inst
  let w := m + cls * 2 ^ 12 + inst * 2 ^ 24
  let s := (s.mgmtTray 0x0205 [w]).note (srcUnit 0x45 0) (.healthEvent 0x0205 w)
  let s := if m < s.rd R.HEALTH_CFG_WARN_MONTHS then s.raise E.HEALTH_FORECAST_LOW 0 [cls, inst] else s
  let c := s.bestOpp
  if c < s.rd R.PWR_STATUS_OPP_MAX then s.setPower (fun p => { p with oppNext := some c })
  else (s.setPower (fun p => { p with oppNext := none })).wr R.PWR_STATUS_OPP_MAX c

/-! ### The margin re-plan (R443, R447) -/

/-- Begin a re-plan of every tile: T000 is next. -/
def State.startReplan (s : State) : State :=
  { s.wr R.HEALTH_STATUS_REPLAN 1 with
    health := { s.health with nextTile := 0, planEnd := 384, whole := true, replanBar := s.bar, forward := [] } }

/-- Begin the re-plan of a die, brought forward (R442). -/
def State.startDie (s : State) (die : Nat) : State :=
  { s.wr R.HEALTH_STATUS_REPLAN 1 with
    health := { s.health with
      nextTile := 96 * die, planEnd := 96 * die + 96, whole := false, forward := s.health.forward.filter (· ≠ die) } }

/-- Whether a re-plan may begin. -/
def State.mayReplan (s : State) : Bool := s.healthOn && !s.on R.HEALTH_STATUS_REPLAN && s.tempo.barOn

/-- Whether a re-plan of every tile is due: REPLAN_BARS bars after the last one (R443). -/
def State.replanDue (s : State) : Bool :=
  s.mayReplan && decide (s.health.replanBar + s.rd R.HEALTH_CFG_REPLAN_BARS ≤ s.bar)

/-- REPLAN_START (R442, R443): the re-plan that is due, or that of a die that drift has brought forward. -/
def replanStartEffect (s : State) : State :=
  if s.replanDue then s.startReplan
  else match s.mayReplan, s.health.forward with
    | true, d :: _ => s.startDie d
    | _, _ => s

/-- REPLAN_START. -/
def execReplanStart (s : State) : Res := .next (replanStartEffect s)

/-- REPLAN_NOW (R443, R449). -/
def replanNowEffect (s : State) : State :=
  if s.healthOn ∧ s.on R.HEALTH_STATUS_REPLAN = false then s.startReplan else s

/-- REPLAN_NOW. -/
def execReplanNow (s : State) : Res := .next (replanNowEffect s)

/-- The tile after which a die's results are complete. -/
def State.tileOver (s : State) (t : Nat) : State := if t % 96 = 95 then s.endDie (t / 96) else s

/-- Borrow a spare for the next tile that has one (R443): a tile without is skipped; after T383 the re-plan is over. -/
def State.borrow : Nat → State → State
  | 0, s => s
  | n + 1, s =>
    let t := s.health.nextTile
    if s.health.planEnd ≤ t then s.endReplan
    else
      let s := { s with health := { s.health with nextTile := t + 1 } }
      match (s.freeTiles (t / 96)).head? with
      | some q =>
        if s.layout.tile t = 0xFFFF then State.borrow n (s.tileOver t)
        else State.showReplan { s with health := { s.health with
          replan := some ⟨t, s.layout.tile t, q, 1, s.bar, false⟩ } }
      | none => State.borrow n ((s.raise E.HEALTH_REPLAN_SKIP 0 [t]).tileOver t)

/-- Change the tile in re-plan. -/
def State.setReplan (s : State) (r : Replan) : State :=
  State.showReplan { s with health := { s.health with replan := some r } }

/-- The re-plan's part of a bar boundary (R443, R447): while a cause of a failed role stands, a sweep stops and none begins; after
UNPARK the re-plan goes on from the next tile. -/
def State.replanBarStep (s : State) : State :=
  if s.healthOn = false ∨ s.on R.HEALTH_STATUS_REPLAN = false ∨ s.stopped = true then s
  else if s.standing ≠ [] then s.stopSweep
  else match s.health.replan with
    | none => State.borrow 385 s
    | some r =>
      if s.bar ≤ r.since then s
      else if r.stage = 1 then
        if s.layout.tile r.tile = r.phys then
          (s.standTile r.tile r.spare).setReplan { r with stage := 2, since := s.bar }
        else State.borrow 385 s.dropReplan
      else if r.stage = 3 then State.borrow 385 (s.stopSweep.tileOver r.tile)
      else s

/-- REPLAN_SWEEP_END (R443, R444): the sweep's results, one per code from 0 on, are kept and the state is copied back; a tile with a
functional error, or whose offset exceeds OFFSET_MAX, is retired and the spare stays. -/
def replanSweepEndEffect (ps : List Int) (bad : Bool) (s : State) : State :=
  match s.health.replan with
  | none => s
  | some r =>
    if r.stage ≠ 2 ∨ s.bar < r.since + s.rd R.HEALTH_CFG_SWEEP_BARS then s
    else
      let above := (ps[17]?).any (fun x => decide (s.rd R.HEALTH_FLOOR_OFFSET_MAX < s.needed x))
      let s := if above then s.raise E.HEALTH_MARGIN_LOW 0 [0x11, r.phys] else s
      let s := if bad || above then
          (s.noSlack r.tile).retireUnit 2 0x11 r.phys
        else s.setSlack r.tile ps
      s.setReplan { r with stage := 3, since := s.bar, swept := true }

/-- REPLAN_SWEEP_END. -/
def execReplanSweepEnd (slackPs : List Int) (functionalError : Bool) (s : State) : Res :=
  .next (replanSweepEndEffect slackPs functionalError s)

/-! ### Monitors (R442) -/

/-- One lane's eye (R318, R442). -/
def State.sampleEye (s : State) (l mv : Nat) : State :=
  let s := s.wr R.LANE_STATUS_EYE_MV (min 65535 mv) l
  if mv < s.rd R.HEALTH_FLOOR_EYE_MV ∧ s.inService (l / 8) = true ∧ s.laneWorks l = true then
    laneLostEffect l .eye (s.raise E.HEALTH_MARGIN_LOW 0 [0x31, l])
  else s

/-- MONITOR_SAMPLE (R442): drift brings the die's re-plan forward; a low eye loses its lane. -/
def monitorSampleEffect (m : Monitor) (s : State) : State :=
  if s.healthOn then
    let far := (m.drift.take 4).zipIdx.filter (fun e => decide (s.rd R.HEALTH_FLOOR_SLACK_PS ≤ 2 * e.1))
    let s := far.foldl (fun (t : State) e => t.raise E.HEALTH_MARGIN_LOW 0 [0x01, e.2]) s
    let s := (m.drift.take 4).zipIdx.foldl (fun (t : State) e =>
      { t with health := { t.health with drift := mset 0 e.2 (max e.1 (mget 0 t.health.drift e.2)) t.health.drift } }) s
    let s := { s with health := { s.health with
      forward := (List.range 4).filter (fun d => s.health.forward.contains d || far.any (fun e => e.2 = d)) } }
    (m.eyes.take 192).zipIdx.foldl (fun t e => t.sampleEye e.2 e.1) s
  else s

/-- MONITOR_SAMPLE. -/
def execMonitorSample (m : Monitor) (s : State) : Res := .next (monitorSampleEffect m s)

/-- HBM_MARGIN_SWEEP (R429, R430, R442): the margin is kept for the forecast; below the floor the channel is repaired, or retired. -/
def hbmMarginSweepEffect (c steps : Nat) (repaired : Bool) (s : State) : State :=
  if s.healthOn ∧ s.layout.channels.contains c = false then
    let s := { s with health := { s.health with hbm := mset 0 c (steps + 1) s.health.hbm } }
    if steps < s.rd R.HEALTH_FLOOR_HBM_STEPS then
      let s := s.raise E.HEALTH_MARGIN_LOW 0 [0x20, c]
      if repaired then s else s.retireChannel c
    else s
  else s

/-- HBM_MARGIN_SWEEP. -/
def execHbmMarginSweep (channel : Fin 256) (steps : Nat) (repaired : Bool) (s : State) : Res :=
  .next (hbmMarginSweepEffect channel.val steps repaired s)

/-! ### Retraining (R461, R462) -/

/-- HBM_RETRAIN (R461): accesses of the channel wait within its refresh window; nothing else of the package changes. -/
def execHbmRetrain (_ : Fin 256) (s : State) : Res := .next s

/-- LPDDR_RETRAIN (R461): accesses of the group wait 2 µs; nothing else of the package changes. -/
def execLpddrRetrain (_ : Fin 4) (s : State) : Res := .next s

/-- NV_RETRAIN (R461): reads of the stack wait 1 ms; nothing else of the package changes. -/
def execNvRetrain (_ : Fin 4) (s : State) : Res := .next s

/-- D2D_LANE_REPLACE. -/
def execD2dLaneReplace (link : Fin 40) (lane : Nat) (s : State) : Res := .next (d2dLaneReplaceEffect link.val lane s)

/-! ### Control cores (R441) -/

/-- CORE_WATCHDOG (R441, R457): four beats without service; the core's own unit stamps the expiry (R66). -/
def coreWatchdogEffect (core : Nat) (s : State) : State :=
  (s.raiseAs (srcUnit 0x02 core) E.HEALTH_CORE_WDOG 0 [core]).resetCore core |>.afterCore

/-- CORE_WATCHDOG. -/
def execCoreWatchdog (core : Fin 8) (s : State) : Res := .next (coreWatchdogEffect core.val s)

/-- CORE_CODE_CHECK (R441, R457): a CRC other than the one measured at boot reloads the regions and resets the core, which the fault log
records (R439). Where the core meets an uncorrectable error of its own memory ECC instead, that resets it. -/
def coreCodeCheckEffect (core : Nat) (crc : BitVec 32) (ecc : Bool) (s : State) : State :=
  if ecc then (s.note (srcUnit 0x02 core) (.coreEcc core)).resetCore core |>.afterCore
  else if crc = Config.coreCrc core (crc32c (mgetList 0 s.boot.bundleCopy 0 s.bundleLen)) then s
  else (s.note (srcUnit 0x02 core) (.coreReload core)).resetCore core |>.afterCore

/-- CORE_CODE_CHECK. -/
def execCoreCodeCheck (core : Fin 8) (c : CoreCode) (s : State) : Res :=
  .next (coreCodeCheckEffect core.val c.crc c.ecc s)

/-! ### Log commits (R424, R440) -/

/-- LOG_COMMIT (R424): records and logs go to NV; none starts in supply sag (R440). -/
def execLogCommit (s : State) : Res := .next s.commitLog

/-! ### CHECK windows (R182) -/

/-- Base, limit and stride of a CHECK window. -/
def State.checkWin (s : State) (w : Nat) : Nat × Nat × Nat :=
  (s.rd R.CHECK_WIN_BASE_BASE 0 w, s.rd R.CHECK_WIN_LIMIT_LIMIT 0 w, s.rd R.CHECK_WIN_SLOT_SLOT 0 w)

/-- Whether a window may be enabled (R182); one whose LIMIT lies below its BASE may not, for its size is no multiple of
SLOT (DEDUCED, log 154). -/
def State.windowGood (s : State) (w : Nat) : Bool :=
  let (b, l, k) := s.checkWin w
  decide (k ≠ 0) && decide (b ≤ l) && decide ((l - b) % max 1 k = 0) &&
  (List.range 16).all (fun v => v = w || !s.on R.CHECK_WIN_BASE_EN 0 v ||
    (let (c, m, _) := s.checkWin v; !overlaps b (l - b) c (m - c)))

/-- CHECK_WINDOW_ENABLE (R182, R391): under a lock a clear EN stays clear. -/
def checkWindowEnableEffect (w : Nat) (s : State) : State :=
  let p := s.rd R.CHECK_WIN_SLOT_PART 0 w
  if s.on R.CHECK_WIN_BASE_EN 0 w then s
  else if s.locked p then s.raise E.PART_LOCK_VIOL p
  else if s.windowGood w then s.wr R.CHECK_WIN_BASE_EN 1 0 w
  else s.raise E.CHECK_WIN_BAD 0 [w]

/-- CHECK_WINDOW_ENABLE. -/
def execCheckWindowEnable (window : Fin 16) (s : State) : Res := .next (checkWindowEnableEffect window.val s)

end Sys2Proof.Machine
end

