-- ==== Sys2Proof/Machine/Takeover.lean ====
section
/-! DEFINITION. Takeover up to its start: the coordinator, the orders, the kit, the ready records, the pending table (R429,
R435, R440, R441, R447). -/

namespace Sys2Proof.Machine

/-! ### The takeover region (R434) -/

/-- Word 0 of the health record of a package, as last written here. -/
def State.healthOf (s : State) (q : Nat) : Nat := s.devWord (s.tkAt (64 * q))

/-- Log a takeover step in which this package takes part, and commit the log (R439, R440). The steps are firmware's, and their
source is control core 0 (R66, log 13). -/
def State.step435 (s : State) (step rank pkg : Nat) : State := (s.note 0x01 (.takeover step rank pkg)).commitLog

/-! ### The coordinator (R435, R447) -/

/-- The members whose marker of the bar has not arrived (R63). -/
def State.missing (s : State) : List Nat := s.members.filter (fun q => !s.tempo.marks.any (fun m => m.pkg = q))

/-- The coordinator in this package's view: the member of lowest rank that is not missing, after those that have timed
out (R435, R447). -/
def State.coordinator (s : State) : Option Nat :=
  (s.members.filter (fun q => !s.missing.contains q))[s.health.coordsOut]?

/-- The failed set (R435 step 1): missing members and members whose health record shows FAILED. -/
def State.failedSet (s : State) : List Nat :=
  s.members.filter (fun q => s.missing.contains q || (s.healthOf q).testBit 26)

/-- The spare for a failed package's rank (R435 step 2): eligible, not ordered and not passed over; in its rack first,
then lowest package id. -/
def State.spareFor (s : State) (c : Coord) (f : Nat) : Option Nat :=
  let free := s.ensemble.filter (fun q => (s.healthOf q).testBit 25 && !s.members.contains q &&
    !c.passed.contains q && !c.orders.any (fun o => o.pkg = q))
  match free.find? (fun q => s.rackOf 0 q = s.rackOf 0 f) with
  | some q => some q
  | none => free.head?

/-- Replace the coordinator's record. -/
def State.setCoord (s : State) (c : Coord) : State := { s with health := { s.health with coord := some c } }

/-- Order a spare for a rank whose holder failed, or report that none is left (R435). -/
def State.orderRank (s : State) (c : Coord) (rank : Nat) : Coord × State :=
  match s.spareFor c ((s.holder rank).getD 0) with
  | some q =>
    let t := s.tkWrite q 0x40000 ([rank + 2 ^ 12, c.gen, 0, 0, 0, 0, 0, 0].flatMap (toLE 8))
    ({ c with orders := c.orders ++ [(⟨rank, q, none⟩ : Order)] }, t.step435 1 rank q)
  | none => (c, (s.raise E.HEALTH_NO_SPARE 0 [rank]).mgmtTray 0x0206 [rank])

/-- The ranks held by packages. -/
def State.ranksOf (s : State) (ps : List Nat) : List Nat :=
  (s.roles.ranks.filter (fun e => ps.contains (e.2 - 1))).map (·.1)

/-- Order spares for ranks, in ascending order. -/
def State.orderRanks (s : State) (c : Coord) (ranks : List Nat) : State :=
  let x := ranks.foldl (fun (x : Coord × State) r => x.2.orderRank x.1 r) (c, s)
  x.2.setCoord x.1

/-- Coordinate, if this package is the coordinator and takes part in takeovers (R435). -/
def State.startCoord (s : State) : State :=
  if s.on R.HEALTH_CTL_TAKEOVER_EN ∧ s.coordinator = some s.pkgId ∧ s.rank.isSome = true then
    let c : Coord := ⟨s.bar + 1, s.roles.gen + 1 + s.health.coordsOut, s.failedSet, [], [], false⟩
    ((s.wr R.HEALTH_STATUS_COORD 1).step435 0 0 s.pkgId).orderRanks c (s.ranksOf s.failedSet)
  else s

/-- COORDINATOR_TIMEOUT (R447): without a table TMO beats after BARRIER_TMO, the member with the next lowest rank
coordinates. -/
def coordinatorTimeoutEffect (s : State) : State :=
  match s.health.tmoAt with
  | some t =>
    if t + s.tempo.tmoEff * 1024 ≤ s.tempo.now ∧ s.tableHere = false then
      State.startCoord { s with health := { s.health with
        coordsOut := s.health.coordsOut + 1, tmoAt := some s.tempo.now } }
    else s
  | none => s

/-- COORDINATOR_TIMEOUT. -/
def execCoordinatorTimeout (s : State) : Res := .next (coordinatorTimeoutEffect s)

/-! ### Ready records and the pending table (R435 steps 4 and 5) -/

/-- An order after a look at its ready record. -/
def State.readOrder (s : State) (gen : Nat) (o : Order) : Order :=
  let w0 := s.devWord (s.tkAt (0x40040 + 64 * o.pkg))
  if o.ok = none ∧ s.devWord (s.tkAt (0x40048 + 64 * o.pkg)) = gen ∧ bits w0 11 0 = o.rank then
    { o with ok := some (w0.testBit 12) }
  else o

/-- The pending table of a takeover (R94, R435 step 5): failed packages hold no rank in it. -/
def State.tkTable (s : State) (c : Coord) : RoleTab :=
  let kept := s.roles.ranks.filter (fun e => !c.failed.contains (e.2 - 1))
  ⟨c.gen, c.bar, s.roles.nranks, c.orders.foldl (fun m o => mset 0 o.rank (o.pkg + 1) m) kept⟩

/-- A role table as R94 lays it out. -/
def RoleTab.image (t : RoleTab) : List Byte :=
  ([t.nranks, t.gen, t.eff, 0].flatMap (toLE 8)) ++ (List.range 4096).flatMap (fun r =>
    let e := mget 0 t.ranks r
    toLE 8 (if e = 0 then 0 else e - 1 + 2 ^ 12))

/-- Write the pending table and START_BEAT to every package of the ensemble (R435 step 5). -/
def State.sendTable (s : State) (c : Coord) : State :=
  let at_ := s.beat + 8
  let t := s.ensemble.foldl (fun t q =>
    (t.tkWrite q 0x80040 (s.tkTable c).image).tkWrite q 0x88060 (toLE 8 at_)) s
  (t.setCoord { c with sent := true }).step435 3 0 s.pkgId

/-- The two cores that compute the table differ twice (R441): CORE_CHECK, both are reset, and this package does not coordinate.
That they are the first core of each die is the model's choice (DESIGN CHOICE, log 186). -/
def State.coreDiffers (s : State) : State :=
  let s := ((s.raise E.HEALTH_CORE_CHECK).resetCore 0).resetCore 4
  State.afterCore { s.wr R.HEALTH_STATUS_COORD 0 with health := { s.health with coord := none } }

/-- TAKEOVER_READY (R435 steps 4 and 5, R441, R447): the coordinator reads its ready records and its own view again; a spare
that failed is replaced; a member newly missing joins the failed set; once every order is ready the table goes out, if the two
cores that compute it `agree` on it. -/
def takeoverReadyEffect (agree : Bool) (s : State) : State :=
  match s.health.coord with
  | none => s
  | some c =>
    if c.sent then s
    else
      let os := c.orders.map (s.readOrder c.gen)
      let lost := os.filter (fun o => o.ok = some false)
      let more := s.failedSet.filter (fun q => !c.failed.contains q)
      let c := { c with
        orders := os.filter (fun o => o.ok ≠ some false), passed := c.passed ++ lost.map (·.pkg), failed := c.failed ++ more }
      let s := s.orderRanks c (lost.map (·.rank) ++ s.ranksOf more)
      match s.health.coord with
      | some c =>
        if (s.ranksOf c.failed).all (fun r => c.orders.any (fun o => o.rank = r && o.ok = some true)) then
          if agree then s.sendTable c else s.coreDiffers
        else s
      | none => s

/-- TAKEOVER_READY. -/
def execTakeoverReady (agree : Bool) (s : State) : Res := .next (takeoverReadyEffect agree s)

/-! ### The spare (R435 steps 3 and 4) -/

/-- Ask the buddy for bytes of its kit, in lines (R330, R435): the offsets asked for join those unanswered. -/
def State.askKit (s : State) (buddy off n : Nat) : State :=
  let lo := off / 64 * 64
  let at_ := s.rd R.HEALTH_TK_OFF_OFFSET + 0x100000 + lo
  (pieces at_ (ceilDiv (off + n) 64 * 64 - lo)).foldl (fun t (o, m) =>
    let p := { t.toRemote 3 0x18 buddy 0 (t.rd R.HEALTH_TK_KEY_KEY) (at_ + o) 0 with len := BitVec.ofNat 13 m }
    let t := match t.health.kit with
      | some k => { t with health := { t.health with kit := some { k with left := k.left ++ [lo + o] } } }
      | none => t
    t.issueOp 0x01 p (.kit (lo + o))) s

/-- The package that holds the mirror of a rank (R205). -/
def State.buddyOf (s : State) (rank : Nat) : Option Nat :=
  s.holder ((rank + s.rd R.CALLER_JOURNAL_OFF) % max 1 s.roles.nranks)

/-- Take an order (R435 step 3): one for the rank already in hand goes on under the new coordinator. -/
def State.takeOrder (s : State) (rank gen : Nat) : State :=
  let coord := s.coordinator.getD 0
  let s := ({ s with health := { s.health with orderGen := gen } }).step435 2 rank s.pkgId
  match s.health.kit.filter (fun k => k.rank = rank) with
  | some k => State.tryReady { s with health := { s.health with
      kit := some { k with gen := gen, coord := coord, ended := false } } }
  | none =>
    let k : Kit := ⟨rank, gen, coord, (s.buddyOf rank).getD 0, [], [], false, false, false, false⟩
    let s := { s with health := { s.health with kit := some k } }
    match s.buddyOf rank with
    | some b => s.askKit b 0 64
    | none => s.sendReady false

/-- TAKEOVER_ORDER (R435 step 3): a spare finds a new order in its takeover region. -/
def takeoverOrderEffect (s : State) : State :=
  let w0 := s.devWord (s.tkAt 0x40000)
  let gen := s.devWord (s.tkAt 0x40008)
  if s.on R.HEALTH_CTL_TAKEOVER_EN ∧ s.rank.isNone = true ∧ w0.testBit 12 = true ∧ s.health.orderGen < gen then
    s.takeOrder (bits w0 11 0) gen
  else s

/-- TAKEOVER_ORDER. -/
def execTakeoverOrder (s : State) : Res := .next (takeoverOrderEffect s)

/-- Bytes of the kit that have come. -/
def Kit.get (k : Kit) (off n : Nat) : List Byte := mgetList 0 k.bytes off n

/-- Offset and length of a part of the kit: 2 the manifest, 3 the source table, 4 the image (R434). -/
def Kit.part (k : Kit) (w : Nat) : Nat × Nat := (ofLE (k.get (8 * w) 4), ofLE (k.get (8 * w + 4) 4))

/-- A part's bytes. -/
def Kit.bytesOf (k : Kit) (w : Nat) : List Byte := k.get (k.part w).1 (k.part w).2

/-- The locked serving partition whose Sets an image names (R69, R390). -/
def State.partForImage (s : State) (a : Nat) : Option Nat :=
  (List.range 16).find? (fun p => s.locked p && !s.on R.PART_CTL_KIND p &&
    onlyBits (bits (s.figWord a 2) 47 0) (s.rd R.PART_SETS_SETS p))

/-- Load the kit's image (R70, R435, R468; log 63): none where it does not verify or is not the rank's. -/
def State.loadKitImage (s : State) (k : Kit) : Option State :=
  let a := Config.kitImageAt k.gen
  let bs := k.bytesOf 4
  let t := s.devSet a bs
  match t.partForImage a with
  | none => none
  | some p =>
    if t.figGood p a bs.length (sha384 bs) ∧ bits (t.figWord a 0) 59 48 = k.rank then
      (t.figIndex p k.rank).map (fun i => (t.holdFig (t.figImage p i a (s.bar + 1) (sha384 bs))).measure)
    else none

/-- The whole kit has come (R435 steps 3 and 4): the image is loaded, the fill starts; what fails ends with OK 0. -/
def State.kitWhole (s : State) (k : Kit) : State :=
  let m := k.bytesOf 2
  let src := k.bytesOf 3
  if s.manStatus m ≠ 0 ∨ manRank m ≠ k.rank ∨ s.weights.fill.isSome = true ∨ s.weights.staging.isSome = true then
    s.sendReady false
  else match s.loadKitImage k with
    | none => s.sendReady false
    | some t =>
      let t := { t with health := { t.health with kit := some { k with image := true } } }
      t.startFill none m src ((src.length - 2 * manShards m) / 8)

/-- The header has come: ask for the three parts (R434). -/
def State.askParts (s : State) (k : Kit) : State :=
  if bits (ofLE (k.get 0 8)) 11 0 ≠ k.rank then s.sendReady false
  else
    let s := { s with health := { s.health with kit := some { k with parts := true } } }
    [2, 3, 4].foldl (fun t w => t.askKit k.buddy (k.part w).1 (k.part w).2) s

/-- A kit read is answered (R338, R435): marked or refused bytes end the order with OK 0. -/
def State.kitAnswer (s : State) (off st : Nat) (data : List MarkByte) : State :=
  match s.health.kit with
  | none => s
  | some k =>
    if k.left.contains off = false then s
    else
      let k := { k with bytes := msetList 0 off (data.map (·.1)) k.bytes, left := k.left.erase off }
      let s := { s with health := { s.health with kit := some k } }
      if st ≠ 0 ∨ data.any (·.2) = true then s.sendReady false
      else if k.left ≠ [] ∨ k.ended = true then s
      else if k.parts then s.kitWhole k
      else s.askParts k

end Sys2Proof.Machine
end

