-- ==== Sys2Proof/Machine/Restore.lean ====
section
/-! DEFINITION. Restoring the sequences of a rank taken over, from its mirror (R206, R436). -/

namespace Sys2Proof.Machine

/-- Bytes of the entries in a mirror (R205). -/
def mirrorEntries : Nat := 0x04000000

/-- Offset of an entry's history in the mirror (R205): both packages lay their history memory out alike (log 68). -/
def State.histOff (s : State) (e : Entry) : Nat := mirrorEntries + (e.histPtr - s.rd R.CALLER_HIST_BASE_BASE)

/-- Ask for bytes of the mirror, in lines: the offsets asked for join those unanswered (R330). -/
def State.askMirror (s : State) (off n : Nat) : State :=
  let lo := off / 64 * 64
  let at_ := s.rd R.CALLER_JOURNAL_OFFSET_OFFSET + lo
  (pieces at_ (ceilDiv (off + n) 64 * 64 - lo)).foldl (fun t (o, m) =>
    match t.health.restore with
    | some x =>
      let p := { t.toRemote 3 0x18 x.from_ (t.rd R.CALLER_JOURNAL_PART) (t.rd R.CALLER_JOURNAL_KEY) (at_ + o) 0 with
        len := BitVec.ofNat 13 m }
      let t := { t with health := { t.health with restore := some { x with left := x.left ++ [lo + o] } } }
      t.issueOp (srcUnit 0x40 t.callerInst) p (.restore (lo + o))
    | none => t) s

/-- Start restoring a rank (R206, R435 step 7). -/
def State.startRestore (s : State) (rank : Nat) : State :=
  match s.buddyOf rank with
  | some b => ({ s with health := { s.health with restore := some ⟨b, [], [], [], false⟩ } }).askMirror 0 mirrorEntries
  | none => s

/-- Bytes of the mirror that have come. -/
def Restore.get (x : Restore) (off n : Nat) : List Byte := mgetList 0 x.bytes off n

/-- Whether a piece that holds a byte of a range came marked or was refused. -/
def Restore.spoilt (x : Restore) (off n : Nat) : Bool := x.bad.any (fun o => overlaps o 4096 off n)

/-- Whether the mirror holds an entry at an index: a place of zeros was never written (R186). -/
def Restore.written (x : Restore) (i : Nat) : Bool := x.bytes.any (fun e => decide (e.1 / 256 = i)) || x.spoilt (256 * i) 256

/-- The mirror entry at an index, if its CRC is good (R206). -/
def Restore.entry (x : Restore) (i : Nat) : Option Entry :=
  let bs := x.get (256 * i) 256
  if x.spoilt (256 * i) 256 = false ∧ imageGood bs = true then some (entryFrom bs) else none

/-- Whether an entry is restored (R206): live, and not finished. -/
def Entry.restorable (e : Entry) : Bool := e.state ≠ 0 && e.state ≠ 7 && decide (e.generated < e.maxNew)

/-- Whether one entry goes before another (R206): by CLASS, then ADMIT_STAMP, then index. -/
def restoreBefore (a b : Nat × Entry) : Bool :=
  decide (a.2.cls < b.2.cls) || (a.2.cls = b.2.cls && (decide (a.2.admitStamp < b.2.admitStamp) ||
    (a.2.admitStamp = b.2.admitStamp && decide (a.1 < b.1))))

/-- Insert an entry in the order of R206. -/
def restoreInsert (a : Nat × Entry) : List (Nat × Entry) → List (Nat × Entry)
  | [] => [a]
  | b :: r => if restoreBefore a b then a :: b :: r else b :: restoreInsert a r

/-- The indices of the mirror that hold something. -/
def Restore.indices (x : Restore) : List Nat :=
  ((x.bytes.map (fun (e : Nat × Byte) => e.1 / 256)).eraseDups ++
    x.bad.flatMap (fun o => if o < mirrorEntries then (List.range 16).map (o / 256 + ·) else [])).eraseDups.filter
    (fun i => decide (i < 262144))

/-- The entries to restore, in order (R206). -/
def Restore.todo (x : Restore) : List (Nat × Entry) :=
  (x.indices.filterMap (fun i => (x.entry i).map (fun e => (i, e)))).foldl
    (fun l a => if a.2.restorable then restoreInsert a l else l) []

/-- The new entry of a sequence restored (R206). -/
def State.restoredEntry (s : State) (m : Entry) (i : Nat) (d : Deal) : Entry :=
  Entry.promise { Entry.init with
    state := 1, part := m.part, cls := m.cls, rehomed := true, atRisk := s.power.held, gen := (s.seq i).gen
    epoch := s.rd R.PROM_EPOCH_EPOCH, tag := m.tag, home := s.pkgId, buddy := s.buddy.getD 0, cq := m.cq, slot := 0x1FFF
    promptLen := m.promptLen + m.generated, maxNew := m.maxNew, generated := m.generated, kvRoot := m.kvRoot
    histPtr := m.histPtr, histCap := m.histCap, dres := m.dres, heads := m.heads, acc := s.specInit m.part } d
    (s.rd R.TEMPO_BAR_CFG_BAR_LEN) s.stamp

/-- Restore the sequence at a mirror index (R206, R374): its history goes into history memory, and it is admitted, or lost. -/
def State.restoreOne (s : State) (x : Restore) (j : Nat) (m : Entry) : State :=
  let h := m.promptLen + m.generated
  let old := j + m.gen * 2 ^ 18 + m.home * 2 ^ 34
  let lost := fun (t : State) =>
    (t.queueEntry 262144 m.part m.cq (entryWords 3 stLost 0 false m.tag old [])).flushWaiting
  let a : Ask := ⟨m.part, m.cls, h, m.maxNew - m.generated, 0, s.tempo.now, s.floorBar, none, true⟩
  if x.spoilt (s.histOff m) (4 * h) then lost s
  else match s.decideAsk a, s.nextIndex with
    | .ok d, some i =>
      let bs := x.get (s.histOff m) (4 * h)
      let s := (s.reserve a i d).seatEntry i (s.restoredEntry m i d)
      let s := (s.devSet m.histPtr bs).mirrorHist i m.histPtr bs
      s.seqEvent i stRehomed (s.handle i) ((s.seq i).dealWords ++ [old])
    | _, _ => lost s

/-- The HOST_TAG of a mirror index whose entry fails, with what its ring is told beside it, where its history record is intact (R436;
log 119). -/
def Restore.tag (x : Restore) (i : Nat) : Option (BitVec 64 × Nat × BitVec 4 × BitVec 4) :=
  Config.historyTag i (x.get (256 * i) 256)

/-- Report a sequence whose mirror entry fails as LOST on this package's rings (R436). -/
def State.lostTagged (s : State) (x : BitVec 64 × Nat × BitVec 4 × BitVec 4) : State :=
  let (tag, old, p, cq) := x
  (s.queueEntry 262144 p.toNat cq.toNat (entryWords 3 stLost 0 false tag.toNat old [])).flushWaiting

/-- The whole mirror has come (R206, R436): an index that yields no entry is LOST on its ring by its HOST_TAG, and reported to the
tray where it yields none. -/
def State.restoreAll (s : State) (x : Restore) : State :=
  let s := { s with health := { s.health with restore := none } }
  let s := x.todo.foldl (fun (t : State) (e : Nat × Entry) => t.restoreOne x e.1 e.2) s
  let lost := x.indices.filter (fun i => x.written i && (x.entry i).isNone)
  let s := (lost.filterMap x.tag).foldl State.lostTagged s
  let none_ := lost.filter (fun i => (x.tag i).isNone)
  if none_.isEmpty then s else s.emit (.lostSequences none_)

/-- A read of the mirror is answered (R206): after the entries, the histories are asked for. -/
def State.restoreAnswer (s : State) (off st : Nat) (data : List MarkByte) : State :=
  match s.health.restore with
  | none => s
  | some x =>
    if x.left.contains off = false then s
    else
      let good : Bool := decide (st = 0) && !data.any (·.2)
      let x := { x with
        bytes := if good then msetList 0 off (data.map (·.1)) x.bytes else x.bytes
        left := x.left.erase off, bad := if good then x.bad else x.bad ++ [off] }
      let s := { s with health := { s.health with restore := some x } }
      if x.left.isEmpty = false then s
      else if x.hist ∨ x.todo.isEmpty then s.restoreAll x
      else
        let s := { s with health := { s.health with restore := some { x with hist := true } } }
        x.todo.foldl (fun (t : State) (e : Nat × Entry) => t.askMirror (t.histOff e.2) (4 * (e.2.promptLen + e.2.generated))) s

end Sys2Proof.Machine
end

