-- ==== Sys2Proof/Machine/Answer.lean ====
section
/-! DEFINITION. Answers to the package's own operations, dead targets, and the answers to its reads of host memory (R205,
R335, R336, R338 to R341, R359, R360, R369, R399). -/

namespace Sys2Proof.Machine

/-- The status of an operation that its deadline resolved (R334, R339). -/
def stDead : Nat := 0xFE

/-! ### Threads (R341) -/

/-- A thread context of a tile. -/
def State.thread (s : State) (tile th : Nat) : Thread := mget Thread.init s.threads (16 * tile + th)

/-- Replace it. -/
def State.setThread (s : State) (tile th : Nat) (x : Thread) : State :=
  { s with threads := mset Thread.init (16 * tile + th) x s.threads }

/-- Give a tile's turn to a context, as its number plus 1; 0 idles. -/
def State.setTurn (s : State) (tile v : Nat) : State := { s with turns := mset 0 tile v s.turns }

/-- The answer wakes a waiting thread; on an idle tile it is its turn (R341). -/
def State.wake (s : State) (tile th : Nat) (data : List MarkByte) : State :=
  let x := s.thread tile th
  if x.waits then
    let s := s.setThread tile th { x with waits := false, answer := data.map (·.1), mark := data.any (·.2) }
    if mget 0 s.turns tile = 0 then s.setTurn tile (th + 1) else s
  else s

/-! ### What an answer does -/

/-- A write of the mirror is answered (R205): one that did not arrive is a lost journal. -/
def State.mirrorAnswer (s : State) (num st : Nat) : State :=
  match s.caller.mirror.find? (fun m => m.num = num) with
  | some m => if st = 0 then s.mirrorDone num else (s.callerRaise E.CALLER_JOURNAL_LOST [m.index]).mirrorDone num
  | none => s

/-- Hand an answer to the issuer: a status of R328 or DEAD, and data. -/
def State.deliverAnswer (s : State) (o : Op) (st : Nat) (data : List MarkByte) : State :=
  match o.owner with
  | .fcopy set idx => s.fcopyAnswer set idx o.reqid st
  | .scommit set _ => s.scommitAnswer set st
  | .copyPart _ num off => s.partAnswer num off o.reqid st data
  | .copyCommit _ num => s.partAnswer num 0 o.reqid st []
  | .reel _ _ _ => s
  | .mirror num => s.mirrorAnswer num st
  | .core => s
  | .kit off => s.kitAnswer off st data
  | .restore off => s.restoreAnswer off st data
  | .thread tile th waits => if waits then s.wake tile th data else s

/-- Bytes of the dead-target value (R339): every word of them. -/
def deadBytes (n : Nat) : List Byte :=
  (List.range n).map (fun i => (toLE 4 0xDEADFA11).getD (i % 4) 0)

/-- What a LOAD or an ATOMIC returns that got no value (R339): a LOAD's lines carry the mark. -/
def Op.deadData (o : Op) : List MarkByte :=
  if o.typ = 0x18 then (deadBytes o.pkt.len.toNat).map (fun b => (b, true))
  else if o.typ = 0x1A then
    clean (if o.pkt.wide then deadBytes 8 else deadBytes 4 ++ List.replicate 4 0)
  else []

/-- Whether a type returns a value. -/
def returnsValue (typ : Nat) : Bool := typ = 0x18 || typ = 0x1A

/-- Resolve an operation with a refusal (R328, R339). -/
def State.refusedOp (s : State) (o : Op) (st : Nat) : State :=
  let s := if returnsValue o.typ then s.raiseAs o.unit E.FAB_REMOTE_REFUSED 0 [o.unit, o.dst] else s
  let s := match o.owner.engine with
    | some e => s.raise E.COPY_REFUSED e [o.dst, st]
    | none => s
  (s.deliverAnswer o st o.deadData).closeOp o

/-- An answer comes for an operation (R339, R340, R399): absorbed, a refusal, or its value. -/
def State.resolve (s : State) (o : Op) (st : Nat) (data : List MarkByte) : State :=
  match o.absorb with
  | some p => (s.bump R.PART_ABSORBED_ANSWERS 1 p).closeOp o
  | none => if st ≠ 0 then s.refusedOp o st else (s.deliverAnswer o 0 data).closeOp o

/-- The open operation that an answer names (R340). -/
def State.openOp (s : State) (p : Pkt) : Option Op :=
  s.fab.ops.find? (fun o => o.unit = p.unit.toNat && o.reqid % 65536 = p.reqid.toNat && o.dst = p.src.val && !o.waiting)

/-- Discard an answer as late: the port it came in on detects it (R340, R351). -/
def State.lateAnswer (s : State) (p : Pkt) : State := s.raiseAs p.portUnit E.FAB_LATE_RESP 0 [p.src.val, p.unit.toNat]

/-! ### Dead targets (R336, R339) -/

/-- Resolve an operation whose deadline has come (R339): the source of the fault is the unit that issued it (R66). -/
def State.deadOp (s : State) (o : Op) : State :=
  let s := s.raiseAs o.unit E.FAB_DEAD_TARGET 0 [o.unit, o.dst]
  let s := ((s.wr R.FAB_LAST_DEAD_PKG o.dst).wr R.FAB_LAST_DEAD_UNIT o.unit).wr R.FAB_LAST_DEAD_STAMP_STAMP s.stamp
  let s := match o.owner.engine with
    | some e => s.raise E.COPY_DEAD_TARGET e [o.dst]
    | none => s
  (s.deliverAnswer o stDead o.deadData).closeOp o

/-- Whether an operation resolves once `n` ticks more have passed after its deadline (R339); one whose answers are absorbed does
not (R399). -/
def State.lapsed (s : State) (o : Op) (n : Nat) : Bool :=
  !o.waiting && o.absorb.isNone && s.passed o.stamp (s.rd R.FAB_DEAD_BEATS * 1024 + n)

/-- DEAD_TARGET (R339, R349): an operation of a unit by its REQID, once the tick of its deadline is over: an answer in that tick
still counts. -/
def deadTargetEffect (unit reqid : Nat) (s : State) : State :=
  match s.fab.ops.find? (fun o => o.unit = unit && o.reqid % 65536 = reqid && s.lapsed o 1) with
  | some o => s.deadOp o
  | none => s

/-- At the end of a tick, every operation whose deadline it was, and which no answer has reached, resolves (R339, R349). -/
def State.endDead (s : State) : State :=
  (s.fab.ops.filter (s.lapsed · 0)).foldl (fun t o =>
    match t.fab.ops.find? (fun x => x.unit = o.unit && x.reqid = o.reqid) with
    | some x => t.deadOp x
    | none => t) s

/-- DEAD_TARGET. -/
def execDeadTarget (unit : BitVec 8) (reqid : BitVec 16) (s : State) : Res := .next (deadTargetEffect unit.toNat reqid.toNat s)

/-! ### Answers that arrive (R335, R340) -/

/-- Take an answer, or discard it as late (R340); one that comes after the tick of the deadline finds the operation resolved
(R339). -/
def State.answered (s : State) (p : Pkt) (fits : Nat → Bool) (data : List MarkByte) : State :=
  match s.openOp p with
  | some o =>
    if fits o.typ = false then s.lateAnswer p
    else if s.lapsed o 1 then (s.deadOp o).lateAnswer p
    else s.resolve o p.status.toNat data
  | none => s.lateAnswer p

/-- ACK (R335, R340): of a write or a commit; for a LOAD or an ATOMIC only as a refusal. -/
def ackEffect (p : Pkt) (s : State) : State :=
  s.answered p (fun t => !returnsValue t || decide (p.status.toNat ≠ 0)) []
/-- ACK. -/
def execAck (p : Pkt) (s : State) : Res := .next (if s.hears p then ackEffect p s else s)

/-- LDATA (R338, R340). -/
def ldataEffect (p : Pkt) (s : State) : State := s.answered p (fun t => t = 0x18) (pktData p)
/-- LDATA. -/
def execLdata (p : Pkt) (s : State) : Res := .next (if s.hears p then ldataEffect p s else s)

/-- ARESP (R330, R340). -/
def arespEffect (p : Pkt) (s : State) : State :=
  s.answered p (fun t => t = 0x1A) (clean ((List.range 8).map (fun i => p.data.getD i 0)))
/-- ARESP. -/
def execAresp (p : Pkt) (s : State) : Res := .next (if s.hears p then arespEffect p s else s)

/-! ### Answers to reads of host memory (R359, R360, R369) -/

/-- A host read is answered, or has failed. -/
def State.hostAnswer (s : State) (tag : Nat) (d : HostData) : State :=
  match s.xferOf tag with
  | none => s
  | some x => match x.why, arrived d x.ask with
    | .toDevice r, some bs => s.copyArrived r x bs
    | .toDevice r, none => s.failCopy r
    | .prompt i gen, some bs => s.promptArrived i gen x (if bs.any (·.2) then none else some bs)
    | .prompt i gen, none => s.promptArrived i gen x none

/-- HOST_READ_COMPLETION (R359, R360). -/
def hostReadCompletionEffect (tag : Nat) (d : HostData) (s : State) : State :=
  if (s.xferOf tag).isSome then (s.aerRead d).hostAnswer tag d else s
/-- HOST_READ_COMPLETION. -/
def execHostReadCompletion (tag : Nat) (d : HostData) (s : State) : Res := .next (hostReadCompletionEffect tag d s)

/-- COMPLETION_TIMEOUT (R359): the read has failed. -/
def completionTimeoutEffect (tag : Nat) (s : State) : State :=
  if (s.xferOf tag).isSome then (s.logAer .timeout).hostAnswer tag .failed else s
/-- COMPLETION_TIMEOUT. -/
def execCompletionTimeout (tag : Nat) (s : State) : Res := .next (completionTimeoutEffect tag s)

end Sys2Proof.Machine
end

