-- ==== Sys2Proof/Machine/Pcie.lean ====
section
/-! DEFINITION. Ring groups, functions, links and interrupts of the endpoint (R354 to R362, R382, R383, R386). -/

namespace Sys2Proof.Machine

/-! ### Groups and functions (R355, R356, R362, R386) -/

/-- Vendor ID, Device ID, class code and Revision ID of a function (R355); Shuile's vendor identifier is given elsewhere. -/
def State.fnIds (s : State) (fn : Nat) : Nat × Nat × Nat × Nat :=
  (0x1F3D, if fn = 0 then 0x7120 else 0x7121, 0x120000, s.fuses.stepping)

/-- What the SR-IOV capability reports: TotalVFs, InitialVFs, First VF Offset and VF Stride (R355). -/
def sriov : Nat × Nat × Nat × Nat := (16, 16, 1, 1)

/-- The function number of VF `v` in its Requester ID, which ARI gives all eight bits (R355): the VFs follow the PF, function 0. -/
def vfFunction (v : Nat) : Nat := sriov.2.2.1 + sriov.2.2.2 * (v - 1)

/-- The doorbell page and the offset in it that an offset of a function's BAR2 reaches, where a doorbell lies there (R357,
R365). -/
def bellAt (fn a : Nat) : Option (Nat × Nat) :=
  let (g, off) := if fn = 0 then (a / 0x1000, a % 0x1000) else (fn - 1, a)
  let bell := off = 0 || (off % 8 = 0 && (inRange 0x40 0xB8 off || inRange 0x100 0x178 off))
  if bell && decide (g ≤ 16) then some (g, off) else none

/-- A write to a function's BAR2 (R357, R365): the doorbell that lies there, or nothing. -/
def State.writeBar2 (s : State) (fn a size v : Nat) : State := match bellAt fn a with
  | some (g, off) => s.ring g off (fn = 0) size (v % 65536)
  | none => s

/-- Whether VF Enable and NumVFs give a group to its VF (R355). -/
def State.vfWants (s : State) (g : Nat) : Bool := s.host.vfEnable && decide (g < 16) && decide (g < s.host.numVfs)

/-- A group whose EN is 0 takes the function that the SR-IOV settings give it (R356). -/
def State.refitVf (s : State) (g : Nat) : State :=
  if s.on R.PCIE_GRP_CTL_EN 0 g then s else s.wr R.PCIE_GRP_CTL_VF (b2n (s.vfWants g)) 0 g

/-- Entries of a CQ behind its ring, dropped and counted with the group's EN (R362, R380). -/
def State.emptyCq (s : State) (g c : Nat) : State :=
  let x := s.cq g c
  let n := x.blCount + x.waiting.length
  let s := s.setCq g c .init
  (List.range n).foldl (fun t _ => t.cqDrop g) s

/-- Clear a group's EN (R362). -/
def State.groupOff (s : State) (g : Nat) : State :=
  if s.on R.PCIE_GRP_CTL_EN 0 g then
    ((List.range 16).foldl (fun t c => t.emptyCq g c) (s.wr R.PCIE_GRP_CTL_EN 0 0 g)).refitVf g
  else s

/-- Start a completion ring at index 0 with PHASE 1 (R378, R386). -/
def State.startCq (s : State) (g c : Nat) : State :=
  if s.on R.PCIE_CQ_CFG_EN 0 g c then
    (((s.wr R.PCIE_CQ_CFG_HEAD 0 0 g c).wr R.PCIE_CQ_CFG_TAIL 0 0 g c).wr R.PCIE_CQ_CFG_PHASE 1 0 g c).setCq g c .init
  else s

/-- Set a group's EN (R386). -/
def State.groupOn (s : State) (g : Nat) : State :=
  let s := ((s.wr R.PCIE_GRP_CTL_EN 1 0 g).wr R.PCIE_GRP_SQ_CFG_HEAD 0 0 g).wr R.PCIE_GRP_SQ_CFG_TAIL 0 0 g
  (List.range 16).foldl (fun t c => t.startCq g c) s

/-- GROUP_ENABLE (R362, R386). -/
def groupEnableEffect (g : Nat) (on : Bool) (s : State) : State :=
  if on then (if s.on R.PCIE_GRP_CTL_EN 0 g then s else s.groupOn g) else s.groupOff g

/-- GROUP_ENABLE. -/
def execGroupEnable (grp : GroupId) (on : Bool) (s : State) : Res := .next (groupEnableEffect grp.val on s)

/-- VF_ENABLE (R355, R356). -/
def vfEnableEffect (on : Bool) (n : Nat) (s : State) : State :=
  (List.range 16).foldl (fun t g => t.refitVf g) { s with host := { s.host with vfEnable := on, numVfs := n } }

/-- VF_ENABLE. -/
def execVfEnable (enable : Bool) (numVfs : Fin 17) (s : State) : Res := .next (vfEnableEffect enable numVfs.val s)

/-- Forget a function's own state: bus mastering, D-state, interrupt masks (PCI Express; log 32). -/
def State.fnReset (s : State) (fn : Nat) : State :=
  let mine := fun (x : Nat) => decide (x / 2048 = fn)
  { s with host := { s.host with
      bme := s.host.bme - (if s.host.bme.testBit fn then 2 ^ fn else 0)
      d3 := s.host.d3 - (if s.host.d3.testBit fn then 2 ^ fn else 0)
      msixTab := mkeep (fun x => !mine x) s.host.msixTab
      unmasked := s.host.unmasked.filter (fun x => !mine x)
      pba := s.host.pba.filter (fun x => !mine x) } }

/-- Clear EN of the groups that a test picks. -/
def State.groupsOff (s : State) (p : Nat → Bool) : State :=
  ((List.range 17).filter p).foldl (fun t g => t.groupOff g) s

/-- PF_FLR (R362): EN of every group that the PF serves clears; no partition resets. -/
def pfFlrEffect (s : State) : State :=
  (s.groupsOff (fun g => !s.on R.PCIE_GRP_CTL_VF 0 g)).fnReset 0

/-- PF_FLR. -/
def execPfFlr (s : State) : Res := .next (pfFlrEffect s)

/-- Every function's state ends, and EN of every group clears (R362). -/
def State.allFnReset (s : State) : State :=
  let s := s.groupsOff (fun _ => true)
  let h := { s.host with bme := 0, d3 := 0, msixTab := [], unmasked := [], pba := [], vfEnable := false, numVfs := 0 }
  (List.range 16).foldl (fun t g => t.refitVf g) { s with host := h }

/-- HOT_RESET (R362). -/
def hotResetEffect (s : State) : State := s.allFnReset

/-- HOT_RESET. -/
def execHotReset (s : State) : Res := .next (hotResetEffect s)

/-! ### The link (R354, R386) -/

/-- PCIE_LINK_DOWN (R362). -/
def pcieLinkDownEffect (s : State) : State := ((s.wr R.PCIE_LINK_UP 0).raise E.PCIE_LINK_DOWN).allFnReset

/-- PCIE_LINK_DOWN. -/
def execPcieLinkDown (s : State) : Res := .next (pcieLinkDownEffect s)

/-- Whether the endpoint trains at a rate, a width and a mode (R354): x1, x4 and x8 only, and flit mode always at 64 and 128
GT/s. -/
def linkTrains (speed width : Nat) (flit : Bool) : Bool :=
  inRange 1 7 speed && [1, 4, 8].contains width && (flit || decide (speed < 6))

/-- PCIE_LINK_UP (R354, R386): the link trains to MAX_SPEED at most; one below 128 GT/s or x8 raises DEGRADED and serves as trained. -/
def pcieLinkUpEffect (speed width : Nat) (flit : Bool) (s : State) : State :=
  if linkTrains speed width flit = false ∨ s.rd R.PCIE_LINK_CFG_MAX_SPEED < speed then s else
  let s := (((s.wr R.PCIE_LINK_SPEED speed).wr R.PCIE_LINK_WIDTH width).wr R.PCIE_LINK_FLIT (b2n flit)).wr R.PCIE_LINK_UP 1
  if speed < 7 ∨ width < 8 then s.raise E.PCIE_DEGRADED else s

/-- PCIE_LINK_UP. -/
def execPcieLinkUp (speed : Fin 8) (width : Fin 9) (flitMode : Bool) (s : State) : Res :=
  .next (pcieLinkUpEffect speed.val width.val flitMode s)

/-- PCIE_RETRAIN (R386): the link trains again, to MAX_SPEED at most; its outcome comes as a link event. -/
def pcieRetrainEffect (s : State) : State := s.emit (.retrain (s.rd R.PCIE_LINK_CFG_MAX_SPEED))

/-- PCIE_RETRAIN. -/
def execPcieRetrain (s : State) : Res := .next (pcieRetrainEffect s)

/-- EP_RX (R360): a poisoned write to BAR0 or BAR2 is discarded. -/
def epRxEffect (s : State) : State := s.raise E.PCIE_EP_RX

/-- EP_RX. -/
def execEpRx (s : State) : Res := .next (epRxEffect s)

/-! ### Bus mastering and power states (R358) -/

/-- A mask with one bit put to a value. -/
def putBit (m n : Nat) (on : Bool) : Nat :=
  if m.testBit n then (if on then m else m - 2 ^ n) else if on then m + 2 ^ n else m

/-- Drain the backlogs of a group, as its host has room (R380). -/
def State.drainGroup (s : State) (g : Nat) : State :=
  (List.range 16).foldl (fun t c => t.cqDrain g c ((t.cq g c).blCount + (t.cq g c).waiting.length)) s

/-- Send the messages of a function's entries that are pending and not masked, once it may (R358, R383). -/
def State.sendPending (s : State) (fn : Nat) : State :=
  let due := fun (k : Nat) => decide (k / 2048 = fn) && s.host.unmasked.contains k && s.fnOk fn
  (s.host.pba.filter due).foldl (fun t k => t.message (fn, k % 2048))
    { s with host := { s.host with pba := s.host.pba.filter (fun k => !due k) } }

/-- Go on with what waited for a function to reach the host. -/
def State.busBack (s : State) (fn : Nat) : State :=
  (((List.range 17).filter (fun g => s.fnOf g = fn)).foldl (fun t g => t.drainGroup g) (s.sendPending fn)).pump

/-- BUS_MASTER_ENABLE (R358). -/
def busMasterEnableEffect (fn : Nat) (on : Bool) (s : State) : State :=
  ({ s with host := { s.host with bme := putBit s.host.bme fn on } }).busBack fn

/-- BUS_MASTER_ENABLE. -/
def execBusMasterEnable (fn : GroupId) (on : Bool) (s : State) : Res := .next (busMasterEnableEffect fn.val on s)

/-- POWER_STATE_D3HOT (R358): the group of a function in D3hot issues nothing; the rest of the package is unchanged. -/
def powerStateD3hotEffect (fn : Nat) (entered : Bool) (s : State) : State :=
  ({ s with host := { s.host with d3 := putBit s.host.d3 fn entered } }).busBack fn

/-- POWER_STATE_D3HOT. -/
def execPowerStateD3hot (fn : GroupId) (entered : Bool) (s : State) : Res :=
  .next (powerStateD3hotEffect fn.val entered s)

/-! ### Interrupts (R382, R383) -/

/-- MSIX_TIMEOUT (R383): TIME ticks after its oldest unsignalled entry, one message covers them all. -/
def msixTimeoutEffect (g c : Nat) (s : State) : State :=
  let x := s.cq g c
  if 0 < x.unsig ∧ x.oldest + s.rd R.PCIE_CQ_IRQ_TIME 0 g c ≤ s.tempo.now ∧ s.on R.PCIE_CQ_IRQ_IEN 0 g c = true ∧
      s.hostOk g = true then s.signalCq g c else s

/-- MSIX_TIMEOUT. -/
def execMsixTimeout (grp : GroupId) (cq : CqId) (s : State) : Res := .next (msixTimeoutEffect grp.val cq.val s)

/-- Entries of a function's MSI-X table, and where its Pending Bit Array lies (R357). -/
def msixPlace (fn : Nat) : Nat × Nat := if fn = 0 then (2048, 0x8000) else (64, 0x800)

/-- Mask or unmask an entry of a function's MSI-X table; the message of a pending one goes out when it is unmasked (R383). -/
def State.maskEntry (s : State) (fn n : Nat) (mask : Bool) : State :=
  let k := msixKey (fn, n)
  let l := s.host.unmasked.filter (· ≠ k)
  let s := { s with host := { s.host with unmasked := if mask then l else l ++ [k] } }
  if mask = false ∧ s.host.pba.contains k ∧ s.fnOk fn = true then
    State.message { s with host := { s.host with pba := s.host.pba.filter (· ≠ k) } } (fn, n)
  else s

/-- An aligned 64-bit word of a function's BAR4 (R357): address, then data and Vector Control; the pending bits; 0 elsewhere. -/
def State.bar4Word (s : State) (fn a : Nat) : Nat :=
  let (n, pba) := msixPlace fn
  if a < 16 * n then
    let x := mget (0, 0) s.host.msixTab (msixKey (fn, a / 16))
    if a % 16 = 0 then x.1 else x.2 + b2n (!s.host.unmasked.contains (msixKey (fn, a / 16))) * 2 ^ 32
  else if pba ≤ a ∧ a < pba + n / 8 then
    sumOf ((List.range 64).map (fun i => b2n (s.host.pba.contains (msixKey (fn, 8 * (a - pba) + i))) * 2 ^ i))
  else 0

/-- A write of an aligned 64-bit word of a function's BAR4: the table takes it, with the mask bit of Vector Control; the pending bits
and reserved space do not (R357, R383). -/
def State.writeBar4Word (s : State) (fn a v : Nat) : State :=
  if a < 16 * (msixPlace fn).1 then
    let k := msixKey (fn, a / 16)
    let x := mget (0, 0) s.host.msixTab k
    let put := fun (y : Nat × Nat) => { s with host := { s.host with msixTab := mset (0, 0) k y s.host.msixTab } }
    if a % 16 = 0 then put (v / 4 * 4, x.2) else (put (x.1, v % 2 ^ 32)).maskEntry fn (a / 16) (v.testBit 32)
  else s

/-- MSIX_UNMASK (R382, R383): the mask of the entry that a group's vector uses clears; a pending one's message is sent. -/
def msixUnmaskEffect (g v : Nat) (s : State) : State := s.maskEntry (s.msixEntry g v).1 (s.msixEntry g v).2 false

/-- MSIX_UNMASK. -/
def execMsixUnmask (grp : GroupId) (vec : Fin 64) (s : State) : Res := .next (msixUnmaskEffect grp.val vec.val s)

end Sys2Proof.Machine
end

