-- ==== Sys2Proof/Machine/Quinbingo.lean ====
section
/-! DEFINITION. Quinbingo compatibility mode, as far as this part's manual goes: the launch of threads, their remote
operations and their turns (R341, R370). -/

namespace Sys2Proof.Machine

/-- Whether a context can run: it was launched and waits for no answer. -/
def Thread.ready (x : Thread) : Bool := x.run.isSome && !x.waits

/-- The next ready context of a tile after one, in ascending order from 15 to 0 and round, as its number plus 1 (R341). -/
def State.nextReady (s : State) (tile th : Nat) : Nat :=
  match ((List.range 16).map (fun i => (th + 1 + i) % 16)).find? (fun c => (s.thread tile c).ready) with
  | some c => c + 1
  | none => 0

/-- Start a thread in every context of the tiles of some Sets (R341; log 66). -/
def State.launchThreads (s : State) (r : Req) (mask : Nat) : State :=
  (maskBits 48 mask).foldl (fun t set => (List.range 8).foldl (fun t i =>
    let tile := 8 * set + i
    let t := (List.range 16).foldl (fun t th =>
      t.setThread tile th ⟨some r, r.f 3 47 0, r.f 5 47 0, false, [], false⟩) t
    t.setTurn tile 1) t) s

/-- Whether threads of a mask's tiles still run. -/
def State.threadsOn (s : State) (mask : Nat) : Bool :=
  s.threads.any (fun e => e.2.run.isSome && mask.testBit (e.1 / 128))

/-- The status with which a QLAUNCH is turned away, 0 where it starts (R341, R370; log 66). -/
def State.qlaunchStatus (s : State) (r : Req) : Nat :=
  let p := r.grp.val
  let mask := r.f 4 47 0
  if s.on R.FAB_PART_CFG_QCOMPAT 0 p = false then stDenied
  else if s.inPart p (r.f 3 47 0) 1 = false ∨ s.inPart p (r.f 5 47 0) 1 = false then stBounds
  else if onlyBits mask (s.rd R.PART_SETS_SETS p) = false ∨ mask = 0 then stBadArg
  else if s.threadsOn mask = true ∨ s.rd R.PART_STATUS_STATE p ≠ 1 then stBadState
  else 0

/-- QLAUNCH (R341, R370): threads start; the request completes when every one has exited. -/
def qlaunchEffect (r : Req) (s : State) : State :=
  if s.openAs 0x14 r = false ∨ s.threads.any (fun e => e.2.run = some r) = true then s
  else if s.qlaunchStatus r ≠ 0 then s.finish r (s.qlaunchStatus r)
  else s.launchThreads r (r.f 4 47 0)

/-- QLAUNCH. -/
def execQlaunch (r : Req) (s : State) : Res := .next (qlaunchEffect r s)

/-- Whether a context executes now: it is its tile's turn, and its partition is in QCOMPAT mode and not stopped (R341). -/
def State.executes (s : State) (tile th : Nat) : Bool :=
  let p := s.partOf (tile / 8)
  (s.thread tile th).ready && decide (mget 0 s.turns tile = th + 1) && s.on R.FAB_PART_CFG_QCOMPAT 0 p &&
  decide (s.rd R.PART_STATUS_STATE p = 1)

/-- Issue a remote operation of a thread (R341): SRC_PART is its partition; a load or atomic suspends it. -/
def State.threadOp (s : State) (tile th typ pkg part key off : Nat) (f : Pkt → Pkt) (waits : Bool) : State :=
  let p := f (s.toRemote 3 typ pkg part key off (s.partOf (tile / 8)))
  let s := if waits then s.setThread tile th { s.thread tile th with waits := true } else s
  let s := s.issueOp (srcUnit 0x11 tile) p (.thread tile th waits)
  if waits then s.setTurn tile (s.nextReady tile th) else s

/-- A thread exits; the last of a launch completes its request (R341, R370). -/
def State.threadExit (s : State) (tile th : Nat) : State :=
  let x := s.thread tile th
  let s := s.setThread tile th Thread.init
  let s := s.setTurn tile (s.nextReady tile th)
  match x.run with
  | some r => if s.threads.any (fun e => e.2.run = some r) then s else s.finish r 0
  | none => s

/-- A remote instruction or an exit of a thread (R341). -/
def State.threadRemote (s : State) (tile th : Nat) : QOp → State
  | .load pkg part key off len => s.threadOp tile th 0x18 pkg part key.toNat off.toNat (fun p => { p with len := len }) true
  | .store pkg part key off data =>
    s.threadOp tile th 0x19 pkg part key.toNat off.toNat (fun p => withData p (clean data)) false
  | .atomic pkg part key off aop wide uns x y =>
    s.threadOp tile th 0x1A pkg part key.toNat off.toNat (fun p => { p with
      aop := aop, wide := wide, uns := uns, data := toLE 8 x.toNat ++ toLE 8 y.toNat }) true
  | .exit => s.threadExit tile th
  | .other _ => s

/-- QUINBINGO_INSTRUCTION (R341): one that is not remote is the Larec Quinbingo's, whose manual this is not. -/
def execQuinbingoInstruction (tile : TileId) (th : Fin 16) (op : QOp) (s : State) : Res :=
  if s.executes tile th then match op with
    | .other _ => .refused .quinbingoLocal
    | _ => .next (s.threadRemote tile th op)
  else .next s

end Sys2Proof.Machine
end

