-- ==== Sys2Proof/Machine/Reel.lean ====
section
/-! DEFINITION. The phases of the Reel: keys, nomination, selection, dispatch and combine, and what arrives of them
(R256 to R276). -/

namespace Sys2Proof.Machine

/-! ### What has landed (R270, R271) -/

/-- Whether every piece of a block has landed. -/
def allLanded (ls : List Land) (base n : Nat) : Bool :=
  (reelCuts base n).all (fun c => ls.any (fun x => decide (x.addr = base + c.1)))

/-- What landed by a tick. -/
def landedBy (ls : List Land) (tick : Nat) : List Land := ls.filter (fun x => decide (x.tick ≤ tick))

/-- Whether a member's keys of the bar were here by a tick: its own always (R270). -/
def State.keysHere (s : State) (p m home tick : Nat) : Bool :=
  home = s.pkgId || allLanded (landedBy (s.reelOf p).keys tick) (s.keyTable p s.bar m) ((s.reelHdr p).toks * 16)

/-- Whether a member's nominations of a layer were here by a tick: its own once it has nominated (R270). -/
def State.nomsHere (s : State) (p l m home tick : Nat) : Bool :=
  let h := s.reelHdr p
  let x := s.layerOf p l
  if home = s.pkgId then x.begun && decide (x.beganAt ≤ tick)
  else allLanded (landedBy x.noms tick) (s.gathered p l m) (h.toks * h.nom * 4)

/-- The members with their ranks. -/
def State.rankHolders (s : State) : List (Nat × Nat) := s.roles.ranks.map (fun e => (e.1, e.2 - 1))

/-- Whether every member's nominations and keys were here by a tick (R270). -/
def State.allHereBy (s : State) (p l tick : Nat) : Bool :=
  s.rankHolders.all (fun (m, home) => s.keysHere p m home tick && s.nomsHere p l m home tick)

/-- Whether they are here now. -/
def State.allHere (s : State) (p l : Nat) : Bool := s.allHereBy p l s.tempo.now

/-- D_POS of a layer (R268). -/
def State.dPos (s : State) (p l : Nat) : Nat := bits (s.reelDesc p l 9) 57 32

/-- Whether some member's nominations or keys were still missing at D_POS (R275). -/
def State.nomsMissed (s : State) (p l : Nat) : Bool :=
  s.reached (s.dPos p l) && !s.allHereBy p l (s.rd R.TEMPO_BAR_START_START + s.dPos p l)

/-! ### Keys and nominations (R270) -/

/-- Show the layer and phase in progress (R283). -/
def State.showReel (s : State) (l ph : Nat) : State :=
  (List.range 2).foldl (fun t i => (t.wr R.REEL_STATUS_LAYER l i).wr R.REEL_STATUS_PHASE ph i) s

/-- Send a block at the same address to every other member. -/
def State.sendAll (s : State) (p l a : Nat) (bs : List MarkByte) : State :=
  (s.members.filter (· ≠ s.pkgId)).foldl (fun t q => t.reelSend 0x88 q p l a 0 0 bs) s

/-- REEL_KEYS (R270): at K_POS, with the plan's key table ready. -/
def reelKeysEffect (p : Nat) (s : State) : State :=
  match s.rank with
  | some m =>
    let x := s.reelOf p
    if s.reelOn p ∧ x.keysSent = false ∧ s.reached (s.reelHdr p).kPos = true ∧ s.bar < s.caller.planned then
      let a := s.keyTable p s.bar m
      (s.setReel p { x with keysSent := true }).sendAll p 0 a (s.devMarked a ((s.reelHdr p).toks * 16))
    else s
  | none => s

/-- REEL_KEYS. -/
def execReelKeys (part : PartId) (s : State) : Res := .next (reelKeysEffect part.val s)

/-- Begin a layer: phase N (R270). -/
def State.beginLayer (s : State) (p l : Nat) : State :=
  let r := s.reelOf p
  ((s.setReel p { r with cur := some l }).setLayer p l { s.layerOf p l with begun := true, beganAt := s.tempo.now }).showReel l 1

/-- REEL_NOMINATE (R270): at N_POS, with GO at 1 in this bar. -/
def reelNominateEffect (p l : Nat) (s : State) : State :=
  let h := s.reelHdr p
  match s.rank with
  | some m =>
    if s.reelOn p ∧ l < h.nl ∧ (s.layerOf p l).begun = false ∧ s.reached (bits (s.reelDesc p l 9) 25 0) = true ∧
        1 ≤ s.cellNow (s.reelPtr p l 7) then
      let bs := s.devMarked (s.reelPtr p l 0) (h.toks * h.nom * 4)
      let a := s.gathered p l m
      ((s.devWrite a bs).beginLayer p l).sendAll p l a bs
    else s
  | none => s

/-- REEL_NOMINATE. -/
def execReelNominate (part : PartId) (layer : Fin 256) (s : State) : Res :=
  .next (reelNominateEffect part.val layer.val s)

/-! ### Selection (R259, R260, R261, R264) -/

/-- A nomination record with its token key (R257, R258). -/
structure Cand where
  expert : Nat
  score : Nat
  key : Nat
  home : Nat
  slot : Nat
  choice : Nat
  deriving DecidableEq, Repr

/-- SCORE descending, then token key ascending (R259). -/
def Cand.order (c : Cand) : Nat := (2 ^ 22 - 1 - c.score) * 2 ^ 128 + c.key

/-- Token key of a slot of a member. -/
def State.keyOf (s : State) (p m t : Nat) : Nat := s.devNat (s.keyTable p s.bar m + 16 * t) 16

/-- The records of one member's block that name an expert. -/
def State.candsOf (s : State) (p l m home : Nat) : List Cand :=
  let h := s.reelHdr p
  (List.range h.toks).flatMap (fun t => (List.range h.nom).filterMap (fun j =>
    let w := s.devNat (s.gathered p l m + 4 * (h.nom * t + j)) 4
    if bits w 9 0 < 512 then some (⟨bits w 9 0, bits w 31 10, s.keyOf p m t, home, t, j⟩ : Cand) else none))

/-- Every record of every member; those of a member whose block is missing count as none (R275). -/
def State.cands (s : State) (p l : Nat) : List Cand :=
  s.rankHolders.flatMap (fun (m, home) =>
    if s.keysHere p m home s.tempo.now && s.nomsHere p l m home s.tempo.now then s.candsOf p l m home else [])

/-- The accepted nominees of an expert by rank (R259). -/
def accepted (cap e : Nat) (cs : List Cand) : List Cand :=
  (sortBy Cand.order (cs.filter (fun c => c.expert = e))).take cap

/-- The replica an accepted nominee goes to (R264): the lowest with room in the home's rack, else the lowest with room. -/
def State.replicaFor (s : State) (p home : Nat) (rs : List Replica) (used : List Nat) : Option Nat :=
  let room := (List.range 8).filter (fun k => match rs[k]? with
    | some r => r.valid && decide (used.getD k 0 < r.share)
    | none => false)
  let near := fun (k : Nat) => match rs[k]? with
    | some r => (match s.holder r.rank with
      | some q => decide (s.rackOf p q = s.rackOf p home)
      | none => false)
    | none => false
  match room.find? near with
  | some k => some k
  | none => room.head?

/-- Assign one nominee (R264): its place, and the rows used. A nominee without a holder of its rank goes nowhere. -/
def State.assignOne (s : State) (p : Nat) (rs : List Replica) (x : List Pick × List Nat) (c : Cand) :
    List Pick × List Nat :=
  match s.replicaFor p c.home rs x.2 with
  | some k =>
    let r := rs.getD k ⟨0, 0, 0, false⟩
    let q := (s.holder r.rank).getD 4096
    let row := x.2.getD k 0
    (x.1 ++ [(⟨c.home, c.slot, c.choice, c.expert, q, r.hslot, row,
      decide (s.rackOf p q ≠ s.rackOf p c.home)⟩ : Pick)], x.2.set k (row + 1))
  | none => (x.1 ++ [(⟨c.home, c.slot, c.choice, c.expert, 4096, 0, 0, false⟩ : Pick)], x.2)

/-- The replicas of an expert in the current table. -/
def State.replicas (s : State) (p l e : Nat) : List Replica :=
  (List.range 8).map (s.replica (s.placeTab p false) l e)

/-- The accepted nominees of an expert with their places (R259, R264). -/
def State.picksOf (s : State) (p l e : Nat) (cs : List Cand) : List Pick :=
  ((accepted (s.reelHdr p).cap e cs).foldl (s.assignOne p (s.replicas p l e)) ([], List.replicate 8 0)).1

/-- The whole selection of a layer. -/
def State.selection (s : State) (p l : Nat) (cs : List Cand) : List Pick :=
  (List.range 512).flatMap (fun e => s.picksOf p l e cs)

/-- The half of the load counters that a bar fills (R277). -/
def State.loadHalf (s : State) (bar : Nat) : Nat := bar / max 1 s.reelPeriod % 2

/-- Address of a load counter entry (R277). -/
def State.loadAt (s : State) (p half l e : Nat) : Nat :=
  let h := s.reelHdr p
  s.reelArea p + h.cntOff + 16 * (512 * (h.nl * half + l) + e)

/-- Count an expert's load on the package that holds its replica 0 (R277). -/
def State.countLoad (s : State) (p l e : Nat) (cs : List Cand) (ps : List Pick) : State :=
  let mine := match s.replicas p l e with
    | r :: _ => r.valid && decide (s.holder r.rank = some s.pkgId)
    | [] => false
  let n := (cs.filter (fun c => c.expert = e)).length
  if mine = false ∨ n = 0 then s
  else
    let acc := ps.filter (fun x => x.expert = e)
    let a := s.loadAt p (s.loadHalf s.bar) l e
    [n, acc.length, n - acc.length, (acc.filter (·.spill)).length].zipIdx.foldl (fun t (v, i) =>
      t.devSetNat (a + 4 * i) 4 ((t.devNat (a + 4 * i) 4 + v) % 2 ^ 32)) s

/-- Gate of choice `j` of a token slot (R257). -/
def State.gateOf (s : State) (p l t j : Nat) : Nat :=
  let h := s.reelHdr p
  s.devNat (s.reelPtr p l 0 + 4 * h.nom * h.toks + 4 * (h.nom * t + j)) 4

/-- The combine record of a token slot, from its accepted choices in ascending order, and whether it is an orphan
(R260). -/
def State.combineRec (s : State) (p l t : Nat) (acc : List Nat) : List Byte × Bool :=
  let sum := acc.foldl (fun x j => fAdd x (s.gateOf p l t j)) 0
  let orphan := acc.isEmpty || decide (sum % 2 ^ 31 = 0)
  let poison := s.gateOf p l t 0 = 0xFFFFFFFF
  let r := fRecip sum
  let w := (List.range 8).map (fun j =>
    if poison ∨ orphan = true ∨ acc.contains j = false then 0 else fMul (s.gateOf p l t j) r)
  let mask := if poison then 0 else sumOf (acc.map (2 ^ ·))
  (w.flatMap (toLE 4) ++ toLE 1 mask ++ toLE 1 (b2n orphan + 2 * b2n poison) ++ toLE 1 acc.length ++ List.replicate 29 0,
    orphan)

/-- The token slot's entry in the work list of the bar: the slot that covers it (R192). -/
def State.slotCovering (s : State) (p t : Nat) : Option Slot :=
  ((List.range 4096).map (fun i => s.slotEntry (slotAt (s.wlHalf p s.bar) i))).find? (fun e =>
    decide (e.kind ≠ 0) && decide (e.tokFirst ≤ t) && decide (t < e.tokFirst + e.tokN))

/-- The token slots of a slot of the bar's work list that do work (R213, R221): all of a prefill slot, and of a decode slot one
more than PROPOSED; a heads slot reduces PROPOSED to what its proposal entry in the bar's half holds (R223). -/
def State.slotWork (s : State) (p i : Nat) : Nat :=
  let half := s.wlHalf p s.bar
  let e := s.slotEntry (slotAt half i)
  let w := fun (k : Nat) => s.devWord (half + 0x44000 + 48 * i + 8 * k)
  if e.kind = 1 then e.tokN
  else if e.heads = false then 1 + e.draft
  else if (w 0).testBit 38 ∧ bits (w 0) 17 0 = e.index ∧ bits (w 0) 33 18 = e.gen ∧ bits (w 1) 23 0 = s.slotPos p s.bar i then
    1 + min e.draft (bits (w 0) 37 34)
  else 1

/-- Whether a token slot does work in the bar (R213, R221, R261). -/
def State.tokenWorks (s : State) (p t : Nat) : Bool :=
  (List.range 4096).any (fun i =>
    let e := s.slotEntry (slotAt (s.wlHalf p s.bar) i)
    decide (e.kind ≠ 0) && decide (e.tokFirst ≤ t) && decide (t < e.tokFirst + min e.tokN (s.slotWork p i)))

/-- Write the combine record of an own token slot, and count an orphan (R260, R261). -/
def State.writeRec (s : State) (p l m : Nat) (miss : Bool) (ps : List Pick) (t : Nat) : State :=
  let acc := sortBy (fun (j : Nat) => j) ((ps.filter (fun x => x.home = s.pkgId && x.slot = t)).map (·.choice))
  let (bs, orphan) := s.combineRec p l t acc
  let works := s.keyOf p m t ≠ 2 ^ 128 - 1 ∧ s.tokenWorks p t = true
  let s := s.devWrite (s.reelPtr p l 5 + 64 * t) (bs.map (fun b => (b, miss)))
  if works ∧ orphan = true then s.bump R.REEL_ORPHANS_ORPHANS 1 0 p else s

/-- Write the cell of a host slot (R271): its landing rows, with MAX = HROWS; VALUE 0 with the mark after a miss
(R275). -/
def State.writeHostCell (s : State) (p l : Nat) (miss : Bool) (ps : List Pick) (h : Nat) : State :=
  let a := s.reelPtr p l 6 + 64 * h
  let n := (ps.filter (fun x => x.pkg = s.pkgId && x.hslot = h)).length
  (s.devSetNat (a + 4) 4 (s.reelHdr p).hrows).cellWrite a (if miss then 0 else n) s.bar (s.pkgId * 256 + 0x88) miss

/-! ### Landing rows (R265, R271 to R273) -/

/-- Address of a pick's dispatch landing row. -/
def State.dispatchRow (s : State) (p l : Nat) (k : Pick) : Nat :=
  let h := s.reelHdr p
  s.reelPtr p l 2 + (h.hrows * k.hslot + k.row) * h.drow

/-- Address of a pick's combine landing row. -/
def State.combineRow (s : State) (p l : Nat) (k : Pick) : Nat :=
  let h := s.reelHdr p
  s.reelPtr p l 4 + (h.nom * k.slot + k.choice) * h.crow

/-- Whether a row has landed whole; `nth` counts the waves of a combine row. -/
def rowHere (rows : List Land) (base n nth : Nat) : Bool :=
  (reelCuts base n).all (fun c => rows.any (fun x => decide (x.addr = base + c.1) && decide (x.nth = nth)))

/-- Increment a counter in every Set of a word of a layer's descriptor (R268, R271). -/
def State.tell (s : State) (w : Nat) : State :=
  (maskBits 48 w).foldl (fun t n => t.bump R.SCHED_ARR_COUNT 1 n (bits w 52 48)) s

/-- Increments for host slots whose last row has landed (R271). -/
def State.settleSlots (s : State) (p l : Nat) (ps : List Pick) : State :=
  let h := s.reelHdr p
  (List.range h.hslots).foldl (fun t n =>
    let x := t.layerOf p l
    let mine := ps.filter (fun k => k.pkg = s.pkgId && k.hslot = n)
    if x.slotsIn.contains n = false ∧ mine.all (fun k => rowHere x.rows (s.dispatchRow p l k) h.drow 0) = true then
      (t.setLayer p l { x with slotsIn := x.slotsIn ++ [n] }).tell (s.reelDesc p l 11)
    else t) s

/-- Increments for combine waves whose last row has landed (R271). -/
def State.settleWaves (s : State) (p l : Nat) (ps : List Pick) : State :=
  let h := s.reelHdr p
  (List.range h.nw).foldl (fun t w =>
    let x := t.layerOf p l
    let mine := ps.filter (fun k => k.home = s.pkgId)
    if x.wavesIn = w ∧ mine.all (fun k => rowHere x.rows (s.combineRow p l k) h.crow w) = true then
      (t.setLayer p l { x with wavesIn := w + 1 }).tell (s.reelDesc p l 12)
    else t) s

/-- Make every increment that is due (R271). -/
def State.settle (s : State) (p l : Nat) : State :=
  match (s.layerOf p l).picks with
  | some ps => (s.settleSlots p l ps).settleWaves p l ps
  | none => s

/-- The tag line of a row (R272). -/
def tagLine (index gen home slot choice expert layer bar : Nat) : List Byte :=
  toLE 8 (index + gen * 2 ^ 18 + home * 2 ^ 34 + slot * 2 ^ 46 + choice * 2 ^ 60) ++
    toLE 8 (expert + layer * 2 ^ 9 + bar % 2 ^ 32 * 2 ^ 32) ++ List.replicate 48 0

/-- Whether a tag names what the selection puts into a row (R272): `at_` gives the row of a pick. -/
def tagFits (ps : List Pick) (l w0 w1 : Nat) (here : Pick → Bool) : Bool :=
  ps.any (fun k => here k && decide (k.home = bits w0 45 34) && decide (k.slot = bits w0 59 46) &&
    decide (k.choice = bits w0 62 60) && decide (k.expert = bits w1 8 0) && decide (l = bits w1 16 9))

/-- Whether the tag line at a row's base fits the selection; before phase S nothing is held against it. -/
def State.rowFits (s : State) (p l base : Nat) (comb : Bool) : Bool :=
  match (s.layerOf p l).picks with
  | none => true
  | some ps => tagFits ps l (s.devWord base) (s.devWord (base + 8)) (fun k =>
      if comb then decide (k.home = s.pkgId) && decide (s.combineRow p l k = base)
      else decide (k.pkg = s.pkgId) && decide (s.dispatchRow p l k = base))

/-- Check a row whose tag line has landed (R272): a misplaced one is marked and counted, by the instance of the expert it names
(R283). -/
def State.checkRow (s : State) (p l base n : Nat) (comb : Bool) : State :=
  let x := s.layerOf p l
  if s.rowFits p l base comb then s.setLayer p l { x with bad := x.bad.filter (· ≠ base) }
  else ((s.setLayer p l { x with bad := if x.bad.contains base then x.bad else x.bad ++ [base] }).raise
    E.REEL_MISROUTE (bits (s.devWord (base + 8)) 8 0 % 2) [p, l]).markRange base n

/-- Whether a combine row's sequence still has the generation its row was planned with (R273): by the tag line, or, for
a piece without it, by the slot entry that the tag line was made from. -/
def State.rowLive (s : State) (p l a base : Nat) (data : List MarkByte) : Bool :=
  if a = base then
    let w0 := ofLE ((data.take 8).map (·.1))
    decide ((s.seq (bits w0 17 0)).gen = bits w0 33 18)
  else
    let h := s.reelHdr p
    match s.slotCovering p ((base - s.reelPtr p l 4) / max 1 h.crow / max 1 h.nom) with
    | some e => decide ((s.seq e.index).gen = e.gen)
    | none => true

/-- Write a piece of a row, checking it where it carries the tag line (R272, R273). -/
def State.writePiece (s : State) (p l a base n : Nat) (comb : Bool) (data : List MarkByte) : State :=
  if comb = true ∧ s.rowLive p l a base data = false then
    if a = base then s.bump R.REEL_DISCARDED_DISCARDED 1 0 p else s
  else
    let s := s.devWrite a data
    let s := if a = base then s.checkRow p l base n comb else s
    if (s.layerOf p l).bad.contains base then s.markRange a data.length else s

/-- The wave that a combine row lands in (R274): a home has read a wave when it releases the next, and none comes sooner. -/
def State.waveNow (s : State) (p l : Nat) : Nat := ((s.layerOf p l).rels.filter (fun e => e.1 = s.pkgId)).length

/-- Count a piece that has landed once (R271, R280): a dispatch row by its place, a combine row by its place and wave. A piece
that repeats a packet, by its issuer and REQID, is one re-sent under R332, and counts for no later wave. -/
def State.countPiece (s : State) (p l a base n : Nat) (comb : Bool) (src unit reqid : Nat) : State :=
  let x := s.layerOf p l
  let nth := if comb then s.waveNow p l else 0
  if x.rows.any (fun r => decide (r.addr = a) && (decide (r.nth = nth) ||
      (decide (r.src = src) && decide (r.unit = unit) && decide (r.reqid = reqid)))) then s
  else
    let rows := x.rows ++ [(⟨a, src, unit, reqid, nth, s.tempo.now⟩ : Land)]
    let s := s.setLayer p l { x with rows := rows }
    let s := if rowHere rows base n nth then s.bump R.REEL_ROWS_LANDED 1 0 p else s
    s.settle p l

/-- The row of a layer that an address lies in: its base, its size, and whether it is a combine row (R328). -/
def State.rowAt (s : State) (p l a n : Nat) : Option (Nat × Nat × Bool) :=
  let h := s.reelHdr p
  let land := s.reelPtr p l 2
  let cland := s.reelPtr p l 4
  if within a n land (h.hslots * h.hrows * h.drow) then some (land + (a - land) / max 1 h.drow * h.drow, h.drow, false)
  else if within a n cland (h.nom * h.toks * h.crow) then
    some (cland + (a - cland) / max 1 h.crow * h.crow, h.crow, true)
  else none

/-- Land one piece of a row. -/
def State.landPiece (s : State) (p l a : Nat) (data : List MarkByte) (src unit reqid : Nat) : State :=
  match s.rowAt p l a data.length with
  | some (base, n, comb) => (s.writePiece p l a base n comb data).countPiece p l a base n comb src unit reqid
  | none => s

/-- Land a row of the package itself (R270: "local rows are copied internally"). -/
def State.landLocal (s : State) (p l a w : Nat) (bs : List MarkByte) : State :=
  (reelCuts a bs.length).foldl (fun t c =>
    t.landPiece p l (a + c.1) ((bs.drop c.1).take c.2) s.pkgId 0x88 w) s

/-- Bases of the rows whose tag lines have landed. -/
def State.taggedRows (s : State) (p l : Nat) : List (Nat × Nat × Bool) :=
  ((s.layerOf p l).rows.filterMap (fun r => match s.rowAt p l r.addr 1 with
    | some (base, n, comb) => if r.addr = base then some (base, n, comb) else none
    | none => none)).eraseDups

/-- Phase S (R259, R260, R264, R271, R275): `miss` poisons all it writes. -/
def State.select (s : State) (p l m : Nat) (miss : Bool) : State :=
  let h := s.reelHdr p
  let cs := s.cands p l
  let ps := s.selection p l cs
  let s := s.setLayer p l { s.layerOf p l with picks := some ps, miss := miss }
  let s := (List.range 512).foldl (fun t e => t.countLoad p l e cs ps) s
  let s := (List.range h.toks).foldl (fun t i => t.writeRec p l m miss ps i) s
  let s := (List.range h.hslots).foldl (fun t i => t.writeHostCell p l miss ps i) s
  let s := (s.taggedRows p l).foldl (fun t (base, n, comb) => t.checkRow p l base n comb) s
  (s.settle p l).showReel l 2

/-- REEL_SELECT (R259, R270, R275): with every member's nominations and keys landed; what was still missing at D_POS is a
NOM_MISS all the same. -/
def reelSelectEffect (p l : Nat) (s : State) : State :=
  match s.rank with
  | some m =>
    if s.reelOn p ∧ (s.layerOf p l).begun = true ∧ (s.layerOf p l).picks = none ∧ s.allHere p l = true then
      if s.nomsMissed p l then (s.raise E.REEL_NOM_MISS 0 [p, l]).select p l m true else s.select p l m false
    else s
  | none => s

/-- REEL_SELECT. -/
def execReelSelect (part : PartId) (layer : Fin 256) (s : State) : Res := .next (reelSelectEffect part.val layer.val s)

/-! ### Dispatch (R270, R272, R275) -/

/-- The tag line of an own pick: INDEX and GEN of the slot that covers its token slot (R272). -/
def State.pickTag (s : State) (p l : Nat) (k : Pick) : List Byte :=
  let (i, g) := match s.slotCovering p k.slot with
    | some e => (e.index, e.gen)
    | none => (0, 0)
  tagLine i g k.home k.slot k.choice k.expert l s.bar

/-- Mark data all over, or leave it. -/
def markIf (b : Bool) (bs : List MarkByte) : List MarkByte := if b then bs.map (fun x => (x.1, true)) else bs

/-- Send one row to its package (R265, R270): copied internally where that is the package itself. -/
def State.sendRowTo (s : State) (p l dst a w word : Nat) (k : Pick) (bs : List MarkByte) : State :=
  if dst = s.pkgId then s.landLocal p l a w bs
  else if dst < 4096 then
    (s.bump R.REEL_ROWS_SENT 1 0 p).reelSend (reelUnit k.expert) dst p l a (word % 2 ^ 48) (bits word 52 48) bs
  else s

/-- Dispatch one own accepted nominee. -/
def State.dispatchOne (s : State) (p l : Nat) (miss : Bool) (k : Pick) : State :=
  let w := (s.reelHdr p).width
  let row := clean (s.pickTag p l k) ++ s.devMarked (s.reelPtr p l 1 + k.slot * (w + w / 32)) (w + w / 32)
  s.sendRowTo p l k.pkg (s.dispatchRow p l k) 0 (s.reelDesc p l 11) k (markIf miss row)

/-- Phase D: every own accepted nominee's row. -/
def State.dispatchAll (s : State) (p l : Nat) : State :=
  let x := s.layerOf p l
  let s := (s.setLayer p l { x with sent := true }).showReel l 3
  ((x.picks.getD []).filter (fun k => k.home = s.pkgId)).foldl (fun t k => t.dispatchOne p l x.miss k) s

/-- REEL_DISPATCH (R270, R275): at D_POS; a selection that lacks a member's block raises NOM_MISS first. -/
def reelDispatchEffect (p l : Nat) (s : State) : State :=
  match s.rank with
  | some m =>
    let x := s.layerOf p l
    if s.reelOn p ∧ l < (s.reelHdr p).nl ∧ x.sent = false ∧ s.reached (s.dPos p l) = true then
      if x.picks.isSome then s.dispatchAll p l
      else if s.allHere p l then s
      else
        let r := s.reelOf p
        (((s.setReel p { r with cur := some l }).raise E.REEL_NOM_MISS 0 [p, l]).select p l m true).dispatchAll p l
    else s
  | none => s

/-- REEL_DISPATCH. -/
def execReelDispatch (part : PartId) (layer : Fin 256) (s : State) : Res :=
  .next (reelDispatchEffect part.val layer.val s)

/-! ### Combine (R270, R274, R279) -/

/-- Whether a host slot is not staged with the expert that the current table puts there, for the epoch in effect (R279, R280). -/
def State.notStaged (s : State) (p l : Nat) (k : Pick) : Bool :=
  match mget none s.weights.hostSlots (hostKey p l k.hslot) with
  | some x => decide (x.expert ≠ k.expert) || decide (x.epoch ≠ s.rd R.PROM_EPOCH_EPOCH)
  | none => true

/-- One combine row of a wave, sent home (R265, R270, R272); the output of a host slot that is not staged carries the poison mark
(R279). -/
def State.combineOne (s : State) (p l w : Nat) (miss : Bool) (k : Pick) : State :=
  let h := s.reelHdr p
  let out := s.reelPtr p l 3 + (h.hrows * k.hslot + k.row) * (2 * h.width)
  let s := if s.notStaged p l k then s.markRange out (2 * h.width) else s
  let tag := s.devMarked (s.dispatchRow p l k) 64
  let row := tag ++ s.devMarked (out + 2 * h.width * w / h.nw) (2 * h.width / h.nw)
  s.sendRowTo p l k.home (s.combineRow p l k) w (s.reelDesc p l 12) k (markIf miss row)

/-- Whether a wave may start toward a home (R274): the wave before it has gone, and its release is held. -/
def ReelLayer.mayWave (x : ReelLayer) (w home : Nat) : Bool :=
  !x.waves.contains (w, home) &&
  (w = 0 || (x.waves.contains (w - 1, home) && x.rels.contains (home, w - 1)))

/-- Send a wave toward a home. -/
def State.waveTo (s : State) (p l w home : Nat) : State :=
  let x := s.layerOf p l
  if x.mayWave w home then
    let s := s.setLayer p l { x with waves := x.waves ++ [(w, home)] }
    ((x.picks.getD []).filter (fun k => k.pkg = s.pkgId && k.home = home)).foldl (fun t k =>
      t.combineOne p l w x.miss k) s
  else s

/-- Whether the package has sent every wave of a layer to every home. -/
def State.wavesSent (s : State) (p l : Nat) : Bool :=
  s.members.all (fun q => (List.range (s.reelHdr p).nw).all (fun w => (s.layerOf p l).waves.contains (w, q)))

/-- Position of a wave: C_POS + w × C_GAP (R268, R270). -/
def wavePos (d w : Nat) : Nat := bits d 25 0 + w * (bits d 57 42 * 1024 + bits d 41 32)

/-- REEL_COMBINE (R270, R274). -/
def reelCombineEffect (p l w : Nat) (s : State) : State :=
  let x := s.layerOf p l
  if s.reelOn p ∧ w < (s.reelHdr p).nw ∧ x.picks.isSome = true ∧ s.reached (wavePos (s.reelDesc p l 10) w) = true ∧
      2 + w ≤ s.cellNow (s.reelPtr p l 7) then
    let s := s.members.foldl (fun t q => t.waveTo p l w q) (s.showReel l 4)
    if s.wavesSent p l then s.showReel l 0 else s
  else s

/-- REEL_COMBINE. -/
def execReelCombine (part : PartId) (layer : Fin 256) (wave : Fin 8) (s : State) : Res :=
  .next (reelCombineEffect part.val layer.val wave.val s)

/-! ### Packets that arrive (R272 to R274, R328) -/

/-- What a REEL packet's address reaches: the keys of the bar, the nominations of a layer, or a row of the layer in
progress. -/
inductive ReelHit where
  | keys
  | noms (l : Nat)
  | row (l : Nat)
  deriving DecidableEq, Repr

/-- The layer whose nominations a half of the gathered area takes now: the one in progress, or the next. -/
def ReelPart.nomLayer (r : ReelPart) (half : Nat) : Nat :=
  match r.cur with
  | some l => if l % 2 = half then l else l + 1
  | none => half

/-- What an arriving piece reaches; none where no landing area holds it (R328). -/
def State.reelHit (s : State) (p a n : Nat) : Option ReelHit :=
  let h := s.reelHdr p
  let keys := s.roles.nranks * h.toks * 16
  let noms := s.roles.nranks * h.toks * h.nom * 4
  let r := s.reelOf p
  if within a n (s.keyTable p s.bar 0) keys then some .keys
  else if within a n (s.gathered p 0 0) noms then some (.noms (r.nomLayer 0))
  else if within a n (s.gathered p 1 0) noms then some (.noms (r.nomLayer 1))
  else match r.cur with
    | some l => if (s.rowAt p l a n).isSome then some (.row l) else none
    | none => none

/-- Add a piece of a block to those landed. -/
def addLand (ls : List Land) (a tick : Nat) (p : Pkt) : List Land :=
  if ls.any (fun x => x.addr = a) then ls else ls ++ [⟨a, p.src.val, p.unit.toNat, p.reqid.toNat, 0, tick⟩]

/-- Device address of a Reel packet (log 55). -/
def reelAddr (p : Pkt) : Nat := p.key.toNat * 2 ^ 40 + p.off.toNat

/-- Land an accepted REEL packet. -/
def State.landReel (s : State) (hit : ReelHit) (k : Pkt) : State :=
  let p := k.part.val
  let a := (reelAddr k)
  let data := pktData k
  match hit with
  | .keys =>
    let r := s.reelOf p
    (s.devWrite a data).setReel p { r with keys := addLand r.keys a s.tempo.now k }
  | .noms l =>
    let x := s.layerOf p l
    (s.devWrite a data).setLayer p l { x with noms := addLand x.noms a s.tempo.now k }
  | .row l => s.landPiece p l a data k.src.val k.unit.toNat k.reqid.toNat

/-- REEL (R272, R273, R328). -/
def reelEffect (k : Pkt) (s : State) : State :=
  let e := s.earlyStatus 0x0A k
  if e ≠ 0 then s.refuse 0x0A k e
  else if s.reelOn k.part.val = false then s.refuse 0x0A k 3
  else match s.reelHit k.part.val (reelAddr k) k.len.toNat with
    | none => s.refuse 0x0A k 3
    | some hit => (s.landReel hit k).respond (s.answerTo k 0x10 0)

/-- REEL. -/
def execReel (p : Pkt) (s : State) : Res := .next (if s.hears p then reelEffect p s else s)

/-- REEL_REL (R274): the release is held; it is checked as a REEL packet is, but for the landing areas. -/
def reelRelEffect (k : Pkt) (s : State) : State :=
  let e := s.earlyStatus 0x0B k
  if e ≠ 0 then s.refuse 0x0B k e
  else
    let w := ofLE (k.data.take 8)
    (s.holdRelease k.part.val (bits w 7 0) k.src.val (bits w 10 8)).respond (s.answerTo k 0x10 0)

/-- REEL_REL. -/
def execReelRel (p : Pkt) (s : State) : Res := .next (if s.hears p then reelRelEffect p s else s)

/-! ### The end of a bar, snapshots (R276, R277) -/

/-- Whether the Reel's work of a layer is finished: selected, dispatched, every wave sent and landed. -/
def State.layerOver (s : State) (p l : Nat) : Bool :=
  let x := s.layerOf p l
  x.picks.isSome && x.sent && s.wavesSent p l && decide ((s.reelHdr p).nw ≤ x.wavesIn)

/-- Abandon the Reel work that a bar leaves unfinished (R276). -/
def State.abandonReel (s : State) : State :=
  let late := s.reel.flatMap (fun (p, r) => (r.layers.filter (fun e => (e.2.begun || e.2.picks.isSome) && !s.layerOver p e.1)).map (fun e => (p, e.1)))
  let s := late.foldl (fun t (p, l) => t.raise E.REEL_REEL_LATE 0 [p, l]) s
  ({ s with reel := [] }).showReel 0 0

/-- The serving partitions that have a Reel area. -/
def State.reelParts (s : State) : List Nat :=
  (List.range 16).filter (fun p => !s.on R.PART_CTL_KIND p && decide (s.reelArea p ≠ 0))

/-- The snapshot of the load counters at the start of a bar (R277): the half about to be filled is zeroed. -/
def State.snapshot (s : State) (bar : Nat) : State :=
  if s.on R.REEL_CTL_EN = false ∨ bar % max 1 s.reelPeriod ≠ 0 then s
  else
    let s := { s with reelPeriod := s.rd R.REEL_CFG_PERIOD }
    let half := s.loadHalf bar
    let s := s.reelParts.foldl (fun t p => t.devZero (t.loadAt p half 0 0) (16 * 512 * (t.reelHdr p).nl)) s
    let s := (s.raise E.REEL_SNAPSHOT).wr R.REEL_SNAP_BAR_BAR bar
    s.reelParts.foldl (fun t p => t.mgmt p 0x0003 [bar, 1 - half]) s

/-! ### Placement tables (R263, R278, R279) -/

/-- Whether one expert's entry is well formed (R263). -/
def State.expertGoodAt (s : State) (p tab l e : Nat) : Bool :=
  let h := s.reelHdr p
  let rs := ((List.range 8).map (s.replica tab l e)).filter (·.valid)
  (s.replica tab l e 0).valid && decide (sumOf (rs.map (·.share)) = h.cap) && distinct (rs.map (·.rank)) &&
  rs.all (fun r => decide (r.hslot < h.hslots) && decide (r.share ≤ h.hrows) && decide (r.rank < s.roles.nranks))

/-- Whether the table at an address is well formed for a partition (R263). -/
def State.placeGood (s : State) (p tab : Nat) : Bool :=
  (List.range (s.reelHdr p).nl).all (fun l =>
    (List.range 512).all (s.expertGoodAt p tab l) &&
    distinct ((List.range 512).flatMap (fun e =>
      (((List.range 8).map (s.replica tab l e)).filter (·.valid)).map (fun r => 8 * r.rank + r.hslot))))

/-- Bytes of a placement table. -/
def placeLen : Nat := 32 + 32 * 512 * 256

/-- Complete a placement change. -/
def State.endPlace (s : State) (x : PlacePend) (status : Nat) : State :=
  s.complete x.req status x.req.handle.toNat [x.gen]

/-- Hold a pending placement table (R278). -/
def State.holdPlace (s : State) (x : PlacePend) (a : Nat) : State :=
  ({ s with places := s.places.filter (fun (y : PlacePend) => y.part ≠ x.part) ++ [x] }).copyRange a (s.placeTab x.part true) placeLen

/-- PLACEMENT_CHANGE (R278, R370). -/
def placementChangeEffect (r : Req) (s : State) : State :=
  let p := r.f 3 3 0
  let a := r.f 4 47 0
  if s.openAs 0x21 r = false ∨ s.places.any (fun x => x.req = r) = true then s
  else
    let x : PlacePend := ⟨p, s.devWord a, s.devWord (a + 8), r⟩
    if s.placeGood p a = false then (s.raise E.REEL_BAD_TABLE 0 [p]).endPlace x stBadTable
    else if s.barBegun x.eff then (s.raise E.REEL_PLACE_LATE 0 [p]).endPlace x stLate
    else if x.gen ≤ s.devWord (s.placeTab p false) then s.endPlace x stSuperseded
    else match s.places.find? (fun y => y.part = p) with
      | none => s.holdPlace x a
      | some y => if x.gen ≤ y.gen then s.endPlace x stSuperseded else (s.holdPlace x a).endPlace y stSuperseded

/-- PLACEMENT_CHANGE. -/
def execPlacementChange (r : Req) (s : State) : Res := .next (placementChangeEffect r s)

/-- Whether a host slot that the current table uses on this package is not staged for the epoch of a bar (R279, R280). -/
def State.placeShort (s : State) (p bar : Nat) : Bool :=
  match s.rank with
  | some m =>
    (List.range (s.reelHdr p).nl).any (fun l => (List.range 512).any (fun e => (s.replicas p l e).any (fun r =>
      r.valid && decide (r.rank = m) && !(mget none s.weights.hostSlots (hostKey p l r.hslot)).any (fun x =>
        decide (x.expert = e) && decide (x.epoch = s.epochFor bar)))))
  | none => false

/-- Make one pending table current at the start of a bar (R278, R279). -/
def State.takePlace (s : State) (bar : Nat) (x : PlacePend) : State :=
  let s := s.copyRange (s.placeTab x.part true) (s.placeTab x.part false) placeLen
  let s := (s.wr R.REEL_PLACE_GEN_GEN x.gen).wr R.REEL_PLACE_EFF_EFF_BAR x.eff
  let s := if s.placeShort x.part bar then s.raise E.REEL_PLACE_NOT_READY 0 [x.part] else s
  s.endPlace x 0

/-- The boundary at which a bar starts takes the tables due at it (R278). -/
def State.placeAt (s : State) (bar : Nat) : State :=
  (s.places.filter (fun x => x.eff ≤ bar)).foldl (fun t x => t.takePlace bar x)
    { s with places := s.places.filter (fun (x : PlacePend) => !decide (x.eff ≤ bar)) }

end Sys2Proof.Machine
end

