-- ==== Sys2Proof/Machine/Partitions.lean ====
section
/-! DEFINITION. The setup lock, pre-emption, and tile, Set and partition resets (R362, R387 to R404). -/

namespace Sys2Proof.Machine

/-! ### Objects of a partition (R387 to R389) -/

/-- The Sets of a partition. -/
def State.setsOf (s : State) (p : Nat) : List Nat := maskBits 48 (s.rd R.PART_SETS_SETS p)

/-- The logical tiles of a partition, ascending. -/
def State.tilesOf (s : State) (p : Nat) : List Nat := (s.setsOf p).flatMap tilesOfSet

/-- The copy engines of a partition (R334). -/
def State.enginesOf (s : State) (p : Nat) : List Nat := (List.range 16).filter (fun e => s.rd R.COPY_CTL_PART e = p)

/-- The region that a key of partition 0 names, if its keys are in use: base and length. -/
def State.regionRange (s : State) (key : Nat) : List (Nat × Nat) :=
  let r := s.readRegion (mget 0 s.fab.keys 0 % 2 ^ 48 + 32 * (key % 1024))
  if (mget 0 s.fab.keys 0).testBit 48 ∧ r.valid = true ∧ r.tag = key / 1024 then [(r.base, r.len)] else []

/-- The package areas of R389: base and length. -/
def State.packageAreas (s : State) : List (Nat × Nat) :=
  [(s.rd R.CALLER_TABLE_BASE_BASE, 0x4000000), (s.rd R.CALLER_HIST_BASE_BASE, s.rd R.CALLER_HIST_SIZE_SIZE),
    (s.rd R.PROM_REGION0_BASE, s.rd R.PROM_REGION_LEN_LEN), (s.rd R.PROM_REGION1_BASE, s.rd R.PROM_REGION_LEN_LEN),
    (s.rd R.PART_HBM_BASE 0, 0x10000000), (s.rd R.HEALTH_LOG_BASE, 0x100000)] ++
  (s.regionRange (s.rd R.HEALTH_TK_KEY_KEY)).map (fun r => (r.1 + s.rd R.HEALTH_TK_OFF_OFFSET, s.rd R.HEALTH_TK_LEN_LEN)) ++
  s.regionRange (s.rd R.CALLER_JOURNAL_KEY)

/-! ### The setup lock (R391, R392) -/

/-- Whether an address lies in one of some ranges. -/
def inSome (rs : List (Nat × Nat)) (k : Nat) : Bool := rs.any (fun r => decide (r.1 ≤ k) && decide (k < r.1 + r.2))

/-- The other partitions that are locked. -/
def State.lockedBut (s : State) (p : Nat) : List Nat := (List.range 16).filter (fun q => q ≠ p && s.locked q)

/-- Channels of a partition as one mask. -/
def State.chanMask (s : State) (p : Nat) : Nat :=
  sumOf ((List.range 4).map (fun k => s.rd R.PART_CHAN_CHAN p k * 2 ^ (64 * k)))

/-- Whether the warm-shelf share is misplaced (R387, R391). -/
def State.shelfBad (s : State) (p : Nat) : Bool :=
  let a := s.rd R.PART_SHELF_BASE p
  let n := s.rd R.PART_SHELF_LEN_LEN p
  let group := 0x1000000000
  decide (n ≠ 0) && (decide (a % 0x200000 ≠ 0) || decide (n % 0x200000 ≠ 0) || !within a n 0x010000000000 (4 * group) ||
    decide (a / group ≠ (a + n - 1) / group) ||
    (s.lockedBut p).any (fun q => overlaps a n (s.rd R.PART_SHELF_BASE q) (s.rd R.PART_SHELF_LEN_LEN q)))

/-- Bytes of a partition's Format Area (R150): the header, the layer entries and the staging of its NLAYERS. -/
def State.fmtSize (s : State) (p : Nat) : Nat := 0x20000 + 0x60000 * 2 * (s.fmtLayers p).length

/-- Bytes of a partition's Reel area (R267): to the end of the placement tables, or of the last of the tables its header names. -/
def State.reelSize (s : State) (p : Nat) : Nat :=
  let h := s.reelHdr p
  let n := s.roles.nranks
  maxOf [0x810040, h.keyOff + 2 * n * h.toks * 16, h.gathOff + 2 * n * h.toks * h.nom * 4, h.cntOff + 2 * h.nl * 512 * 16]

/-- Whether an object of the partition that is set up lies outside its memory, the whole of it (R391 code 8); a base of 0 is an
object not set up (log 67). -/
def State.objectsBad (s : State) (p : Nat) : Bool :=
  [(s.rd R.PART_FORMAT_BASE p, s.fmtSize p), (s.rd R.PART_KVDESC_BASE p, 4096), (s.rd R.REEL_AREA_BASE 0 p, s.reelSize p)].any
    (fun a => decide (a.1 ≠ 0) && !s.inPart p a.1 a.2) ||
  (List.range 16).any (fun w => s.on R.CHECK_WIN_BASE_EN 0 w && decide (s.rd R.CHECK_WIN_SLOT_PART 0 w = p) &&
    !s.inPart p (s.rd R.CHECK_WIN_BASE_BASE 0 w) (s.rd R.CHECK_WIN_LIMIT_LIMIT 0 w - s.rd R.CHECK_WIN_BASE_BASE 0 w))

/-- The first code of R391 whose check fails, 0 where none does. -/
def State.setupCode (s : State) (p : Nat) : Nat :=
  let sets := s.rd R.PART_SETS_SETS p
  let base := s.rd R.PART_HBM_BASE p
  let n := s.hbmLen p
  let others := s.lockedBut p
  if p ≠ 0 ∧ s.locked 0 = false then 1
  else if others.any (fun q => sets &&& s.rd R.PART_SETS_SETS q ≠ 0) then 2
  else if others.any (fun q => s.chanMask p &&& s.chanMask q ≠ 0) ∨ (n = 0 ∧ sets ≠ 0) then 3
  else if base % 2 ^ 31 ≠ 0 ∨ 0x8000000000 < base + n ∨
      others.any (fun q => overlaps base n (s.rd R.PART_HBM_BASE q) (s.hbmLen q)) = true then 4
  else if others.any (fun q => s.rd R.PART_WAYS_WAYS p &&& s.rd R.PART_WAYS_WAYS q ≠ 0) ∨
      onlyBits (s.rd R.PART_SCRATCH_SCRATCH p) (s.rd R.PART_WAYS_WAYS p) = false then 5
  else if s.shelfBad p then 6
  else if s.on R.PART_SAVE_EN p ∧ (3 < popcount 48 sets ∨
      within (s.rd R.PART_SAVE_BASE p) 0x3000000 base n = false) then 7
  else if s.objectsBad p then 8
  else if p = 0 ∧ s.packageAreas.any (fun a => a.2 ≠ 0 && !within a.1 a.2 base n) = true then 9
  else 0

/-- The place of a window's byte in its channel (R305): the channel and the offset in it. -/
def State.chanKey (s : State) (p a : Nat) : Nat :=
  let u := (a - s.rd R.PART_HBM_BASE p) / 4096
  s.channelOf p a * 2 ^ 31 + u / max 1 (s.channels p).length * 4096 + a % 4096

/-- The address in a window of a place in a channel, if the channel is the window's (R305). -/
def State.chanAddr (s : State) (p k : Nat) : Option Nat :=
  let cs := s.channels p
  if cs.contains (k / 2 ^ 31) then
    some (s.rd R.PART_HBM_BASE p + (k % 2 ^ 31 / 4096 * cs.length + cs.idxOf (k / 2 ^ 31)) * 4096 + k % 4096)
  else none

/-- A window is taken down: its contents stay with their channels (R305), but for the package areas, which stand as they are (R389). -/
def State.parkWindow (s : State) (p : Nat) : State :=
  let base := s.rd R.PART_HBM_BASE p
  let rs := s.packageAreas
  let mine := fun (a : Nat) => within a 1 base (s.hbmLen p) && !inSome rs a
  { s with
    mem := mkeep (fun k => !mine k) s.mem
    memMark := mkeep (fun l => !mine (64 * l)) s.memMark
    parked := (s.mem.filter (fun e => mine e.1)).foldl (fun m e => mset 0 (s.chanKey p e.1) e.2 m) s.parked
    parkedMark := (s.memMark.filter (fun e => mine (64 * e.1))).foldl
      (fun m e => mset false (s.chanKey p (64 * e.1) / 64) e.2 m) s.parkedMark }

/-- A window is set up: what its channels hold appears at its addresses, but for what has been written there before the lock (R305;
log 175). -/
def State.openWindow (s : State) (p : Nat) : State :=
  let addr := s.chanAddr p
  { s with
    mem := s.parked.foldl (fun m e => match addr e.1 with
      | some a => if mget 0 m a = 0 then mset 0 a e.2 m else m
      | none => m) s.mem
    memMark := s.parkedMark.foldl (fun m e => match addr (64 * e.1) with
      | some a => mset false (a / 64) e.2 m
      | none => m) s.memMark
    parked := mkeep (fun k => (addr k).isNone) s.parked
    parkedMark := mkeep (fun l => (addr (64 * l)).isNone) s.parkedMark }

/-- A refused lock or reset (R391, R392): SETUP_BAD, with its code latched. -/
def State.setupBad (s : State) (p code : Nat) : State :=
  (s.wr R.PART_SETUP_ERR_CODE code p).raise E.PART_SETUP_BAD p [code]

/-- PART_LOCK (R391). -/
def partLockEffect (p : Nat) (s : State) : State :=
  if s.locked p then s
  else if s.setupCode p ≠ 0 then s.setupBad p (s.setupCode p)
  else
    let s := (s.openWindow p).wr R.PART_STATUS_LOCKED 1 p
    let s := { s with caller := { s.caller with stacked := s.caller.stacked.filter (· ≠ p) } }
    if s.rd R.PART_STATUS_STATE p = 0 then s.wr R.PART_STATUS_STATE 1 p else s

/-- PART_LOCK. -/
def execPartLock (part : PartId) (s : State) : Res := .next (partLockEffect part.val s)

/-! ### Tile and Set resets (R397 to R399) -/

/-- A Set reset as asked for, or held while the partition is saved (R402). -/
def setResetEffect (set : Nat) (s : State) : State :=
  if s.saving set then { s with resetHeld := s.resetHeld ++ [(set, none)] } else s.resetSet set

/-- SET_RESET. -/
def execSetReset (set : SetId) (s : State) : Res := .next (setResetEffect set.val s)

/-- The duration in cycles of a command for its row count (R111, R120, R125, R146, R397). -/
def State.duration (s : State) (set : Nat) (c : Cmd) : Nat :=
  let n := s.count set c
  let ramp := s.rd R.TILE_CFG_RAMP (c.tile0 set)
  if c.op = 2 then (if n = 0 then 1 else (passPlan none (c.tile0 set) c n ramp 0).rcd.fin + 1)
  else if c.op = 3 then vopCycles c.vfn n
  else if c.op = 6 then handoffCycles c set n
  else 0

/-- Cycles of a die that a span of ticks takes (R3, R46). -/
def State.cyclesIn (s : State) (die ticks : Nat) : Nat :=
  ticks * s.rd R.TEMPO_PERIOD_HALF_US * s.mhz die / 2048

/-- COMMAND_TIMEOUT (R397, R398, R429): a tile command unfinished 65,536 cycles past its duration; its lowest tile is
reset, and a spare takes it over at the next bar boundary. -/
def commandTimeoutEffect (set idx : Nat) (s : State) : State :=
  match s.flightAt set idx with
  | some f =>
    let c := s.cmdAt (s.rd R.SCHED_STREAM_ADDR set + 32 * idx)
    if f.unit ≠ .none ∧ s.duration set c + 65536 ≤ s.cyclesIn (set / 12) (s.tempo.now - f.stamp) then
      State.resetTile { s with health := { s.health with faulty := s.health.faulty ++ [c.tile0 set] } } (c.tile0 set)
    else s
  | none => s

/-- COMMAND_TIMEOUT. -/
def execCommandTimeout (set : SetId) (idx : Nat) (s : State) : Res := .next (commandTimeoutEffect set.val idx s)

/-! ### Partition resets (R400, R401, R402) -/

/-- Close a sequence of a partition in reset (R400 step 4). -/
def State.closeByReset (s : State) (i : Nat) : State :=
  let h := s.handle i
  (((s.startClose i).seqEvent i stLost h []).freeSeq i)

/-- The bytes that the move of a closing entry still has to write: a move is never cut short, and its reader may see them before it
completes (R307, R400 step 5; log 112). -/
def State.moveBytes (s : State) (m : SeqMove) : State :=
  let e := s.seq m.index
  if m.toShelf then s.setOut e.part e.kvRoot m.base else s.setIn e.part e.kvRoot m.base m.frames

/-- The Caller's part (R400 step 4, R402): every live entry closes, its move runs out; a Pause or Cancel in progress completes with
RESET. -/
def State.resetCaller (s : State) (p : Nat) : State :=
  let live := (s.caller.seqs.filter (fun e => decide (e.2.part = p) && decide (e.2.state ≠ 0))).map (·.1)
  let ws := s.caller.waits.filter (fun w => live.contains w.index)
  let s := (s.caller.moves.filter (fun m => live.contains m.index)).foldl State.moveBytes s
  let s := { s with caller := { s.caller with
    waits := s.caller.waits.filter (fun w => !live.contains w.index)
    moves := s.caller.moves.filter (fun m => !live.contains m.index) } }
  let s := live.foldl (fun t i => (t.orphanJob (.pause i)).orphanJob (.resume i)) s
  let s := ws.foldl (fun t w => t.finish w.req stReset) s
  let s := { s with host := { s.host with xfers := s.host.xfers.filter (fun x => match x.why with
    | .prompt i _ => !live.contains i
    | .toDevice _ => true) } }
  live.foldl (fun t i => t.closeByReset i) s

/-- Empty a copy engine (R400 step 6). -/
def State.resetEngine (s : State) (e : Nat) : State :=
  let s := (s.inFlight e).foldl (fun t d => t.endDesc { d with status := 6 }) s
  s.wr R.COPY_HEAD_HEAD (s.rd R.COPY_TAIL_TAIL e) e

/-- Whether an operation was issued by a partition, through an engine, the Reel or a Set. -/
def State.opOf (s : State) (p : Nat) (o : Op) : Bool := match o.owner with
  | .copyPart e _ _ => decide (s.rd R.COPY_CTL_PART e = p)
  | .copyCommit e _ => decide (s.rd R.COPY_CTL_PART e = p)
  | .reel q _ _ => decide (q = p)
  | _ => (s.setsOf p).any (fun n => o.forSet n)

/-- Complete every request of a partition with RESET (R400 step 7). -/
def State.resetRequests (s : State) (p : Nat) : State :=
  let rs := (s.openIn p).map (·.req)
  let s := { s with
    runs := s.runs.filter (fun r => r.grp.val ≠ p)
    threads := s.threads.filter (fun e => !(s.setsOf p).contains (e.1 / 128))
    turns := s.turns.filter (fun e => !(s.setsOf p).contains (e.1 / 8))
    host := { s.host with xfers := s.host.xfers.filter (fun x => match x.why with
      | .toDevice r => decide (r.grp.val ≠ p)
      | .prompt _ _ => true) } }
  rs.foldl (fun t r => t.finish r stReset) s

/-- Set-reset every Set of a partition, disabled and IDLE, and close its sequences (R400 steps 3 and 4). -/
def State.resetSets (s : State) (p : Nat) : State :=
  let s : State := (s.setsOf p).foldl (fun (t : State) n =>
    let t := (t.resetSet n).wr R.SCHED_CTL_EN 0 n
    (t.setSt n { t.st n with halted := none }).wr R.SCHED_STATUS_STATE 0 n) s
  (s.resetCaller p).setReel p .init

/-- Empty the copy engines of a partition and complete its requests (R400 steps 6 and 7). -/
def State.resetCopies (s : State) (p : Nat) : State :=
  let s := s.absorbOps p (s.opOf p)
  ((s.enginesOf p).foldl (fun t e => t.resetEngine e) s).resetRequests p

/-- Whether the submission ring is read up to its tail, which the held doorbells do not move, or cannot be read (R400 step 2;
log 113). -/
def State.drained (s : State) (p : Nat) : Bool :=
  !s.hostOk p || s.on R.PCIE_GRP_CTL_SQ_HALT 0 p ||
  decide (s.rd R.PCIE_GRP_SQ_CFG_HEAD 0 p = s.rd R.PCIE_GRP_SQ_CFG_TAIL 0 p)

/-- Put a partition's reset at a step. -/
def State.resetAt (s : State) (p : Nat) (j : ResetJob) (step : Nat) : State :=
  { s with resets := mset none p (some { j with step := step }) s.resets }

/-- The steps of a partition reset that can run now, in order: 3 and 4 once the ring is drained, 6 and 7 once the moves charged to
it are complete (R400). -/
def State.advanceReset (s : State) (p : Nat) : State :=
  match mget none s.resets p with
  | none => s
  | some j =>
    if j.waits then s
    else
      let s := if j.step = 2 ∧ s.drained p = true then (s.resetSets p).resetAt p j 5 else s
      match mget none s.resets p with
      | some j => if j.step = 5 ∧ s.moves.all (fun m => m.part ≠ p) = true then (s.resetCopies p).resetAt p j 8 else s
      | none => s

/-- Start a partition reset (R400 step 1, R401), and go on as far as it can. -/
def State.startReset (s : State) (p : Nat) (clear scrub : Bool) : State :=
  let s := ((s.wr R.PART_STATUS_STATE 2 p).wr R.PART_STATUS_PENDING 0 p).wr R.CALLER_ADMIT_CTL_OPEN 0 0 p
  let s := { s with
    resets := mset none p (some ⟨clear, scrub, s.tempo.now, false, 2⟩) s.resets
    saved := s.saved.filter (fun x => !(s.setsOf p).contains x.set)
    resetHeld := s.resetHeld.filter (fun x => !(s.setsOf p).contains x.1) }
  (if s.on R.PART_CTL_KIND p = false ∧ s.rank.isSome = true then s.reportFailed 0x05 else s).advanceReset p

/-- A request to reset a partition (R392, R397, R400, R402): refused for partition 0 with CLEAR_LOCK while others are
locked; a copy of a save or restore ends first. -/
def State.askReset (s : State) (p : Nat) (clear scrub : Bool) : State :=
  let st := s.rd R.PART_STATUS_STATE p
  if p = 0 ∧ clear = true ∧ s.lockedBut 0 ≠ [] then s.setupBad 0 1
  else if st = 2 ∨ (mget none s.resets p).isSome = true then s
  else if st = 3 ∨ st = 5 then { s with resets := mset none p (some ⟨clear, scrub, s.tempo.now, true, 2⟩) s.resets }
  else s.startReset p clear scrub

/-- PART_RESET (R397, R400). -/
def partResetEffect (p : Nat) (clear scrub : Bool) (s : State) : State := s.askReset p clear scrub

/-- PART_RESET. -/
def execPartReset (part : PartId) (clearLock scrub : Bool) (s : State) : Res :=
  .next (partResetEffect part.val clearLock scrub s)

/-- VF_FLR (R362): a partition reset of the VF's partition; the function's own state ends with it. VF `v` + 1 serves
partition `v`. -/
def vfFlrEffect (v : Nat) (s : State) : State := (s.fnReset (v + 1)).askReset v false false

/-- VF_FLR. -/
def execVfFlr (vf : PartId) (s : State) : Res := .next (vfFlrEffect vf.val s)

/-- Whether a partition reset may end (R400): its steps to 7 are done, and not before FAB_DEAD.BEATS beats from step 1. -/
def State.resetOver (s : State) (p : Nat) : Bool := match mget none s.resets p with
  | some j => !j.waits && decide (j.step = 8) && s.passed j.stamp (s.rd R.FAB_DEAD_BEATS * 1024)
  | none => false

/-- Write a range to zero but for the package areas (R389, R400 step 8). -/
def State.scrubRange (s : State) (a n : Nat) : State :=
  let rs := s.packageAreas
  let out := fun (k : Nat) => decide (a ≤ k) && decide (k < a + n) && !inSome rs k
  { s with mem := mkeep (fun k => !out k) s.mem, memMark := mkeep (fun l => !out (64 * l)) s.memMark }

/-- Clear the volatile memory of a partition (R306, R400 step 8). -/
def State.clearMemory (s : State) (p : Nat) (scrub : Bool) : State :=
  let ways := maskBits 64 (s.rd R.PART_WAYS_WAYS p &&& s.rd R.PART_SCRATCH_SCRATCH p)
  let s := ways.foldl (fun t w => t.zeroRange (scratchBase + w * wayLen) wayLen) s
  if scrub then
    (s.scrubRange (s.rd R.PART_HBM_BASE p) (s.hbmLen p)).zeroRange (s.rd R.PART_SHELF_BASE p) (s.rd R.PART_SHELF_LEN_LEN p)
  else s

/-- The doorbells held during the reset apply (R400 step 9). -/
def State.ringHeld (s : State) (p : Nat) : State :=
  let bs := s.host.bells.filter (fun b => b.grp = p)
  let s := { s with host := { s.host with bells := s.host.bells.filter (fun b => b.grp ≠ p) } }
  bs.foldl (fun t b => t.bell b.grp b.off b.val) s

/-- End a partition reset (R400 steps 8 and 9). -/
def State.endReset (s : State) (p : Nat) (j : ResetJob) : State :=
  let s := s.clearMemory p j.scrub
  let s := { s with resets := mset none p none s.resets }
  let s := if j.clearLock ∧ s.locked p = true then (s.parkWindow p).wr R.PART_STATUS_LOCKED 0 p else s
  let s := s.wr R.PART_STATUS_STATE (s.rd R.PART_STATUS_LOCKED p) p
  (s.raise E.PART_RESET_DONE p).ringHeld p

/-- RESET_DONE (R400): what is left of the steps runs, and the reset ends once it may. -/
def resetDoneEffect (p : Nat) (s : State) : State :=
  let s := s.advanceReset p
  match mget none s.resets p with
  | some j => if s.resetOver p then s.endReset p j else s
  | none => s

/-- RESET_DONE. -/
def execResetDone (part : PartId) (s : State) : Res := .next (resetDoneEffect part.val s)

/-! ### Pre-emption (R394 to R396) -/

/-- The register fields of a Set that its control record keeps (R394 step 4). -/
def recordFields : List (Fld × Nat) :=
  [(R.SCHED_SB_SB, 0), (R.SCHED_STATUS_ISSUE_IDX, 0), (R.SCHED_STATUS_COMMIT_IDX, 0), (R.SCHED_STATUS_POISON, 0)] ++
  (List.range 8).flatMap (fun k => [(R.SCHED_SHAPE_VALUE, k), (R.SCHED_SHAPE_MAX, k)]) ++
  (List.range 32).map (fun k => (R.SCHED_ARR_COUNT, k))

/-- The control record of a Set (R394 step 4). -/
def State.recordOf (s : State) (set : Nat) : SavedSet where
  set := set
  st := s.st set
  regs := recordFields.map (fun f => s.rd f.1 set f.2)
  tags := s.tags.filter (fun e => e.1 / 2048 = set)
  threads := s.threads.filter (fun e => e.1 / 128 = set)
  turns := s.turns.filter (fun e => e.1 / 8 = set)

/-- The parts of a range that lie in none of some ranges: start and end. -/
def outside (rs : List (Nat × Nat)) (a n : Nat) : List (Nat × Nat) :=
  rs.foldl (fun l r => l.flatMap (fun x =>
    [(x.1, min x.2 r.1), (max x.1 (r.1 + r.2), x.2)].filter (fun y => decide (y.1 < y.2)))) [(a, a + n)]

/-- A committed write that leaves some ranges as they stand (R174, R389). -/
def State.writeOutside (s : State) (rs : List (Nat × Nat)) (a : Nat) (data : List MarkByte) : State :=
  (outside rs a data.length).foldl (fun t x => t.devWrite x.1 ((data.drop (x.1 - a)).take (x.2 - x.1))) s

/-- Copy the tile images of a partition to its save slot, but for a package area there (R389, R394 step 3). -/
def State.saveTiles (s : State) (p : Nat) : State :=
  if s.on R.PART_SAVE_EN p then
    let rs := s.packageAreas
    (s.tilesOf p).zipIdx.foldl (fun t (tile, k) =>
      let a := t.rd R.PART_SAVE_BASE p + 0x200000 * k
      (t.writeOutside rs a (t.sram tile false 0 0x180000)).writeOutside rs (a + 0x180000) (t.sram tile true 0 0x80000)) s
  else s

/-- Copy them back (R396). -/
def State.loadTiles (s : State) (p : Nat) : State :=
  if s.on R.PART_SAVE_EN p then
    (s.tilesOf p).zipIdx.foldl (fun t (tile, k) =>
      let a := t.rd R.PART_SAVE_BASE p + 0x200000 * k
      (t.sramPut (tileKey tile false 0) (t.devMarked a 0x180000)).sramPut (tileKey tile true 0)
        (t.devMarked (a + 0x180000) 0x80000)) s
  else s

/-- PART_RESUME (R396): only a PREEMPTED partition. -/
def partResumeEffect (p : Nat) (s : State) : State :=
  if s.rd R.PART_STATUS_STATE p = 4 then s.wr R.PART_STATUS_STATE 5 p else s

/-- PART_PREEMPT (R87, R394, R395): a standalone partition is killed and saves; a serving one waits for the bar boundary. Only a
partition with SAVE.EN can be pre-empted (R404). In a write that also carries RESUME it is ignored (R402). -/
def partPreemptEffect (p : Nat) (resume : Bool) (s : State) : State :=
  if resume then partResumeEffect p s
  else if 1 < s.rd R.PART_STATUS_STATE p ∨ (mget none s.resets p).isSome = true ∨ s.on R.PART_SAVE_EN p = false then s
  else if s.on R.PART_CTL_KIND p = false then s.wr R.PART_STATUS_PENDING 1 p
  else ((s.setsOf p).foldl State.kill s).wr R.PART_STATUS_STATE 3 p

/-- PART_PREEMPT. -/
def execPartPreempt (part : PartId) (resume : Bool) (s : State) : Res := .next (partPreemptEffect part.val resume s)

/-- Whether remote operations of the partition's threads are unanswered (R394 step 2). -/
def State.threadsWait (s : State) (p : Nat) : Bool :=
  s.fab.ops.any (fun o => match o.owner with
    | .thread tile _ _ => (s.setsOf p).contains (tile / 8)
    | _ => false)

/-- Start the reset that waited for a copy to end (R402), if one did. -/
def State.resetAfterCopy (s : State) (p : Nat) : State :=
  match mget none s.resets p with
  | some j => s.startReset p j.clearLock j.scrub
  | none => s

/-- SAVE_DONE (R394 steps 3 to 5, R402, R404). -/
def saveDoneEffect (p ticks : Nat) (s : State) : State :=
  if s.rd R.PART_STATUS_STATE p ≠ 3 ∨ s.threadsWait p = true then s
  else
    let s := s.saveTiles p
    let s := { s with saved := s.saved ++ (s.setsOf p).map s.recordOf }
    let s := ((s.wr R.PART_STATUS_STATE 4 p).wr R.PART_SAVE_TIME_SAVE ticks p).raise E.PART_SAVE_DONE p
    s.resetAfterCopy p

/-- SAVE_DONE. -/
def execSaveDone (part : PartId) (ticks : Nat) (s : State) : Res := .next (saveDoneEffect part.val ticks s)

/-- PART_RESUME. -/
def execPartResume (part : PartId) (s : State) : Res := .next (partResumeEffect part.val s)

/-- Write a control record back (R396). -/
def State.loadRecord (s : State) (x : SavedSet) : State :=
  let s := s.setSt x.set x.st
  let s := (recordFields.zip x.regs).foldl (fun t (f, v) => t.wr f.1 v x.set f.2) s
  { s with
    tags := x.tags.foldl (fun m e => mset 0 e.1 e.2 m) (s.tags.filter (fun e => e.1 / 2048 ≠ x.set))
    threads := x.threads.foldl (fun m e => mset Thread.init e.1 e.2 m) (s.threads.filter (fun e => e.1 / 128 ≠ x.set))
    turns := x.turns.foldl (fun m e => mset 0 e.1 e.2 m) (s.turns.filter (fun e => e.1 / 8 ≠ x.set)) }

/-- A Set goes on after a restore (R396): it issues again, or waits for the next bar; one whose EN is 0 is IDLE (R101). -/
def State.continueSet (s : State) (p set : Nat) : State :=
  if s.setState set ≠ 5 then s
  else if s.on R.SCHED_CTL_EN set = false then
    (s.setSt set { s.st set with halted := none }).wr R.SCHED_STATUS_STATE 0 set
  else if s.on R.PART_CTL_KIND p then schedResumeEffect set false s
  else (s.setSt set { s.st set with halted := none }).wr R.SCHED_STATUS_STATE 1 set

/-- RESTORE_DONE (R396, R402): resets held for the save act on what it restored. -/
def restoreDoneEffect (p ticks : Nat) (s : State) : State :=
  if s.rd R.PART_STATUS_STATE p ≠ 5 then s
  else
    let s := s.loadTiles p
    let mine := s.saved.filter (fun x => (s.setsOf p).contains x.set)
    let held := s.resetHeld.filter (fun x => (s.setsOf p).contains x.1)
    let s := mine.foldl (fun t x => t.loadRecord x) s
    let s := { s with
      saved := s.saved.filter (fun x => !(s.setsOf p).contains x.set)
      resetHeld := s.resetHeld.filter (fun x => !(s.setsOf p).contains x.1) }
    let s := ((s.wr R.PART_STATUS_STATE (s.rd R.PART_STATUS_LOCKED p) p).wr R.PART_SAVE_TIME_RESTORE ticks p).raise E.PART_RESTORE_DONE p
    let s := (s.setsOf p).foldl (fun t n => t.continueSet p n) s
    (held.foldl (fun t x => match x.2 with
      | some tile => t.resetTile tile
      | none => t.resetSet x.1) s).resetAfterCopy p

/-- RESTORE_DONE. -/
def execRestoreDone (part : PartId) (ticks : Nat) (s : State) : Res := .next (restoreDoneEffect part.val ticks s)

end Sys2Proof.Machine
end

