-- ==== Sys2Proof/Machine/BarStart.lean ====
section
/-! DEFINITION. The start of a bar: the overrun, tables, images, Sets, the Caller, power and the map (R60, R62, R70, R72,
R93, R95 to R98, R199, R209, R276 to R278, R302, R395, R419, R437, R438, R443). -/

namespace Sys2Proof.Machine

/-! ### The barrier rule (R60) -/

/-- BAR_LEN of the present bar: of the active timed images; a package that holds none active counts by a timed image it
holds (R58, R72; log 72). -/
def State.barLen (s : State) : Nat :=
  let n := s.rd R.TEMPO_BAR_CFG_BAR_LEN
  if n ≠ 0 then n
  else match s.figs.find? (·.timed) with
    | some x => x.barLen
    | none => 0

/-- The members whose markers the next boundary waits for (R58): after a timeout, those that a pending table due at the next
bar keeps (R63). -/
def State.awaited (s : State) : List Nat :=
  match s.rolePend with
  | some x =>
    if s.tempo.tmoDone ∧ x.tab.eff ≤ s.bar + 1 then s.members.filter (fun q => x.tab.ranks.any (fun e => e.2 = q + 1))
    else s.members
  | none => s.members

/-- Whether every awaited member's marker is here, stamped GUARD ticks or more ago (R60). -/
def State.allMarked (s : State) : Bool :=
  s.awaited.all (fun q => s.tempo.marks.any (fun m => m.pkg = q && decide (m.stamp + s.tempo.guardEff ≤ s.tempo.now)))

/-- The first boundary that R60 gives for markers with these stamps. -/
def State.boundaryFor (s : State) (stamps : List Nat) : Nat :=
  max (s.tempo.base + s.barLen) (ceilDiv (maxOf (stamps.map (· + s.tempo.guardEff))) 1024)

/-- The bar that a package in no bar starts at this beat, a hot spare among them (R58): the one that its first timed image numbers
here (log 73). -/
def State.firstBar (s : State) : Option Nat :=
  if s.tempo.barOn then none
  else (s.figs.find? (fun x => x.timed && decide (x.barLen ≠ 0) && s.beat % x.barLen = 0 &&
    decide (x.eff ≤ s.beat / x.barLen))).map (fun x => s.beat / x.barLen)

/-- Whether a takeover decides the start of the held bar, and R60 does not (R435, R447): its table is here, or this package
coordinates and has written orders. -/
def State.heldByTakeover (s : State) : Bool :=
  s.tableHere || (match s.health.coord with
    | some c => !c.orders.isEmpty
    | none => false)

/-- The bar that starts at this boundary, if one does (R60). A package that knows no BAR_LEN starts none by itself (log 72). -/
def State.barDue (s : State) : Option Nat :=
  if s.on R.TEMPO_CTL_EN = false ∨ s.on R.TEMPO_STATUS_COUNT_VALID = false ∨ s.tempo.now % 1024 ≠ 0 then none
  else if s.tempo.barOn then
    if s.heldByTakeover ∨ s.barLen = 0 then none
    else if s.tempo.base + s.barLen ≤ s.beat ∧ s.tempo.base < s.beat ∧ s.allMarked = true then some (s.bar + 1) else none
  else s.firstBar

/-! ### The overrun (R62, R375) -/

/-- The late package: the last marker in the order of R64, the higher id of equal stamps (R62). -/
def lastMark : List Mark → Option Mark
  | [] => none
  | m :: r => match lastMark r with
    | some x => if x.stamp < m.stamp ∨ (x.stamp = m.stamp ∧ x.pkg < m.pkg) then some m else some x
    | none => some m

/-- Record an overrun of `n` beats of a bar that starts (R62, R375). -/
def State.overrun (s : State) (bar n : Nat) (late : Mark) : State :=
  let s := s.note 0x00 (.barOverrun bar n late.pkg late.stamp)
  let s := ((s.wr R.TEMPO_OVR_LAST_BEATS n).wr R.TEMPO_OVR_LAST_LATE_PKG late.pkg).wr R.TEMPO_OVR_BAR_BAR bar
  (s.raise E.TEMPO_OVERRUN 0 [bar, n, late.pkg]).mgmt 16 0x0004 [bar, n % 65536 + late.pkg * 2 ^ 16]

/-! ### Tables (R95, R97, R205, R437) -/

/-- Write the history of every live entry to the mirror again (R437). -/
def State.remirror (s : State) : State :=
  (s.caller.seqs.filter (fun e => e.2.state ≠ 0)).foldl (fun (t : State) (e : Nat × Entry) =>
    t.mirrorHist e.1 e.2.histPtr (t.devBytes e.2.histPtr (4 * (e.2.promptLen + e.2.generated)))) s

/-- Change a live entry outside an operation on it: it is brought into the cache, and one that is lost there stays as it is
(R187). -/
def State.touchSeq (s : State) (i : Nat) (f : Entry → Entry) : State :=
  let t := s.loadEntry i
  if (t.seq i).state = 0 ∨ ((t.seq i).state = 7 ∧ (s.seq i).state ≠ 7) then t else t.putSeq i (f (t.seq i))

/-- Every live entry names a new buddy, and with it goes to the mirror there (R186, R205). -/
def State.rebuddy (s : State) (b : Nat) : State :=
  (s.caller.seqs.filter (fun e => e.2.state ≠ 0)).foldl (fun (t : State) (e : Nat × Entry) =>
    t.touchSeq e.1 (fun x => { x with buddy := b })) s

/-- What is left of the copy of the mirror to the buddy that a table brings goes before the table takes effect, all of it where the
table came by takeover (R205, R447). A buddy that failed has none to copy (R437). -/
def State.copyBefore (s : State) (t : RoleTab) (failed : List Nat) : State :=
  match s.buddy, (({ s with roles := t } : State).buddy) with
  | some a, some b => if a = b ∨ failed.contains a = true then s else (s.copyMirrorTo (some b)).flushAhead b
  | _, _ => s

/-- The mirror of a rank whose buddy changes (R205, R437): it was copied before the change; where the old buddy failed it is
written anew, and JOURNAL_LOST applies until that rebuild is over. -/
def State.moveMirror (s : State) (old : Option Nat) (failed : List Nat) : State :=
  match s.buddy.filter (fun b => decide (some b ≠ old)) with
  | none => s
  | some b =>
    let hit := match old with
      | some b => failed.contains b
      | none => false
    let s := if hit then
        let t : State := { s with health := { s.health with rebuild := true } }
        ((t.raise E.HEALTH_JOURNAL_REBUILD).mgmtTray 0x0207 [1]).callerRaise E.CALLER_JOURNAL_LOST []
      else s
    let copied := decide (s.caller.copied = some b)
    let s : State := { s with caller := { s.caller with
      copied := none
      mirror := s.caller.mirror.map (fun m => if m.ahead = some b then { m with ahead := none } else m) } }
    ((if copied then s else s.remirror).rebuddy b).sendMirror

/-- Make a role table current (R95, R103, R375, R468); a rank that the package did not hold is a role afresh (R56). -/
def State.takeRoles (s : State) (t : RoleTab) (failed : List Nat) : State :=
  let old := s.buddy
  let was := s.rank
  let s := s.copyBefore t failed
  let s := ({ s with roles := t }).updatePlanes
  let s := (s.wr R.SCHED_ROLE_GEN_GEN t.gen).wr R.SCHED_ROLE_EFF_EFF_BAR t.eff
  let s := (s.wr R.SCHED_RANK_RANK (s.rank.getD 0)).wr R.SCHED_RANK_HAS_ROLE (b2n s.rank.isSome)
  let s := (s.mgmt 16 0x0005 [t.gen, t.eff, s.rank.getD 0 + b2n s.rank.isSome * 2 ^ 12]).measure
  let s := { s with stranded := s.stranded && (s.rank.isNone || decide (s.rank = was)) }
  s.moveMirror old failed

/-- The boundary at which a bar starts takes the pending role table due at it (R95). -/
def State.rolesAt (s : State) (bar : Nat) : State :=
  match s.rolePend with
  | some x => if x.tab.eff ≤ bar then (State.takeRoles { s with rolePend := none } x.tab []).endRole x 0 else s
  | none => s

/-! ### Images (R70, R72, R97) -/

/-- Images of a rank that the package no longer holds leave their Sets (R97, R101): their streams go and the Sets show IDLE,
which is the model's choice for a Set whose image a change of rank retires (DESIGN CHOICE, log 159). -/
def State.retireFigs (s : State) : State :=
  (s.figs.filter (fun x => x.timed && x.active && decide (s.rank ≠ some x.rank))).foldl (fun (t : State) (x : Image) =>
    (t.setFig { x with active := false, nextPf := 0 }).dropStreams x.sets) s

/-- The images that this boundary activates: those whose bar has come, of the rank held, and at a change of rank every
one of the new rank (R70, R97; log 40). -/
def State.dueFigs (s : State) (bar : Nat) (fresh : Bool) : List Image :=
  s.figs.filter (fun x => !x.active &&
    (if x.timed then decide (s.rank = some x.rank) && (fresh || decide (x.eff ≤ bar)) else decide (x.eff ≤ bar)))

/-- Every Set outside the timed images stops issue at a boundary, for a reason (R72, R97). -/
def State.haltUntimed (s : State) (why : HaltWhy) : State :=
  ((List.range 48).filter (fun n => !s.timed n && s.setState n ≠ 0 && s.setState n ≠ 5)).foldl
    (fun (t : State) n => t.haltFor n why) s

/-- The package has no Figure that it may run, and issues nothing (R72, R97). -/
def State.roleNotReady (s : State) : State :=
  (({ s with notReady := true }).haltUntimed .role).raise E.SCHED_ROLE_NOT_READY

/-- A change of rank retires the images of the rank before; a package left without a rank stops issue and has no role to be
ready for (R97). -/
def State.changeRank (s : State) : State :=
  let s := s.retireFigs
  if s.rank.isNone then State.haltUntimed { s with notReady := false } .kill else s

/-- The images' part of a boundary: all that are due become active if the active timed ones then agree, else none, and
they are discarded; ROLE_NOT_READY is raised where they do not agree, and at a change of rank that leaves the package with
no image of its rank (R70, R72, R97, R101). -/
def State.activateAt (s : State) (bar : Nat) (fresh : Bool) : State :=
  let s := if fresh then s.changeRank else s
  let due := s.dueFigs bar fresh
  let t := due.foldl State.activate s
  let bad := !due.isEmpty && !agree t.timedFigs
  let s :=
    if due.isEmpty then s
    else if bad then { s with figs := s.figs.filter (fun x => !due.contains x) }
    else if due.any (·.timed) then { t with notReady := false }
    else t
  let s := if bad ∨ (fresh ∧ s.rank.isSome = true ∧ s.timedFigs.isEmpty = true) then s.roleNotReady else s
  s.reportFigs

/-! ### Partitions and Sets (R93, R101, R395, R399, R431) -/

/-- A PREEMPT on a serving partition takes effect: every Set of it halts, and it saves (R395). -/
def State.preemptAt (s : State) (p : Nat) : State :=
  if s.on R.PART_CTL_KIND p = false ∧ s.on R.PART_STATUS_PENDING p = true then
    let s := (s.setsOf p).foldl (fun t n => (t.setSt n { t.st n with halted := none, why := .kill }).wr R.SCHED_STATUS_STATE 5 n) s
    (s.wr R.PART_STATUS_PENDING 0 p).wr R.PART_STATUS_STATE 3 p
  else s

/-- STATE of a timed Set as the bar starts: it runs, or is kept from running (R56, R97, R101, R395, R431). -/
def State.stateAtStart (s : State) (n : Nat) : Nat :=
  let st := s.setState n
  if (st = 0 ∨ s.on R.SCHED_CTL_EN n = false) ∧ s.saving n = false then 0
  else if s.notReady ∨ s.stranded ∨ st = 5 ∨ s.saving n = true then 5
  else if s.on R.HEALTH_STATUS_FAILED then 1
  else 2

/-- Why a timed Set is in HALTED after a bar's start (R101). -/
def State.haltAtStart (s : State) (n : Nat) : HaltWhy :=
  if s.setState n = 5 then (s.st n).why else if s.stranded then .expiry else if s.notReady then .role else .kill

/-- Every prefetch schedule starts anew with a bar (R309). -/
def State.newSchedules (s : State) : State := { s with figs := s.figs.map (fun x => { x with nextPf := 0 }) }

/-- The start-of-bar actions of a timed Set (R93). What it has not completed is discarded first. -/
def State.startSet (s : State) (n : Nat) : State :=
  let st := s.stateAtStart n
  let why := s.haltAtStart n
  let t := (s.discard n).startPass n
  (t.setSt n { t.st n with why := why }).wr R.SCHED_STATUS_STATE st n

/-- Fences fall, and answers that a reset absorbed are forgotten but for those of a partition still in reset (R399). -/
def State.dropFences (s : State) : State :=
  let gone := s.fab.ops.filter (fun o => match o.absorb with
    | some p => decide (s.rd R.PART_STATUS_STATE p ≠ 2)
    | none => false)
  let s := gone.foldl State.closeOp s
  (List.range 48).foldl (fun (t : State) n => if (t.st n).fenced then t.setSt n { t.st n with fenced := false } else t)
    { s with tileResets := [] }

/-- Every Set of an active timed image starts the bar (R93). That the tokens and counters of a Set with an untimed image, or
none, are not cleared here but where its own pass starts is the model's choice (R79, R80 name the bar; DESIGN CHOICE, log
160). -/
def State.startSets (s : State) : State :=
  let s := (List.range 16).foldl State.preemptAt s.dropFences
  ((List.range 48).filter s.timed).foldl State.startSet s

/-! ### The Caller (R190, R199, R209, R395, R419) -/

/-- Add beats to SLIP of every sequence of some partitions that is reserved in a bar (R199). -/
def State.slip (s : State) (bar n : Nat) (parts : Nat → Bool) : State :=
  let is := (s.caller.seqs.filter (fun e => e.2.state ≠ 0 && parts e.2.part && s.reserved e.1 bar)).map (·.1)
  if is.isEmpty ∨ n = 0 then s
  else (is.foldl (fun (t : State) i => t.touchSeq i (fun e => { e with slip := e.slip + n })) s).callerRaise
    E.CALLER_PROMISE_SLIP [bar, n]

/-- The energy of one slot: ⌊E × TOK_N ÷ NTOK⌋ (R419), for the slots to which the harvest of R201 adds it: those with a VALID, sound
result of a generation that stands, also of a sequence that this bar's harvest ended (log 82). -/
def State.chargeSlot (s : State) (half e ntok i : Nat) : State :=
  let x := s.slotEntry (slotAt half i)
  let r := s.resultOf (resultAt half i)
  let q := s.seq x.index
  let ran := (q.state ≠ 0 ∧ q.gen = x.gen ∧ q.cancelled = false) ∨
    (q.state = 0 ∧ q.lastBar = s.bar ∧ q.gen = (x.gen + 1) % 65536)
  if x.kind ≠ 0 ∧ r.valid = true ∧ r.gen = x.gen ∧ r.bad x = false ∧ s.slotPoisoned half i x r = false ∧ ran then
    s.putSeq x.index { q with energy := q.energy + e * x.tokN / max 1 ntok }
  else s

/-- The energy of the ended bar goes to its sequences (R419). -/
def State.chargeBar (s : State) : State :=
  (List.range 16).foldl (fun (t : State) p =>
    let half := t.wlHalf p t.bar
    let e := t.power.barPart.getD p 0
    if t.callerOn ∧ t.devWord half = t.bar ∧ t.bar < t.caller.planned ∧ t.rd R.CALLER_ADMIT_CTL_SEQ_CAP 0 p ≠ 0 then
      (List.range (bits (t.devWord (half + 8)) 44 32)).foldl (fun (u : State) i =>
        u.chargeSlot half e (t.devWord (half + 16)) i) t
    else t) s

/-- A SWITCH takes effect (R209). -/
def State.switchCallers (s : State) : State :=
  if s.caller.switch then
    let a := s.rd R.CALLER_STATUS_ACTIVE 0
    let s : State := { s with caller := { s.caller with switch := false } }
    ((s.wr R.CALLER_STATUS_ACTIVE (1 - a) 0).wr R.CALLER_STATUS_ACTIVE a 1).callerRaise E.CALLER_SWITCHED []
  else s

/-- The Caller's part of a bar's start; `late` is the bar's overrun, and the first bar has no plan to be late. -/
def State.callerAt (s : State) (bar late : Nat) (first : Bool) : State :=
  let s := s.switchCallers
  if s.callerOn then
    let len := s.barLen
    let s := s.slip bar late (fun _ => true)
    let s := if first = false ∧ s.caller.planned ≤ bar ∧ s.planned.isEmpty = false then
        (s.callerRaise E.CALLER_PLAN_LATE [bar]).slip bar len (fun p => !s.preempted p)
      else s
    (s.slip bar len (fun p => s.preempted p)).pruneLedger
  else s

/-! ### The start of a bar -/

/-- The time registers of a bar that starts now (R63, R67, R438). -/
def State.openBar (s : State) (bar base : Nat) : State :=
  let s := (s.wr R.TEMPO_BAR_NUM_BAR bar).wr R.TEMPO_BAR_START_START (s.beat * 1024)
  let s := (s.wr R.HEALTH_STATUS_COORD 0)
  { s with
    tempo := { s.tempo with
      barOn := true, marks := [], tmoDone := false, lateMark := false, base := base
      guardEff := s.rd R.TEMPO_BAR_CFG_GUARD, tmoEff := s.rd R.TEMPO_BAR_CFG_TMO }
    health := { s.health with coord := none, tmoAt := none, coordsOut := 0 } }

/-- Start a bar at this boundary (R60): the role table, its failed packages and START_BEAT are those of a takeover, if it is one
(R435 step 6). -/
def State.startBar (s : State) (bar : Nat) (late : Mark) (tk : Option (RoleTab × List Nat × Nat)) : State :=
  let first := !s.tempo.barOn
  let at_ := match tk with
    | some (_, _, b) => b
    | none => s.beat
  let over_ := if first then 0 else at_ - (s.tempo.base + s.barLen)
  let base := if s.tempo.lateMark ∧ tk.isNone = true then s.boundaryFor (s.tempo.marks.map (·.stamp)) else at_
  let rank := s.rank
  let s := s.abandonReel.closeUsed.newSchedules.chargeBar
  let s := if over_ = 0 ∨ rank.isNone = true then s else s.overrun bar over_ late
  let s := match tk with
    | some (t, failed, _) => State.takeRoles s t failed
    | none => s.rolesAt bar
  let s := (s.placeAt bar).activateAt bar (decide (s.rank ≠ rank))
  let s := (s.swapAt bar).checkOwed.openBar bar base
  let s := s.startSets.callerAt bar over_ first
  (s.swapFaulty.replanBarStep.powerBar).snapshot bar

end Sys2Proof.Machine
end

