-- ==== Sys2Proof/Machine/Bars.lean ====
section
/-! DEFINITION. Beat boundaries, holdover expiry, the bar barrier and the start of a takeover (R51, R56 to R63, R97,
R435 to R438, R447). -/

namespace Sys2Proof.Machine

/-! ### BEAT_BOUNDARY, HOLDOVER_EXPIRY -/

/-- BEAT_BOUNDARY (R51): a locked loop reaches tick 0 of a new beat, after tick 1,023 of the one before. -/
def beatBoundaryEffect (s : State) : State :=
  if s.on R.TEMPO_CTL_EN ∧ s.on R.TEMPO_STATUS_LOCKED ∧ s.tempo.now % 1024 = 1023 then s.tempoBoundary.clockDies else s

/-- BEAT_BOUNDARY. -/
def execBeatBoundary (s : State) : Res := .next (beatBoundaryEffect s)

/-- Whether holdover expires: 256 beats of it are over and no input is qualified (R56). -/
def State.expiryDue (s : State) : Bool :=
  decide (s.rd R.TEMPO_STATUS_SEL = 3) && decide (s.rd R.TEMPO_STATUS_HOLD_BEATS = 256) &&
  !s.on R.TEMPO_STATUS_EXPIRED && s.returning.isNone

/-- HOLDOVER_EXPIRY (R56, R67, R432): every Set is killed and HALTED, whatever it was in. -/
def holdoverExpiryEffect (s : State) : State :=
  if s.expiryDue then
    let s := (s.wr R.TEMPO_STATUS_EXPIRED 1).raise E.TEMPO_HOLD_EXPIRED
    let s := (List.range 48).foldl (fun (t : State) n => t.haltFor n .expiry) { s with stranded := true }
    s.reportFailed 0x02
  else s

/-- HOLDOVER_EXPIRY. -/
def execHoldoverExpiry (s : State) : Res := .next (holdoverExpiryEffect s)

/-! ### The barrier -/

/-- BAR_START (R60). -/
def barStartEffect (s : State) : State :=
  match s.barDue with
  | some b => s.startBar b ((lastMark s.tempo.marks).getD ⟨s.pkgId, 0⟩) none
  | none => s

/-- BAR_START. -/
def execBarStart (s : State) : Res := .next (barStartEffect s)

/-- Whether a marker of the current bar is late: the boundary it gives has passed (R63). -/
def State.lateFor (s : State) (stamp : Nat) : Bool := decide (s.boundaryFor [stamp] * 1024 < s.tempo.now)

/-- Count a marker of the current bar (R59, R63). -/
def State.countMark (s : State) (m : Mark) : State :=
  let s := if s.lateFor m.stamp then
      let t : State := { s with tempo := { s.tempo with lateMark := true } }
      (t.raise E.TEMPO_BARRIER_LATE 0 [m.pkg, s.bar]).note 0x00 (.lateMarker m.pkg s.bar m.stamp)
    else s
  { s with tempo := { s.tempo with marks := s.tempo.marks ++ [m] } }

/-- A spare in no bar, or behind the bar that a marker names, starts that bar with the marker (R58; log 74). The bar's first beat
is not in a marker: the spare takes the marker's own beat for it, so that it never starts a bar before the members do, and
judges no timeout of that bar. -/
def State.joinBar (s : State) (bar stamp : Nat) : State :=
  if (s.tempo.barOn = false ∨ s.bar < bar) ∧ s.rank.isNone = true ∧ s.on R.TEMPO_STATUS_COUNT_VALID = true then
    let s := s.startBar bar ⟨s.pkgId, 0⟩ none
    { s with tempo := { s.tempo with base := stamp / 1024, tmoDone := true } }
  else s

/-- BAR_DONE (R58, R59, R63): the first copy of a marker counts; one of another bar raises BARRIER_LATE. -/
def barDoneEffect (pkg bar stamp : Nat) (s : State) : State :=
  if mget 0 s.tempo.seenMarks (pkg * 2 ^ 64 + bar) = 1 ∨ pkg = s.pkgId ∨ s.on R.TEMPO_CTL_EN = false then s
  else
    let s : State := { s with tempo := { s.tempo with seenMarks := mset 0 (pkg * 2 ^ 64 + bar) 1 s.tempo.seenMarks } }
    let s := s.joinBar bar stamp
    if s.tempo.barOn = false ∨ bar ≠ s.bar then s.raise E.TEMPO_BARRIER_LATE 0 [pkg, bar]
    else if s.members.contains pkg then s.countMark ⟨pkg, stamp⟩
    else s

/-- BAR_DONE. -/
def execBarDone (pkg : PkgId) (bar stamp : Word) (s : State) : Res :=
  .next (barDoneEffect pkg.toNat bar.toNat stamp.toNat s)

/-- Whether a marker is still missing TMO beats after the nominal start of the next bar (R63). -/
def State.timeoutDue (s : State) : Bool :=
  s.tempo.barOn && !s.tempo.tmoDone && !s.missing.isEmpty && decide (s.barLen ≠ 0) &&
  decide (s.tempo.base + s.barLen + s.tempo.tmoEff ≤ s.beat)

/-- BARRIER_TIMEOUT (R63, R435): once for a bar; the member of the lowest rank that is not missing coordinates. -/
def barrierTimeoutEffect (s : State) : State :=
  if s.timeoutDue then
    let ms := s.missing
    let s : State := { s with
      tempo := { s.tempo with tmoDone := true }
      health := { s.health with tmoAt := some s.tempo.now, coordsOut := 0 } }
    let s := s.raise E.TEMPO_BARRIER_TMO 0 [s.bar]
    let s := (s.wr R.TEMPO_BAR_MISS_LOW_PKG (minOr 0 ms)).wr R.TEMPO_BAR_MISS_COUNT ms.length
    (s.note 0x00 (.missingMarkers s.bar ms)).startCoord
  else s

/-- BARRIER_TIMEOUT. -/
def execBarrierTimeout (s : State) : Res := .next (barrierTimeoutEffect s)

/-! ### TAKEOVER_START (R435 steps 6 and 7) -/

/-- START_BEAT, as written into this package's takeover region (R434). -/
def State.startBeat (s : State) : Nat := s.devWord (s.tkAt 0x88060)

/-- Whether the held bar starts at this boundary (R435 step 6): a newer pending table for it is here, well formed, and
START_BEAT has come. -/
def State.takeoverDue (s : State) : Bool :=
  s.tempo.barOn && s.tableHere && s.roleGood (s.tkAt 0x80040) && s.tempo.now % 1024 = 0 && decide (s.startBeat ≤ s.beat) &&
  s.on R.TEMPO_STATUS_COUNT_VALID

/-- Packages that hold a rank now and none in a table. -/
def State.failedIn (s : State) (t : RoleTab) : List Nat :=
  s.members.filter (fun q => !t.ranks.any (fun e => e.2 = q + 1))

/-- What the package reports of a takeover that starts (R435 step 7, R447, R450). -/
def State.reportTakeover (s : State) (t : RoleTab) (failed : List Nat) (coord : Bool) : State :=
  let s := (s.raise E.HEALTH_TAKEOVER 0 [t.gen]).wr R.HEALTH_TK_LAST_STAMP s.stamp
  let s := s.step435 4 (s.rank.getD 0) s.pkgId
  let s := if coord then s.mgmtTray 0x0202 [t.gen, s.startBeat, s.pkgId] else s
  if failed.contains s.pkgId then s.wr R.HEALTH_STATUS_FAILED 1 else s

/-- A table pending by request gives way to the takeover's, of the higher GEN (R95). -/
def State.dropPending (s : State) : State :=
  match s.rolePend with
  | some y => State.endRole { s with rolePend := none } y stSuperseded
  | none => s

/-- Whether the takeover region holds a newer table whose bar has started already, not yet reported (R95). -/
def State.tableLate (s : State) : Bool :=
  decide (s.roles.gen < s.tableGen) && s.barBegun s.tableEff && s.roleGood (s.tkAt 0x80040) &&
  decide (s.health.judged ≠ s.tableGen)

/-- TAKEOVER_START (R435 to R437, R447): the pending table becomes current, the held bar starts, the sweep stops, and a
spare with a new rank restores its sequences. A table that came after its bar had started is rejected with ROLE_LATE (R95). -/
def takeoverStartEffect (s : State) : State :=
  if s.takeoverDue then
    let t := s.roleTable (s.tkAt 0x80040)
    let failed := s.failedIn t
    let coord := s.health.coord.isSome
    let spare := s.rank.isNone
    let late : Mark := ⟨minOr s.pkgId failed, s.stamp⟩
    let s := s.stopSweep.dropPending
    let s := (s.startBar (s.bar + 1) late (some (t, failed, s.startBeat))).reportTakeover t failed coord
    match spare, s.rank with
    | true, some r => s.startRestore r
    | _, _ => s
  else if s.tableLate then
    State.raise { s with health := { s.health with judged := s.tableGen } } E.SCHED_ROLE_LATE
  else s

/-- TAKEOVER_START. -/
def execTakeoverStart (s : State) : Res := .next (takeoverStartEffect s)

end Sys2Proof.Machine
end

