-- ==== Sys2Proof/Machine/Recipe.lean ====
section
/-! DEFINITION. Recipe flags and Shadow sampling (R150 to R157). -/

namespace Sys2Proof.Machine

/-! ### Shadow samples (R155 to R157) -/

/-- Close the cells of a layer opened for a bar of a parity (R157). -/
def State.closeCells (s : State) (p l par : Nat) : State :=
  let n := bits (s.devWord (s.fmtEntry p l + 80)) 15 0
  (List.range n).foldl (fun t k =>
    let a := s.shadowCell p l k par
    if t.devNat a 4 = 0 then t else t.coreCell a 0) s

/-- The reference tiles of a narrow tile, by its format (R155). -/
def refTiles (fmt : Nat) : Nat := if fmt = 0 then 8 else if fmt = 1 ∨ fmt = 2 then 4 else 2

/-- The objects of reference shards that the manifest of the current region gives a layer (R155, R290). -/
def State.hasReference (s : State) (l : Nat) : Bool :=
  (manObjList (s.weights.manifests.getD (s.rd R.PROM_EPOCH_REGION) [])).any (fun o => o.2.ref && decide (o.2.layer = l))

/-- The moves that stage a sample (R155, R157): the narrow tile from the current region, then its reference tiles from the active
slot (log 65). -/
def State.sampleMoves (s : State) (p l n k g slot : Nat) : List Move :=
  let to_ := s.fmtArea p + 0x20000 + 0x60000 * (2 * l + n % 2)
  let at_ := fun i => (Config.sampleAt (256 * p + l) k g i).toNat
  let h := objHdr (s.devBytes (s.epochBase + at_ 0) 32)
  let move : Move := { queue := 2, kind := 0, part := p, slot := slot, src := s.epochBase + at_ 0, dst := to_
                       len := min 0x10000 h.slotLen, count := 0, todo := [0, 0, 0, 0], why := .sample p l n k g }
  move :: (List.range (refTiles h.fmt)).map (fun i =>
    { move with kind := 1, src := at_ (i + 1), dst := to_ + 0x10000 + 0x9000 * i, len := rawTileLen 9 })

/-- Sample one layer for bar `n` (R155, R157): its cell opens once the staging has completed; a tile on a failed page of NV
leaves it closed. An NSLICE or NGROUP of 0 is taken as 1 (DESIGN CHOICE, log 199). -/
def State.sampleLayer (s : State) (p n l : Nat) : State :=
  let e := s.fmtEntry p l
  let w9 := s.devWord (e + 72)
  if w9.testBit 17 = false then s
  else
    let t := s.closeCells p l (n % 2)
    let h := mix64 ((s.devWord (s.fmtArea p) + n * 0x100 + l) % 2 ^ 64)
    let w10 := s.devWord (e + 80)
    match s.activeSlot with
    | none => t
    | some slot =>
      let k := h / 2 ^ 16 % max 1 (bits w10 15 0)
      let g := h / 2 ^ 32 % max 1 (bits w10 31 16)
      let ms := t.sampleMoves p l n k g slot
      if h % 65536 < bits w9 16 0 ∧ s.hasReference l = true ∧
          ms.all (fun m => decide (m.kind = 0) || !s.inHole slot m.src m.len) = true then
        ms.foldl (fun u m => u.queueMove m [(m.dst, m.size)]) t
      else t

/-- SHADOW_SAMPLE (R157): before the next bar, each layer with SHADOW_EN. On a package in no bar the next bar is taken as
that after TEMPO_BAR_NUM (DESIGN CHOICE, log 198). -/
def shadowSampleEffect (p : Nat) (s : State) : State :=
  if s.locked p ∧ s.fmtArea p ≠ 0 then (s.fmtLayers p).foldl (fun t l => t.sampleLayer p (s.bar + 1) l) s else s

/-- SHADOW_SAMPLE. -/
def execShadowSample (part : PartId) (s : State) : Res := .next (shadowSampleEffect part.val s)

/-! ### Evaluation (R151 to R153) -/

/-- Whether FP32 bits are finite. -/
def finite32 (x : Nat) : Bool := bits x 30 23 ≠ 255

/-- Whether FP32 `a` is at most `b`; false for a NaN. -/
def atMost32 (a b : Nat) : Bool :=
  let nan := fun x => bits x 30 23 = 255 ∧ bits x 22 0 ≠ 0
  let ord : Nat → Int := fun x => if x.testBit 31 then -(bits x 30 0 : Int) else (bits x 30 0 : Int)
  decide (¬ nan a) && decide (¬ nan b) && decide (ord a ≤ ord b)

/-- The larger of two FP32 values that are no NaN. -/
def max32 (a b : Nat) : Nat := if atMost32 a b then b else a

/-- Evaluate one layer after bar `n` (R152). That a WIN of 0 never ends its window is the model's choice (DESIGN CHOICE, log
200). -/
def State.evalLayer (s : State) (p n l : Nat) : State :=
  let e := s.fmtEntry p l
  let cnt := e + 128 + 32 * (n % 2)
  let shd := e + 192 + 16 * (n % 2)
  let c := fun i => s.devWord (cnt + 8 * i)
  let thr := s.devWord (e + 64)
  let win := bits thr 55 48
  let sums := mget (0, 0) s.windows (256 * p + l)
  let sums := (sums.1 + c 0, sums.2 + c 2)
  let ends := win ≠ 0 ∧ (n + 1) % win = 0
  let flush := ends ∧ bits thr 47 32 * sums.1 < sums.2 * 2 ^ 20
  let r0 := s.devWord shd
  let r1 := s.devWord (shd + 8)
  let valid := r1.testBit 32
  let good := valid && !r1.testBit 33
  let d := bits r0 31 0
  let poison : Bool := decide (0 < c 3) || (valid && r1.testBit 33)
  let diverge : Bool := good && !atMost32 d (bits thr 31 0)
  let cause := b2n (decide flush) + 2 * b2n poison + 4 * b2n diverge
  let s := s.devSetNat e 8 (s.devWord e + c 0)
  let s := s.devSetNat (e + 8) 8 (s.devWord (e + 8) + c 2)
  let s := s.devSetNat (e + 16) 8 (s.devWord (e + 16) + c 3)
  let s := (s.devSet cnt (List.replicate 32 0)).putBits (shd + 8) 32 32 0
  let s := { s with windows := mset (0, 0) (256 * p + l) (if ends then (0, 0) else sums) s.windows }
  let s := if valid then s.putBits (e + 24) 31 0 (bits (s.devWord (e + 24)) 31 0 + 1) else s
  let s := if good then s.putBits (e + 24) 63 32 d else s
  let s := if good && finite32 d then s.putBits (e + 32) 31 0 (max32 (bits (s.devWord (e + 32)) 31 0) d) else s
  if cause = 0 then s
  else
    let flagN := (bits (s.devWord (e + 32)) 47 32 + 1) % 65536
    let s := (s.putBits (e + 32) 47 32 flagN).putBits (e + 32) 50 48 cause
    (s.devSetNat (e + 40) 8 s.stamp).mgmt p 0x0002 [l, flagN + cause * 2 ^ 16]

/-- RECIPE_EVALUATE (R152): the bar before the present one, once; then EVAL_BAR. -/
def recipeEvaluateEffect (p : Nat) (s : State) : State :=
  let n := s.bar - 1
  if s.locked p ∧ s.fmtArea p ≠ 0 ∧ s.tempo.barOn = true ∧ 0 < s.bar ∧ (s.devWord (s.fmtArea p + 16) ≠ n ∨ n = 0) then
    ((s.fmtLayers p).foldl (fun t l => t.evalLayer p n l) s).devSetNat (s.fmtArea p + 16) 8 n
  else s

/-- RECIPE_EVALUATE. -/
def execRecipeEvaluate (part : PartId) (s : State) : Res := .next (recipeEvaluateEffect part.val s)

end Sys2Proof.Machine
end

