-- ==== Sys2Proof/Machine/RegisterWrite.lean ====
section
/-! DEFINITION. Writes of registers whose fields have no command of their own (R9, R10, R12, R36, R392). -/

namespace Sys2Proof.Machine

/-- The repeat indices at which a field's register lies at an offset, if it does (R9). -/
def Fld.place (f : Fld) (off : Nat) : Option (Nat × Nat) :=
  let ks := List.range (max 1 f.n1)
  let js := List.range (max 1 f.n2)
  (ks.flatMap (fun k => js.map (fun j => (k, j)))).find? (fun e => f.off + f.s1 * e.1 + f.s2 * e.2 = off)

/-- The fields of the register of a class at an offset, each with its repeat indices. -/
def fieldsAt (cls off : Nat) : List (Fld × Nat × Nat) :=
  (R.all.filter (fun f => f.cls = cls)).filterMap (fun f => (f.place off).map (fun e => (f, e)))

/-- The partition whose setup lock governs a field (R10, R211, R283, R312, R351, R353, R404, R428, R449): none for a tile
that no locked partition owns. -/
def State.lockOf (s : State) (f : Fld) (i k : Nat) : Option Nat :=
  if f.cls = 0x11 then s.ownerOf (i / 8)
  else if f.cls = 0x13 then some (s.rd R.CHECK_WIN_SLOT_PART 0 k)
  else if f.cls = 0x32 then some (s.rd R.COPY_CTL_PART i)
  else if f.cls = 0x41 then some i
  else if (f.cls = 0x40 ∨ f.cls = 0x33 ∨ f.cls = 0x30) ∧ 0x100 ≤ f.off then some k
  else some 0

/-- Whether a field takes a value (R49, R67, R114, R211, R231, R283, R341, R351, R353, R386, R428, R449); one outside its
range has no effect. -/
def State.takes (s : State) (f : Fld) (k v : Nat) : Bool :=
  if f = R.TEMPO_PERIOD_HALF_US then inRange 4 128 v && !s.on R.TEMPO_CTL_EN
  else if f = R.TEMPO_BAR_CFG_GUARD then inRange 64 1023 v
  else if f = R.TEMPO_BAR_CFG_TMO ∨ f = R.FAB_DEAD_BEATS ∨ f = R.REEL_CFG_PERIOD ∨ f = R.REEL_CFG_CREDITS ∨
      f = R.PCIE_CQ_IRQ_COUNT ∨ f = R.CALLER_JOURNAL_OFF ∨ f = R.CALLER_JOURNAL_TMO then decide (v ≠ 0)
  else if f = R.TILE_CFG_RAMP then inRange 16 128 v
  else if f = R.CALLER_WL_CFG_CUT then inRange 48 255 v
  else if f = R.CALLER_ADMIT_CTL_SEQ_CAP then decide (v ≤ 4096)
  else if f = R.CALLER_ADMIT_CTL_TOK_CAP then decide (v ≤ 16384)
  else if f = R.CALLER_ADMIT_CTL_PF_CHUNK then inRange 1 4096 v
  else if f = R.CALLER_PART_DRES_DRES then [0, 4, 8, 12].all (fun b => decide (v / 2 ^ b % 16 ≤ 8))
  else if f = R.CALLER_SPEC_CFG_HEADS_N then decide (v ≤ 8)
  else if f = R.CALLER_SPEC_CFG_SHIFT then inRange 1 8 v
  else if f = R.FAB_PART_CFG_QCOMPAT then v = 0 || s.on R.PART_CTL_KIND k
  else if f = R.COPY_RING_LOG2N then inRange 4 16 v
  else if f = R.PCIE_GRP_SQ_BASE_BASE ∨ f = R.PCIE_CQ_BASE_BASE ∨ f = R.PCIE_CQ_CFG_EN ∨ f = R.PCIE_CQ_BACKLOG_BASE then
    !s.on R.PCIE_GRP_CTL_EN 0 k
  else if f = R.PCIE_GRP_SQ_CFG_LOG2N ∨ f = R.PCIE_CQ_CFG_LOG2N then inRange 4 16 v && !s.on R.PCIE_GRP_CTL_EN 0 k
  else if f = R.PCIE_CQ_BACKLOG_BLOG2N then (v = 0 || inRange 4 16 v) && !s.on R.PCIE_GRP_CTL_EN 0 k
  else if f = R.PWR_RAMP_DN ∨ f = R.PWR_RAMP_UP then inRange 50 1000 v
  else if f = R.PWR_RAMP_GUARD then inRange 4 20 v
  else if f = R.PWR_THERM_THROTTLE then inRange 80 105 v
  else if f = R.HEALTH_CFG_SWEEP_BARS then inRange 16 4096 v
  else if f = R.HEALTH_FLOOR_OFFSET_MAX then decide (v ≤ 100)
  else true

/-- Write one field under its access code (R10): `w` is its bits of the value written, `m` which of them the access
reaches. Fields whose write is a command of its own are left to it; EN of a CHECK window, which shares its register with BASE, is
written with it (R182). -/
def State.writeField (s : State) (f : Fld) (i k j w m : Nat) : State :=
  let old := s.rd f i k j
  let new := (old &&& (2 ^ f.wid - 1 - m)) ||| (w &&& m)
  if f.own ∧ f ≠ R.CHECK_WIN_BASE_EN then s
  else match f.acc with
    | .ro => s
    | .wo => s
    | .w1c => s.wr f (old &&& (2 ^ f.wid - 1 - (w &&& m))) i k j
    | .w1s => s.wr f (old ||| (w &&& m)) i k j
    | .rw => if new = old ∨ s.takes f k new = false then s else s.wr f new i k j
    | .rwl =>
      if new = old then s
      else match (s.lockOf f i k).filter s.locked with
        | some p => s.raise E.PART_LOCK_VIOL p [f.cls, f.off]
        | none => if s.takes f k new then s.wr f new i k j else s

/-- What follows a change of a register: FAB_PART_KEYS invalidates (R329), FAB_EXPECT may release a held port or show it crossed with
another (R316, R347), COUNT and TIME of PCIE_CQ_IRQ may make a message due (R383), PWR_SAG sets a limit (R408). -/
def State.afterWrite (t s : State) (f : Fld) (i k j : Nat) : State :=
  if (f = R.FAB_PART_KEYS_BASE) ∧ t.keysReg k ≠ s.keysReg k then invAllEffect k s
  else if f = R.FAB_EXPECT_TRAY ∧ (t.wantId i ≠ s.wantId i ∨ t.on R.FAB_EXPECT_CHECK_EN i ≠ s.on R.FAB_EXPECT_CHECK_EN i) ∧
      s.portState i = 5 ∧ (s.port i).bert = false ∧ s.on R.FAB_FOUND_VALID i = true then
    if s.idAccepted i then s.enterCheck i else s.crossed i
  else if f = R.PCIE_CQ_IRQ_COUNT then s.recount k j
  else if f = R.PWR_SAG_SAG_CAP then s.onCap
  else s

/-- How many instances a class has (R40). -/
def instances (cls : Nat) : Nat := match classRows.find? (fun r => r.code = cls) with
  | some r => r.lcount
  | none => 0

/-- The low bit and the bits that an access reaches in its register: an aligned 64-bit or 32-bit access (R9). -/
def accessAt (off size : Nat) : Option (Nat × Nat) :=
  if size = 8 ∧ off % 8 = 0 then some (0, 2 ^ 64 - 1)
  else if size = 4 ∧ off % 4 = 0 then some (8 * (off % 8), (2 ^ 32 - 1) * 2 ^ (8 * (off % 8)))
  else none

/-- A write that sets a CHECK window's EN and leaves a bad window is refused whole, be the window new or moved (R182): `s` is the
state before it, `t` after. -/
def State.refuseWindow (s t : State) (cls off : Nat) : State :=
  let w := (off - 0x100) / 0x20
  if cls = 0x13 ∧ 0x100 ≤ off ∧ off % 0x20 = 0 ∧ t.on R.CHECK_WIN_BASE_EN 0 w = true ∧ t.windowGood w = false ∧
      (s.on R.CHECK_WIN_BASE_EN 0 w = false ∨ s.rd R.CHECK_WIN_BASE_BASE 0 w ≠ t.rd R.CHECK_WIN_BASE_BASE 0 w) then
    s.raise E.CHECK_WIN_BAD 0 [w]
  else t

/-- REGISTER_WRITE (R9, R10, R12, R36, R392): each field of the register takes its part of the write under its own code;
an access of another size, alignment or place has no effect. -/
def registerWriteEffect (cls i off size : Nat) (val : Nat) (s : State) : State :=
  match accessAt off size with
  | none => s
  | some (lo, mask) =>
    if i < instances cls ∧ s.avail cls i = true then
      (fieldsAt cls (off / 8 * 8)).foldl (fun (x : State × State) (e : Fld × Nat × Nat) =>
        let v := val * 2 ^ lo % 2 ^ 64
        let t := x.2.writeField e.1 i e.2.1 e.2.2 (v >>> e.1.lo % 2 ^ e.1.wid) (mask >>> e.1.lo % 2 ^ e.1.wid)
        (x.1, t)) (s, s) |> (fun x =>
        (fieldsAt cls (off / 8 * 8)).foldl (fun t e => s.afterWrite t e.1 i e.2.1 e.2.2) (s.refuseWindow x.2 cls (off / 8 * 8)))
    else s

/-- REGISTER_WRITE. -/
def execRegisterWrite (cls inst off size : Nat) (val : Word) (s : State) : Res :=
  .next (registerWriteEffect cls inst off size val.toNat s)

/-! ### Fields that follow from other state when they are read (R101, R103, R129, R211, R352, R353, R404, R449) -/

/-- Entries of every partition in a state that is not FREE. -/
def State.liveAll (s : State) : Nat := (s.caller.seqs.filter (fun e => e.2.state ≠ 0)).length

/-- FCOPYs in flight of a copy engine: issued by its Sets and not committed, or with an SCOMMIT that is not answered (R335,
R353); FCOPYS holds 8 bits of it. -/
def State.fcopies (s : State) (e : Nat) : Nat :=
  let mine := (List.range 48).filter (fun n => n % 16 = e)
  let isCopy := fun (x : Flight) => match x.kind with
    | .fcopy _ => true
    | _ => false
  sumOf (mine.map (fun n => ((s.st n).flights.filter isCopy).length)) +
  (s.fab.ops.filter (fun o => match o.owner with
    | .scommit n _ => decide (n % 16 = e)
    | _ => false)).length

/-- Descriptors in flight of a copy engine (R353). -/
def State.descsOf (s : State) (e : Nat) : Nat := (s.fab.descs.filter (fun d => d.eng = e)).length

/-- A register field as a read finds it: fields that mirror other state are computed, WO fields read 0 (R10), the others
are as stored. -/
def State.readField (s : State) (f : Fld) (i k j : Nat) : Nat :=
  let busy := fun (u : TileUnit) => b2n (s.allFlights.any (fun x => !x.done && decide (x.unit = u) && x.tiles.contains i))
  if f = R.TEMPO_NOW_NOW then s.stamp
  else if f = R.SCHED_STATUS_INFLIGHT then min 255 ((s.st i).flights.filter (fun x => !x.done)).length
  else if f = R.SCHED_CTL_PART then (s.ownerOf i).getD 0
  else if f = R.TILE_STATUS_ARRAY_BUSY then busy .array
  else if f = R.TILE_STATUS_VEC_BUSY then busy .vector
  else if f = R.TILE_STATUS_ROT_BUSY then busy .rotate
  else if f = R.TILE_STATUS_HANDOFF_BUSY then busy .port
  else if f = R.TILE_STATUS_CHAINED then
    b2n (s.allFlights.any (fun x => !x.done && x.chained && x.tiles.contains i))
  else if f = R.NVC_WEAR_MILLI then s.nv.wear.getD i 0 * 1000 / 1572864
  else if f = R.NVC_BAD_PAGES then (s.nv.badPages.filter (fun b => b.1 = i)).length
  else if f = R.PROM_QUEUE_Q0 then s.queued i 0
  else if f = R.PROM_QUEUE_Q1 then s.queued i 1
  else if f = R.PROM_QUEUE_Q2 then s.queued i 2
  else if f = R.TILE_STATUS_PHYS then s.layout.tile i
  else if f = R.LANE_STATUS_PHYS then s.layout.lane i % 256
  else if f = R.CALLER_STATUS_LIVE then s.liveAll
  else if f = R.CALLER_STATUS_SYNCED then b2n s.callerOn
  else if f = R.CALLER_PART_USE_SEQ_NEXT then s.seqUsed k s.unplanned
  else if f = R.CALLER_PART_USE_TOK_NEXT then s.tokUsed k s.unplanned
  else if f = R.CALLER_PART_USE_LIVE then s.liveIn k
  else if f = R.COPY_STATUS_BUSY then b2n (decide (0 < s.descsOf i + s.fcopies i))
  else if f = R.COPY_STATUS_INFLIGHT then s.descsOf i
  else if f = R.COPY_STATUS_FCOPYS then min 255 (s.fcopies i)
  else if f = R.PART_STATUS_NCH then (s.channels i).length
  else if f = R.PART_STATUS_TILES then 8 * (maskBits 48 (s.rd R.PART_SETS_SETS i)).length
  else if f = R.HEALTH_STATUS_ELIGIBLE then b2n s.eligible
  else if f = R.HEALTH_FLOOR_SENS then s.sens
  else if f = R.HEALTH_SPARES_C0 then (s.freeTiles 0).length
  else if f = R.HEALTH_SPARES_C1 then (s.freeTiles 1).length
  else if f = R.HEALTH_SPARES_C2 then (s.freeTiles 2).length
  else if f = R.HEALTH_SPARES_C3 then (s.freeTiles 3).length
  else if f = R.HEALTH_SPARES_X0 then (s.freeLanes 0).length
  else if f = R.HEALTH_SPARES_X1 then (s.freeLanes 1).length
  else match f.acc with
    | .wo => 0
    | _ => s.rd f i k j

/-- A 64-bit register as a read finds it (R9, R12): an unavailable place reads 0 (R35). -/
def State.readReg (s : State) (cls i off : Nat) : Nat :=
  if off % 8 = 0 ∧ i < instances cls ∧ s.avail cls i = true then
    sumOf ((fieldsAt cls off).map (fun e => s.readField e.1 i e.2.1 e.2.2 * 2 ^ e.1.lo))
  else 0

/-- A read of a number of bytes at an offset of a window (R9): a 64-bit read gives the register, a 32-bit read one half of
it, and a read of another size or alignment gives 0. -/
def State.readAt (s : State) (cls i off size : Nat) : Nat :=
  match accessAt off size with
  | none => 0
  | some (lo, _) => (s.readReg cls i (off / 8 * 8) >>> lo) % 2 ^ (8 * size)

/-- The class, logical instance and offset that a BAR0 offset reaches, if it lies in a register window (R35). -/
def windowAt (a : Nat) : Option (Nat × Nat × Nat) :=
  (classRows.flatMap (fun r => (List.range r.lcount).map (fun i =>
    (r.code, i, (cardPlace r.code).base + i * (cardPlace r.code).stride)))).findSome? (fun e =>
      if e.2.2 ≤ a ∧ a < e.2.2 + windowSize e.1 then some (e.1, e.2.1, a - e.2.2) else none)

/-- A read of the PF's BAR0 (R9, R30, R35, R357, R456): the card, then the register windows; 0 elsewhere, and 0 everywhere
until the card is built. -/
def State.readBar0 (s : State) (a size : Nat) : Nat :=
  if s.card.gen < 2 then 0
  else if a < 0x100000 then
    match accessAt a size with
    | none => 0
    | some (lo, _) => (s.cardWord (a / 8 * 8) >>> lo) % 2 ^ (8 * size)
  else match windowAt a with
    | some (cls, i, off) => s.readAt cls i off size
    | none => 0

/-- A read of a VF's BAR0 (R357): a read-only copy of the Dance Card. -/
def State.readVfBar0 (s : State) (a size : Nat) : Nat := if a < 0x100000 then s.readBar0 a size else 0

/-- A write to the PF's BAR0 (R9, R30, R35, R357): the register write of the window it lies in; elsewhere, the Dance Card
with it, it has no effect. -/
def State.writeBar0 (s : State) (a size val : Nat) : State :=
  match windowAt a with
  | some (cls, i, off) => registerWriteEffect cls i off size val s
  | none => s

/-- Bytes of a function's BAR; 0 where it has none (R357). -/
def barSize (fn bar : Nat) : Nat :=
  match bar with
  | 0 => if fn = 0 then 0x4000000 else 0x100000
  | 2 => if fn = 0 then 0x20000 else 0x1000
  | 4 => if fn = 0 then 0x10000 else 0x1000
  | _ => 0

/-- A memory read from the host (R9, R357, R359, R364): the doorbell pages read 0; one outside every BAR is an Unsupported Request, which
AER logs. -/
def State.memRead (s : State) (fn bar a size : Nat) : State × Option Nat :=
  if barSize fn bar ≤ a then (s.logAer .unsupported, none)
  else match bar with
    | 0 => (s, some (if fn = 0 then s.readBar0 a size else s.readVfBar0 a size))
    | 4 => (s, some (match accessAt a size with
      | some (lo, _) => (s.bar4Word fn (a / 8 * 8) >>> lo) % 2 ^ (8 * size)
      | none => 0))
    | _ => (s, some 0)

/-- A memory write from the host (R9, R357, R359, R360): a poisoned one to BAR0 or BAR2 is discarded, a VF's BAR0 takes none, and one outside
every BAR is an Unsupported Request, which AER logs. -/
def State.memWrite (s : State) (fn bar a size v : Nat) (ep : Bool) : State :=
  if barSize fn bar ≤ a then s.logAer .unsupported
  else if ep ∧ bar ≠ 4 then epRxEffect s
  else match bar with
    | 0 => if fn = 0 then s.writeBar0 a size v else s
    | 2 => s.writeBar2 fn a size v
    | _ => match accessAt a size with
      | some (lo, mask) =>
        let old := s.bar4Word fn (a / 8 * 8)
        s.writeBar4Word fn (a / 8 * 8) ((old &&& (2 ^ 64 - 1 - mask)) ||| (v * 2 ^ lo &&& mask))
      | none => s

end Sys2Proof.Machine
end

