-- ==== Sys2Proof/Machine/Repair.lean ====
section
/-! DEFINITION. The repair step of a faulted command: re-fetch, rewrite from the origin, poison (R86, R176 to R178,
R296). -/

namespace Sys2Proof.Machine

/-- Where an object's copy comes from (R296): bytes of own NV, or a remote rank. -/
inductive Origin where
  | own (bytes : List Byte)
  | remote (rank : Nat)
  deriving DecidableEq, Repr

/-- ORIGIN of R296 as a log detail. -/
def Origin.code : Origin → Nat
  | .own _ => 0
  | .remote r => 1 + r * 16

/-- The slot of own NV that the contents of the current region came from. -/
def State.regionSlot (s : State) : Nat :=
  match s.weights.staged.getD (s.rd R.PROM_EPOCH_REGION) none with
  | some k => k
  | none => s.activeSlot.getD 0

/-- The origin that the staging map of the current region records for an object's address (R296). -/
def State.mapOrigin (s : State) (a n : Nat) : Option Origin :=
  let base := s.epochBase
  match (List.range (s.devWord (base + 8))).find? (fun i => bits (s.devWord (base + 0x1000 + 16 * i)) 47 0 = a) with
  | none => none
  | some i =>
    let w1 := s.devWord (base + 0x1008 + 16 * i)
    if bits (s.devWord (base + 0x1000 + 16 * i)) 51 48 = 0 then
      some (.own (s.nvBytes s.regionSlot (bits w1 39 0) n))
    else some (.remote (bits w1 11 0))

/-- The objects in host slots: each with its device address, its source and the bytes own NV holds for it (R296). -/
def State.hostObjs (s : State) : List (Nat × Option Nat × List Byte) :=
  let m := s.weights.manifests.getD (s.rd R.PROM_EPOCH_REGION) []
  (s.hostsOf (manEpoch m)).flatMap (fun (k, x) =>
    let l := k / 8 % 256
    let bs := if x.source.isNone then s.ownExpert m l x.expert else []
    let os := manHostObjs m l x.expert
    if bs = [] then os.map (fun o => (Config.hostSlotAt (k / 8) (k % 8) + o.dst, x.source, []))
    else (splitObjs os bs).map (fun (o, b) => (Config.hostSlotAt (k / 8) (k % 8) + o.dst, x.source, b)))

/-- The origin of the object at an address, if one is recorded (R177, R296). -/
def State.originOf (s : State) (a n : Nat) : Option Origin :=
  match s.mapOrigin a n with
  | some o => some o
  | none => (s.hostObjs.find? (fun e => e.1 = a)).map (fun e => match e.2.1 with
    | some r => .remote r
    | none => .own (e.2.2.take n))

/-- Whether bytes verify as a CHECK with an expected CRC would find them (R172, R177): the copy holds a whole header and every byte
that it declares. -/
def verifies (bs : List MarkByte) (len crc : Nat) : Bool :=
  let v := viewObj bs ⟨none, none, none, false, some len, true, crc⟩
  v.faults.isEmpty && decide (32 ≤ bs.length) && (v.marked || decide (v.hdr.declLen ≤ bs.length))

/-- Fetch an object again into its place (R177): whether it verifies there. -/
def State.refetch (s : State) (set : Nat) (x : RepairItem) : State × Bool :=
  match s.readFor set x.src x.len with
  | .ok bs => (s.sramPut (tileKey x.tile false x.off) bs, verifies bs x.len x.crc)
  | .error _ => (s, false)

/-- The device address behind an object's source: that of its page in the KV view, none where no frame backs it. -/
def State.sourceHome (s : State) (set a : Nat) : Option Nat :=
  if inView a then
    let v := s.viewSlot (s.partOf set) a
    let o := (a - 0x800000000000) % 2 ^ 32
    let at_ := fun (o len : Nat) (page : Nat → Nat → Nat) =>
      let q := o / max 1 len
      let j := q % max 1 v.d.fmax
      if j < v.nf then some (page (s.ptFrame v.e.root j) (q / max 1 v.d.fmax) + o % max 1 len) else none
    if o < 0x80000000 then at_ o v.d.pm v.d.mainPage
    else if o < 0xC0000000 then at_ (o - 0x80000000) v.d.pd v.d.draftPage
    else none
  else some a

/-- An object that stays bad (R177): its lines in HBM, to DECL_LEN, and its copy are marked. Where its header itself fails the
format checks, DECL_LEN is taken as the LEN of the FETCH (log 170). -/
def State.giveUp (s : State) (set : Nat) (x : RepairItem) : State :=
  let bs := s.sram x.tile false x.off x.len
  let s := match s.sourceHome set x.src with
    | some a =>
      let h := objHdr (s.devBytes a 32)
      s.markRange a (if hdrFaults h ⟨none, none, none, false, some x.len, false, 0⟩ = [] then h.declLen else x.len)
    | none => s
  (s.sramPut (tileKey x.tile false x.off) (bs.map (fun b => (b.1, true)))).raise E.EXPAND_REPAIR_FAIL x.tile [x.src]

/-- Rewrite an object from its origin, whose copy is checked first (R177); the CRC stays as written (R174). -/
def State.rewrite (s : State) (x : RepairItem) (o : Origin) (bs : List Byte) : State :=
  if verifies (clean bs) x.len x.crc then (s.devLoad x.src bs).raise E.EXPAND_NV_REPAIR x.tile [x.src, o.code]
  else s

/-- The repair step of one object (R177): `remote` holds the copies that remote ranks send, in the order asked for. -/
def State.repairOne (s : State) (set : Nat) (remote : List (List Byte)) (x : RepairItem) : State × List (List Byte) :=
  let (t, good) := (s.raise E.EXPAND_REFETCH x.tile [x.src]).refetch set x
  if good then (t, remote)
  else match t.originOf x.src x.len with
    | none => (t.giveUp set x, remote)
    | some o =>
      let (bs, rest) := match o with
        | .own b => (b, remote)
        | .remote _ => (remote.headD [], remote.drop 1)
      let (t, good) := (t.rewrite x o bs).refetch set x
      if good then (t, rest) else (t.giveUp set x, rest)

/-- REPAIR_COMPLETE (R86, R177, R178): the repair steps of a Set end together, and its re-run may issue. -/
def repairCompleteEffect (set : Nat) (remote : List (List Byte)) (s : State) : State :=
  let s := ((s.st set).repair.foldl (fun (t : State × List (List Byte)) x => t.1.repairOne set t.2 x) (s, remote)).1
  s.setSt set { s.st set with repair := [] }

/-- REPAIR_COMPLETE. -/
def execRepairComplete (set : SetId) (remote : List (List Byte)) (s : State) : Res :=
  .next (repairCompleteEffect set.val remote s)

end Sys2Proof.Machine
end

