-- ==== Sys2Proof/Machine/Security.lean ====
section
/-! DEFINITION. Management messages, owner keys, debug access, attestation, and the TAP (R361, R453, R454, R460, R464 to
R470). -/

namespace Sys2Proof.Machine

/-! ### Answers (R454) -/

/-- Answer a management command. -/
def State.answer (s : State) (code : Nat) (ok : Bool) : State := s.emit (.i3c code ok [])

/-- Refuse a key command and raise KEY_REFUSED (R464, R465, R470). -/
def State.refuseKey (s : State) (code : Nat) : State := (s.raise E.SEC_KEY_REFUSED 0 [code]).answer code false

/-- Whether no field fuse may be burnt now (R453, R470). -/
def State.noBurn (s : State) : Bool := s.on R.PWR_STATUS_SAG || s.on R.SEC_STATUS_DEBUG

/-- One bit of the burn under way, in its order; the last brings FUSE_BURNT and the answer (R453, R454). A package reset
between two bits leaves the fuses as they then stand. -/
def State.burnBit (s : State) (f : FuseBank) (rest : List FuseBank) (code : Nat) : State :=
  match rest with
  | [] => ((State.senseFuses { s with fuses := f, boot := { s.boot with burn := none } }).raise E.SEC_FUSE_BURNT).answer code true
  | _ => { s with fuses := f, boot := { s.boot with burn := some ⟨code, rest⟩ } }

/-- The burn under way goes on by one bit (R453). -/
def State.stepBurn (s : State) : State :=
  match s.boot.burn with
  | some ⟨code, f :: rest⟩ => s.burnBit f rest code
  | some ⟨_, []⟩ => { s with boot := { s.boot with burn := none } }
  | none => s

/-- The burn under way goes on to its end: the next command that burns waits for it (DESIGN CHOICE, log 189). -/
def State.endBurn (s : State) : State :=
  match s.boot.burn with
  | some ⟨code, steps⟩ => match steps.getLast? with
    | some f => s.burnBit f [] code
    | none => { s with boot := { s.boot with burn := none } }
  | none => s

/-- Start a burn (R453). -/
def State.startBurn (s : State) (code : Nat) (steps : List FuseBank) : State :=
  { s with boot := { s.boot with burn := some ⟨code, steps⟩ } }

/-- SET_PACKAGE_ID (R454): once per package reset; the Dance Card shows the new id (R45). -/
def setPackageIdEffect (id : Nat) (overI3c : Bool) (s : State) : State :=
  if overI3c = false then s.answer 0x03 false
  else if s.on R.SEC_PKG_ASSIGNED then
    if s.rd R.SEC_PKG_PKG_ID = id then s.answer 0x03 true else (s.raise E.SEC_ID_CONFLICT 0 [id]).answer 0x03 false
  else ((({ s with pkgId := id }).wr R.SEC_PKG_PKG_ID id).wr R.SEC_PKG_ASSIGNED 1).recard.measure.answer 0x03 true

/-- SET_PACKAGE_ID. -/
def execSetPackageId (id : PkgId) (overI3c : Bool) (s : State) : Res := .next (setPackageIdEffect id.val overI3c s)

/-- The fuses after each bit of a Commit SVN: SVN bits in ascending order, then the other firmware key's REVOKED where
REVOKE_OTHER says so (R453, R460). -/
def State.svnSteps (s : State) : List FuseBank :=
  let f := s.fuses
  let to_ := s.rd R.SEC_SVN_IMAGE
  let other := 1 - s.boot.keySlot
  (List.range (to_ - f.svn)).map (fun i => { f with svn := f.svn + i + 1 }) ++
    (if s.boot.revokeOther then [{ f with
      svn := to_
      fwKeys := f.fwKeys.zipIdx.map (fun (k, i) => if i = other then (k.1, true) else k) }] else [])

/-- COMMIT_SVN (R453, R460): it burns SVN bits up to the running bundle's. -/
def commitSvnEffect (overI3c : Bool) (s : State) : State :=
  if overI3c = false ∨ s.noBurn = true then s.answer 0x04 false
  else
    let s := s.endBurn
    if s.rd R.SEC_SVN_IMAGE ≤ s.fuses.svn then s.answer 0x04 true else s.startBurn 0x04 s.svnSteps

/-- COMMIT_SVN. -/
def execCommitSvn (overI3c : Bool) (s : State) : Res := .next (commitSvnEffect overI3c s)

/-! ### Owner keys (R464, R465) -/

/-- Whether a signature of a message verifies under some valid, unrevoked owner key. -/
def State.ownerSigned (s : State) (msg sig : List Byte) : Bool := s.ownerKeys.any (fun (_, pt) => ecdsaOk pt msg sig)

/-- Replace an owner slot. -/
def FuseBank.setOwner (f : FuseBank) (k : Nat) (o : OwnerSlot) : FuseBank := { f with owners := f.owners.set k o }

/-- The owner slot. -/
def FuseBank.owner (f : FuseBank) (k : Nat) : OwnerSlot := f.owners.getD k ⟨none, false, false⟩

/-- Whether a key may be registered (R464): an unused slot, and a signature unless it is the first. -/
def State.mayRegister (s : State) (k : Nat) (point sig : List Byte) : Bool :=
  decide (s.fuses.read.owner k = ⟨none, false, false⟩) && (pointOf point).isSome &&
  (s.fuses.read.owners.all (fun o => !o.valid) || s.ownerSigned (s.uidBytes ++ toLE 1 k ++ point) sig)

/-- REGISTER_OWNER_KEY (R453, R464): the key page first, then the slot: its hash bits, then VALID. -/
def registerOwnerKeyEffect (k : Nat) (point sig : List Byte) (overI3c : Bool) (s : State) : State :=
  if overI3c = false ∨ s.noBurn = true then s.answer 0x05 false
  else
    let s := s.endBurn
    if s.mayRegister k point sig = false then s.refuseKey 0x05
    else
      let pages := s.nv.keyPages.filter (fun e => e.1 ≠ k) ++ [(k, point)]
      let h := some (sha384 point)
      State.startBurn { s with nv := { s.nv with keyPages := pages } } 0x05
        [s.fuses.setOwner k ⟨h, false, false⟩, s.fuses.setOwner k ⟨h, true, false⟩]

/-- REGISTER_OWNER_KEY. -/
def execRegisterOwnerKey (slot : Fin 4) (point sig : List Byte) (overI3c : Bool) (s : State) : Res :=
  .next (registerOwnerKeyEffect slot.val point sig overI3c s)

/-- Whether an Install or a staging verified under a slot's key runs (R465). -/
def State.keyInUse (s : State) (k : Nat) : Bool :=
  s.weights.install.any (fun i => s.manSigner i.manifest = some k) ||
  s.weights.staging.any (fun g => s.manSigner (s.nvManifest g.slot) = some k)

/-- Whether a key may be revoked (R465). -/
def State.mayRevoke (s : State) (k : Nat) (sig : List Byte) : Bool :=
  s.ownerSigned (s.uidBytes ++ [0x52] ++ toLE 1 k) sig &&
  s.fuses.read.owners.zipIdx.any (fun (o, i) => decide (i ≠ k) && o.good) && !s.keyInUse k

/-- REVOKE_OWNER_KEY (R453, R465). -/
def revokeOwnerKeyEffect (k : Nat) (sig : List Byte) (overI3c : Bool) (s : State) : State :=
  if overI3c = false ∨ s.noBurn = true then s.answer 0x06 false
  else
    let s := s.endBurn
    if s.mayRevoke k sig = false then s.refuseKey 0x06
    else s.startBurn 0x06 [s.fuses.setOwner k { s.fuses.owner k with revoked := true }]

/-- REVOKE_OWNER_KEY. -/
def execRevokeOwnerKey (slot : Fin 4) (sig : List Byte) (overI3c : Bool) (s : State) : Res :=
  .next (revokeOwnerKeyEffect slot.val sig overI3c s)

/-! ### Debug access (R469, R470) -/

/-- GET_DEBUG_CHALLENGE (R454): a fresh nonce. -/
def getDebugChallengeEffect (overI3c : Bool) (s : State) : State :=
  if overI3c = false then s.answer 0x07 false
  else
    let n := toLE 32 (Config.freshNonce s.boot.nonces).toNat
    State.emit { s with boot := { s.boot with nonce := some n, nonces := s.boot.nonces + 1 } } (.i3c 0x07 true n)

/-- GET_DEBUG_CHALLENGE. -/
def execGetDebugChallenge (overI3c : Bool) (s : State) : Res := .next (getDebugChallengeEffect overI3c s)

/-- Whether a token's signature verifies: by an owner key, or by the key whose hash is DBG_KEY, whose public point then
comes before the signature (R470). -/
def State.tokenSigned (s : State) (t : DebugToken) : Bool :=
  let msg := toLE 16 t.uid.toNat ++ t.nonce ++ toLE 1 (b2n t.kind)
  s.ownerSigned msg t.sig ||
  (decide (sha384 (t.sig.take 97) = s.fuses.dbgKey) && ecdsaOk (t.sig.take 97) msg (t.sig.drop 97))

/-- DEBUG_UNLOCK (R470). -/
def debugUnlockEffect (t : DebugToken) (overI3c : Bool) (s : State) : State :=
  if overI3c = false then s.answer 0x08 false
  else if s.fuses.read.noDebug ∨ s.boot.nonce ≠ some t.nonce ∨ t.uid.toNat ≠ s.fuses.uid ∨ s.tokenSigned t = false ∨
      s.fuses.read.lifecycle = 0 then s.refuseKey 0x08
  else ({ s with boot := { s.boot with latch := some t.kind } }).answer 0x08 true

/-- DEBUG_UNLOCK. -/
def execDebugUnlock (t : DebugToken) (overI3c : Bool) (s : State) : Res := .next (debugUnlockEffect t overI3c s)

/-- The TAP instruction that one loaded selects (R469); `none` for a private one on an unlocked part. -/
def State.tapSelect (s : State) (i : TapInstr) : Option TapInstr :=
  match i with
  | .shuilePrivate _ => if s.on R.SEC_STATUS_DEBUG then none else some .bypass
  | .extest => some (if s.boot.perst then i else .bypass)
  | .clamp => some (if s.boot.perst then i else .bypass)
  | .highz => some (if s.boot.perst then i else .bypass)
  | .bypass => some i
  | .idcode => some i
  | .samplePreload => some i

/-- The JTAG IDCODE (R469, R487): STEPPING [3:0], 0x7120, Shuile's JEP106 code of bank 12 and 0x4B, and 1. -/
def State.idcode (s : State) : Nat := s.fuses.stepping % 16 * 2 ^ 28 + 0x7120 * 2 ^ 12 + 0xB * 2 ^ 8 + 0x4B * 2 + 1

/-- TAP_INSTRUCTION (R469): the manual does not say what a private instruction does on an unlocked part. -/
def execTapInstruction (i : TapInstr) (s : State) : Res :=
  match s.tapSelect i with
  | some j => .next { s with boot := { s.boot with tap := j } }
  | none => .refused .shuilePrivate

/-! ### Attestation (R361, R467, R468, R471) -/

/-- What the measurements 1 to 8 cover at the present GEN (R468). -/
def State.attested (s : State) : List Nat :=
  s.rd R.SEC_MEAS_GEN :: ((List.range 8).map (· + 1)).flatMap (fun i => (s.covers i).length :: s.covers i)

/-- The chain of certificate slot 0 as certificates 1 to 3 and the alias certificate; empty while debug is unlocked (R467, R470). -/
def State.chain0 (s : State) : Option (List Byte × List Byte) :=
  if s.on R.SEC_STATUS_DEBUG then none else some (s.nv.certs, s.boot.aliasCert)

/-- The capabilities that R467 lists. -/
def spdmCaps : List SpdmCap := [.cert, .chal, .measSig, .measFresh, .keyEx, .encrypt, .mac, .hbeat, .keyUpd]

/-- The algorithms that R467 lists: ecdsa_brainpoolP384r1tls13_sha384 is IANA's 0x081B. -/
def spdmAlgs : List SpdmAlg :=
  [.extAsymIana 0x081B, .hashSha384, .measSha384, .dheSecp384r1, .aeadAes256Gcm, .spdmKeySchedule]

/-- The protocols of the DOE mailbox, in the order in which Discovery tells them (R361). -/
def doeProtos : List DoeProto := [.discovery, .spdm, .securedSpdm]

/-- Bytes of a data object at most (R361), and those of its header. -/
def doeLimit : Nat := 65536
/-- Bytes of a data object's header. -/
def doeHeader : Nat := 8

/-- Whether a message comes over DOE. -/
def viaDoe : SpdmVia → Bool
  | .mctp => false
  | .mctpIn _ => false
  | .doe => true
  | .doeIn _ => true
  | .discovery _ => true

/-- The session a message comes in. -/
def viaSession : SpdmVia → Option Nat
  | .mctpIn k => some k
  | .doeIn k => some k
  | .mctp => none
  | .doe => none
  | .discovery _ => none

/-- Request code of an SPDM message: its second byte (DSP0274; log 51). -/
def spdmCode (msg : List Byte) : Nat := ((msg.drop 1).headD 0).toNat

/-- The SPDM messages taken so far, as numbers (R467). -/
def State.spdmPast (s : State) : List Nat :=
  s.out.length :: s.attested ++ s.boot.spdm.map (fun e => msgNum (toLE 1 (b2n e.1) ++ e.2))

/-- The sessions of a path (R467). -/
def State.sessionsOf (s : State) (doe : Bool) : List Session := s.boot.sessions.filter (fun x => x.doe = doe)

/-- Whether a message may come as it does: in no session, or in one that its path holds, unfinished for FINISH alone (R467). -/
def State.sessionOk (s : State) (via : SpdmVia) (code : Nat) : Bool := match viaSession via with
  | none => true
  | some k => s.boot.sessions.any (fun x => decide (x.doe = viaDoe via) && decide (x.id = k) && (x.finished || decide (code = 0xE5)))

/-- Whether an SPDM request is answered with ERROR (R467, R470): SET_CERTIFICATE always, CHALLENGE while debug is unlocked, a third
session of a path, a pre-shared key, a certificate slot other than 0, a session that is not held; others as DSP0274 says. -/
def State.spdmFails (s : State) (via : SpdmVia) (msg : List Byte) : Bool :=
  let code := spdmCode msg
  decide (code = 0xEE) || (s.on R.SEC_STATUS_DEBUG && decide (code = 0x83)) ||
  (decide (code = 0xE4) && decide (2 ≤ (s.sessionsOf (viaDoe via)).length)) || decide (code = 0xE6) ||
  (decide (code = 0x82) && (decide (((msg.drop 2).headD 0).toNat % 16 ≠ 0) || s.chain0.isNone)) ||
  !s.sessionOk via code || Config.spdmError via s.spdmPast (msgNum msg)

/-- What the answer to an SPDM request carries (R467, R468); the codes are DSP0274's (log 51). -/
def State.spdmBody (s : State) (via : SpdmVia) (msg : List Byte) : SpdmBody :=
  if s.spdmFails via msg then .error
  else match spdmCode msg with
    | 0xE1 => .capabilities spdmCaps
    | 0xE3 => .algorithms spdmAlgs
    | 0x81 => .digests (s.chain0.map (fun c => sha384 (c.1 ++ c.2)))
    | 0x82 => match s.chain0 with
      | some c => .chain c.1 c.2
      | none => .error
    | 0xE0 => .measurements (s.rd R.SEC_MEAS_GEN) (((List.range 8).map (· + 1)).map s.block)
    | 0xE4 => .session (Config.sessionId s.spdmPast)
    | _ => .other

/-- The sessions after a request that does not fail (R467): KEY_EXCHANGE begins one, FINISH finishes it, END_SESSION ends it. -/
def State.spdmSessions (s : State) (via : SpdmVia) (msg : List Byte) : List Session :=
  let mine := fun (x : Session) => decide (x.doe = viaDoe via) && decide (some x.id = viaSession via)
  match spdmCode msg with
  | 0xE4 => s.boot.sessions ++ [⟨viaDoe via, Config.sessionId s.spdmPast, false⟩]
  | 0xE5 => s.boot.sessions.map (fun x => if mine x then { x with finished := true } else x)
  | 0xEC => s.boot.sessions.filter (fun x => !mine x)
  | _ => s.boot.sessions

/-- Answer an SPDM request. -/
def State.spdmAnswer (s : State) (via : SpdmVia) (msg : List Byte) : State :=
  let bad := s.spdmFails via msg
  let t := { s with boot := { s.boot with
    spdm := s.boot.spdm ++ [(viaDoe via, msg)], sessions := if bad then s.boot.sessions else s.spdmSessions via msg } }
  (if bad then t.raise E.SEC_SPDM_ERR else t).emit
    (.spdm via (s.spdmBody via msg) (Config.spdmResponse via s.spdmPast (msgNum msg)))

/-- SPDM_REQUEST (R361, R467, R468): the mailbox takes no data object beyond 64 KiB, and answers a Discovery with the protocol at an
index and the index of the next. -/
def spdmRequestEffect (via : SpdmVia) (msg : List Byte) (s : State) : State :=
  match via with
  | .discovery i =>
    s.emit (.spdm via (.protocols doeProtos[i]? (if i + 1 < doeProtos.length then i + 1 else 0)) [])
  | _ => if viaDoe via = true ∧ doeLimit < msg.length + doeHeader then s else s.spdmAnswer via msg

/-- SPDM_REQUEST. -/
def execSpdmRequest (via : SpdmVia) (msg : List Byte) (s : State) : Res := .next (spdmRequestEffect via msg s)

/-- DOE_ABORT (R361, R471): the exchange ends, with no state changed; a session of the mailbox not yet finished is discarded. -/
def doeAbortEffect (s : State) : State :=
  State.emit { s with boot := { s.boot with
    spdm := s.boot.spdm ++ [(true, [])], sessions := s.boot.sessions.filter (fun x => !x.doe || x.finished) } } .doeAborted

/-- DOE_ABORT. -/
def execDoeAbort (s : State) : Res := .next (doeAbortEffect s)

end Sys2Proof.Machine
end

