-- ==== Sys2Proof/Machine/Dispatch.lean ====
section
/-! DEFINITION. The dispatcher: one arm for each command of the table. -/

namespace Sys2Proof.Machine

/-- The effect of a command on everything but the queue of waiting commands. -/
def exec (i : Instr) (s : State) : Host.Outcome State Fault Refusal :=
  match i with
  | .registerWrite cls inst off size val => Sys2Proof.Machine.execRegisterWrite cls inst off size val s
  | .readDanceCard off len => Sys2Proof.Machine.execReadDanceCard off len s
  | .danceCardRegen => Sys2Proof.Machine.execDanceCardRegen s
  | .tempoEnable => Sys2Proof.Machine.execTempoEnable s
  | .tempoDisable => Sys2Proof.Machine.execTempoDisable s
  | .swap => Sys2Proof.Machine.execSwap s
  | .tempoBeat inputB e => Sys2Proof.Machine.execTempoBeat inputB e s
  | .beatBoundary => Sys2Proof.Machine.execBeatBoundary s
  | .holdoverExpiry => Sys2Proof.Machine.execHoldoverExpiry s
  | .barStart => Sys2Proof.Machine.execBarStart s
  | .barDone pkg bar stamp => Sys2Proof.Machine.execBarDone pkg bar stamp s
  | .barrierTimeout => Sys2Proof.Machine.execBarrierTimeout s
  | .schedEnable set on => Sys2Proof.Machine.execSchedEnable set on s
  | .schedKill set => Sys2Proof.Machine.execSchedKill set s
  | .schedResume set kill => Sys2Proof.Machine.execSchedResume set kill s
  | .fetch set => Sys2Proof.Machine.execFetch set s
  | .mpass set ecc => Sys2Proof.Machine.execMpass set ecc s
  | .check set ecc => Sys2Proof.Machine.execCheck set ecc s
  | .store set ecc => Sys2Proof.Machine.execStore set ecc s
  | .handoff set ecc => Sys2Proof.Machine.execHandoff set ecc s
  | .fcopy set ecc => Sys2Proof.Machine.execFcopy set ecc s
  | .wait set => Sys2Proof.Machine.execWait set s
  | .sread set => Sys2Proof.Machine.execSread set s
  | .swrite set ecc => Sys2Proof.Machine.execSwrite set ecc s
  | .endBar set => Sys2Proof.Machine.execEndBar set s
  | .copy set ecc => Sys2Proof.Machine.execCopy set ecc s
  | .add set ecc => Sys2Proof.Machine.execAdd set ecc s
  | .sub set ecc => Sys2Proof.Machine.execSub set ecc s
  | .mul set ecc => Sys2Proof.Machine.execMul set ecc s
  | .fma set ecc => Sys2Proof.Machine.execFma set ecc s
  | .max set ecc => Sys2Proof.Machine.execMax set ecc s
  | .min set ecc => Sys2Proof.Machine.execMin set ecc s
  | .exp set ecc => Sys2Proof.Machine.execExp set ecc s
  | .recip set ecc => Sys2Proof.Machine.execRecip set ecc s
  | .rsqrt set ecc => Sys2Proof.Machine.execRsqrt set ecc s
  | .sqrt set ecc => Sys2Proof.Machine.execSqrt set ecc s
  | .silu set ecc => Sys2Proof.Machine.execSilu set ecc s
  | .rowmax set ecc => Sys2Proof.Machine.execRowmax set ecc s
  | .rowsum set ecc => Sys2Proof.Machine.execRowsum set ecc s
  | .cvtBf16 set ecc => Sys2Proof.Machine.execCvtBf16 set ecc s
  | .cvtFp32 set ecc => Sys2Proof.Machine.execCvtFp32 set ecc s
  | .quant set ecc => Sys2Proof.Machine.execQuant set ecc s
  | .dequant set ecc => Sys2Proof.Machine.execDequant set ecc s
  | .amax set ecc => Sys2Proof.Machine.execAmax set ecc s
  | .qdiverge set ecc => Sys2Proof.Machine.execQdiverge set ecc s
  | .rot set ecc => Sys2Proof.Machine.execRot set ecc s
  | .irot set ecc => Sys2Proof.Machine.execIrot set ecc s
  | .lsrnd set ecc => Sys2Proof.Machine.execLsrnd set ecc s
  | .lspack set ecc => Sys2Proof.Machine.execLspack set ecc s
  | .lsadd set ecc => Sys2Proof.Machine.execLsadd set ecc s
  | .lsaddrnd set ecc => Sys2Proof.Machine.execLsaddrnd set ecc s
  | .lsclear set ecc => Sys2Proof.Machine.execLsclear set ecc s
  | .commandComplete set idx => Sys2Proof.Machine.execCommandComplete set idx s
  | .groupCommit set => Sys2Proof.Machine.execGroupCommit set s
  | .repairComplete set remote => Sys2Proof.Machine.execRepairComplete set remote s
  | .arrTimeout set idx => Sys2Proof.Machine.execArrTimeout set idx s
  | .figureComplete => Sys2Proof.Machine.execFigureComplete s
  | .callerPlan => Sys2Proof.Machine.execCallerPlan s
  | .harvestLate => Sys2Proof.Machine.execHarvestLate s
  | .admitSeq r late => Sys2Proof.Machine.execAdmitSeq r late s
  | .cancel r => Sys2Proof.Machine.execCancel r s
  | .pause r => Sys2Proof.Machine.execPause r s
  | .resume r => Sys2Proof.Machine.execResume r s
  | .extend r => Sys2Proof.Machine.execExtend r s
  | .pauseMoveComplete index => Sys2Proof.Machine.execPauseMoveComplete index s
  | .resumeMoveComplete index => Sys2Proof.Machine.execResumeMoveComplete index s
  | .pauseExpiry index => Sys2Proof.Machine.execPauseExpiry index s
  | .journalLost index => Sys2Proof.Machine.execJournalLost index s
  | .requestTimeout grp cid => Sys2Proof.Machine.execRequestTimeout grp cid s
  | .callerSwitch => Sys2Proof.Machine.execCallerSwitch s
  | .callerOpen part on => Sys2Proof.Machine.execCallerOpen part on s
  | .reelKeys part => Sys2Proof.Machine.execReelKeys part s
  | .reelNominate part layer => Sys2Proof.Machine.execReelNominate part layer s
  | .reelSelect part layer => Sys2Proof.Machine.execReelSelect part layer s
  | .reelDispatch part layer => Sys2Proof.Machine.execReelDispatch part layer s
  | .reelCombine part layer wave => Sys2Proof.Machine.execReelCombine part layer wave s
  | .reel p => Sys2Proof.Machine.execReel p s
  | .reelRel p => Sys2Proof.Machine.execReelRel p s
  | .placementChange r => Sys2Proof.Machine.execPlacementChange r s
  | .install r d => Sys2Proof.Machine.execInstall r d s
  | .cancelInstall r => Sys2Proof.Machine.execCancelInstall r s
  | .shardProgrammed written readBack => Sys2Proof.Machine.execShardProgrammed written readBack s
  | .stageEpoch r => Sys2Proof.Machine.execStageEpoch r s
  | .stageDone remote => Sys2Proof.Machine.execStageDone remote s
  | .stageHostSlot r data => Sys2Proof.Machine.execStageHostSlot r data s
  | .fill r manifest sources held => Sys2Proof.Machine.execFill r manifest sources held s
  | .fillDone shards => Sys2Proof.Machine.execFillDone shards s
  | .swapEpoch r => Sys2Proof.Machine.execSwapEpoch r s
  | .nvCodewordRead stack page failures => Sys2Proof.Machine.execNvCodewordRead stack page failures s
  | .promenadeMoveComplete die => Sys2Proof.Machine.execPromenadeMoveComplete die s
  | .prefetchIssue part => Sys2Proof.Machine.execPrefetchIssue part s
  | .shadowSample part => Sys2Proof.Machine.execShadowSample part s
  | .recipeEvaluate part => Sys2Proof.Machine.execRecipeEvaluate part s
  | .portEnable port on => Sys2Proof.Machine.execPortEnable port on s
  | .retrain port => Sys2Proof.Machine.execRetrain port s
  | .bert port => Sys2Proof.Machine.execBert port s
  | .portTrained port => Sys2Proof.Machine.execPortTrained port s
  | .trainingTimeout port => Sys2Proof.Machine.execTrainingTimeout port s
  | .portId port tray plane swport => Sys2Proof.Machine.execPortId port tray plane swport s
  | .portIdTimeout port => Sys2Proof.Machine.execPortIdTimeout port s
  | .laneLost lane cause => Sys2Proof.Machine.execLaneLost lane cause s
  | .corrHigh lane symbols => Sys2Proof.Machine.execCorrHigh lane symbols s
  | .flit port f => Sys2Proof.Machine.execFlit port f s
  | .portState p => Sys2Proof.Machine.execPortState p s
  | .portStateBroadcast => Sys2Proof.Machine.execPortStateBroadcast s
  | .sdata p => Sys2Proof.Machine.execSdata p s
  | .scommit p => Sys2Proof.Machine.execScommit p s
  | .udata p => Sys2Proof.Machine.execUdata p s
  | .ucommit p => Sys2Proof.Machine.execUcommit p s
  | .fabricLoad p => Sys2Proof.Machine.execFabricLoad p s
  | .fabricStore p => Sys2Proof.Machine.execFabricStore p s
  | .fabricAtomic p => Sys2Proof.Machine.execFabricAtomic p s
  | .ack p => Sys2Proof.Machine.execAck p s
  | .ldata p => Sys2Proof.Machine.execLdata p s
  | .aresp p => Sys2Proof.Machine.execAresp p s
  | .deadTarget unit reqid => Sys2Proof.Machine.execDeadTarget unit reqid s
  | .outcomeExpiry => Sys2Proof.Machine.execOutcomeExpiry s
  | .copyPut eng => Sys2Proof.Machine.execCopyPut eng s
  | .copyGet eng => Sys2Proof.Machine.execCopyGet eng s
  | .copyAtomic eng => Sys2Proof.Machine.execCopyAtomic eng s
  | .copyFence eng => Sys2Proof.Machine.execCopyFence eng s
  | .copyComplete eng index => Sys2Proof.Machine.execCopyComplete eng index s
  | .laneTest lane => Sys2Proof.Machine.execLaneTest lane s
  | .laneRetire lane => Sys2Proof.Machine.execLaneRetire lane s
  | .intervalTest => Sys2Proof.Machine.execIntervalTest s
  | .inv part idx => Sys2Proof.Machine.execInv part idx s
  | .invAll part => Sys2Proof.Machine.execInvAll part s
  | .qlaunch r => Sys2Proof.Machine.execQlaunch r s
  | .sqTail grp fromPf size val => Sys2Proof.Machine.execSqTail grp fromPf size val s
  | .copyTail grp eng fromPf size val => Sys2Proof.Machine.execCopyTail grp eng fromPf size val s
  | .cqHead grp cq fromPf size val => Sys2Proof.Machine.execCqHead grp cq fromPf size val s
  | .requestTake grp entry => Sys2Proof.Machine.execRequestTake grp entry s
  | .sqRestart grp => Sys2Proof.Machine.execSqRestart grp s
  | .toDevice r => Sys2Proof.Machine.execToDevice r s
  | .toHost r => Sys2Proof.Machine.execToHost r s
  | .loadFigure r => Sys2Proof.Machine.execLoadFigure r s
  | .runFigure r => Sys2Proof.Machine.execRunFigure r s
  | .roleChange r => Sys2Proof.Machine.execRoleChange r s
  | .msixTimeout grp cq => Sys2Proof.Machine.execMsixTimeout grp cq s
  | .groupEnable grp on => Sys2Proof.Machine.execGroupEnable grp on s
  | .vfEnable enable numVfs => Sys2Proof.Machine.execVfEnable enable numVfs s
  | .vfFlr vf => Sys2Proof.Machine.execVfFlr vf s
  | .pfFlr => Sys2Proof.Machine.execPfFlr s
  | .hotReset => Sys2Proof.Machine.execHotReset s
  | .pcieLinkDown => Sys2Proof.Machine.execPcieLinkDown s
  | .pcieLinkUp speed width flitMode => Sys2Proof.Machine.execPcieLinkUp speed width flitMode s
  | .pcieRetrain => Sys2Proof.Machine.execPcieRetrain s
  | .epRx => Sys2Proof.Machine.execEpRx s
  | .spdmRequest via msg => Sys2Proof.Machine.execSpdmRequest via msg s
  | .doeAbort => Sys2Proof.Machine.execDoeAbort s
  | .partLock part => Sys2Proof.Machine.execPartLock part s
  | .partReset part clearLock scrub => Sys2Proof.Machine.execPartReset part clearLock scrub s
  | .resetDone part => Sys2Proof.Machine.execResetDone part s
  | .partPreempt part resume => Sys2Proof.Machine.execPartPreempt part resume s
  | .saveDone part ticks => Sys2Proof.Machine.execSaveDone part ticks s
  | .partResume part => Sys2Proof.Machine.execPartResume part s
  | .restoreDone part ticks => Sys2Proof.Machine.execRestoreDone part ticks s
  | .commandTimeout set idx => Sys2Proof.Machine.execCommandTimeout set idx s
  | .setReset set => Sys2Proof.Machine.execSetReset set s
  | .powerWindow a => Sys2Proof.Machine.execPowerWindow a s
  | .setPowerCap watts force => Sys2Proof.Machine.execSetPowerCap watts force s
  | .hostCapWrite watts => Sys2Proof.Machine.execHostCapWrite watts s
  | .floorDeclWrite watts => Sys2Proof.Machine.execFloorDeclWrite watts s
  | .railSettled die => Sys2Proof.Machine.execRailSettled die s
  | .coolantLoss => Sys2Proof.Machine.execCoolantLoss s
  | .unpark => Sys2Proof.Machine.execUnpark s
  | .thermalThrottle die degC => Sys2Proof.Machine.execThermalThrottle die degC s
  | .thermalTrip die degC => Sys2Proof.Machine.execThermalTrip die degC s
  | .supplySag => Sys2Proof.Machine.execSupplySag s
  | .sagEnd => Sys2Proof.Machine.execSagEnd s
  | .powerLoss => Sys2Proof.Machine.execPowerLoss s
  | .avsError die => Sys2Proof.Machine.execAvsError die s
  | .governorFailover => Sys2Proof.Machine.execGovernorFailover s
  | .takeoverOrder => Sys2Proof.Machine.execTakeoverOrder s
  | .takeoverReady agree => Sys2Proof.Machine.execTakeoverReady agree s
  | .takeoverStart => Sys2Proof.Machine.execTakeoverStart s
  | .coordinatorTimeout => Sys2Proof.Machine.execCoordinatorTimeout s
  | .healthRecord => Sys2Proof.Machine.execHealthRecord s
  | .clearFailed => Sys2Proof.Machine.execClearFailed s
  | .coreWatchdog core => Sys2Proof.Machine.execCoreWatchdog core s
  | .coreCodeCheck core c => Sys2Proof.Machine.execCoreCodeCheck core c s
  | .logCommit => Sys2Proof.Machine.execLogCommit s
  | .replanStart => Sys2Proof.Machine.execReplanStart s
  | .replanNow => Sys2Proof.Machine.execReplanNow s
  | .replanSweepEnd slackPs functionalError => Sys2Proof.Machine.execReplanSweepEnd slackPs functionalError s
  | .monitorSample m => Sys2Proof.Machine.execMonitorSample m s
  | .hbmMarginSweep channel steps repaired => Sys2Proof.Machine.execHbmMarginSweep channel steps repaired s
  | .hbmRetrain channel => Sys2Proof.Machine.execHbmRetrain channel s
  | .lpddrRetrain group => Sys2Proof.Machine.execLpddrRetrain group s
  | .nvRetrain stack => Sys2Proof.Machine.execNvRetrain stack s
  | .d2dLaneReplace link lane => Sys2Proof.Machine.execD2dLaneReplace link lane s
  | .checkWindowEnable window => Sys2Proof.Machine.execCheckWindowEnable window s
  | .perstAssert => Sys2Proof.Machine.execPerstAssert s
  | .perstDeassert pos railsGood flowLow => Sys2Proof.Machine.execPerstDeassert pos railsGood flowLow s
  | .bootStageDone passed units => Sys2Proof.Machine.execBootStageDone passed units s
  | .firmwareChunk off bytes => Sys2Proof.Machine.execFirmwareChunk off bytes s
  | .getBootStatus elapsedMs => Sys2Proof.Machine.execGetBootStatus elapsedMs s
  | .setPackageId id overI3c => Sys2Proof.Machine.execSetPackageId id overI3c s
  | .commitSvn overI3c => Sys2Proof.Machine.execCommitSvn overI3c s
  | .registerOwnerKey slot point sig overI3c => Sys2Proof.Machine.execRegisterOwnerKey slot point sig overI3c s
  | .revokeOwnerKey slot sig overI3c => Sys2Proof.Machine.execRevokeOwnerKey slot sig overI3c s
  | .getDebugChallenge overI3c => Sys2Proof.Machine.execGetDebugChallenge overI3c s
  | .debugUnlock t overI3c => Sys2Proof.Machine.execDebugUnlock t overI3c s
  | .railFault => Sys2Proof.Machine.execRailFault s
  | .coolantFlowRestored => Sys2Proof.Machine.execCoolantFlowRestored s
  | .bertRunEnd lane errors => Sys2Proof.Machine.execBertRunEnd lane errors s
  | .msixUnmask grp vec => Sys2Proof.Machine.execMsixUnmask grp vec s
  | .busMasterEnable fn on => Sys2Proof.Machine.execBusMasterEnable fn on s
  | .powerStateD3hot fn entered => Sys2Proof.Machine.execPowerStateD3hot fn entered s
  | .hostReadCompletion tag d => Sys2Proof.Machine.execHostReadCompletion tag d s
  | .completionTimeout tag => Sys2Proof.Machine.execCompletionTimeout tag s
  | .tapInstruction t => Sys2Proof.Machine.execTapInstruction t s
  | .quinbingoInstruction tile thread op => Sys2Proof.Machine.execQuinbingoInstruction tile thread op s

end Sys2Proof.Machine
end

