-- ==== Sys2Proof/Machine/Idle.lean ====
section
/-! DEFINITION. What the package does by itself between commands: packets that come back to it, the fault log's ring, the
end of a mirror rebuild, operations whose deadline it is, and one tick (R51, R325, R375, R437, R439, R440). -/

namespace Sys2Proof.Machine

/-- A packet that the package sent to itself arrives (R325). -/
def State.selfDeliver (s : State) (p : Pkt) : State :=
  match p.typ.toNat with
  | 0x08 => sdataEffect p s
  | 0x09 => scommitEffect p s
  | 0x0A => reelEffect p s
  | 0x0B => reelRelEffect p s
  | 0x10 => ackEffect p s
  | 0x11 => ldataEffect p s
  | 0x12 => arespEffect p s
  | 0x18 => fabricLoadEffect p s
  | 0x19 => fabricStoreEffect p s
  | 0x1A => fabricAtomicEffect p s
  | 0x1B => udataEffect p s
  | 0x1C => ucommitEffect p s
  | _ => s

/-- The oldest packet of the loopback arrives. -/
def State.idleLoop (s : State) : State :=
  match s.fab.loop with
  | p :: r => State.selfDeliver { s with fab := { s.fab with loop := r } } p
  | [] => s

/-- Class, instance, flag bit or cause code, and DETAIL of the records that one event of the log takes (R439; log 75): an
overrun takes two, for its figures and its stamp (R62), a missing marker one for each missing member (R63). -/
def LogRec.rows (r : LogRec) : List (Nat × Nat × Nat × Nat) := match r.what with
  | .flag f i => [(f.cls, i, f.lo, r.args.headD 0)]
  | .note (.lockViolation p) => [(0x41, p, 0, 0)]
  | .note (.unitRetired cause c q) => [(c, q, cause, 0)]
  | .note (.healthEvent code w) => [(0x45, 0, code % 256, w)]
  | .note (.coreEcc k) => [(0x02, k, 15, 0)]
  | .note (.bootUnit c k) => [(c, k, 16, 0)]
  | .note (.cardChange g _) => [(0x03, 0, 2, g)]
  | .note (.barOverrun b n q t) => [(0x03, q, 3, n + b % 2 ^ 48 * 2 ^ 16), (0x03, q, 12, t)]
  | .note (.lateMarker q b _) => [(0x03, q, 4, b)]
  | .note (.missingMarkers b qs) => qs.map (fun q => (0x03, q, 5, b))
  | .note (.viewFault n) => [(0x10, n, 6, 0)]
  | .note (.rankNotHeld n) => [(0x10, n, 7, 0)]
  | .note (.requestTimeout g c) => [(0x42, 0, 8, g + c * 2 ^ 8)]
  | .note (.crossedPorts a b) => [(0x30, a, 9, b)]
  | .note (.takeover st k q) => [(0x45, 0, 10, st + k * 2 ^ 8 + q * 2 ^ 20)]
  | .note (.d2dLane k l) => [(0x01, k, 11, l)]
  | .note (.coreReload k) => [(0x02, k, 14, 0)]
  | .note (.malformedEntry g c) => [(0x42, 0, 13, g + c * 2 ^ 8)]

/-- The 32 bytes of a log record (R439). -/
def State.recordBytes (s : State) (r : LogRec) (x : Nat × Nat × Nat × Nat) (seq : Nat) : List Byte :=
  let (c, i, b, d) := x
  [r.stamp, s.pkgId * 256 + r.unit + b2n r.hold * 2 ^ 20 + c % 4096 * 2 ^ 21 + i % 65536 * 2 ^ 33 + b % 256 * 2 ^ 49,
    d, seq % 2 ^ 48].flatMap (toLE 8)

/-- Append one record to the log's ring (R440). -/
def State.appendRow (s : State) (r : LogRec) (x : Nat × Nat × Nat × Nat) : State :=
  let base := s.rd R.HEALTH_LOG_BASE
  let seq := s.rd R.HEALTH_LOG_SEQ_SEQ + 1
  if base = 0 then s
  else (s.devSet (base + 32 * ((seq - 1) % 32768)) (s.recordBytes r x seq)).wr R.HEALTH_LOG_SEQ_SEQ seq

/-- Append an event's records to the log's ring (R440). -/
def State.appendLog (s : State) (r : LogRec) : State := r.rows.foldl (fun t x => t.appendRow r x) s

/-- Whether a fault report would itself raise the flag that it reports: what befalls the entries of group 16 (log 76). -/
def LogRec.echoes (r : LogRec) : Bool := match r.what with
  | .flag f _ => (f = R.PCIE_EVENTS_CQ_BACKLOG || f = R.PCIE_EVENTS_CQ_DROP) && r.args.headD 0 = 16
  | .note _ => false

/-- Report a flag to group 16 (R375). The drops and backlogs of group 16 itself are not reported through it (log 76). -/
def State.reportFault (s : State) (r : LogRec) : State := match r.what with
  | .flag f i => if r.echoes then s else s.mgmt 16 0x0007 [f.cls + i % 65536 * 2 ^ 16 + f.lo * 2 ^ 32, r.stamp]
  | .note _ => s

/-- Firmware takes the next record of the fault log (R375, R440). -/
def State.idleLog (s : State) : State :=
  match s.log[s.logged]? with
  | some r =>
    let s := { s with logged := s.logged + 1 }
    (if Config.appendFull s.logged then s.raise E.HEALTH_LOG_LOST else s.appendLog r).reportFault r
  | none => s

/-- A mirror rebuild is over when nothing of it waits (R437). -/
def State.idleRebuild (s : State) : State :=
  if s.health.rebuild ∧ s.caller.mirror.isEmpty = true then
    State.mgmtTray { s with health := { s.health with rebuild := false } } 0x0207 [0]
  else s

/-- Partition resets go on with their steps (R400). -/
def State.idleResets (s : State) : State := (List.range 16).foldl (fun t p => t.advanceReset p) s

/-- What the package does in a step with no command (log 1). -/
def State.idle (s : State) : State := s.idleLoop.idleLog.idleRebuild.idleResets.stepBurn.endDead.idleTick

end Sys2Proof.Machine
end

