-- ==== Sys2Proof/WellFormed.lean ====
section
/-! DEFINITION. Well-formed commands: the ranges that the types of their operands do not already give. -/

namespace Sys2Proof

/-- The data of a host read, at most a given number of bytes. -/
def HostData.fits (n : Nat) : HostData → Bool
  | .data b => decide (b.length ≤ n)
  | .poisoned b => decide (b.length ≤ n)
  | .failed => true

/-- A request entry holds 16 words, of which words 3 to 15 are its body (R369). -/
def Req.wf (r : Req) : Bool := decide (r.body.length ≤ 13)

/-- A packet's data is at most 4,096 bytes (R488). -/
def Pkt.wf (p : Pkt) : Bool := decide (p.data.length ≤ 4096)

/-- Whether a command is one its source can send. -/
def Instr.wf (i : Instr) : Bool :=
  match i with
  | .registerWrite cls inst off size _ =>
    decide (cls < 2 ^ 16) && decide (inst < 2 ^ 16) && decide (off < 2 ^ 32) && (size = 4 || size = 8) && off % size = 0
  | .readDanceCard off len => decide (off < 2 ^ 32) && decide (len < 2 ^ 32)
  | .tempoBeat _ e => decide (e.high ≤ 1000)
  | .commandComplete _ idx => decide (idx < 131072)
  | .arrTimeout _ idx => decide (idx < 131072)
  | .commandTimeout _ idx => decide (idx < 131072)
  | .admitSeq r _ | .cancel r | .pause r | .resume r | .extend r | .placementChange r | .install r _ | .cancelInstall r
  | .stageEpoch r | .stageHostSlot r _ | .fill r _ _ _ | .swapEpoch r | .qlaunch r | .toDevice r | .toHost r
  | .loadFigure r | .runFigure r | .roleChange r => r.wf
  | .reel p | .reelRel p | .portState p | .sdata p | .scommit p | .udata p | .ucommit p | .fabricLoad p
  | .fabricStore p | .fabricAtomic p | .ack p | .ldata p | .aresp p => p.wf
  | .requestTake _ d => d.fits 128
  | .sqTail _ _ size _ | .copyTail _ _ _ size _ | .cqHead _ _ _ size _ => decide (size ≤ 8)
  | .copyComplete _ idx => decide (idx < 2 ^ 16)
  | .replanSweepEnd ps _ => ps.length = 23
  | .monitorSample m => decide (m.drift.length ≤ 4) && decide (m.eyes.length ≤ 192)
  | _ => true

end Sys2Proof
end

