-- ==== Sys2Proof/Safety.lean ====
section
/-! DEFINITION. What every reachable state satisfies, and what a command leaves alone, in the terms the statements use. -/

namespace Sys2Proof.Machine

/-- The maps of the fabric are in canonical form, keys rising and no entry at its default, and a copy descriptor in flight
has a number given out before. -/
def Fab.wf (f : Fab) : Bool :=
  mwf PortSt.init f.ports && mwf none f.cache && mwf 0 f.keys && mwf 0 f.peers && mwf 0 f.reqids && mwf 0 f.rr &&
  mwf (0, 0) f.bad &&
  f.descs.all (fun d => decide (d.num < f.nextDesc))

/-- Device memory and tile SRAM with their poison marks, the row tags, and what channels in no window hold, are in canonical
form. -/
def State.memWf (s : State) : Bool :=
  mwf 0 s.mem && mwf false s.memMark && mwf 0 s.tileMem && mwf false s.tileMark && mwf 0 s.tags && mwf 0 s.parked &&
  mwf false s.parkedMark

/-- The gate's counts are in canonical form. -/
def Gate.wf (g : Gate) : Bool := mwf 0 g.heldAt && mwf 0 g.byGate && mwf 0 g.cycles

/-- What the monitors found is in canonical form. -/
def Health.wf (h : Health) : Bool :=
  mwf 0 h.slack && mwf 0 h.drift && mwf 0 h.hbm && mwf 0 h.mapped && mwf [] h.results

/-- Slots, log pages and ageing records of the NV stacks are in canonical form. -/
def Nv.wf (n : Nv) : Bool := mwf 0 n.data && mwf [] n.logPages && mwf 0 n.ageing.slack && mwf [] n.ageing.results

/-- Registers, device memory, tile SRAM, their poison marks, row tags, NV slots and every table kept as a sparse map are in
canonical form, keys rising and no entry at its default; descriptors in flight are numbered apart. -/
def State.wf (s : State) : Bool :=
  mwf 0 s.regs && s.memWf &&
  mwf SetSt.init s.sets && mwf Entry.init s.caller.seqs && s.nv.wf && s.fab.wf && mwf CqSt.init s.host.cqs &&
  mwf (0, 0) s.host.msixTab && s.gate.wf && s.health.wf && mwf 0 s.boot.bundleCopy &&
  mwf Thread.init s.threads && mwf 0 s.turns && mwf (0, 0) s.windows && mwf none s.resets && mwf ReelPart.init s.reel &&
  mwf none s.weights.hostSlots && mwf 0 s.boot.sram && mwf 0 s.tempo.seenMarks

/-- Every register field but those at the listed keys reads as before. -/
def State.regsBut (s t : State) (ks : List Nat) : Prop := ∀ f i k j, fkey f i k j ∉ ks → t.rd f i k j = s.rd f i k j

/-- The keys of a flag, its event counter and its last-event stamp. -/
def flagKeys (e : EvFlag) (i : Nat := 0) (k : Nat := 0) : List Nat :=
  fkey e.flag i k 0 :: fkey e.cnt i k 0 :: (e.last.toList.map (fun f => fkey f i k 0))

/-- The keys of the counters of flits sent, which every packet that goes out moves (R351). -/
def txKeys : List Nat := (List.range 24).map (fun q => fkey R.FAB_TX_FLITS_TX q 0 0)

/-- A flag was raised between two states in a unit's name: it reads 1, its count went up by one, and a new log record names it
(R11, R66). -/
def State.raisedBy (s t : State) (unit : Nat) (e : EvFlag) (i : Nat := 0) (k : Nat := 0) : Prop :=
  t.on e.flag i k = true ∧ t.rd e.cnt i k = (s.rd e.cnt i k + 1) % 2 ^ e.cnt.wid ∧
  ∃ r ∈ t.log.drop s.log.length, r.what = .flag e.flag i ∧ r.unit = unit

/-- A flag was raised between two states in the name of its own block. -/
def State.raised (s t : State) (e : EvFlag) (i : Nat := 0) (k : Nat := 0) : Prop :=
  s.raisedBy t (srcUnit e.flag.cls i) e i k

/-- Every byte of device memory and every line's mark reads as before. -/
def State.sameMem (s t : State) : Prop := ∀ a, t.devByte a = s.devByte a ∧ t.lineMark a = s.lineMark a

/-- Every byte of device memory outside a range reads as before. -/
def State.memBut (s t : State) (a n : Nat) : Prop := ∀ b, (b < a ∨ a + n ≤ b) → t.devByte b = s.devByte b

/-- Every byte of tile SRAM, every word's mark and every row tag reads as before. -/
def State.sameTiles (s t : State) : Prop :=
  ∀ k, mget 0 t.tileMem k = mget 0 s.tileMem k ∧ mget false t.tileMark k = mget false s.tileMark k ∧
    mget 0 t.tags k = mget 0 s.tags k

/-- The bases of the objects in CHECK windows that a write touches (R174). -/
def State.touchedBy (s : State) (a n : Nat) : List Nat := (List.range 16).flatMap (fun w => s.touched w a n)

/-- A committed write: the bytes written read back, and every byte outside them as before, but for the CRC fields of the
objects of CHECK windows that the write touches (R148, R174). -/
def State.stored (s t : State) (a : Nat) (bs : List MarkByte) : Prop :=
  ∀ b, (∀ o ∈ s.touchedBy a bs.length, b < o ∨ o + 4 ≤ b) →
    t.devByte b = (if a ≤ b ∧ b < a + bs.length then ((bs[b - a]?).map (·.1)).getD 0 else s.devByte b)

/-- No CHECK window is enabled: no write touches an object whose CRC is kept (R174, R182). -/
def State.windowsOff (s : State) : Bool := (List.range 16).all (fun w => !s.on R.CHECK_WIN_BASE_EN 0 w)

/-- Keys of the counters and flags that the CRC of a write moves, on one memory-side die (R174, R180). -/
def checkKeys (die : Nat) : List Nat :=
  flagKeys E.CHECK_HDR_PARTIAL die ++ flagKeys E.CHECK_GEN_FAULT die ++ [fkey R.CHECK_CREATE_CNT_CREATES die 0 0, fkey R.CHECK_UPDATE_CNT_UPDATES die 0 0]

/-- Every register field reads as before but those at the listed keys and the CRC counters of the memory-side dies. -/
def State.regsButCrc (s t : State) (ks : List Nat) : Prop := s.regsBut t (ks ++ (List.range 4).flatMap checkKeys)

/-! ### Set commands -/

/-- The command of a Set that an event issues now: ready, well formed, in the first run of its group, and admitted by the
gate, which holds no command of a zero count (R76, R86, R113, R409). -/
def State.issues (s : State) (set : Nat) (is : Cmd → Bool) (g : Go) : Prop :=
  s.ready set is = some g ∧ g.bad = false ∧ g.second = false ∧
  (g.idle = true ∨ s.gate.closed = false ∧ ((s.charge set g.c g.n).2 = 0 ∨
    s.gate.opens (set / 12) (s.sharesOf set (s.charge set g.c g.n).1 (s.charge set g.c g.n).2) = true))

/-- Between two states a command went in flight with the writes of working state and the held writes given, the issue
point moved on, and no byte of device memory or tile SRAM and no other Set changed (R76, R82). -/
def State.wentIn (s t : State) (g : Go) (kind : FlightKind) (work : List Wk) (held : List Held) : Prop :=
  (∃ f : Flight, (t.st g.set).flights = (s.st g.set).flights ++ [f] ∧ f.idx = g.idx ∧ f.grp = g.grp ∧ f.cp = g.c.cp ∧
    f.ssb = g.c.ssb ∧ f.done = false ∧ f.kind = kind ∧ f.work = work ∧ f.held = held) ∧
  t.rd R.SCHED_STATUS_ISSUE_IDX g.set = (g.idx + 1) % 2 ^ R.SCHED_STATUS_ISSUE_IDX.wid ∧
  s.sameMem t ∧ s.sameTiles t ∧ ∀ n, n ≠ g.set → t.st n = s.st n

/-! ### Packets -/

/-- A response went out: back on its port, or to the package itself through the loopback (R325, R326). -/
def State.replied (s t : State) (a : Pkt) : Prop :=
  if a.dst.val = s.pkgId then a ∈ t.fab.loop.drop s.fab.loop.length else Out.reply a ∈ t.out.drop s.out.length

/-- A packet may be taken, and answered: it came in through the loopback, or on a port that carries its class and class 3 (R316,
R323). -/
def State.onLink (s : State) (k : Pkt) : Bool :=
  s.hears k && (match k.via with
    | some q => s.carries q 3
    | none => true)

/-- A packet of a type was refused: counted in the name of the port it came in on, latched, answered with its status, an ATOMIC by
ARESP and any other by ACK, and nothing of it landed (R324, R328, R351). -/
def State.turnedAway (s t : State) (typ : Nat) (k : Pkt) (status : Nat) : Prop :=
  s.raisedBy t k.portUnit E.FAB_REFUSED_IN ∧ t.rd R.FAB_LAST_REFUSED_PKG = k.src.val ∧ t.rd R.FAB_LAST_REFUSED_STATUS = status ∧
  (∃ a, s.replied t a ∧ a.typ.toNat = (if typ = 0x1A then 0x12 else 0x10) ∧ a.status.toNat = status % 256 ∧ a.reqid = k.reqid ∧
    a.dst = k.src) ∧ s.sameMem t ∧ s.sameTiles t

/-- Bytes went to a device address of a member as REEL packets, one open operation for each piece (R325, R334). -/
def State.reelSent (s t : State) (q p a : Nat) (bs : List MarkByte) : Prop :=
  ∀ c ∈ reelCuts a bs.length, ∃ o ∈ t.fab.ops.drop s.fab.ops.length, o.typ = 0x0A ∧ o.dst = q % 4096 ∧
    o.pkt.part.val = p % 16 ∧ reelAddr o.pkt = (a + c.1) % 2 ^ 56 ∧
    o.pkt.data = ((bs.drop c.1).take c.2).map (·.1) ∧
    o.pkt.poison = BitVec.ofNat 64 (poisonWord ((bs.drop c.1).take c.2))

/-! ### Requests -/

/-- A completion ring has room for an entry now, with nothing waiting behind it (R358, R380). -/
def State.ringOpen (s : State) (g c : Nat) : Prop :=
  s.hostOk g = true ∧ s.on R.PCIE_CQ_CFG_EN 0 g c = true ∧ (s.cq g c).blCount = 0 ∧ (s.cq g c).waiting = [] ∧
  s.cqHeld g c + 1 < s.cqSize g c

/-- Between two states an entry went out to a completion ring in two posted writes, words 1 to 15 and then word 0, at BASE + 128 ×
slot, with the Requester ID of the function that serves the group (R355, R364, R376). -/
def State.entryAt (s t : State) (g c w0 : Nat) (ws : List Nat) : Prop :=
  ∃ slot, Out.cqWrite (s.fnOf g) (4096 * s.rd R.PCIE_CQ_BASE_BASE 0 g c + 128 * slot + 8) ws false ∈ t.out.drop s.out.length ∧
    Out.cqWrite (s.fnOf g) (4096 * s.rd R.PCIE_CQ_BASE_BASE 0 g c + 128 * slot) [w0] false ∈ t.out.drop s.out.length

/-- Between two states a request's completion entry went out with a status, its KIND, CID and HOST_TAG (R372). -/
def State.entryOut (s t : State) (r : Req) (status : Nat) : Prop :=
  ∃ w0 ws, s.entryAt t r.grp.val r.cq.val w0 ws ∧ kindOf [w0] = 1 ∧ bits w0 15 8 = status ∧
    bits w0 31 16 = r.cid.toNat ∧ ws[1]? = some r.tag.toNat

/-- Between two states a request completed with a status: it is no longer open, and its entry went out (R367). -/
def State.completed (s t : State) (r : Req) (status : Nat) : Prop :=
  t.host.reqs = s.host.reqs.eraseP (fun o => o.req = r) ∧ s.entryOut t r status

/-- Between two states a management event with a code went out to a group (R375). -/
def State.eventOut (s t : State) (g code : Nat) : Prop :=
  ∃ w0 ws, s.entryAt t g (s.rd R.PCIE_GRP_CTL_MGMT_CQ 0 g) w0 ws ∧ kindOf [w0] = 4 ∧ ws[3]? = some code

end Sys2Proof.Machine
end

