-- ==== Sys2Proof/Certificates/Slice0/Obligations.lean ====
section
/-! DEFINITION. The statements for the provers, chapter by chapter of the manual. -/

open Sys2Proof Sys2Proof.Machine


/-- A step with a command in front runs that command on the state with the queue's rest; with nothing queued, nothing
arriving, no log record waiting, no reset or fuse burn under way and no operation at its deadline it is one tick of
the beat, of which tick 900 alone judges more (R51; the idle step is the model's choice, log 1). -/
def Obligations.StepRunsFront : Prop :=
  (∀ (c : Instr) (rest : List Instr) (s : State), s.pending = c :: rest → step s = exec c { s with pending := rest }) ∧
  (∀ s : State, s.pending = [] → s.fab.loop = [] → s.log.length ≤ s.logged → s.health.rebuild = false → s.resets = [] →
    s.boot.burn = none → (∀ o ∈ s.fab.ops, s.lapsed o 0 = false) → s.on R.TEMPO_CTL_EN = true → s.tempo.now % 1024 < 1023 → s.tempo.now % 1024 ≠ 899 →
    step s = .next { s with tempo := { s.tempo with now := s.tempo.now + 1 } })

/-- Reset: the values that the register maps of Tempo and the rules on the Dance Card, package id and role give (R10,
R32, R42, R67). -/
def Obligations.ResetState : Prop :=
  State.reset.pending = [] ∧ State.reset.stamp = 0 ∧ State.reset.rd R.TEMPO_CTL_EN = 0 ∧
  State.reset.rd R.TEMPO_BAR_CFG_GUARD = 0x180 ∧ State.reset.rd R.TEMPO_BAR_CFG_TMO = 0x10 ∧
  State.reset.rd R.TEMPO_PERIOD_HALF_US = 0x10 ∧ State.reset.card.gen = 0 ∧ State.reset.pkgId = 0xFFF ∧
  State.reset.rank = none ∧ State.reset.rd R.CALLER_STATUS_ACTIVE 0 = 1 ∧ State.reset.rd R.CALLER_STATUS_ACTIVE 1 = 0 ∧
  (∀ n < 48, State.reset.setState n = 0) ∧ (∀ a, State.reset.devByte a = 0)

/-- Reset is in canonical form. -/
def Obligations.ResetWf : Prop := State.reset.wf = true

/-- Every step keeps the sparse maps that State.wf names canonical: registers, device memory and tile SRAM with their
poison marks, row tags, NV slots and log pages, ageing records, and the tables of sequences, Sets, rings, ports,
threads and resets. -/
def Obligations.StepKeepsWf : Prop := ∀ s t : State, s.wf = true → step s = .next t → t.wf = true

/-- No command touches the queue of waiting commands, and an idle step leaves it empty. -/
def Obligations.QueueKept : Prop :=
  (∀ (c : Instr) (s t : State), exec c s = .next t → t.pending = s.pending) ∧
  (∀ s t : State, s.pending = [] → step s = .next t → t.pending = [])

/-- An access of another size or alignment than R9 allows, or to an instance that the class has not or that is
unavailable, has no effect (R9, R36). TEMPO_BAR_CFG takes GUARD and TMO inside their ranges and keeps BAR_LEN (RO);
TEMPO_EVENTS clears exactly the flags written 1; no other register, and nothing else, changes (R9, R10, R67). A write
that would change an RWL field of a locked partition is dropped, and raises and logs a setup-lock violation of that
partition; one that carries the present value changes nothing (R10): PART_HBM.BASE of partition `p`. -/
def Obligations.RegisterWrites : Prop :=
  (∀ (cls i off size : Nat) (val : Word) (s : State),
     (¬(size = 8 ∧ off % 8 = 0 ∨ size = 4 ∧ off % 4 = 0) ∨ instances cls ≤ i ∨ s.avail cls i = false) →
     exec (.registerWrite cls i off size val) s = .next s) ∧
  (∀ (val : Word) (s : State), s.wf = true →
     (∃ t, exec (.registerWrite 0x03 0 0x40 8 val) s = .next t ∧
       (let g := val.toNat / 2 ^ 16 % 2 ^ 10
        t.rd R.TEMPO_BAR_CFG_GUARD = if 64 ≤ g then g else s.rd R.TEMPO_BAR_CFG_GUARD) ∧
       (let m := val.toNat / 2 ^ 32 % 2 ^ 8
        t.rd R.TEMPO_BAR_CFG_TMO = if m ≠ 0 then m else s.rd R.TEMPO_BAR_CFG_TMO) ∧
       s.regsBut t [fkey R.TEMPO_BAR_CFG_GUARD 0 0 0, fkey R.TEMPO_BAR_CFG_TMO 0 0 0] ∧
       t = { s with regs := t.regs }) ∧
     (∃ t, exec (.registerWrite 0x03 0 0x18 8 val) s = .next t ∧
       (∀ e ∈ [(R.TEMPO_EVENTS_A_LOST, 0), (R.TEMPO_EVENTS_B_LOST, 1), (R.TEMPO_EVENTS_FAILOVER, 2),
           (R.TEMPO_EVENTS_HOLDOVER, 3), (R.TEMPO_EVENTS_HOLD_EXPIRED, 4), (R.TEMPO_EVENTS_COUNT_FAULT, 5),
           (R.TEMPO_EVENTS_PERIOD_FAULT, 6), (R.TEMPO_EVENTS_OVERRUN, 7), (R.TEMPO_EVENTS_BARRIER_LATE, 8),
           (R.TEMPO_EVENTS_BARRIER_TMO, 9)],
         t.on e.1 = (s.on e.1 && !val.toNat.testBit e.2)) ∧
       s.regsBut t ((List.range 10).map (fun k => fkey R.TEMPO_EVENTS_A_LOST 0 0 0 + k)) ∧ t = { s with regs := t.regs })) ∧
  (∀ (p : Fin 16) (val : Word) (s : State), s.wf = true → s.locked p = true → s.avail 0x41 p = true →
     ∃ t, exec (.registerWrite 0x41 p R.PART_HBM_BASE.off 8 val) s = .next t ∧
       t.rd R.PART_HBM_BASE p = s.rd R.PART_HBM_BASE p ∧
       (val.toNat >>> R.PART_HBM_BASE.lo % 2 ^ R.PART_HBM_BASE.wid ≠ s.rd R.PART_HBM_BASE p →
         s.raised t E.PART_LOCK_VIOL p ∧ s.regsBut t (flagKeys E.PART_LOCK_VIOL p) ∧
         t = { s with regs := t.regs, log := t.log }) ∧
       (val.toNat >>> R.PART_HBM_BASE.lo % 2 ^ R.PART_HBM_BASE.wid = s.rd R.PART_HBM_BASE p → t = s))

/-- A legal Read Dance Card request is answered with the words of the card from its offset, as many bytes as asked
for, and DC_GEN as it stands; an illegal one with an error and no card bytes; nothing else changes (R31). A
regeneration of the card: with a change decided, or no card built yet and stage MAP reached, DC_GEN goes odd and takes
every change decided so far, with the lasting layout, from which a spare that a margin sweep borrows is left out; a
second command makes it even, shows that layout, names the change of the lowest class and, within it, of the lowest
physical instance, or the boot build, sends the change event with the new DC_GEN and DC_STAMP, and a change decided in
between waits for the next one; with nothing to regenerate the command changes nothing; memory and tiles stay (R32,
R42, R43). -/
def Obligations.DanceCard : Prop :=
  (∀ (off len : Nat) (s : State),
     (off % 8 = 0 ∧ len % 8 = 0 ∧ 8 ≤ len ∧ len ≤ 256 ∧ off + len ≤ 0x100000 →
       ∃ bs, exec (.readDanceCard off len) s = .next (s.emit (.cardData bs s.card.gen)) ∧ bs.length = len ∧
         ∀ i < len / 8, ofLE ((bs.drop (8 * i)).take 8) = s.cardWord (off + 8 * i) % 2 ^ 64) ∧
     (¬(off % 8 = 0 ∧ len % 8 = 0 ∧ 8 ≤ len ∧ len ≤ 256 ∧ off + len ≤ 0x100000) →
       exec (.readDanceCard off len) s = .next (s.emit .cardError))) ∧
  (∀ s : State,
     (∃ t, exec .danceCardRegen s = .next t ∧ s.sameMem t ∧ s.sameTiles t ∧
       t.card.gen = (if s.card.gen % 2 = 1 ∨ s.cardDue = true then s.card.gen + 1 else s.card.gen)) ∧
     (s.card.gen % 2 = 0 → s.cardDue = false → exec .danceCardRegen s = .next s) ∧
     (s.card.gen % 2 = 0 → (s.card.gen ≠ 0 ∧ s.card.waiting ≠ [] ∨ s.card.gen = 0 ∧ 6 ≤ s.rd R.SEC_STATUS_STAGE ∧
         s.rd R.SEC_STATUS_STAGE ≤ 8) →
       ∃ t, exec .danceCardRegen s = .next t ∧ t.card.gen = s.card.gen + 1 ∧ t.card.next = s.lasting ∧
         t.card.batch = s.card.waiting ∧ t.card.waiting = [] ∧ t.card.shown = s.card.shown ∧ t = { s with card := t.card }) ∧
     (s.card.gen % 2 = 1 →
       ∃ t, exec .danceCardRegen s = .next t ∧ t.card.gen = s.card.gen + 1 ∧ t.card.shown = s.card.next ∧
         t.card.stamp = s.stamp ∧ t.card.waiting = s.card.waiting ∧ t.card.batch = [] ∧ t.layout = s.layout ∧
         (s.card.gen = 1 → t.card.cause = 1 ∧ t.card.causeClass = 0 ∧ t.card.causeInst = 0) ∧
         Out.mctp 0x0001 [t.card.gen, t.card.stamp, t.card.cause] ∈ t.out ∧
         (s.card.gen ≠ 1 → s.card.batch ≠ [] → ∃ c ∈ s.card.batch, t.card.cause = c.cause ∧ t.card.causeClass = c.cls % 4096 ∧
           t.card.causeInst = c.phys % 65536 ∧ ∀ d ∈ s.card.batch, c.cls < d.cls ∨ (c.cls = d.cls ∧ c.phys ≤ d.phys))))

/-- The high time of a pulse, in thousandths of the programmed period, gives the beat's symbol: 0, marker or 1; any
other is invalid, and the beat is bad: its input's run of good beats starts again (R46). -/
def Obligations.BeatSymbols : Prop :=
  (∀ high : Nat,
    (beatSymbol high = some (some false) ↔ 150 ≤ high ∧ high ≤ 350) ∧
    (beatSymbol high = some none ↔ 400 ≤ high ∧ high ≤ 600) ∧
    (beatSymbol high = some (some true) ↔ 650 ≤ high ∧ high ≤ 850) ∧
    (beatSymbol high = none ↔ high < 150 ∨ (350 < high ∧ high < 400) ∨ (600 < high ∧ high < 650) ∨ 850 < high)) ∧
  ∀ (b : Bool) (e : Edge) (s : State), s.on R.TEMPO_CTL_EN = true → beatSymbol e.high = none →
    ∃ t, exec (.tempoBeat b e) s = .next t ∧ (t.tempo.inp b).good = 0

/-- Setting EN starts both inputs from nothing; clearing it returns status, time and bar registers to reset and keeps
flags, counters, GUARD and TMO; neither touches anything else (R51, R67). The eighth good beat in a row qualifies an
input, and the first to qualify is selected and locks the loop (R50, R51). A bad beat of the selected input loses it:
its LOST flag is raised, it is no longer qualified, its count starts from 0, and the selection stays until the
boundary (R50, R53). -/
def Obligations.TempoInputs : Prop :=
  (∀ s : State, s.wf = true →
     (s.on R.TEMPO_CTL_EN = false →
       ∃ t, exec .tempoEnable s = .next t ∧ t.rd R.TEMPO_CTL_EN = 1 ∧ t.tempo.inA = .init ∧ t.tempo.inB = .init ∧
         t.tempo.now = 0 ∧ s.regsBut t [fkey R.TEMPO_CTL_EN 0 0 0] ∧ t = { s with regs := t.regs, tempo := t.tempo }) ∧
     (s.on R.TEMPO_CTL_EN = true → exec .tempoEnable s = .next s) ∧
     (∃ t, exec .tempoDisable s = .next t ∧ t.rd R.TEMPO_CTL_EN = 0 ∧ (∀ f ∈ tempoCleared, t.rd f = f.rst) ∧ t.stamp = 0 ∧
       t.tempo.barOn = false ∧
       s.regsBut t (fkey R.TEMPO_CTL_EN 0 0 0 :: tempoCleared.map (fun f => fkey f 0 0 0)) ∧
       t = { s with regs := t.regs, tempo := t.tempo })) ∧
  (∀ (b x : Bool) (e : Edge) (s : State), s.wf = true → s.on R.TEMPO_CTL_EN = true → s.on R.TEMPO_STATUS_LOCKED = false →
     s.rd R.TEMPO_STATUS_SEL = 0 → (s.tempo.inp b).started = true → (s.tempo.inp b).good = 7 →
     (s.tempo.inp b).frame = none → s.qual b = false → beatSymbol e.high = some (some x) → e.ppm.natAbs ≤ 1000 →
     ∃ t, exec (.tempoBeat b e) s = .next t ∧ t.qual b = true ∧ t.rd R.TEMPO_STATUS_SEL = selCode b ∧
       t.on R.TEMPO_STATUS_LOCKED = true ∧ t.log = s.log ∧ t = { s with regs := t.regs, tempo := t.tempo }) ∧
  (∀ (b : Bool) (e : Edge) (s : State), s.wf = true → s.on R.TEMPO_CTL_EN = true → s.qual b = true →
     s.rd R.TEMPO_STATUS_SEL = selCode b → beatSymbol e.high = none →
     ∃ t, exec (.tempoBeat b e) s = .next t ∧ t.qual b = false ∧ s.raised t (lostFlag b) ∧ (t.tempo.inp b).good = 0 ∧
       t.tempo.lost = true ∧ t.rd R.TEMPO_STATUS_SEL = selCode b ∧
       t = { s with regs := t.regs, tempo := t.tempo, log := t.log })

/-- The beat boundary after a loss: the other input when it is qualified, with FAILOVER; holdover when it is not, with
HOLDOVER and HOLD_BEATS 0; the stamp goes to tick 0 of the next beat (R51, R53). A SWAP while both inputs are
qualified changes nothing but the wish, and the next boundary selects the other input (R57); in the beat of a loss it
has no effect (R54). Holdover that has lasted 256 beats with no input qualified expires: EXPIRED and HOLD_EXPIRED,
every Set halted with nothing of it left uncommitted, the role reported as failed with cause 0x02 (R56, R431). -/
def Obligations.BeatBoundaries : Prop :=
  (∀ (b : Bool) (s : State), s.wf = true → s.on R.TEMPO_CTL_EN = true → s.on R.TEMPO_STATUS_LOCKED = true →
     s.rd R.TEMPO_STATUS_SEL = selCode b → s.tempo.lost = true → s.tempo.now % 1024 = 1023 →
     ∃ t, exec .beatBoundary s = .next t ∧ t.tempo.now = (s.tempo.now / 1024 + 1) * 1024 ∧ t.tempo.lost = false ∧
       (s.qual (!b) = true → t.rd R.TEMPO_STATUS_SEL = selCode (!b) ∧ s.raised t E.TEMPO_FAILOVER) ∧
       (s.qual (!b) = false → t.rd R.TEMPO_STATUS_SEL = 3 ∧ t.rd R.TEMPO_STATUS_HOLD_BEATS = 0 ∧
         s.raised t E.TEMPO_HOLDOVER)) ∧
  (∀ (b : Bool) (s : State), s.wf = true → s.on R.TEMPO_CTL_EN = true → s.on R.TEMPO_STATUS_LOCKED = true →
     s.rd R.TEMPO_STATUS_SEL = selCode b → s.qual false = true → s.qual true = true →
     (s.tempo.lost = true → exec .swap s = .next s) ∧
     (s.tempo.lost = false → s.tempo.now % 1024 = 1023 →
       ∃ t u, exec .swap s = .next t ∧ t = { s with tempo := { s.tempo with swap := true } } ∧
         exec .beatBoundary t = .next u ∧ u.rd R.TEMPO_STATUS_SEL = selCode (!b))) ∧
  (∀ s : State, s.wf = true → s.rd R.TEMPO_STATUS_SEL = 3 → s.rd R.TEMPO_STATUS_HOLD_BEATS = 256 →
     s.on R.TEMPO_STATUS_EXPIRED = false → s.qual false = false → s.qual true = false →
     ∃ t, exec .holdoverExpiry s = .next t ∧ t.on R.TEMPO_STATUS_EXPIRED = true ∧ s.raised t E.TEMPO_HOLD_EXPIRED ∧
       (∀ n < 48, t.setState n = 5 ∧ (t.st n).flights = []) ∧
       t.on R.HEALTH_STATUS_FAILED = true ∧ t.rd R.HEALTH_STATUS_CAUSE = 2 ∧ s.raised t E.HEALTH_ROLE_FAILED)

/-- The next bar starts at the first boundary at or after the nominal start by which the marker of every member
awaited is here and stamped GUARD ticks or more ago: the bar number goes up by one, START is that boundary, or the one
that the stamps give where a marker came late, and the markers held are dropped. Awaited are all members; after a
timeout, those of them that a pending role table due at that bar keeps. While a takeover decides the start of the held
bar, and where BAR_LEN is unknown, none starts (R60, R63, R67, R435). A bar-done marker: the first copy for the
present bar counts; a copy of one seen before is ignored, whatever bar it names; one that names another bar raises
BARRIER_LATE and counts for nothing, but for a spare, which takes a later bar for its own (R58, R59). A marker still
missing TMO beats after the nominal start raises BARRIER_TMO and latches the lowest missing package and the number of
missing ones, once for that bar (R63); a bar of no length has no nominal start of the next. -/
def Obligations.BarBarrier : Prop :=
  (∀ s : State, s.wf = true → s.on R.TEMPO_CTL_EN = true → s.on R.TEMPO_STATUS_COUNT_VALID = true →
     s.tempo.now % 1024 = 0 → s.tempo.barOn = true → s.tempo.base < s.beat →
     (s.heldByTakeover = true ∨ s.barLen = 0 → exec .barStart s = .next s) ∧
     (s.heldByTakeover = false → s.barLen ≠ 0 →
     (let awaited := fun (q : Nat) => q ∈ s.members ∧ (s.tempo.tmoDone = true → ∀ x, s.rolePend = some x →
         x.tab.eff ≤ s.bar + 1 → ∃ e ∈ x.tab.ranks, e.2 = q + 1)
     ((s.tempo.base + s.barLen ≤ s.beat ∧
         ∀ q ∈ s.members, awaited q → ∃ m ∈ s.tempo.marks, m.pkg = q ∧ m.stamp + s.tempo.guardEff ≤ s.tempo.now) →
       ∃ t, exec .barStart s = .next t ∧ t.bar = (s.bar + 1) % 2 ^ 64 ∧
         t.rd R.TEMPO_BAR_START_START =
           (if s.tempo.lateMark then s.boundaryFor (s.tempo.marks.map (·.stamp)) else s.beat) * 1024 % 2 ^ 64 ∧
         t.tempo.barOn = true ∧ t.tempo.marks = []) ∧
     (¬(s.tempo.base + s.barLen ≤ s.beat ∧
         ∀ q ∈ s.members, awaited q → ∃ m ∈ s.tempo.marks, m.pkg = q ∧ m.stamp + s.tempo.guardEff ≤ s.tempo.now) →
       exec .barStart s = .next s)))) ∧
  (∀ (pkg : PkgId) (bar stamp : Word) (s : State), s.wf = true → s.on R.TEMPO_CTL_EN = true → s.tempo.barOn = true →
     pkg.toNat ≠ s.pkgId →
     (mget 0 s.tempo.seenMarks (pkg.toNat * 2 ^ 64 + bar.toNat) = 1 → exec (.barDone pkg bar stamp) s = .next s) ∧
     (mget 0 s.tempo.seenMarks (pkg.toNat * 2 ^ 64 + bar.toNat) ≠ 1 → bar.toNat = s.bar → s.members.contains pkg.toNat = true →
       ∃ t, exec (.barDone pkg bar stamp) s = .next t ∧ t.tempo.marks = s.tempo.marks ++ [⟨pkg.toNat, stamp.toNat⟩] ∧
         t.bar = s.bar ∧ t = { s with regs := t.regs, tempo := t.tempo, log := t.log }) ∧
     (mget 0 s.tempo.seenMarks (pkg.toNat * 2 ^ 64 + bar.toNat) ≠ 1 → bar.toNat ≠ s.bar →
       (s.rank ≠ none ∨ bar.toNat < s.bar) →
       ∃ t, exec (.barDone pkg bar stamp) s = .next t ∧ t.tempo.marks = s.tempo.marks ∧ s.raised t E.TEMPO_BARRIER_LATE ∧
         s.regsBut t (flagKeys E.TEMPO_BARRIER_LATE))) ∧
  (∀ s : State, s.wf = true → s.tempo.barOn = true → s.missing ≠ [] →
     s.tempo.base + s.barLen + s.tempo.tmoEff ≤ s.beat →
     (s.tempo.tmoDone = true ∨ s.barLen = 0 → exec .barrierTimeout s = .next s) ∧
     (s.tempo.tmoDone = false → s.barLen ≠ 0 →
       ∃ t, exec .barrierTimeout s = .next t ∧ s.raised t E.TEMPO_BARRIER_TMO ∧
         t.rd R.TEMPO_BAR_MISS_LOW_PKG = minOr 0 s.missing % 2 ^ 12 ∧
         t.rd R.TEMPO_BAR_MISS_COUNT = s.missing.length % 2 ^ 12 ∧ t.bar = s.bar ∧ t.tempo.marks = s.tempo.marks ∧
         exec .barrierTimeout t = .next t))

/-- No command issues unless its Set is RUNNING with no repair step, before its position, without its token or without
its shape register (R76, R101, R178): every row of the table that issues a Set command then changes nothing. The
closed gate holds every command but one of a zero count, and an open one holds what its die's budget does not fit:
nothing issues, and only what the gate was asked for is remembered (R76, R113, R409). -/
def Obligations.IssueWaits : Prop :=
  (∀ (set : SetId) (x : Ecc) (s : State),
     (let c := s.cmdAt (s.rd R.SCHED_STREAM_ADDR set + 32 * s.rd R.SCHED_STATUS_ISSUE_IDX set)
      s.setState set ≠ 2 ∨ (s.st set).repair ≠ [] ∨
       (s.timed set = true ∧ s.tempo.now < (s.st set).start + c.pos) ∨
       (∃ b, c.wsb = some b ∧ (s.rd R.SCHED_SB_SB set).testBit b = false) ∨
       (∃ k, c.sh = some k ∧ (s.st set).loaded.testBit k = false)) →
     ∀ c ∈ [Instr.fetch set, .mpass set x, .check set x, .store set x, .handoff set x, .fcopy set x, .wait set, .sread set,
       .swrite set x, .endBar set, .copy set x, .add set x, .sub set x, .mul set x, .fma set x, .max set x, .min set x,
       .exp set x, .recip set x, .rsqrt set x, .sqrt set x, .silu set x, .rowmax set x, .rowsum set x, .cvtBf16 set x,
       .cvtFp32 set x, .quant set x, .dequant set x, .amax set x, .qdiverge set x, .rot set x, .irot set x, .lsrnd set x,
       .lspack set x, .lsadd set x, .lsaddrnd set x, .lsclear set x], exec c s = .next s) ∧
  (∀ (set : SetId) (x : Ecc) (s : State) (g : Go) (e : Instr × (Cmd → Bool)),
     e ∈ [(Instr.fetch set, isOp 1), (.mpass set x, isOp 2), (.check set x, isOp 4), (.store set x, isOp 5),
       (.handoff set x, isOp 6), (.fcopy set x, isOp 7), (.wait set, isOp 8), (.sread set, isOp 9), (.swrite set x, isOp 10),
       (.endBar set, isOp 0x3F), (.copy set x, isVop 0x00 0x00), (.quant set x, isVop 0x20 0x29)] →
     s.ready set e.2 = some g → g.bad = false → g.idle = false →
     (s.gate.closed = true ∨ ((s.charge set g.c g.n).2 ≠ 0 ∧
       s.gate.opens (set / 12) (s.sharesOf set (s.charge set g.c g.n).1 (s.charge set g.c g.n).2) = false)) →
     ∃ t, exec e.1 s = .next t ∧ t.gate.forecast = s.gate.forecast ∧ t = { s with gate := t.gate })

/-- A malformed command aborts its group at its issue: ABORT and MALFORMED are raised, nothing of the Set stays in
flight, the issue point returns to the commit point, the group is remembered for its second run, and the Set goes on
running (R13, R85, R86): shown for the commands that move data between tiles and memory. A command with a variable
count of 0 goes in flight and completes with no effect of its own, whatever the gate; an MPASS is counted in PASSES
(R113, R129). -/
def Obligations.IssueCorners : Prop :=
  (∀ (set : SetId) (x : Ecc) (s : State) (g : Go) (e : Instr × Nat),
     e ∈ [(Instr.fetch set, 1), (.mpass set x, 2), (.check set x, 4), (.store set x, 5), (.handoff set x, 6),
       (.fcopy set x, 7), (.wait set, 8), (.sread set, 9), (.swrite set x, 10), (.endBar set, 0x3F)] →
     s.wf = true → s.ready set (isOp e.2) = some g → g.bad = true → g.second = false →
     ∃ t, exec e.1 s = .next t ∧ s.raised t E.SCHED_ABORT set ∧ s.raised t E.SCHED_MALFORMED set ∧
       (t.st set).flights = [] ∧ t.rd R.SCHED_STATUS_ISSUE_IDX set = s.rd R.SCHED_STATUS_COMMIT_IDX set ∧
       g.grp ∈ (t.st set).aborted ∧ t.setState set = 2 ∧ s.sameMem t ∧ s.sameTiles t) ∧
  (∀ (set : SetId) (x : Ecc) (s : State) (g : Go) (e : Instr × (Cmd → Bool)),
     e ∈ [(Instr.fetch set, isOp 1), (.mpass set x, isOp 2), (.store set x, isOp 5), (.handoff set x, isOp 6),
       (.copy set x, isVop 0x00 0x00), (.add set x, isVop 0x01 0x01), (.sub set x, isVop 0x02 0x02),
       (.mul set x, isVop 0x03 0x03), (.fma set x, isVop 0x04 0x04), (.max set x, isVop 0x05 0x05), (.min set x, isVop 0x06 0x06),
       (.exp set x, isVop 0x08 0x08), (.recip set x, isVop 0x09 0x09), (.rsqrt set x, isVop 0x0A 0x0A),
       (.sqrt set x, isVop 0x0B 0x0B), (.silu set x, isVop 0x0C 0x0C), (.rowmax set x, isVop 0x10 0x10),
       (.rowsum set x, isVop 0x11 0x11), (.cvtBf16 set x, isVop 0x18 0x18), (.cvtFp32 set x, isVop 0x19 0x19),
       (.quant set x, isVop 0x20 0x29), (.dequant set x, isVop 0x2A 0x2A), (.amax set x, isVop 0x2B 0x2B),
       (.qdiverge set x, isVop 0x2F 0x2F), (.rot set x, isVop 0x30 0x32), (.irot set x, isVop 0x34 0x36),
       (.lsrnd set x, isVop 0x38 0x38), (.lspack set x, isVop 0x39 0x39), (.lsadd set x, isVop 0x3A 0x3A),
       (.lsaddrnd set x, isVop 0x3B 0x3B), (.lsclear set x, isVop 0x3C 0x3C)] →
     s.ready set e.2 = some g → g.bad = false → g.n = 0 →
     ∃ t, exec e.1 s = .next t ∧
       s.wentIn t g .plain (if e.1 = .mpass set x then (g.c.tiles set).map (.pass ·) else []) [])

/-- FETCH of raw rows (OBJ 2): when the Set may read them, every row of every tile comes from its own stretch of
memory, tile by tile, and each row is recorded for repair (R164, R177). STORE holds one write of each row of each tile
until the commit, in tile order, and writes nothing before (R75, R82). HANDOFF copies COLS columns and the tag of each
row of its lowest tile to the destination tile of its own partition; it touches no memory (R82, R120). FCOPY goes in
flight toward the package it names, or the holder of the rank it names, and waits for one answer for each piece of its
rows at the destination's 4 KiB boundaries (R96, R335); a rank that nobody holds aborts its group. -/
def Obligations.DataMoves : Prop :=
  (∀ (set : SetId) (s : State) (g : Go), s.issues set (isOp 1) g → g.n ≠ 0 → bits g.c.w3 39 32 = 2 →
     (s.ownerOf set).isSome = true →
     (∀ i < (g.c.tiles set).length * g.n, let a := bits g.c.w1 47 0 + i * bits g.c.w3 31 0
       inView a = false ∧ s.mayRead (s.partOf set) a (bits g.c.w3 31 0) = true) →
     ∃ t, exec (.fetch set) s = .next t ∧
       s.wentIn t g .plain ((g.c.tiles set).zipIdx.flatMap (fun (e : Nat × Nat) => (List.range g.n).map (fun k =>
         .sram (tileKey e.1 false (bits g.c.w2 31 0 + k * bits g.c.w3 31 0))
           (s.devMarked (bits g.c.w1 47 0 + (e.2 * g.n + k) * bits g.c.w3 31 0) (bits g.c.w3 31 0))))) [] ∧
       (t.st set).recs.length = (s.st set).recs.length + (g.c.tiles set).length * g.n) ∧
  (∀ (set : SetId) (x : Ecc) (s : State) (g : Go), s.issues set (isOp 5) g → g.n ≠ 0 → x.uncorr = 0 →
     (s.ownerOf set).isSome = true →
     (∀ i < (g.c.tiles set).length * g.n, let a := bits g.c.w1 47 0 + i * bits g.c.w3 31 0
       inView a = false ∧ s.inPart (s.partOf set) a (bits g.c.w3 31 0) = true) →
     ∃ t, exec (.store set x) s = .next t ∧
       s.wentIn t g .plain [] ((g.c.tiles set).zipIdx.flatMap (fun (e : Nat × Nat) => (List.range g.n).map (fun k =>
         .mem (bits g.c.w1 47 0 + (e.2 * g.n + k) * bits g.c.w3 31 0)
           (s.sram e.1 (g.c.w2.testBit 32) (bits g.c.w2 31 0 + k * bits g.c.w3 31 0) (bits g.c.w3 31 0)))))) ∧
  (∀ (set : SetId) (x : Ecc) (s : State) (g : Go) (p : Nat), s.issues set (isOp 6) g → g.n ≠ 0 → x.uncorr = 0 →
     s.ownerOf set = some p → (s.rd R.PART_SETS_SETS p).testBit (bits g.c.w1 8 0 / 8) = true →
     ∃ t, exec (.handoff set x) s = .next t ∧
       s.wentIn t g .plain ((List.range g.n).flatMap (fun r =>
         [.sram (tileKey (bits g.c.w1 8 0) true (bits g.c.w2 63 32 + 2048 * r))
             (s.sram (g.c.tile0 set) true (bits g.c.w2 31 0 + 2048 * r) (16 * bits g.c.w3 15 0)),
           .tag (tagKey (bits g.c.w1 8 0) ((bits g.c.w2 63 32 + 2048 * r) / 2048))
             (s.tag (g.c.tile0 set) ((bits g.c.w2 31 0 + 2048 * r) / 2048))])) []) ∧
  (∀ (set : SetId) (x : Ecc) (s : State) (g : Go), s.wf = true → s.issues set (isOp 7) g → x.uncorr = 0 →
     (∀ d, s.fcopyDst g.c = some d → g.n ≠ 0 → g.c.w3.testBit 63 = true →
       ∃ t f, exec (.fcopy set x) s = .next t ∧ s.wentIn t g (.fcopy f) [] [] ∧ f.dst = d ∧
         f.part = bits g.c.w1 16 13 ∧ f.key = bits g.c.w1 32 17 ∧ f.off = bits g.c.w2 39 0 ∧ f.lost = false ∧
         f.left.length = sumOf ((List.range g.n).map (fun i =>
           (pieces (f.off + i * fcLen g.c) (fcLen g.c)).length))) ∧
     (s.fcopyDst g.c = none →
       ∃ t, exec (.fcopy set x) s = .next t ∧ s.raised t E.SCHED_ABORT set ∧ (t.st set).flights = [] ∧ s.sameMem t))

/-- CHECK writes nothing: an object that verifies lets it complete, a faulted one aborts its group with ABORT raised
(R172, R175). WAIT holds its counter, its target and its deadline: POS + DEADLINE from the bar's first beat, BAR_LEN
where DEADLINE is 0; in an untimed image DEADLINE ticks from now, none where it is 0 (R81). SREAD loads VALUE and MAX
of its cell, VALUE as 0 when the cell is stale (R90). SWRITE holds the cell's new value until commit, unless it lies
above MAX (R89). END drains the Set (R101). -/
def Obligations.ChecksAndCells : Prop :=
  (∀ (set : SetId) (x : Ecc) (s : State) (g : Go), s.wf = true → s.issues set (isOp 4) g → x.uncorr = 0 →
     ((∀ tile ∈ g.c.tiles set, (viewObj (s.sram tile false (bits g.c.w1 31 0) (bits g.c.w2 31 0))
         ⟨none, none, none, false, some (bits g.c.w2 31 0), true, bits g.c.w3 31 0⟩).faults = []) →
       ∃ t, exec (.check set x) s = .next t ∧ s.wentIn t g .plain [] []) ∧
     ((∃ tile ∈ g.c.tiles set, (viewObj (s.sram tile false (bits g.c.w1 31 0) (bits g.c.w2 31 0))
         ⟨none, none, none, false, some (bits g.c.w2 31 0), true, bits g.c.w3 31 0⟩).faults ≠ []) →
       ∃ t, exec (.check set x) s = .next t ∧ s.raised t E.SCHED_ABORT set ∧ (t.st set).flights = [] ∧
         t.setState set = 2 ∧ s.sameMem t ∧ s.sameTiles t)) ∧
  (∀ (set : SetId) (x : Ecc) (s : State) (g : Go), s.wf = true → x.uncorr = 0 →
     (s.issues set (isOp 8) g →
       ∃ t, exec (.wait set) s = .next t ∧
         s.wentIn t g (.wait (bits g.c.w1 4 0) (bits g.c.w1 63 32)
           (if s.timed set = true then some ((s.st set).start +
               (if bits g.c.w2 31 0 = 0 then s.rd R.TEMPO_BAR_CFG_BAR_LEN * 1024 else g.c.pos + bits g.c.w2 31 0))
             else if bits g.c.w2 31 0 = 0 then none else some (s.tempo.now + bits g.c.w2 31 0))) [] []) ∧
     (s.issues set (isOp 9) g → inView (bits g.c.w1 47 0) = false → (s.ownerOf set).isSome = true →
       s.mayRead (s.partOf set) (bits g.c.w1 47 0) 64 = true →
       ∃ t, exec (.sread set) s = .next t ∧
         s.wentIn t g .plain [.shape (bits g.c.w2 2 0)
           (if s.cellStale (bits g.c.w1 47 0) then 0 else bits (s.devWord (bits g.c.w1 47 0)) 31 0)
           (bits (s.devWord (bits g.c.w1 47 0)) 63 32)] [] ∧
         (s.cellStale (bits g.c.w1 47 0) = true → s.raised t E.SCHED_SHAPE_STALE set)) ∧
     (s.issues set (isOp 10) g → g.c.w2.testBit 63 = false → inView (bits g.c.w1 47 0) = false →
       (s.ownerOf set).isSome = true → s.inPart (s.partOf set) (bits g.c.w1 47 0) 64 = true →
       (bits g.c.w2 31 0 ≤ s.devNat (bits g.c.w1 47 0 + 4) 4 →
         ∃ t, exec (.swrite set x) s = .next t ∧
           s.wentIn t g .plain [] [.cell (bits g.c.w1 47 0) (bits g.c.w2 31 0) false]) ∧
       (s.devNat (bits g.c.w1 47 0 + 4) 4 < bits g.c.w2 31 0 →
         ∃ t, exec (.swrite set x) s = .next t ∧ s.raised t E.SCHED_SHAPE_BOUND set ∧ s.raised t E.SCHED_ABORT set ∧
           (t.st set).flights = [] ∧ s.sameMem t)) ∧
     (s.issues set (isOp 0x3F) g →
       ∃ t, exec (.endBar set) s = .next t ∧ s.wentIn t g .endOfBar [] [] ∧ t.setState set = 3))

/-- MPASS with ACC_MODE 0 on operands without faults: every row of every tile is written to the accumulator store at
ACC with VALID set, each of its 128 columns the exact sum of its block products modulo 2^128 (R110, R115 to R118). -/
def Obligations.MpassLongSums : Prop :=
  ∀ (set : SetId) (x : Ecc) (s : State) (g : Go), s.issues set (isOp 2) g → g.n ≠ 0 → x.uncorr = 0 →
    g.c.accMode = 0 →
    (∀ tile ∈ g.c.tiles set, (s.passEff tile g.c g.n false false).causes = []) →
    ∃ t work, exec (.mpass set x) s = .next t ∧ s.wentIn t g .plain work [] ∧
      ∀ tile ∈ g.c.tiles set, ∀ r < g.n, ∃ row : LsRow,
        Wk.sram (tileKey tile true (g.c.accOff.off + 2048 * r)) (elemOut 16 row.cols) ∈ work ∧
        Wk.tag (tagKey tile ((g.c.accOff.off + 2048 * r) / 2048)) row.tag ∈ work ∧ tagValid row.tag = true ∧
        row.cols.length = 128 ∧
        ∀ j < 128, (row.cols[j]?).map (·.1) = some (unsigned 128 (dotSum
          (columnBlocks g.c ((List.range g.c.segs).map (s.weightObj tile g.c)) g.c.segs j)
          (rowBlocks g.c (s.actObj tile g.c g.n) r)).1)

/-- ADD, SUB, MUL, MAX and MIN write the elementwise result of their two sources on every tile; a marked element of
either source gives the canonical NaN with the mark (R123, R124, R148). COPY, EXP, RECIP, RSQRT, SQRT, SILU and
CVT_FP32 write the elementwise result of their source on every tile (R123, R124, R148). FMA adds the product of its
sources to DST with one rounding; CVT_BF16 rounds to half the width; ROWMAX and ROWSUM write one element, the
reduction of the row in the fixed tree (R123, R124). A value that the manual does not state (R123) is the free value
of log 11. -/
def Obligations.VopElementwise : Prop :=
  (∀ (set : SetId) (x : Ecc) (s : State) (g : Go) (e : Instr × Nat × (Nat → Nat → Nat)),
     e ∈ [(Instr.add set x, 0x01, fAdd), (.sub set x, 0x02, fSub), (.mul set x, 0x03, fMul), (.max set x, 0x05, fMax),
       (.min set x, 0x06, fMin)] →
     s.issues set (isVop e.2.1 e.2.1) g → g.n ≠ 0 → x.uncorr = 0 →
     ∃ (t : State) (out : Nat → List MVal), exec e.1 s = .next t ∧
       s.wentIn t g .plain ((g.c.tiles set).map (fun tile => .sram (tileKey tile g.c.dst.acc g.c.dst.off)
         (elemOut 4 (out tile)))) [] ∧
       ∀ tile, (out tile).length = g.n ∧ ∀ i < g.n, ∃ a b, (s.elems tile g.c.src0 4 g.n false)[i]? = some a ∧
         (s.elems tile g.c.src1 4 g.n false)[i]? = some b ∧
         (out tile)[i]? = some (if a.2 || b.2 then (qnan, true) else (e.2.2 a.1 b.1, false))) ∧
  (∀ (set : SetId) (x : Ecc) (s : State) (g : Go) (e : Instr × Nat × Nat × (Nat → Nat)),
     e ∈ [(Instr.copy set x, 0x00, 4, id), (.exp set x, 0x08, 4, fExp), (.recip set x, 0x09, 4, fRecip),
       (.rsqrt set x, 0x0A, 4, fRsqrt), (.sqrt set x, 0x0B, 4, fSqrt), (.silu set x, 0x0C, 4, fSilu),
       (.cvtFp32 set x, 0x19, 2, fromBf16)] →
     s.issues set (isVop e.2.1 e.2.1) g → g.n ≠ 0 → x.uncorr = 0 →
     ∃ (t : State) (out : Nat → List MVal), exec e.1 s = .next t ∧
       s.wentIn t g .plain ((g.c.tiles set).map (fun tile => .sram (tileKey tile g.c.dst.acc g.c.dst.off)
         (elemOut 4 (out tile)))) [] ∧
       ∀ tile, (out tile).length = g.n ∧ ∀ i < g.n, ∃ a, (s.elems tile g.c.src0 e.2.2.1 g.n false)[i]? = some a ∧
         (out tile)[i]? = some (if a.2 then (qnan, true) else (e.2.2.2 a.1, false))) ∧
  (∀ (set : SetId) (x : Ecc) (s : State) (g : Go), x.uncorr = 0 → g.n ≠ 0 →
     (s.issues set (isVop 0x04 0x04) g →
       ∃ (t : State) (out : Nat → List MVal), exec (.fma set x) s = .next t ∧
         s.wentIn t g .plain ((g.c.tiles set).map (fun tile => .sram (tileKey tile g.c.dst.acc g.c.dst.off)
           (elemOut 4 (out tile)))) [] ∧
         ∀ tile, (out tile).length = g.n ∧ ∀ i < g.n, ∃ a b d, (s.elems tile g.c.src0 4 g.n false)[i]? = some a ∧
           (s.elems tile g.c.src1 4 g.n false)[i]? = some b ∧ (s.elems tile g.c.dst 4 g.n false)[i]? = some d ∧
           (out tile)[i]? = some (if a.2 || b.2 || d.2 then (qnan, true) else (fFma d.1 a.1 b.1, false))) ∧
     (s.issues set (isVop 0x18 0x18) g →
       ∃ (t : State) (out : Nat → List MVal), exec (.cvtBf16 set x) s = .next t ∧
         s.wentIn t g .plain ((g.c.tiles set).map (fun tile => .sram (tileKey tile g.c.dst.acc g.c.dst.off)
           (elemOut 2 (out tile)))) [] ∧
         ∀ tile, (out tile).length = g.n ∧ ∀ i < g.n, ∃ a, (s.elems tile g.c.src0 4 g.n false)[i]? = some a ∧
           (out tile)[i]? = some (if a.2 then (0x7FC0, true) else (toBf16 a.1, false))) ∧
     (∀ e ∈ [(Instr.rowmax set x, 0x10, fMax), (Instr.rowsum set x, 0x11, fAdd)], s.issues set (isVop e.2.1 e.2.1) g →
       ∃ t, exec e.1 s = .next t ∧
         s.wentIn t g .plain ((g.c.tiles set).map (fun tile =>
           let a := s.elems tile g.c.src0 4 g.n false
           .sram (tileKey tile g.c.dst.acc g.c.dst.off) (elemOut 4
             [if a.any (·.2) then (qnan, true) else (treeReduce e.2.2 (a.map (·.1)), false)]))) []))

/-- ROT and IROT rotate every chunk of 128, 256 or 512 elements with the seed that the command selects in the current
epoch region; a chunk with a marked element is poisoned whole, and the others are not (R126, R127, R149). -/
def Obligations.VopRotations : Prop :=
  ∀ (set : SetId) (x : Ecc) (s : State) (g : Go) (e : Instr × Nat × Bool),
    e ∈ [(Instr.rot set x, 0x30, false), (.irot set x, 0x34, true)] → s.issues set (isVop e.2.1 (e.2.1 + 2)) g → g.n ≠ 0 →
    x.uncorr = 0 →
    ∃ (t : State) (out : Nat → List MVal), exec e.1 s = .next t ∧
      s.wentIn t g .plain ((g.c.tiles set).map (fun tile => .sram (tileKey tile g.c.dst.acc g.c.dst.off)
        (elemOut 4 (out tile)))) [] ∧
      ∀ tile, ∀ i, let k := 7 + g.c.vfn % 4
        let ch := ((s.elems tile g.c.src0 4 g.n false).drop (i * 2 ^ k)).take (2 ^ k)
        i < g.n / 2 ^ k → (ch.any (·.2) = true → ((out tile).drop (i * 2 ^ k)).take (2 ^ k) = List.replicate (2 ^ k) (qnan, true)) ∧
          (ch.any (·.2) = false → ((out tile).drop (i * 2 ^ k)).take (2 ^ k) =
            (rotChunk k (s.devWord (s.epochBase + 0x800 + 8 * bits g.c.w3 23 16)) e.2.2 (ch.map (·.1))).map (·, false))

/-- Long-sum rows (R117, R119, R121, R124): LSADD of rows whose tags are VALID with one anchor writes rows of 128
columns, each the sum modulo 2^128, VALID, with that anchor and the OR of both POISON bits; LSADDRND rounds each such
sum to FP32, LSRND each column of a VALID row, a poisoned one giving the marked canonical NaN; LSPACK writes each row
as it is; LSCLEAR takes VALID off and leaves the columns. -/
def Obligations.VopLongSums : Prop :=
  ∀ (set : SetId) (x : Ecc) (s : State) (g : Go), x.uncorr = 0 → g.n ≠ 0 →
    let a := fun tile r => s.lsRow tile g.c.src0 r false
    let b := fun tile r => s.lsRow tile g.c.src1 r false
    let good := fun tile r => tagValid (a tile r).tag = true ∧ tagValid (b tile r).tag = true ∧
      tagAnchor (a tile r).tag = tagAnchor (b tile r).tag
    (s.issues set (isVop 0x3A 0x3A) g → (∀ tile ∈ g.c.tiles set, ∀ r < g.n, good tile r) →
      ∃ t work, exec (.lsadd set x) s = .next t ∧ s.wentIn t g .plain work [] ∧
        ∀ tile ∈ g.c.tiles set, ∀ r < g.n, ∃ row : LsRow, (∀ w ∈ lsWrite tile g.c.dst r row, w ∈ work) ∧
          tagValid row.tag = true ∧ tagAnchor row.tag = tagAnchor (a tile r).tag ∧
          tagPoison row.tag = (tagPoison (a tile r).tag || tagPoison (b tile r).tag) ∧ row.cols.length = 128 ∧
          ∀ j < 128, ∃ p q, (a tile r).cols[j]? = some p ∧ (b tile r).cols[j]? = some q ∧
            (row.cols[j]?).map (·.1) = some ((p.1 + q.1) % 2 ^ 128)) ∧
    (s.issues set (isVop 0x3B 0x3B) g → (∀ tile ∈ g.c.tiles set, ∀ r < g.n, good tile r) →
      ∃ (t : State) (out : Nat → List MVal), exec (.lsaddrnd set x) s = .next t ∧
        s.wentIn t g .plain ((g.c.tiles set).map (fun tile => .sram (tileKey tile g.c.dst.acc g.c.dst.off)
          (elemOut 4 (out tile)))) [] ∧
        ∀ tile ∈ g.c.tiles set, ∀ r < g.n, ∀ j < 128, ∃ p q, (a tile r).cols[j]? = some p ∧ (b tile r).cols[j]? = some q ∧
          (out tile)[128 * r + j]? = some (
            if p.2 || q.2 || tagPoison (a tile r).tag || tagPoison (b tile r).tag then (qnan, true)
            else (lsRound (tagAnchor (a tile r).tag) ((p.1 + q.1) % 2 ^ 128), false))) ∧
    (s.issues set (isVop 0x38 0x38) g → (∀ tile ∈ g.c.tiles set, ∀ r < g.n, tagValid (a tile r).tag = true) →
      ∃ (t : State) (out : Nat → List MVal), exec (.lsrnd set x) s = .next t ∧
        s.wentIn t g .plain ((g.c.tiles set).map (fun tile => .sram (tileKey tile g.c.dst.acc g.c.dst.off)
          (elemOut 4 (out tile)))) [] ∧
        ∀ tile ∈ g.c.tiles set, ∀ r < g.n, ∀ j < 128, ∃ p, (a tile r).cols[j]? = some p ∧
          (out tile)[128 * r + j]? = some (if p.2 || tagPoison (a tile r).tag then (qnan, true)
            else (lsRound (tagAnchor (a tile r).tag) p.1, false))) ∧
    (s.issues set (isVop 0x39 0x39) g →
      ∃ t work, exec (.lspack set x) s = .next t ∧ s.wentIn t g .plain work [] ∧
        ∀ tile ∈ g.c.tiles set, ∀ r < g.n, ∀ w ∈ lsWrite tile g.c.dst r (a tile r), w ∈ work) ∧
    (s.issues set (isVop 0x3C 0x3C) g →
      ∃ t work, exec (.lsclear set x) s = .next t ∧ s.wentIn t g .plain work [] ∧
        (∀ tile ∈ g.c.tiles set, ∀ r < g.n,
          (g.c.dst.acc = true → ∃ v, Wk.tag (tagKey tile (g.c.dst.off / 2048 + r)) v ∈ work ∧ tagValid v = false) ∧
          (g.c.dst.acc = false → ∃ d, Wk.sram (tileKey tile false (g.c.dst.off + 2064 * r)) d ∈ work ∧ d.length = 8 ∧
            tagValid (ofLE (d.map (·.1))) = false)) ∧
        (g.c.dst.acc = true → ∀ w ∈ work, ∃ tile ∈ g.c.tiles set, ∃ r < g.n, ∃ v, w = .tag (tagKey tile (g.c.dst.off / 2048 + r)) v ∧
          tagValid v = false ∧ tagPoison v = tagPoison (s.tag tile (g.c.dst.off / 2048 + r))))

/-- QUANT, with a context whose STAT address is 0 or in the partition's memory, writes an object of the format that
its VFN names, with the anchor of M, as long as the layout gives, whose header's CRC verifies, its counts into the
context, and holds their adds to STAT until the commit; DEQUANT of an object without faults one FP32 value for each
element; AMAX only M_OUT; QDIVERGE its record: D, MAXABS, n, VALID and POISONED (R135, R143, R144, R145, R159, R160).
-/
def Obligations.VopQuantisers : Prop :=
  ∀ (set : SetId) (x : Ecc) (s : State) (g : Go), x.uncorr = 0 → g.n ≠ 0 →
    (s.issues set (isVop 0x20 0x29) g →
      (∀ tile ∈ g.c.tiles set, let stat := bits (ofLE (((s.sram tile false (g.c.src1.off) 64).drop 40).take 8 |>.map (·.1))) 47 0
        stat = 0 ∨ s.inPart (s.partOf set) stat 64 = true) →
      ∃ t work held, exec (.quant set x) s = .next t ∧ s.wentIn t g .plain work held ∧
        ∀ tile ∈ g.c.tiles set, ∃ (bs : List Byte) (anchor : Int),
          let ctx := s.sram tile false g.c.src1.off 64
          let w0 := ofLE ((ctx.take 8).map (·.1))
          let stat := bits (ofLE (((ctx.drop 40).take 8).map (·.1))) 47 0
          let a := s.elems tile g.c.src0 4 g.n false
          let m := if w0.testBit 32 then fAbs (bits w0 31 0) else maxFinite (a.map (·.1))
          let qs := (List.range (g.n / 32)).map (fun i =>
            quantBlock (g.c.vfn - 0x20) anchor (w0.testBit 32 && (ctx.take 8).any (·.2)) ((a.drop (32 * i)).take 32))
          let cnt := [g.n / 32, countBlk (·.zero) qs, countBlk (·.flushed) qs, countBlk (·.poisoned) qs]
          Wk.sram (tileKey tile g.c.dst.acc g.c.dst.off) (clean bs) ∈ work ∧
          bs = quantObject (g.c.vfn - 0x20) anchor qs ∧ (isFin m = true → anchor = anchorFor (g.c.vfn - 0x20) m) ∧
          bs.length = quantLen (g.c.vfn - 0x20) (32 * (g.n / 32)) ∧
          ofLE (bs.take 4) = objCrc ((List.replicate 4 (0 : Byte)) ++ bs.drop 4) ∧
          Wk.sram (tileKey tile false g.c.src1.off + 24) (clean (cnt.flatMap (toLE 4))) ∈ work ∧
          (stat ≠ 0 → Held.stat stat cnt ∈ held)) ∧
    (s.issues set (isVop 0x2A 0x2A) g →
      let v := fun (tile : Nat) => viewObj (s.sram tile g.c.src0.acc g.c.src0.off (dequantRegion g.n))
        ⟨none, none, some (g.n / 32), true, some (dequantRegion g.n), false, 0⟩
      (∀ tile ∈ g.c.tiles set, (v tile).faults = []) →
      ∃ t, exec (.dequant set x) s = .next t ∧
        s.wentIn t g .plain ((g.c.tiles set).map (fun tile =>
          .sram (tileKey tile g.c.dst.acc g.c.dst.off) (elemOut 4 ((List.range (g.n / 32)).flatMap (fun b =>
            match (v tile).blk (s.sram tile g.c.src0.acc g.c.src0.off (dequantRegion g.n)) b with
            | .zero => List.replicate 32 (0, false)
            | .poison => List.replicate 32 (qnan, true)
            | .vals e t es => es.map (fun y => (elemF32 (v tile).hdr.anchor e t y, false))))))) []) ∧
    (s.issues set (isVop 0x2B 0x2B) g →
      ∃ t, exec (.amax set x) s = .next t ∧
        s.wentIn t g .plain ((g.c.tiles set).map (fun tile =>
          let a := s.elems tile g.c.src0 4 g.n false
          .sram (tileKey tile false g.c.src1.off + 16) (elemOut 4
            [if a.any (·.2) then (qnan, true) else (maxFinite (a.map (·.1)), false)]))) []) ∧
    (s.issues set (isVop 0x2F 0x2F) g →
      ∃ t, exec (.qdiverge set x) s = .next t ∧
        s.wentIn t g .plain ((g.c.tiles set).map (fun tile =>
          let a := s.elems tile g.c.src0 4 g.n false
          let b := s.elems tile g.c.src1 4 g.n false
          let d := a.zipWith (fun x y => fSub x.1 y.1) b
          let num := treeReduce fAdd (d.map (fun x => fMul x x))
          let den := treeReduce fAdd (b.map (fun y => fMul y.1 y.1))
          let dv := if isNan num || isNan den then qnan
            else if fAbs den = 0 then (if fAbs num = 0 then 0 else 0x7F800000) else fDiv num den
          let p := a.any (·.2) || b.any (·.2)
          .sram (tileKey tile g.c.dst.acc g.c.dst.off) (elemOut 4
            [(if p then qnan else dv, p), (if p then qnan else treeReduce fMax (d.map fAbs), p), (g.n % 2 ^ 32, p),
              (1 + 2 * b2n p, p)]))) [])

/-- A completed command writes its working state, sets its token and touches no device memory; a WAIT whose counter is
below its target, and an FCOPY with answers missing, do not complete (R79, R81, R82, R335). A WAIT that reaches its
deadline below its target completes, raises ARR_TIMEOUT and puts its Set into poison; before the deadline the event
does nothing (R81). -/
def Obligations.Completions : Prop :=
  (∀ (set : SetId) (idx : Nat) (s : State) (f : Flight), s.wf = true → s.flightAt set idx = some f →
     (∀ key d, f.kind = .plain → f.work = [.sram key d] →
       ∃ t, exec (.commandComplete set idx) s = .next t ∧ s.sameMem t ∧
         (∀ i (h : i < d.length), mget 0 t.tileMem (key + i) = (d[i]'h).1) ∧
         (∀ k, (k < key ∨ key + d.length ≤ k) → mget 0 t.tileMem k = mget 0 s.tileMem k) ∧
         (∀ b < 64, f.ssb = some b → (t.rd R.SCHED_SB_SB set).testBit b = true) ∧
         t.flightAt set idx = none ∧ t.log = s.log) ∧
     (∀ k v m, f.kind = .plain → f.work = [.shape k v m] →
       ∃ t, exec (.commandComplete set idx) s = .next t ∧ s.sameMem t ∧ s.sameTiles t ∧
         t.rd R.SCHED_SHAPE_MAX set k = m % 2 ^ R.SCHED_SHAPE_MAX.wid ∧ (t.st set).loaded.testBit k = true) ∧
     (∀ arr target d, f.kind = .wait arr target d → s.rd R.SCHED_ARR_COUNT set arr < target →
       exec (.commandComplete set idx) s = .next s) ∧
     (∀ k, f.kind = .fcopy k → k.left ≠ [] → exec (.commandComplete set idx) s = .next s)) ∧
  (∀ (set : SetId) (idx : Nat) (s : State) (f : Flight) (arr target d : Nat), s.wf = true →
     s.flightAt set idx = some f → f.kind = .wait arr target (some d) → f.work = [] → f.ssb = none →
     s.rd R.SCHED_ARR_COUNT set arr < target →
     (d ≤ s.tempo.now →
       ∃ t, exec (.arrTimeout set idx) s = .next t ∧ t.on R.SCHED_STATUS_POISON set = true ∧
         s.raised t E.SCHED_ARR_TIMEOUT set ∧ t.flightAt set idx = none ∧ s.sameMem t ∧ s.sameTiles t) ∧
     (s.tempo.now < d → exec (.arrTimeout set idx) s = .next s))

/-- A commit makes the oldest whole completed group architectural at once: with no CHECK window enabled, memory holds
the bytes of a held STORE and nothing outside them changes; in poison every line written carries the mark; the commit
point moves past the group (R81 to R83). A group not completed does not commit. -/
def Obligations.GroupCommits : Prop :=
  ∀ (set : SetId) (s : State), s.wf = true →
    (s.readyGroup set = none → exec (.groupCommit set) s = .next s) ∧
    (∀ f a d, s.readyGroup set = some [f] → f.kind = .plain → f.held = [.mem a d] → d ≠ [] →
      (s.st set).failed.contains f.grp = false → (∀ w < 16, s.on R.CHECK_WIN_BASE_EN 0 w = false) →
      ∃ t, exec (.groupCommit set) s = .next t ∧ (∀ i (h : i < d.length), t.devByte (a + i) = (d[i]'h).1) ∧
        s.memBut t a d.length ∧ s.sameTiles t ∧
        (s.on R.SCHED_STATUS_POISON set = true → ∀ i < d.length, t.lineMark (a + i) = true) ∧
        t.rd R.SCHED_STATUS_COMMIT_IDX set = (f.idx + 1) % 2 ^ R.SCHED_STATUS_COMMIT_IDX.wid ∧
        (t.st set).flights = (s.st set).flights.drop 1) ∧
    (∀ f, s.readyGroup set = some [f] → f.kind = .plain → f.held = [] → (s.st set).failed.contains f.grp = true →
      ∃ t, exec (.groupCommit set) s = .next t ∧ s.raised t E.SCHED_RERUN_FAIL set) ∧
    (∀ f, s.readyGroup set = some [f] → f.kind = .endOfBar → f.held = [] → s.timed set = true →
      (s.st set).failed.contains f.grp = false →
      ∃ t, exec (.groupCommit set) s = .next t ∧ t.setState set = 4 ∧
        t.rd R.SCHED_DONE_STAMP_STAMP set = s.stamp % 2 ^ R.SCHED_DONE_STAMP_STAMP.wid)

/-- Control of a Set: EN arms an IDLE Set of a locked partition that has a stream, unless holdover has expired, and
has no effect without the lock; EN cleared takes ARMED, DONE and HALTED to IDLE; KILL drops everything uncommitted and
halts; RESUME runs on a bar or pass still in progress and arms otherwise, but not after holdover expiry; a write of
both is a KILL (R56, R85, R101, R103). A KILL of a Set in IDLE changes nothing: the model's choice (log 164). -/
def Obligations.SetControl : Prop :=
  ∀ (set : SetId) (s : State), s.wf = true →
    ((s.ownerOf set).isSome = true → s.setState set = 0 → s.stranded = false → s.rd R.SCHED_STREAM_LEN_LEN set ≠ 0 →
      ∃ t, exec (.schedEnable set true) s = .next t ∧ t.on R.SCHED_CTL_EN set = true ∧ t.setState set = 1 ∧
        t = { s with regs := t.regs }) ∧
    (s.ownerOf set = none → exec (.schedEnable set true) s = .next s) ∧
    (s.setState set = 1 ∨ s.setState set = 4 ∨ s.setState set = 5 →
      ∃ t, exec (.schedEnable set false) s = .next t ∧ t.on R.SCHED_CTL_EN set = false ∧ t.setState set = 0 ∧
        t = { s with regs := t.regs, sets := t.sets }) ∧
    (s.setState set = 2 ∨ s.setState set = 3 →
      ∃ t, exec (.schedKill set) s = .next t ∧ t.setState set = 5 ∧ (t.st set).flights = [] ∧
        t.rd R.SCHED_STATUS_ISSUE_IDX set = s.rd R.SCHED_STATUS_COMMIT_IDX set ∧
        t.rd R.SCHED_SB_SB set = s.rd R.SCHED_SB_SB set &&& (s.st set).sbHeld ∧ (t.st set).sbHeld = (s.st set).sbHeld ∧
        (t.st set).halted = some (s.setState set) ∧ (∀ n, n ≠ set.val → t.st n = s.st n) ∧
        t = { s with regs := t.regs, sets := t.sets }) ∧
    (s.setState set = 0 ∨ s.setState set = 5 → exec (.schedKill set) s = .next s) ∧
    (exec (.schedResume set true) s = exec (.schedKill set) s) ∧
    (s.setState set = 5 → (s.st set).why = .expiry → exec (.schedResume set false) s = .next s) ∧
    (s.setState set = 5 → (s.st set).why ≠ .expiry →
      ∃ t, exec (.schedResume set false) s = .next t ∧
        t.setState set = (if (s.st set).halted ≠ none ∧ (s.timed set = false ∨ (s.st set).haltBar = s.bar) then 2 else 1) ∧
        (t.st set).halted = none ∧ t = { s with regs := t.regs, sets := t.sets })

/-- ADMIT in its turn while its partition serves (R189, R198): a refusal completes with the status decided, counts in
REFUSED and leaves the table and the ledger alone; an acceptance takes the next index, reserves the bars and the KV
decided, counts in ACCEPTED, and returns the new handle and the promise. -/
def Obligations.AdmitDecided : Prop :=
  ∀ (r : Req) (late : Nat) (s : State), s.wf = true → s.seqTurn 0x01 r = true → s.callerOn = true →
    s.preempted r.grp.val = false → s.admitMemory r = true → s.ringOpen r.grp.val r.cq.val →
    let a := s.admitAsk r late (s.takenAt r)
    (∀ st, s.decideAsk a = .error st → st < 256 →
      ∃ t, exec (.admitSeq r late) s = .next t ∧ s.completed t r st ∧ t.caller = s.caller ∧ s.sameMem t ∧
        t.rd R.CALLER_PART_ADMIT_N_REFUSED 0 r.grp.val =
          (s.rd R.CALLER_PART_ADMIT_N_REFUSED 0 r.grp.val + 1) % 2 ^ R.CALLER_PART_ADMIT_N_REFUSED.wid) ∧
    (∀ d i, s.decideAsk a = .ok d → s.nextIndex = some i → s.on R.CALLER_JOURNAL_EN = false →
      (let e := s.admitEntry r i d
       let u := (((s.reserve a i d).bump R.CALLER_PART_ADMIT_N_ACCEPTED 1 0 r.grp.val).takeIndex i).newTable e.part e.kvRoot
         (e.kvRes / 64)
       let v := (u.putSeq i { e with framed := true }).useEntry i
       (v.mapTo e.part e.kvRoot (e.pos - 1) v.bar (min (e.pos + 2 * v.chunkOf e.part) (e.promptLen + 9))).2 = true) →
      ∃ t, exec (.admitSeq r late) s = .next t ∧ s.completed t r 0 ∧
        (t.seq i).state = 1 ∧ (t.seq i).part = r.grp.val ∧ (t.seq i).promptLen = r.f 3 23 0 ∧
        (t.seq i).maxNew = r.f 3 37 24 ∧ (t.seq i).startBar = d.lo ∧ (t.seq i).firstBar = d.first ∧
        (t.seq i).endBar = d.hi ∧ (t.seq i).firstBeat = d.beat * 1024 ∧ (t.seq i).gen = (s.seq i).gen ∧
        s.resvAt a i d.lo d.hi d.kv ∈ t.caller.ledger ∧ (∀ j, j ≠ i → t.seq j = s.seq j) ∧
        t.rd R.CALLER_PART_ADMIT_N_ACCEPTED 0 r.grp.val =
          (s.rd R.CALLER_PART_ADMIT_N_ACCEPTED 0 r.grp.val + 1) % 2 ^ R.CALLER_PART_ADMIT_N_ACCEPTED.wid)

/-- Handles (R184): INDEX in bits 17 to 0, GEN in 33 to 18, PKG in 45 to 34, and 0 above. A request on a sequence
whose handle names another package, an entry of another partition or a FREE entry completes with NOT_FOUND, one whose
GEN differs with STALE; neither has any effect. -/
def Obligations.Handles : Prop :=
  (∀ (i : Nat) (s : State), i < 2 ^ 18 → (s.seq i).gen < 2 ^ 16 → s.pkgId < 2 ^ 12 →
    bits (s.handle i) 17 0 = i ∧ bits (s.handle i) 33 18 = (s.seq i).gen ∧ bits (s.handle i) 45 34 = s.pkgId ∧
    s.handle i < 2 ^ 46) ∧
  ∀ (r : Req) (s : State), s.wf = true → s.callerOn = true → s.ringOpen r.grp.val r.cq.val →
    ∀ e ∈ [(Instr.cancel r, 2), (.pause r, 3), (.resume r, 4), (.extend r, 5)], s.seqTurn e.2 r = true →
      let h := r.handle.toNat
      let x := s.seq (bits h 17 0)
      let unknown := bits h 45 34 ≠ s.pkgId ∨ x.part ≠ r.grp.val ∨ x.state = 0
      ∀ st, (unknown ∧ st = stNotFound ∨ ¬unknown ∧ bits h 33 18 ≠ x.gen ∧ st = stStale) →
        ∃ t, exec e.1 s = .next t ∧ s.completed t r st ∧
          s.regsBut t [fkey R.PCIE_GRP_SQ_CFG_OPEN 0 r.grp 0, fkey R.PCIE_CQ_CFG_TAIL 0 r.grp r.cq,
            fkey R.PCIE_CQ_CFG_PHASE 0 r.grp r.cq] ∧
          t = { s with regs := t.regs, host := t.host, out := t.out }

/-- Requests in their turn on a sequence that the Caller holds in its cache (R184, R188, R189, R200, R202, R203,
R204). CANCEL moves GEN, so the handle is stale, releases the reservation and takes the sequence out of service, at
once or after the move in progress, and completes behind the records emitted before it; PAUSE of a PREFILL or DECODE
sequence makes it PAUSING with its TTL and waits for the move; RESUME re-admits a PAUSED one as RESUMING, and one
taken from the EXPIRY beat on finds it expired; EXTEND adds bars and tokens. -/
def Obligations.SequenceRequests : Prop :=
  ∀ (r : Req) (s : State), s.wf = true → s.callerOn = true → s.on R.CALLER_JOURNAL_EN = false →
    s.ringOpen r.grp.val r.cq.val →
    (∀ i, s.lookup r.grp.val r.handle.toNat = .ok i → s.caller.cached.contains i = true →
      s.caller.waits = [] →
      (s.seqTurn 2 r = true →
        ∃ t, exec (.cancel r) s = .next t ∧ (t.seq i).gen = ((s.seq i).gen + 1) % 65536 ∧
          (if s.moving i = true then (t.seq i).state = (s.seq i).state ∧ (t.seq i).cancelled = true
            else (t.seq i).state = 7 ∨ (t.seq i).state = 0) ∧
          (if s.moving i = true ∨ s.recordWaits r.handle.toNat = true then t.host.reqs = s.host.reqs ∧
              (⟨i, true, r, (s.seq i).generated⟩ : SeqWait) ∈ t.caller.waits
            else s.completed t r 0) ∧
          (∀ v ∈ t.caller.ledger, v.index = i → v.hi ≤ s.unplanned ∧ ((s.seq i).dirty = true ∨ v.kv = 0)) ∧
          ∀ j, j ≠ i → t.seq j = s.seq j) ∧
      (∀ base, s.seqTurn 3 r = true → ((s.seq i).state = 2 ∨ (s.seq i).state = 3) → r.f 3 31 0 ≠ 0 →
        s.shelfRoom (s.seq i).part ((s.kvDesc (s.seq i).part).setLen (s.ptNf (s.seq i).kvRoot)) = some base →
        ∃ t, exec (.pause r) s = .next t ∧ (t.seq i).state = 4 ∧ (t.seq i).ttl = r.f 3 31 0 ∧ t.host.reqs = s.host.reqs ∧
          (⟨i, false, r, 0⟩ : SeqWait) ∈ t.caller.waits ∧ ((s.seq i).lastPlan ≤ s.caller.harvested → t.moving i = true) ∧
          (∀ v ∈ t.caller.ledger, v.index = i → v.hi ≤ s.unplanned) ∧ ∀ j, j ≠ i → t.seq j = s.seq j) ∧
      (∀ u d, s.seqTurn 4 r = true → (s.seq i).state = 5 → s.preempted (s.seq i).part = false →
        s.expiredBy i (s.takenAt r) = false →
        s.caller.shelf.find? (fun x => x.index = i) = some u →
        (let e := s.seq i
         s.decideAsk ⟨e.part, e.cls, e.promptLen - e.pfDone, e.maxNew - e.generated, r.f 3 31 0, s.takenAt r,
           s.barAfter (s.takenAt r + s.moveTicks u.len), some e.kvRes, false⟩ = .ok d) →
        ∃ t, exec (.resume r) s = .next t ∧ s.completed t r 0 ∧ (t.seq i).state = 6 ∧ (t.seq i).startBar = d.lo ∧
          (t.seq i).endBar = d.hi ∧ t.moving i = true ∧ ∀ j, j ≠ i → t.seq j = s.seq j) ∧
      (s.seqTurn 4 r = true → (s.seq i).state = 5 → s.expiredBy i (s.takenAt r) = true → (s.seq i).cancelled = false →
        ∃ t, exec (.resume r) s = .next t ∧ t.host.reqs = s.host.reqs.eraseP (fun o => o.req = r) ∧ (t.seq i).state = 0 ∧
          s.raised t E.CALLER_EXPIRED s.callerInst ∧ ∀ j, j ≠ i → t.seq j = s.seq j) ∧
      (s.seqTurn 5 r = true → ((s.seq i).state = 1 ∨ (s.seq i).state = 2 ∨ (s.seq i).state = 3) →
        r.f 3 13 0 ≠ 0 → r.f 3 13 0 ≤ 8191 → (s.seq i).maxNew + r.f 3 13 0 ≤ 8192 →
        (s.seq i).endBar + r.f 3 13 0 ≤ s.bar + 16384 → s.extendFits (s.seq i) (r.f 3 13 0) = true →
        s.kvUsed (s.seq i).part + (s.kvFor (s.seq i).part ((s.seq i).promptLen + (s.seq i).maxNew + r.f 3 13 0) -
          (s.seq i).kvRes) ≤ s.rd R.CALLER_PART_KV_KV_CAP 0 (s.seq i).part →
        ∃ t, exec (.extend r) s = .next t ∧ s.completed t r 0 ∧ (t.seq i).endBar = (s.seq i).endBar + r.f 3 13 0 ∧
          (t.seq i).maxNew = (s.seq i).maxNew + r.f 3 13 0 ∧ (t.seq i).state = (s.seq i).state ∧
          ∀ j, j ≠ i → t.seq j = s.seq j))

/-- Moves to and from the warm shelf end once the engines have written all of them, and a paused sequence expires
(R188, R203, R204, R308): PAUSED with EXPIRY TTL beats from now; PREFILL or DECODE again where its bar is planned;
CLOSING or FREE where a Cancel waits; FREE with a new GEN and EXPIRED raised at its EXPIRY, unless a Resume was taken
before it. A mirror write unacknowledged for TMO beats is given up with JOURNAL_LOST (R205); a request past its bound
completes with TIMEOUT (R207); a SWITCH waits for the next bar (R209); OPEN opens a partition whose caps pass the
checks, and no other (R211), and the first one since setup finds FREE_TOP at NFRAMES (R237). -/
def Obligations.CallerUpkeep : Prop :=
  (∀ (i : Nat) (s : State), s.wf = true → s.on R.CALLER_JOURNAL_EN = false → s.caller.waits = [] →
     s.caller.cached.contains i = true → (s.seq i).again = false →
     (∀ m, s.caller.moves.find? (fun m => m.index = i && m.toShelf) = some m →
       ((s.runJob (.pause i)).2 = false → exec (.pauseMoveComplete i) s = .next (s.runJob (.pause i)).1) ∧
       ((s.runJob (.pause i)).2 = true →
         ∃ t, exec (.pauseMoveComplete i) s = .next t ∧ t.moving i = false ∧ (∀ j, j ≠ i → t.seq j = s.seq j) ∧
           (if (s.seq i).cancelled = true then (t.seq i).state = 7 ∨ (t.seq i).state = 0
             else (t.seq i).state = 5 ∧ (t.seq i).expiry = s.stamp + (s.seq i).ttl * 1024))) ∧
     (∀ m, s.caller.moves.find? (fun m => m.index = i && !m.toShelf) = some m →
       ((s.runJob (.resume i)).2 = false → exec (.resumeMoveComplete i) s = .next (s.runJob (.resume i)).1) ∧
       ((s.runJob (.resume i)).2 = true →
         ∃ t, exec (.resumeMoveComplete i) s = .next t ∧ t.moving i = false ∧ (∀ j, j ≠ i → t.seq j = s.seq j) ∧
           (if (s.seq i).cancelled = true then (t.seq i).state = 7 ∨ (t.seq i).state = 0
             else (t.seq i).state = (if (s.seq i).startBar < s.caller.planned then
               (if (s.seq i).pfDone < (s.seq i).promptLen then 2 else 3) else (s.seq i).state)))) ∧
     ((s.seq i).state = 5 → s.expiredBy i s.tempo.now = true → s.resumeFirst i = false → (s.seq i).cancelled = false →
       ∃ t, exec (.pauseExpiry i) s = .next t ∧ (t.seq i).state = 0 ∧ (t.seq i).gen = ((s.seq i).gen + 1) % 65536 ∧
         s.raised t E.CALLER_EXPIRED s.callerInst ∧ ∀ j, j ≠ i → t.seq j = s.seq j) ∧
     (s.expiredBy i s.tempo.now = false ∨ s.resumeFirst i = true → exec (.pauseExpiry i) s = .next s)) ∧
  (∀ s : State, s.wf = true →
     (∀ i m t₀, s.caller.mirror = [m] → m.index = i → m.sent = some t₀ →
       t₀ + s.rd R.CALLER_JOURNAL_TMO * 1024 ≤ s.tempo.now →
       ∃ t, exec (.journalLost i) s = .next t ∧ s.raised t E.CALLER_JOURNAL_LOST s.callerInst ∧ t.caller.mirror = [] ∧
         t.caller.seqs = s.caller.seqs) ∧
     (∀ o : OpenReq, s.host.reqs = [o] → s.pastBound o = true → s.ringOpen o.req.grp.val o.req.cq.val →
       ∃ t, exec (.requestTimeout o.req.grp o.req.cid) s = .next t ∧ s.completed t o.req stTimeout ∧ t.caller = s.caller) ∧
     (∃ t, exec .callerSwitch s = .next t ∧ t.caller.switch = true ∧ t = { s with caller := t.caller }) ∧
     (∀ p : PartId, (s.mayOpen p = true → ∃ t, exec (.callerOpen p true) s = .next t ∧
         t.on R.CALLER_ADMIT_CTL_OPEN 0 p = true ∧ s.regsButCrc t [fkey R.CALLER_ADMIT_CTL_OPEN 0 p 0] ∧
         t.caller.stacked.contains p.val = true ∧ (s.caller.stacked.contains p.val = true → t = { s with regs := t.regs }) ∧
         (s.caller.stacked.contains p.val = false → s.windowsOff = true → t.freeTop p = (s.kvDesc p).nframes % 2 ^ 24) ∧
         t = { s with regs := t.regs, log := t.log, mem := t.mem, memMark := t.memMark
                      caller := { s.caller with stacked := t.caller.stacked } }) ∧
       (s.mayOpen p = false → exec (.callerOpen p true) s = .next s) ∧
       ∃ t, exec (.callerOpen p false) s = .next t ∧ t.on R.CALLER_ADMIT_CTL_OPEN 0 p = false ∧ t = { s with regs := t.regs }))

/-- The plan of the next bar is made once, at CUT beats before the bar's end (R190, R194): PLAN_BAR names it, every
sequence seated takes its slot and its draft length, and before the cut nothing happens. The Figure's completion sends
one marker, on the ports in service, and starts the harvest once (R59, R93). -/
def Obligations.PlanAndHarvest : Prop :=
  ∀ s : State, s.wf = true →
    (s.planDue = false → exec .callerPlan s = .next s) ∧
    (∀ p, s.planDue = true → s.planned = [p] → s.swap = none → s.on R.CALLER_JOURNAL_EN = false →
      s.caller.cached.length ≤ 16384 → (∀ x ∈ s.seats p (s.bar + 1), s.caller.cached.contains x.index = true) →
      ∃ t, exec .callerPlan s = .next t ∧ t.caller.planned = s.bar + 2 ∧ t.planDue = false ∧
        t.rd R.CALLER_PLAN_BAR_BAR = (s.bar + 1) % 2 ^ R.CALLER_PLAN_BAR_BAR.wid ∧
        ∀ x ∈ s.seats p (s.bar + 1), (t.seq x.index).slot = x.slot ∧ (t.seq x.index).draft = x.draft ∧
          (t.seq x.index).lastPlan = s.bar + 2) ∧
    (s.figureDone = true → s.caller.harvested ≤ s.bar → s.mayMark = true →
      ∃ t, exec .figureComplete s = .next t ∧ t.tempo.marks = s.tempo.marks ++ [⟨s.pkgId, s.stamp⟩] ∧
        (s.ports ≠ [] → Out.marker s.ports s.pkgId s.bar s.stamp ∈ t.out.drop s.out.length) ∧ t.caller.harvested = s.bar + 1 ∧
        exec .figureComplete t = .next t) ∧
    (s.tempo.barOn = true → s.caller.harvestLate = false → s.caller.waiting.any (fun w => w.bar + 1 = s.bar) = true →
      s.rd R.TEMPO_BAR_START_START + s.rd R.CALLER_WL_CFG_HARVEST * 1024 < s.tempo.now →
      ∃ t, exec .harvestLate s = .next t ∧ s.raised t E.CALLER_HARVEST_LATE s.callerInst ∧
        s.regsBut t (flagKeys E.CALLER_HARVEST_LATE s.callerInst) ∧ s.sameMem t ∧ exec .harvestLate t = .next t)

/-- At K_POS the keys of the bar, and at N_POS with GO the nominations of a layer, go to every other member; the
nominations land in the package's own gathered area too; before that, before GO, and once they have gone, nothing
happens (R267, R270). -/
def Obligations.ReelBlocksSent : Prop :=
  ∀ (p : PartId) (l : Fin 256) (m : Nat) (s : State), s.wf = true → s.rank = some m → s.reelOn p = true →
    ((s.reelOf p).keysSent = true → exec (.reelKeys p) s = .next s) ∧
    ((s.layerOf p l).begun = true ∨ s.cellNow (s.reelPtr p l 7) = 0 → exec (.reelNominate p l) s = .next s) ∧
    ((s.reelOf p).keysSent = false → s.bar < s.caller.planned →
      (s.reached (s.reelHdr p).kPos = false → exec (.reelKeys p) s = .next s) ∧
      (s.reached (s.reelHdr p).kPos = true →
        ∃ t, exec (.reelKeys p) s = .next t ∧ (t.reelOf p).keysSent = true ∧ (t.reelOf p).layers = (s.reelOf p).layers ∧
          (∀ q ∈ s.members, q ≠ s.pkgId → s.reelSent t q p (s.keyTable p s.bar m)
            (s.devMarked (s.keyTable p s.bar m) ((s.reelHdr p).toks * 16))) ∧
          s.regsBut t txKeys ∧ t = { s with regs := t.regs, reel := t.reel, fab := t.fab, gate := { s.gate with flits := t.gate.flits }, out := t.out })) ∧
    (l.val < (s.reelHdr p).nl → (s.layerOf p l).begun = false → 1 ≤ s.cellNow (s.reelPtr p l 7) →
      (s.reached (bits (s.reelDesc p l 9) 25 0) = false → exec (.reelNominate p l) s = .next s) ∧
      (s.reached (bits (s.reelDesc p l 9) 25 0) = true →
        let bs := s.devMarked (s.reelPtr p l 0) ((s.reelHdr p).toks * (s.reelHdr p).nom * 4)
        ∃ t, exec (.reelNominate p l) s = .next t ∧ (t.layerOf p l).begun = true ∧ (t.layerOf p l).beganAt = s.tempo.now ∧
          (t.reelOf p).cur = some l.val ∧
          t.rd R.REEL_STATUS_PHASE = 1 ∧ t.rd R.REEL_STATUS_LAYER = l ∧ s.stored t (s.gathered p l m) bs ∧
          t = { s with regs := t.regs, mem := t.mem, memMark := t.memMark, log := t.log, reel := t.reel, fab := t.fab
                       gate := { s.gate with flits := t.gate.flits }, out := t.out }))

/-- The nominees accepted of an expert are CAP of its records, or all where there are fewer, and none left out comes
before one accepted in the order of score and token key (R259). The phases of a layer (R259, R270, R274, R275): S
selects once every block is here, and not before, raising NOM_MISS and poisoning the layer where one was still missing
at D_POS; D sends each own accepted nominee's row to the package it was given, and a selection that lacks a block
raises NOM_MISS and poisons the layer; C sends a wave toward each home that may take it: the tag line of each of its
rows and the wave's part of the output. -/
def Obligations.ReelPhases : Prop :=
  (∀ (cap e : Nat) (cs : List Cand),
     (accepted cap e cs).length = min cap (cs.filter (fun c => c.expert = e)).length ∧
     (∀ c ∈ accepted cap e cs, c ∈ cs ∧ c.expert = e) ∧
     ∀ c ∈ cs, c.expert = e → c ∉ accepted cap e cs → ∀ a ∈ accepted cap e cs, a.order ≤ c.order) ∧
  (∀ (p : PartId) (l : Fin 256) (m : Nat) (s : State), s.wf = true → s.rank = some m → s.reelOn p = true →
     ((s.layerOf p l).begun = true → (s.layerOf p l).picks = none →
       (s.allHere p l = false → exec (.reelSelect p l) s = .next s) ∧
       (s.allHere p l = true →
         ∃ t, exec (.reelSelect p l) s = .next t ∧ (t.layerOf p l).picks = some (s.selection p l (s.cands p l)) ∧
           (t.layerOf p l).miss = s.nomsMissed p l ∧ (s.nomsMissed p l = true → s.raised t E.REEL_NOM_MISS) ∧
           t.rd R.REEL_STATUS_PHASE = 2)) ∧
     (l.val < (s.reelHdr p).nl → (s.layerOf p l).sent = false → s.reached (s.dPos p l) = true →
       (∀ ps, (s.layerOf p l).picks = some ps →
         ∃ t, exec (.reelDispatch p l) s = .next t ∧ (t.layerOf p l).sent = true ∧ t.rd R.REEL_STATUS_PHASE = 3 ∧
           (t.layerOf p l).picks = some ps ∧ t.rd R.REEL_ROWS_SENT 0 p = (s.rd R.REEL_ROWS_SENT 0 p +
             (ps.filter (fun k => k.home = s.pkgId && k.pkg ≠ s.pkgId && k.pkg < 4096)).length) % 2 ^ 32) ∧
       ((s.layerOf p l).picks = none → s.allHere p l = true → exec (.reelDispatch p l) s = .next s) ∧
       (∀ ps, (s.layerOf p l).picks = some ps → (∀ k ∈ ps, k.home = s.pkgId → k.pkg ≠ s.pkgId) →
         let w := (s.reelHdr p).width
         ∃ t, exec (.reelDispatch p l) s = .next t ∧ (t.layerOf p l).sent = true ∧ t.rd R.REEL_STATUS_PHASE = 3 ∧
           t.rd R.REEL_ROWS_SENT 0 p = (s.rd R.REEL_ROWS_SENT 0 p +
             (ps.filter (fun k => k.home = s.pkgId && k.pkg < 4096)).length) % 2 ^ 32 ∧
           (∀ k ∈ ps, k.home = s.pkgId → k.pkg < 4096 → s.reelSent t k.pkg p (s.dispatchRow p l k)
             (markIf (s.layerOf p l).miss (clean (s.pickTag p l k) ++
               s.devMarked (s.reelPtr p l 1 + k.slot * (w + w / 32)) (w + w / 32)))) ∧
           t = { s with regs := t.regs, reel := t.reel, fab := t.fab, gate := { s.gate with flits := t.gate.flits }, out := t.out }) ∧
       ((s.layerOf p l).picks = none → s.allHere p l = false →
         ∃ t, exec (.reelDispatch p l) s = .next t ∧ s.raised t E.REEL_NOM_MISS ∧ (t.layerOf p l).miss = true ∧
           (t.layerOf p l).sent = true ∧ (t.layerOf p l).picks = some (s.selection p l (s.cands p l)))) ∧
     (∀ w : Fin 8, (s.layerOf p l).picks.isSome = true → w.val < (s.reelHdr p).nw →
       (s.reached (wavePos (s.reelDesc p l 10) w) = false → exec (.reelCombine p l w) s = .next s) ∧
       (s.reached (wavePos (s.reelDesc p l 10) w) = true → 2 + w.val ≤ s.cellNow (s.reelPtr p l 7) →
         ∃ t, exec (.reelCombine p l w) s = .next t ∧ ∀ q ∈ s.members,
           (t.layerOf p l).waves.contains (w.val, q) =
             ((s.layerOf p l).waves.contains (w.val, q) || (s.layerOf p l).mayWave w q)) ∧
       (s.reached (wavePos (s.reelDesc p l 10) w) = true → 2 + w.val ≤ s.cellNow (s.reelPtr p l 7) →
         ∀ ps, (s.layerOf p l).picks = some ps →
         (∀ k ∈ ps, k.pkg = s.pkgId → k.home ≠ s.pkgId ∧ s.notStaged p l k = false) →
         ∃ t, exec (.reelCombine p l w) s = .next t ∧
           (∀ k ∈ ps, k.pkg = s.pkgId → k.home ∈ s.members → k.home < 4096 → (s.layerOf p l).mayWave w k.home = true →
             let h := s.reelHdr p
             s.reelSent t k.home p (s.combineRow p l k) (markIf (s.layerOf p l).miss (s.devMarked (s.dispatchRow p l k) 64 ++
               s.devMarked (s.reelPtr p l 3 + (h.hrows * k.hslot + k.row) * (2 * h.width) + 2 * h.width * w / h.nw)
                 (2 * h.width / h.nw)))) ∧
           t = { s with regs := t.regs, reel := t.reel, fab := t.fab, gate := { s.gate with flits := t.gate.flits }, out := t.out })))

/-- A packet on a port that does not carry its class has no effect (R316). A REEL packet that no landing area holds is
refused with BOUNDS (R328); one that lands in the keys or the nominations is written there and answered; a dispatch
row is written; a piece of a combine row whose sequence has moved on is not, and is counted where it carries the tag
line (R272, R273). REEL_REL is held (R274). PLACEMENT_CHANGE (R263, R278): BAD_TABLE, LATE and SUPERSEDED end it with
no table taken; a good newer one is copied into the Reel area and held until its bar, its request still open. -/
def Obligations.ReelArrivals : Prop :=
  (∀ (k : Pkt) (s : State), s.wf = true →
     (s.hears k = false → exec (.reel k) s = .next s ∧ exec (.reelRel k) s = .next s) ∧ (s.onLink k = true →
     (s.earlyStatus 0x0A k ≠ 0 → ∃ t, exec (.reel k) s = .next t ∧ s.turnedAway t 0x0A k (s.earlyStatus 0x0A k)) ∧
     (s.earlyStatus 0x0A k = 0 → s.reelOn k.part = false → ∃ t, exec (.reel k) s = .next t ∧ s.turnedAway t 0x0A k 3) ∧
     (s.earlyStatus 0x0A k = 0 → s.reelOn k.part = true →
       (s.reelHit k.part (reelAddr k) k.len.toNat = none → ∃ t, exec (.reel k) s = .next t ∧ s.turnedAway t 0x0A k 3) ∧
       (∀ hit, s.reelHit k.part (reelAddr k) k.len.toNat = some hit → (hit = .keys ∨ ∃ l, hit = .noms l) →
         ∃ t, exec (.reel k) s = .next t ∧ s.stored t (reelAddr k) (pktData k) ∧ s.replied t (s.answerTo k 0x10 0)) ∧
       (∀ l base n comb, s.reelHit k.part (reelAddr k) k.len.toNat = some (.row l) →
         s.rowAt k.part l (reelAddr k) k.len.toNat = some (base, n, comb) →
         ((comb = false ∨ s.rowLive k.part l (reelAddr k) base (pktData k) = true) →
           ∃ t, exec (.reel k) s = .next t ∧ s.stored t (reelAddr k) (pktData k) ∧ s.replied t (s.answerTo k 0x10 0)) ∧
         (comb = true → s.rowLive k.part l (reelAddr k) base (pktData k) = false →
           ∃ t, exec (.reel k) s = .next t ∧ s.sameMem t ∧ s.replied t (s.answerTo k 0x10 0) ∧
             t.rd R.REEL_DISCARDED_DISCARDED 0 k.part =
               (s.rd R.REEL_DISCARDED_DISCARDED 0 k.part + (if reelAddr k = base then 1 else 0)) % 2 ^ 64))) ∧
     (s.earlyStatus 0x0B k ≠ 0 → ∃ t, exec (.reelRel k) s = .next t ∧ s.turnedAway t 0x0B k (s.earlyStatus 0x0B k)) ∧
     (s.earlyStatus 0x0B k = 0 →
       let w := ofLE (k.data.take 8)
       ∃ t, exec (.reelRel k) s = .next t ∧
         (t.layerOf k.part (bits w 7 0)).rels.contains (k.src.val, bits w 10 8) = true ∧
         s.replied t (s.answerTo k 0x10 0) ∧ s.regsBut t txKeys ∧
         t = { s with regs := t.regs, reel := t.reel, fab := t.fab, gate := { s.gate with flits := t.gate.flits }, out := t.out }))) ∧
  (∀ (r : Req) (s : State), s.wf = true → s.openAs 0x21 r = true → s.places.all (fun x => x.req ≠ r) = true →
     s.ringOpen r.grp.val r.cq.val →
     let p := r.f 3 3 0
     let a := r.f 4 47 0
     let x : PlacePend := ⟨p, s.devWord a, s.devWord (a + 8), r⟩
     (s.placeGood p a = false → ∃ t, exec (.placementChange r) s = .next t ∧ s.raised t E.REEL_BAD_TABLE ∧
       s.completed t r stBadTable ∧ s.sameMem t ∧ t.places = s.places) ∧
     (s.placeGood p a = true → s.barBegun x.eff = true → ∃ t, exec (.placementChange r) s = .next t ∧
       s.raised t E.REEL_PLACE_LATE ∧ s.completed t r stLate ∧ s.sameMem t ∧ t.places = s.places) ∧
     (s.placeGood p a = true → s.barBegun x.eff = false → x.gen ≤ s.devWord (s.placeTab p false) →
       ∃ t, exec (.placementChange r) s = .next t ∧ s.completed t r stSuperseded ∧ s.sameMem t ∧ t.places = s.places) ∧
     (s.placeGood p a = true → s.barBegun x.eff = false → s.devWord (s.placeTab p false) < x.gen →
       s.places.all (fun y => y.part ≠ p) = true →
       ∃ t, exec (.placementChange r) s = .next t ∧ t.places = s.places ++ [x] ∧
         (∀ i < placeLen, t.devByte (s.placeTab p true + i) = s.devByte (a + i)) ∧
         s.memBut t (s.placeTab p true) placeLen ∧ t = { s with places := t.places, mem := t.mem }))

/-- INSTALL, CANCEL_INSTALL and SHARD_PROGRAMMED (R292 to R294, R370): an accepted manifest, read from the host as its
data table is, starts programming its slot, its request still open, and one that a sag holds back waits; another
completes with its status; a shard whose three digests agree wears its pages and moves PROGRESS, the last one making
the slot COMPLETE, or ACTIVE in a reinstall; one that does not is programmed once more, and then ends the Install, as
a failed read does. NV_CODEWORD_READ (R297): nothing for a codeword that read at once; READ_RETRY for up to 8
failures; beyond them NV_UNCORR, and its page is retired. -/
def Obligations.InstallAndNv : Prop :=
  (∀ (r : Req) (s : State), s.wf = true → s.ringOpen r.grp.val r.cq.val →
     (∀ d table, s.openAs 0x22 r = true → s.weights.install = none →
       let slot := r.f 3 0 0
       (∀ m, fetched d (r.f 5 31 0) = some m →
         (s.installStatus slot m = 0 → ∀ tab, fetched table (16 * manShards m) = some tab →
           ∃ t, exec (.install r ⟨d, table⟩) s = .next t ∧
             t.weights.install = some ⟨some r, slot, m, 0, [], dataTable tab (manShards m)⟩ ∧
             (s.on R.PWR_STATUS_SAG = true → s.resumes slot m = false → t.slotRec slot = s.slotRec slot ∧
               t.weights.held.length = s.weights.held.length + 1) ∧
             (s.on R.PWR_STATUS_SAG = false ∨ s.resumes slot m = true →
               (t.slotRec slot).state = 1 ∧ (t.slotRec slot).digest = manDigest m) ∧ t.on R.NVC_PROG_BUSY = true ∧
             t.nv.data = s.nv.data ∧ t.out = s.out ++ [Out.hostFetch (s.fnOf r.grp) (r.w 4) (r.f 5 31 0),
               Out.hostFetch (s.fnOf r.grp) (r.w 6) (16 * manShards m)] ∧
             t = { s with regs := t.regs, nv := t.nv, weights := t.weights, out := t.out }) ∧
         (s.installStatus slot m = 0 → fetched table (16 * manShards m) = none →
           ∃ t, exec (.install r ⟨d, table⟩) s = .next t ∧ s.completed t r stHostErr ∧ s.raised t E.PCIE_HOST_ERR ∧ t.nv = s.nv ∧
             t.weights = s.weights) ∧
         (s.installStatus slot m ≠ 0 →
           ∃ t, exec (.install r ⟨d, table⟩) s = .next t ∧ s.completed t r (s.installStatus slot m) ∧
             (s.installStatus slot m = stWorn → s.raised t E.NVC_WORN) ∧ t.nv = s.nv ∧ t.weights = s.weights ∧ s.sameMem t)) ∧
       (fetched d (r.f 5 31 0) = none →
         ∃ t, exec (.install r ⟨d, table⟩) s = .next t ∧ s.completed t r stHostErr ∧ s.raised t E.PCIE_HOST_ERR ∧ t.nv = s.nv)) ∧
     (s.openAs 0x23 r = true →
       (s.weights.install = none → ∃ t, exec (.cancelInstall r) s = .next t ∧ s.completed t r stNotFound ∧ t.nv = s.nv) ∧
       (∀ i, s.weights.install = some i → s.weights.redo = none →
         ∃ t, exec (.cancelInstall r) s = .next t ∧ (i.req = none → s.completed t r 0) ∧
           (∀ q, i.req = some q →
             t.host.reqs = (s.host.reqs.eraseP (fun o => o.req = q)).eraseP (fun o => o.req = r)) ∧
           t.weights.install = none ∧ t.nv = s.nv ∧ t.on R.NVC_PROG_BUSY = false)) ∧
     (∀ i k dw db w b, s.weights.install = some i → i.next (s.slotRec i.slot) = some k →
       s.on R.NVC_PROG_SAG_HOLD = false → s.on R.PWR_STATUS_SAG = false → s.weights.redo = none →
       let x := manShard i.manifest k
       (∀ d, fetched d x.len = none → ∃ t, exec (.shardProgrammed d db) s = .next t ∧ t.weights.install = none ∧
         t.nv = s.nv ∧ s.raised t E.PCIE_HOST_ERR) ∧
       (fetched dw x.len = some w → fetched db x.len = some b →
       (sha384 w = x.digest ∧ sha384 b = x.digest →
         let last := (i.next { s.slotRec i.slot with progress := k + 1 }).isNone
         ∃ t, exec (.shardProgrammed dw db) s = .next t ∧ t.nvBytes i.slot x.addr x.len = b ∧
           (t.slotRec i.slot).progress = (if last then (s.slotRec i.slot).nshard else k + 1) ∧
           (t.slotRec i.slot).state =
             (if last then (if i.req.isSome then 2 else 3) else (s.slotRec i.slot).state) ∧
           ∀ st < 4, t.nv.wear.getD st 0 = s.nv.wear.getD st 0 + shardPages i.manifest st k) ∧
       (¬(sha384 w = x.digest ∧ sha384 b = x.digest) →
         (i.tries = 0 → ∃ t, exec (.shardProgrammed dw db) s = .next t ∧ t.weights.install = some { i with tries := 1 } ∧
           t.slotRec i.slot = s.slotRec i.slot ∧ t = { s with nv := t.nv, weights := t.weights, out := t.out }) ∧
         (i.tries ≠ 0 → ∃ t, exec (.shardProgrammed dw db) s = .next t ∧ t.weights.install = none ∧
           t.slotRec i.slot = s.slotRec i.slot ∧ s.raised t E.NVC_VERIFY_FAIL (x.addr / 65536 % 4)))))) ∧
  (∀ (k : Fin 4) (page fails : Nat) (s : State), s.wf = true →
     exec (.nvCodewordRead k page 0) s = .next s ∧
     (0 < fails → fails ≤ 8 →
       ∃ t, exec (.nvCodewordRead k page fails) s = .next t ∧ s.raised t E.NVC_READ_RETRY k ∧
         t.rd R.NVC_RETRIES_CODEWORDS k = (s.rd R.NVC_RETRIES_CODEWORDS k + 1) % 2 ^ 64 ∧
         s.regsBut t (fkey R.NVC_RETRIES_CODEWORDS k 0 0 :: flagKeys E.NVC_READ_RETRY k) ∧
         t = { s with regs := t.regs, log := t.log }) ∧
     (8 < fails → s.nv.holes.contains (k.val, page) = false →
       ∃ t, exec (.nvCodewordRead k page fails) s = .next t ∧ s.raised t E.NVC_NV_UNCORR k ∧
         t.nv.badPages = s.nv.badPages ++ [(k.val, page)] ∧ t.nv.holes = s.nv.holes ++ [(k.val, page)] ∧
         s.regsBut t (fkey R.NVC_RETRIES_CODEWORDS k 0 0 :: flagKeys E.NVC_NV_UNCORR k) ∧
         t = { s with regs := t.regs, log := t.log, nv := t.nv, mem := t.mem, memMark := t.memMark }))

/-- STAGE_EPOCH, STAGE_DONE and STAGE_HOST_SLOT (R295, R296, R297, R308, R310, R370): a staging waits in Q2 or its
request completes with the status; once the engines have written it, with every digest matched, a failed page's shard
taken from its replica holder, the region holds the manifest's objects and STAGE_DONE is raised, otherwise the role
has failed with cause 0x03; an expert that verifies stands in its host slot. -/
def Obligations.StagingEnds : Prop :=
  ∀ (r : Req) (s : State), s.wf = true → s.ringOpen r.grp.val r.cq.val →
    (s.openAs 0x24 r = true → s.weights.staging = none →
      (s.stageStatus (r.f 3 0 0) = 0 →
        ∃ t, exec (.stageEpoch r) s = .next t ∧ t.weights.staging = some ⟨some r, r.f 3 0 0, s.shadow⟩ ∧
          t.on R.PROM_SHADOW_STAGED = false ∧ t.on R.PROM_SHADOW_STAGING = true ∧
          t.moves.length = s.moves.length + 1 ∧
          t = { s with regs := t.regs, weights := t.weights, moves := t.moves }) ∧
      (s.stageStatus (r.f 3 0 0) ≠ 0 →
        ∃ t, exec (.stageEpoch r) s = .next t ∧ s.completed t r (s.stageStatus (r.f 3 0 0)) ∧ t.weights = s.weights)) ∧
    (∀ g remote, s.weights.staging = some g → g.region < s.weights.staged.length →
      let m := s.nvManifest g.slot
      ((s.runJob .staging).2 = false → exec (.stageDone remote) s = .next (s.runJob .staging).1) ∧
      ((s.runJob .staging).2 = true → s.shardsGood g.slot m remote = true →
        ∃ t, exec (.stageDone remote) s = .next t ∧ s.raised t E.PROM_STAGE_DONE ∧ t.weights.staging = none ∧
          t.weights.staged.getD g.region none = some g.slot ∧
          (g.req = none → t.rd R.SEC_STAGED_RANK_RANK = manRank m ∧ t.on R.SEC_STAGED_RANK_VALID = true) ∧
          (∀ q, g.req = some q → t.host.reqs = s.host.reqs.eraseP (fun o => o.req = q)) ∧
          (g.req = none → ∀ a, t.devByte a = (((s.writeRegion g.region m
                (fun o => ((s.shardBytes g.slot m remote o.shard).drop o.src).take o.len)
                (fun u i o => u.mapEntry g.slot m g.region i o)).noteRegion g.region (some g.slot) m).writeHostMap
              g.region).devByte a)) ∧
      ((s.runJob .staging).2 = true → s.shardsGood g.slot m remote = false →
        ∃ t, exec (.stageDone remote) s = .next t ∧ s.raised t E.PROM_STAGE_FAIL ∧ t.weights.staging = none ∧
          (∀ q, g.req = some q → t.host.reqs = s.host.reqs.eraseP (fun o => o.req = q)) ∧
          t.on R.HEALTH_STATUS_FAILED = true ∧ t.rd R.HEALTH_STATUS_CAUSE = 3)) ∧
    (∀ d, s.openAs 0x25 r = true →
      let m := s.hostManifest
      let own := (r.w 3).testBit 37
      let l := r.f 3 11 4
      let e := r.f 3 21 12
      let key := hostKey (r.f 3 3 0) l (r.f 3 24 22)
      let u := (s.askHostSlot m (r.f 3 3 0) l e (r.f 3 24 22)).runJob (.hostSlot key)
      let bs := if own && !s.expertLost m l e then s.ownExpert m l e else wholeData d
      (own = true → s.nvShut = true → ∃ t, exec (.stageHostSlot r d) s = .next t ∧ s.completed t r stBadState ∧
        t.weights = s.weights) ∧
      ((own = false ∨ s.nvShut = false) → u.2 = false → exec (.stageHostSlot r d) s = .next u.1) ∧
      ((own = false ∨ s.nvShut = false) → u.2 = true → expertGood m l e bs = true →
        ∃ t, exec (.stageHostSlot r d) s = .next t ∧ s.completed t r 0 ∧
          mget none t.weights.hostSlots key = some ⟨e, if own then none else some (r.f 3 36 25), manEpoch m⟩) ∧
      ((own = false ∨ s.nvShut = false) → u.2 = true → expertGood m l e bs = false →
        ∃ t, exec (.stageHostSlot r d) s = .next t ∧ s.completed t r stStageFail ∧ s.raised t E.PROM_STAGE_FAIL ∧
          t.weights.hostSlots = s.weights.hostSlots ∧ s.sameMem t))

/-- FILL and FILL_DONE (R298, R299, R308): an accepted manifest, with every source holding what it is named for,
starts a fill of the shadow region with REPLICA_EXPOSED; once everything is written and every digest matched it ends
with FILL_DONE, the region staged or, on a spare, current; what failed its digest is asked for again; a second failure
of it ends the fill as failed. -/
def Obligations.FillEnds : Prop :=
  ∀ (r : Req) (s : State), s.wf = true → s.ringOpen r.grp.val r.cq.val →
    (∀ d e held m src, s.openAs 0x26 r = true → s.weights.fill = none → fetched d (r.f 4 31 0) = some m →
      fetched e (2 * manShards m + 8 * r.f 6 31 0) = some src →
      (s.manStatus m ≠ 0 → ∃ t, exec (.fill r d e held) s = .next t ∧ s.completed t r (s.manStatus m) ∧ t.weights = s.weights) ∧
      (s.manStatus m = 0 → s.weights.staging.isSome = true →
        ∃ t, exec (.fill r d e held) s = .next t ∧ s.completed t r stBadState ∧ t.weights = s.weights) ∧
      (s.manStatus m = 0 → s.weights.staging = none → held = false →
        ∃ t, exec (.fill r d e held) s = .next t ∧ s.raised t E.PROM_STAGE_FAIL ∧ s.completed t r stStageFail ∧
          t.weights = s.weights) ∧
      (s.manStatus m = 0 → s.weights.staging = none → held = true →
        ∃ t f, exec (.fill r d e held) s = .next t ∧ t.weights.fill = some f ∧ f.req = some r ∧ f.manifest = m ∧
          f.sources.length = manShards m ∧ f.got = [] ∧ f.again = [] ∧ t.on R.PROM_SHADOW_FILLING = true ∧
          s.raised t E.PROM_REPLICA_EXPOSED ∧ t.moves.length = s.moves.length + 1 ∧
          t = { s with regs := t.regs, weights := t.weights, log := t.log, moves := t.moves, out := t.out })) ∧
    (∀ f ds, s.weights.fill = some f →
      let f' := s.takeFill f ds
      let u := s.runJob .fill
      (f'.wants = [] → u.2 = true →
        ∃ t, exec (.fillDone ds) s = .next t ∧ s.raised t E.PROM_FILL_DONE ∧ t.weights.fill = none ∧
          t.on R.PROM_SHADOW_FILLING = false ∧
          (if s.rank.isSome = true then t.on R.PROM_SHADOW_STAGED = true ∧ t.rd R.PROM_SHADOW_EPOCH = manEpoch f.manifest
            else t.on R.PROM_SHADOW_STAGED = false ∧ t.rd R.PROM_EPOCH_EPOCH = manEpoch f.manifest ∧
              t.rd R.PROM_EPOCH_REGION = s.shadow)) ∧
      ((f'.wants = [] ∧ u.2 = false) ∨ (f'.wants ≠ [] ∧ f.again.any (fun i => f'.wants.contains i) = false) →
        exec (.fillDone ds) s = .next { u.1 with weights := { u.1.weights with fill := some f' } }) ∧
      (f'.wants ≠ [] → f.again.any (fun i => f'.wants.contains i) = true →
        ∃ t, exec (.fillDone ds) s = .next t ∧ s.raised t E.PROM_STAGE_FAIL ∧ t.weights.fill = none ∧
          t.on R.HEALTH_STATUS_FAILED = true ∧ t.rd R.HEALTH_STATUS_CAUSE = 3))

/-- SWAP_EPOCH, Promenade moves and prefetches (R301, R303, R307 to R309): a late swap completes LATE and its bar is
remembered; the first is held until its bar; a die's engine writes the lines of its move that it owns, as many as the
allowance lets it, and no others, raising ALLOW_HIT where some are left; a prefetch goes into Q0 at its position. -/
def Obligations.SwapAndMoves : Prop :=
  ∀ s : State, s.wf = true →
    (∀ r : Req, s.openAs 0x27 r = true → s.swap = none → s.ringOpen r.grp.val r.cq.val →
      (s.swapLate (r.w 4) = true →
        ∃ t, exec (.swapEpoch r) s = .next t ∧ s.raised t E.PROM_SWAP_LATE ∧ s.completed t r stLate ∧ t.swap = none ∧
          t.weights.missed = some (r.w 4)) ∧
      (s.swapLate (r.w 4) = false →
        ∃ t, exec (.swapEpoch r) s = .next t ∧ t.swap = some ⟨r.f 3 31 0, r.w 4, (r.w 5).testBit 0, r⟩ ∧
          t.rd R.PROM_SWITCH_SWITCH_BAR = r.w 4 ∧ s.regsBut t [fkey R.PROM_SWITCH_SWITCH_BAR 0 0 0] ∧
          t = { s with regs := t.regs, swap := t.swap })) ∧
    (∀ die : Fin 4,
      s.moves.any (fun m => m.endsHere && m.written) = false →
      (s.frontOf die = none → exec (.promenadeMoveComplete die) s = .next s) ∧
      (∀ i m, s.frontOf die = some i → s.moves[i]? = some m →
        (∀ a, m.why = .prefetch (some a) → a.1 < 32 ∧ a.2 < 48) → (m.byLine = true ∨ m.endsHere = false ∨ m.why = .none) →
        let left := m.todo.getD die 0
        let n := s.allowed m die
        let mine := s.ownLines m.dst m.size die
        let ls := if m.byLine then (mine.drop (mine.length - left)).take n else []
        ∃ t, exec (.promenadeMoveComplete die) s = .next t ∧
          t.rd R.PROM_BYTES_BYTES die = (s.rd R.PROM_BYTES_BYTES die + 64 * n) % 2 ^ 64 ∧
          (n < left → s.raised t E.PROM_ALLOW_HIT die) ∧
          (n = left → t.rd R.PROM_MOVES_MOVES die = (s.rd R.PROM_MOVES_MOVES die + 1) % 2 ^ 64) ∧
          ((∀ p l b k g, m.why ≠ .sample p l b k g) →
            (∀ x ∈ ls, ∀ j < 64, some (t.devByte (m.dst + 64 * x + j)) = ((s.moveLine m x)[j]?).map (·.1)) ∧
            (∀ c, (∀ x ∈ ls, c < m.dst + 64 * x ∨ m.dst + 64 * x + 64 ≤ c) → t.devByte c = s.devByte c) ∧
            t = { s with regs := t.regs, log := t.log, mem := t.mem, memMark := t.memMark, moves := t.moves
                         weights := t.weights }) ∧
          t.moves = (if m.endsHere = true ∧ (m.todo.set die (left - n)).all (· = 0) = true then s.moves.eraseIdx i
            else s.moves.set i { m with todo := m.todo.set die (left - n) }))) ∧
    (∀ (p : PartId) im, s.timedFigs.find? (fun im => decide (im.part = p.val) && decide (im.nextPf < im.npf)) = some im →
      s.tempo.barOn = true → s.notReady = false → s.on R.HEALTH_STATUS_FAILED = false →
      (s.reached (bits (s.devWord (im.pref + 32 + 32 * im.nextPf)) 63 38) = false → exec (.prefetchIssue p) s = .next s) ∧
      (s.reached (bits (s.devWord (im.pref + 32 + 32 * im.nextPf)) 63 38) = true →
        ∃ t, exec (.prefetchIssue p) s = .next t ∧
          (let m := s.prefMove (im.pref + 32 + 32 * im.nextPf)
           t.moves = s.moves ++ [{ m with todo := s.linesOf [(m.dst, m.size)] }]) ∧
          t = { s with moves := t.moves, figs := t.figs }))

/-- SHADOW_SAMPLE and RECIPE_EVALUATE of a Format Area with one layer (R152, R155, R157): of a layer picked for the
next bar, whose manifest gives a reference copy, the moves that stage the narrow tile and its reference tiles wait in
Q2; an evaluation adds the bar's counts, clears them, notes the bar, and reports poison. -/
def Obligations.ShadowAndRecipe : Prop :=
  ∀ (p : PartId) (s : State), s.wf = true → s.locked p = true → s.fmtArea p ≠ 0 → s.fmtLayers p = [0] →
    let e := s.fmtEntry p 0
    ((s.devWord (e + 72)).testBit 17 = false → exec (.shadowSample p) s = .next s) ∧
    ((s.devWord (e + 72)).testBit 17 = true →
      let h := mix64 ((s.devWord (s.fmtArea p) + (s.bar + 1) * 0x100) % 2 ^ 64)
      let w := s.devWord (e + 80)
      let u := s.closeCells p 0 ((s.bar + 1) % 2)
      let ms := fun slot => u.sampleMoves p 0 (s.bar + 1) (h / 2 ^ 16 % max 1 (bits w 15 0)) (h / 2 ^ 32 % max 1 (bits w 31 16)) slot
      ∃ t, exec (.shadowSample p) s = .next t ∧
        (∀ slot, s.activeSlot = some slot → h % 65536 < bits (s.devWord (e + 72)) 16 0 → s.hasReference 0 = true →
          (∀ m ∈ ms slot, m.kind = 0 ∨ s.inHole slot m.src m.len = false) →
          t.moves = s.moves ++ (ms slot).map (fun m => { m with todo := s.linesOf [(m.dst, m.size)] })) ∧
        (s.activeSlot = none ∨ bits (s.devWord (e + 72)) 16 0 ≤ h % 65536 ∨ s.hasReference 0 = false → t.moves = s.moves) ∧
        (∀ a, t.devByte a = u.devByte a) ∧
        t = { s with regs := t.regs, mem := t.mem, memMark := t.memMark, log := t.log, moves := t.moves }) ∧
    (s.tempo.barOn = true → 0 < s.bar → s.devWord (s.fmtArea p + 16) ≠ s.bar - 1 →
      s.ringOpen p (s.rd R.PCIE_GRP_CTL_MGMT_CQ 0 p) → s.windowsOff = true →
      let cnt := e + 128 + 32 * ((s.bar - 1) % 2)
      ∃ t, exec (.recipeEvaluate p) s = .next t ∧
        t.devWord e = (s.devWord e + s.devWord cnt) % 2 ^ 64 ∧
        t.devWord (e + 8) = (s.devWord (e + 8) + s.devWord (cnt + 16)) % 2 ^ 64 ∧
        t.devWord (e + 16) = (s.devWord (e + 16) + s.devWord (cnt + 24)) % 2 ^ 64 ∧
        (∀ i < 32, t.devByte (cnt + i) = 0) ∧ t.devWord (s.fmtArea p + 16) = (s.bar - 1) % 2 ^ 64 ∧
        (0 < s.devWord (cnt + 24) → (bits (t.devWord (e + 32)) 50 48).testBit 1 = true))

/-- The life of a port (R316, R317, R342, R346, R454): EN trains a port that is DOWN, once a package id is assigned,
and takes any port DOWN when cleared; a trained port says HELLO and enters CHECK; not trained in time it goes DOWN
with LINK_DOWN; an identity that fits puts a port whose lanes all work in service, another holds it with
CABLE_MISMATCH, and so does none within 16 beats. PORT_STATE (R342): a package is reached through exactly the ports
that its last PORT_STATE names; the own one goes out on every port in service, 64 beats after the last. -/
def Obligations.PortLife : Prop :=
  (∀ (p : PortId) (s : State), s.wf = true →
     let only := fun (t : State) => t = { s with regs := t.regs, fab := t.fab, log := t.log, out := t.out, gate := { s.gate with flits := t.gate.flits } }
     (s.on R.SEC_PKG_ASSIGNED = false → exec (.portEnable p true) s = .next s) ∧
     (s.portState p = 0 → s.on R.SEC_PKG_ASSIGNED = true →
       ∃ t, exec (.portEnable p true) s = .next t ∧ t.on R.FAB_CTL_EN p = true ∧ t.portState p = 1 ∧
         (∀ l ∈ lanesOf p, t.rd R.LANE_STATUS_STATE l = if s.avail 0x31 l then 1 else 0) ∧ only t) ∧
     (∃ t, exec (.portEnable p false) s = .next t ∧ t.on R.FAB_CTL_EN p = false ∧ t.portState p = 0 ∧ only t) ∧
     (s.inService p = true → ∃ t, exec (.retrain p) s = .next t ∧ t.portState p = 1 ∧ s.sameMem t ∧ s.sameTiles t) ∧
     (s.inService p = false → exec (.retrain p) s = .next s) ∧
     (s.portState p = 1 →
       (∃ t, exec (.portTrained p) s = .next t ∧ t.portState p = 2 ∧
         (∃ os, t.out = s.out ++ os ++ [Out.packet [p.val] (s.blank 0 5)]) ∧ only t) ∧
       ∃ t, exec (.trainingTimeout p) s = .next t ∧ t.portState p = 0 ∧ s.raised t E.FAB_LINK_DOWN p) ∧
     (s.portState p ≠ 1 → exec (.portTrained p) s = .next s ∧ exec (.trainingTimeout p) s = .next s) ∧
     (∀ (tray : BitVec 8) (plane : BitVec 5) (swp : BitVec 8), s.portState p = 2 →
       let fits := plane.toNat = p.val ∧
         (s.on R.FAB_EXPECT_CHECK_EN p = false ∨ (tray.toNat, plane.toNat, swp.toNat) = s.wantId p)
       ∃ t, exec (.portId p tray plane swp) s = .next t ∧ t.foundId p = (tray.toNat, plane.toNat, swp.toNat) ∧
         t.on R.FAB_FOUND_VALID p = true ∧
         (fits → (∀ l ∈ lanesOf p, s.laneWorks l = true) → t.portState p = 3) ∧
         (¬fits → t.portState p = 5 ∧ s.raised t E.FAB_CABLE_MISMATCH p)) ∧
     (s.portState p = 2 →
       (s.tempo.now / 1024 < (s.port p).since + 16 → exec (.portIdTimeout p) s = .next s) ∧
       ((s.port p).since + 16 ≤ s.tempo.now / 1024 →
         ∃ t, exec (.portIdTimeout p) s = .next t ∧ t.portState p = 5 ∧ only t))) ∧
  (∀ (k : Pkt) (s : State), s.wf = true →
     (s.hears k = false → exec (.portState k) s = .next s) ∧
     (s.hears k = true → ∃ t, exec (.portState k) s = .next t ∧
       (∀ q < 24, t.peerUp k.src q = (ofLE k.data).testBit q) ∧ (∀ n, n ≠ k.src.val → ∀ q, t.peerUp n q = s.peerUp n q) ∧
       t = { s with regs := t.regs, fab := t.fab, log := t.log, out := t.out, gate := { s.gate with flits := t.gate.flits } }) ∧
     let due := s.passed (1024 * s.fab.cast) (64 * 1024)
     let now := s.tempo.now / 1024
     (due = false → exec .portStateBroadcast s = .next s) ∧
     (due = true → s.ports = [] → exec .portStateBroadcast s = .next { s with fab := { s.fab with cast := now } }) ∧
     (due = true → s.ports ≠ [] → ∃ t, exec .portStateBroadcast s = .next t ∧ t.out = s.out ++ [Out.packet s.ports
         { s.blank 0 4 with bcast := true, data := toLE 8 (portMask s.ports + portMask s.halfPorts * 2 ^ 24) }] ∧
       s.regsBut t txKeys ∧
       t = { s with regs := t.regs, fab := { s.fab with ports := t.fab.ports, cast := now }, out := t.out, gate := { s.gate with flits := t.gate.flits } }))

/-- A lane lost, for a cause that has come about, or retired in a port at full width (R41, R318, R348): the lowest
free spare of its die takes it over and the port stays; with none its lane is gone, and the port narrows to the other
half. Corrected symbols above the threshold lose the lane too; as many as the threshold do nothing. A flit (R319,
R320, R321): its codewords count on their lanes, symbols corrected or a codeword lost; good and in sequence it is
accepted and counted, and the next one expected; anything else is answered with a NAK and nothing of it taken; an
accepted NAK has the flits after its ACK sent again, or takes the port DOWN where that flit was replayed eight times.
Bit-error tests (R316, R348): a lane in service is tested against the lowest free spare or the test is skipped; the
interval test takes the next lane of its pass; BERT holds a port out of service; a run ends with its result latched, a
lane that passed back in service, one that failed replaced by the spare that stood in. -/
def Obligations.LanesAndFlits : Prop :=
  (∀ (l : LaneId) (c : LaneCause) (n : Nat) (s : State), s.wf = true → s.portState (l / 8) = 3 → s.laneWorks l = true →
     s.fab.tests = [] → s.layout.retired.contains (0x31, s.layout.lane l) = false →
     let lost := fun (t : State) =>
       (0x31, s.layout.lane l) ∈ t.layout.retired ∧
       (∀ q r, s.freeLanes (laneDie l) = q :: r → t.layout.lane l = q ∧ t.portState (l / 8) = 3) ∧
       (s.freeLanes (laneDie l) = [] → t.avail 0x31 l = false ∧ t.rd R.LANE_STATUS_STATE l = 0 ∧
         ((∀ m ∈ lanesOf (l / 8), m ≠ l.val → s.laneWorks m = true) →
           t.portState (l / 8) = 4 ∧ s.raised t E.FAB_HALF_WIDTH (l / 8) ∧
           (l.val % 8 < 4 → t.rd R.FAB_STATUS_HALF_HI (l / 8) = 1))) ∧ s.sameMem t ∧ s.sameTiles t
     (s.laneFails l c = false → exec (.laneLost l c) s = .next s) ∧
     (s.laneFails l c = true → ∃ t, exec (.laneLost l c) s = .next t ∧ s.raised t E.FAB_LANE_LOST (l / 8) ∧ lost t) ∧
     (∃ t, exec (.laneRetire l) s = .next t ∧ lost t) ∧
     (n ≤ s.rd R.FAB_LANE_THR_THR → exec (.corrHigh l n) s = .next s) ∧
     (s.rd R.FAB_LANE_THR_THR < n →
       ∃ t, exec (.corrHigh l n) s = .next t ∧ s.raised t E.LANE_CORR_HIGH l ∧ s.raised t E.FAB_LANE_LOST (l / 8) ∧ lost t)) ∧
  (∀ (p : PortId) (f : FlitIn) (s : State), s.wf = true → 2 ≤ s.portState p →
     let x := s.port p
     let good := f.crcGood = true ∧ f.uncorr = false ∧ f.seq = x.rxNext
     let mine := fun (l : Fin 8) (lost : Bool) => f.codewords.filter (fun c => c.ends && c.lane = l && c.lost = lost)
     let counted := fun (t : State) => ∀ l : Fin 8,
       t.rd R.LANE_FEC_CORR_SYMBOLS (8 * p + l) =
         (s.rd R.LANE_FEC_CORR_SYMBOLS (8 * p + l) + sumOf ((mine l false).map (·.wrong))) % 2 ^ 64 ∧
       t.rd R.LANE_FEC_UNCORR_CODEWORDS (8 * p + l) =
         (s.rd R.LANE_FEC_UNCORR_CODEWORDS (8 * p + l) + (mine l true).length) % 2 ^ 32
     let fec := (lanesOf p).flatMap (fun l => [fkey R.LANE_FEC_CORR_SYMBOLS l 0 0, fkey R.LANE_FEC_UNCORR_CODEWORDS l 0 0])
     let taken := fun (t : State) => counted t ∧ (t.port p).rxNext = (x.rxNext + 1) % 65536 ∧ (t.port p).acked = f.ack ∧
       t.rd R.FAB_RX_FLITS_RX p = (s.rd R.FAB_RX_FLITS_RX p + 1) % 2 ^ 64
     (¬good → ∃ t, exec (.flit p f) s = .next t ∧ counted t ∧ t.out = s.out ++ [Out.nak p ((x.rxNext + 65535) % 32768)] ∧
       s.regsBut t fec ∧ t = { s with regs := t.regs, fab := { s.fab with bad := t.fab.bad }, out := t.out }) ∧
     (good → f.nak = false →
       ∃ t, exec (.flit p f) s = .next t ∧ taken t ∧ s.regsBut t (fkey R.FAB_RX_FLITS_RX p 0 0 :: fec) ∧
         t = { s with regs := t.regs, fab := { s.fab with ports := t.fab.ports, bad := t.fab.bad }, gate := { s.gate with flits := t.gate.flits } }) ∧
     (good → f.nak = true → (x.acked ≠ f.ack ∨ x.replays < 8) →
       let flits := (x.replayed f.ack).map (flitLanes (decide (s.portState p = 4)))
       ∃ t, exec (.flit p f) s = .next t ∧ taken t ∧ s.raised t E.FAB_REPLAY p ∧
         t.out = s.out ++ [Out.replay p f.ack flits] ∧
         t.rd R.FAB_TX_FLITS_TX p = (s.rd R.FAB_TX_FLITS_TX p + flits.length) % 2 ^ 64 ∧
         (t.port p).replays = (if x.acked = f.ack then x.replays + 1 else 1)) ∧
     (good → f.nak = true → x.acked = f.ack → 8 ≤ x.replays →
       ∃ t, exec (.flit p f) s = .next t ∧ s.raised t E.FAB_LINK_DOWN p ∧ t.portState p = 0)) ∧
  (∀ s : State, s.wf = true →
     (∀ l : LaneId, s.testable l = true →
       (∀ q r, s.freeLanes (laneDie l) = q :: r →
         ∃ t, exec (.laneTest l) s = .next t ∧ t.fab.tests = s.fab.tests ++ [⟨l, s.layout.lane l, q, false⟩] ∧
           t.rd R.LANE_STATUS_STATE l = 3 ∧ t.on R.LANE_STATUS_BORROWED l = true ∧ t.layout = s.layout ∧
           s.regsBut t (fkey R.LANE_STATUS_STATE l 0 0 :: fkey R.LANE_STATUS_BORROWED l 0 0 :: txKeys)) ∧
       (s.freeLanes (laneDie l) = [] →
         ∃ t, exec (.laneTest l) s = .next t ∧ s.raised t E.LANE_TEST_SKIP l ∧ t = { s with regs := t.regs, log := t.log })) ∧
     (∀ l : LaneId, s.testable l = false → exec (.laneTest l) s = .next s) ∧
     (s.on R.FAB_BERT_CFG_EN = false → exec .intervalTest s = .next s) ∧
     (s.nextTest = none → exec .intervalTest s = .next s) ∧
     (∀ l b q r, s.on R.FAB_BERT_CFG_EN = true → s.nextTest = some (l, b) → s.freeLanes (laneDie l) = q :: r →
       ∃ t, exec .intervalTest s = .next t ∧ t.fab.tests = s.fab.tests ++ [⟨l, s.layout.lane l, q, false⟩] ∧
         t.fab.nextLane = l + 1 ∧ t.fab.passBar = some b) ∧
     (∀ p : PortId, s.inService p = false → (s.port p).bert = false → (lanesOf p).filter (s.avail 0x31) ≠ [] →
       ∃ t, exec (.bert p) s = .next t ∧ t.portState p = 5 ∧ (t.port p).bert = true ∧
         t.fab.tests = s.fab.tests ++ ((lanesOf p).filter (s.avail 0x31)).map (fun l =>
           ⟨l, s.layout.lane l, 0xFFFF, true⟩)) ∧
     (∀ (l : LaneId) (errors : Nat) x, s.fab.tests = [x] → x.lane = l.val →
       ∃ t, exec (.bertRunEnd l errors) s = .next t ∧ t.rd R.LANE_BER_ERRORS l = min errors 0xFFFFFFFF ∧
         t.on R.LANE_BER_PASS l = decide (errors ≤ 2 ^ 20) ∧ t.fab.tests = [] ∧
         (x.install = false → errors ≤ 2 ^ 20 → t.rd R.LANE_STATUS_STATE l = 2 ∧ t.on R.LANE_STATUS_BORROWED l = false ∧
           t.layout = s.layout) ∧
         (x.install = false → 2 ^ 20 < errors → s.raised t E.LANE_TEST_FAIL l ∧ t.layout.lane l = x.spare) ∧
         (x.install = true → errors ≤ 2 ^ 20 → t.portState (l / 8) = 2)))

/-- SDATA, UDATA and STORE that arrive on a port that carries their class (R316, R328, R330, R334, R335): refused with
the status of the checks, or written at the region's address and answered; nothing else of memory changes. The checks
of a packet in their order (R324, R328): malformed, a reserved type among it, stale, reset, fenced, then the key: the
partition's EN, then what its region entry says. -/
def Obligations.PacketWrites : Prop :=
  (∀ (k : Pkt) (s : State), s.wf = true → ∀ e ∈ [(Instr.sdata k, 0x08), (.udata k, 0x1B), (.fabricStore k, 0x19)],
     let c := s.checkPkt e.2 k
     (s.hears k = false → exec e.1 s = .next s) ∧
     (s.onLink k = true → c.2.1 ≠ 0 → ∃ t, exec e.1 s = .next t ∧ s.turnedAway t e.2 k c.2.1) ∧
     (s.onLink k = true → c.2.1 = 0 → ∃ t, exec e.1 s = .next t ∧ s.stored t c.2.2 (pktData k) ∧ s.replied t (s.answerTo k 0x10 0) ∧
       s.regsButCrc t (flagKeys E.FAB_KEY_BAD ++ txKeys) ∧
       t = { s with regs := t.regs, mem := t.mem, memMark := t.memMark, fab := t.fab, log := t.log, gate := { s.gate with flits := t.gate.flits }, out := t.out })) ∧
  (∀ (typ : Nat) (k : Pkt) (s : State),
     let c := s.checkPkt typ k
     let sched := typ = 0x08 ∨ typ = 0x0A ∨ typ = 0x0B ∨ typ = 0x09 ∨ typ = 0x1C
     let bad := packetTypes.contains k.typ.toNat = false ∨ classOk typ k.cls.toNat = false ∨ badLen typ k.len.toNat k.off.toNat k.wide = true ∨
       (typ = 0x1A ∧ 3 < k.aop.toNat) ∨ (k.arrEn = true ∧ 47 < k.dset.toNat)
     (bad → c.2.1 = 8) ∧
     (¬bad → sched → k.bar.toNat ≠ s.bar % 65536 → c.2.1 = 7) ∧
     (¬bad → (sched → k.bar.toNat = s.bar % 65536) → s.rd R.PART_STATUS_STATE k.part = 2 → c.2.1 = 6) ∧
     (s.earlyStatus typ k = 0 → s.fab.invs = [] →
       ((mget 0 s.fab.keys k.part).testBit 48 = false → c.2.1 = 1) ∧
       (∀ r, (mget 0 s.fab.keys k.part).testBit 48 = true →
         mget none s.fab.cache (1024 * k.part.val + k.key.toNat % 1024) = some r →
         c.2.2 = r.base + k.off.toNat ∧
         (r.valid = false ∨ r.tag ≠ k.key.toNat / 1024 → c.2.1 = 1) ∧
         (r.valid = true → r.tag = k.key.toNat / 1024 →
           (r.fence = true → c.2.1 = 4) ∧
           (r.fence = false → r.anyPart = false → r.srcPart ≠ k.srcPart.val → c.2.1 = 5) ∧
           (r.fence = false → (r.anyPart = true ∨ r.srcPart = k.srcPart.val) →
             (r.permits typ k.arrEn = false → c.2.1 = 2) ∧
             (r.permits typ k.arrEn = true → c.2.1 = if r.len < k.off.toNat + reach typ k then 3 else 0))))))

/-- SCOMMIT and UCOMMIT on a port that carries their class (R80, R316, R332, R334, R335): a repeated one gets its kept
answer and does nothing more; a first one increments its counter when it carries one, is answered, and its outcome is
kept. On a port that carries their class, LOAD returns the bytes and the marks of the region and changes no memory;
ATOMIC returns the old value and writes the new one: the sum, the lesser, the greater, or the operand where the old
value compares equal; a refused ATOMIC is answered by ARESP (R316, R324, R330, R332, R338). -/
def Obligations.CommitsLoadsAtomics : Prop :=
  (∀ (k : Pkt) (s : State), s.wf = true → ∀ e ∈ [(Instr.scommit k, 0x09), (.ucommit k, 0x1C)],
     let c := s.checkPkt e.2 k
     (s.hears k = false → exec e.1 s = .next s) ∧ (s.onLink k = true →
     (∀ o, s.keptFor k = some o → ∃ t, exec e.1 s = .next t ∧ s.replied t { o.ans with via := k.via } ∧ s.regsBut t txKeys ∧
       t = { s with regs := t.regs, fab := { s.fab with loop := t.fab.loop, ports := t.fab.ports }, gate := { s.gate with flits := t.gate.flits }, out := t.out }) ∧
     (s.keptFor k = none →
       (c.2.1 ≠ 0 → ∃ t, exec e.1 s = .next t ∧ s.turnedAway t e.2 k c.2.1) ∧
       (c.2.1 = 0 → ∃ t, exec e.1 s = .next t ∧ s.replied t (s.answerTo k 0x10 0) ∧ s.sameMem t ∧ s.sameTiles t ∧
         (let n := s.rd R.SCHED_ARR_COUNT k.dset.toNat k.arr.toNat
          t.rd R.SCHED_ARR_COUNT k.dset.toNat k.arr.toNat =
            if k.arrEn then (n + 1) % 2 ^ R.SCHED_ARR_COUNT.wid else n) ∧
         ∃ o ∈ t.fab.kept.drop s.fab.kept.length, o.pkg = k.src.val ∧ o.unit = k.unit.toNat ∧ o.reqid = k.reqid.toNat ∧
           o.until_ = s.tempo.now + 2048 * s.rd R.FAB_DEAD_BEATS ∧ o.ans = s.answerTo k 0x10 0)))) ∧
  (∀ (k : Pkt) (s : State), s.wf = true →
     (s.hears k = false → exec (.fabricLoad k) s = .next s ∧ exec (.fabricAtomic k) s = .next s) ∧
     (s.onLink k = true → let c := s.checkPkt 0x18 k
      (c.2.1 ≠ 0 → ∃ t, exec (.fabricLoad k) s = .next t ∧ s.turnedAway t 0x18 k c.2.1) ∧
      (c.2.1 = 0 → ∃ (t : State) (marks : Word), exec (.fabricLoad k) s = .next t ∧ s.sameMem t ∧ s.sameTiles t ∧
        s.replied t { s.answerTo k 0x11 0 with len := k.len, data := s.devBytes c.2.2 k.len.toNat, poison := marks } ∧
        ∀ i < 64, marks.getLsbD i = (decide (64 * i < k.len.toNat) && s.lineMark (c.2.2 + 64 * i)))) ∧
     (s.onLink k = true → let c := s.checkPkt 0x1A k
      let w := if k.wide then 8 else 4
      let old := s.devNat c.2.2 w
      let x := ofLE (k.data.take 8) % 2 ^ (8 * w)
      let cmp := ofLE ((k.data.drop 8).take 8) % 2 ^ (8 * w)
      (∀ o, s.keptFor k = some o → ∃ t, exec (.fabricAtomic k) s = .next t ∧ s.replied t { o.ans with via := k.via } ∧ s.sameMem t) ∧
      (s.keptFor k = none → c.2.1 ≠ 0 → ∃ t, exec (.fabricAtomic k) s = .next t ∧ s.turnedAway t 0x1A k c.2.1) ∧
      (s.keptFor k = none → c.2.1 = 0 →
        ∃ t, exec (.fabricAtomic k) s = .next t ∧ s.replied t { s.answerTo k 0x12 0 with data := toLE 8 old } ∧
          (k.aop = 0 → s.stored t c.2.2 (clean (toLE w ((old + x) % 2 ^ (8 * w))))) ∧
          (k.aop = 1 → k.uns = true → s.stored t c.2.2 (clean (toLE w (min x old)))) ∧
          (k.aop = 2 → k.uns = true → s.stored t c.2.2 (clean (toLE w (max x old)))) ∧
          (k.aop = 1 → k.uns = false →
            s.stored t c.2.2 (clean (toLE w (if signed (8 * w) x < signed (8 * w) old then x else old)))) ∧
          (k.aop = 2 → k.uns = false →
            s.stored t c.2.2 (clean (toLE w (if signed (8 * w) old < signed (8 * w) x then x else old)))) ∧
          (k.aop = 3 → old = cmp → s.stored t c.2.2 (clean (toLE w x))) ∧
          (k.aop = 3 → old ≠ cmp → s.sameMem t))))

/-- Answers taken (R330, R334, R335, R338): the answer of a commit counts it, that of a GET lands, that of an ATOMIC
is kept. -/
def Obligations.AnswersTaken : Prop :=
  ∀ (k : Pkt) (s : State), s.wf = true →
    (s.hears k = false → ∀ c ∈ [Instr.ack k, .ldata k, .aresp k], exec c s = .next s) ∧ (s.hears k = true →
    (∀ o, s.openOp k = some o →
      let gone := fun (t : State) => ∀ x ∈ t.fab.ops, ¬(x.unit = o.unit ∧ x.reqid = o.reqid)
      (s.lapsed o 1 = true → o.owner = .core → o.typ ≠ 0x18 → o.typ ≠ 0x1A →
        ∃ t, exec (.ack k) s = .next t ∧ gone t ∧ s.sameMem t ∧ s.raisedBy t o.unit E.FAB_DEAD_TARGET ∧
          s.raisedBy t k.portUnit E.FAB_LATE_RESP) ∧
      (o.absorb = none → s.lapsed o 1 = false → k.status = 0 →
        (∀ set bar, o.typ = 0x09 → o.owner = .scommit set bar →
          ∃ t, exec (.ack k) s = .next t ∧ gone t ∧ s.sameMem t ∧ t.rd R.COPY_FCOPY_COMMITTED (set % 16) =
            (s.rd R.COPY_FCOPY_COMMITTED (set % 16) + 1) % 2 ^ R.COPY_FCOPY_COMMITTED.wid) ∧
        (∀ e num off d, o.owner = .copyPart e num off → s.fab.descs.find? (fun x => x.num = num) = some d →
          (o.typ = 0x18 → d.op = 1 →
            ∃ t, exec (.ldata k) s = .next t ∧ gone t ∧ s.stored t (d.laddr + off) (pktData k) ∧
              ∃ d' ∈ t.fab.descs, d'.num = num ∧ d'.left = d.left.erase o.reqid) ∧
          (o.typ = 0x1A → d.op = 2 →
            ∃ t, exec (.aresp k) s = .next t ∧ gone t ∧ s.sameMem t ∧
              ∃ d' ∈ t.fab.descs, d'.num = num ∧ d'.old = ofLE ((List.range 8).map (fun i => k.data.getD i 0)))))))

/-- An answer, on a port that carries it (R316), that matches no open operation by SRC_PKG, SRC_UNIT and REQID, one
already resolved among them, raises LATE_RESP and does nothing more, and no response goes out; one that a reset
absorbs is counted in PART_ABSORBED instead (R340, R399). -/
def Obligations.LateAnswers : Prop :=
  ∀ (k : Pkt) (s : State), s.wf = true → s.hears k = true →
    ((∀ o ∈ s.fab.ops, ¬(o.dst = k.src.val ∧ o.unit = k.unit.toNat ∧ o.reqid % 65536 = k.reqid.toNat)) →
      ∀ c ∈ [Instr.ack k, .ldata k, .aresp k],
        ∃ t, exec c s = .next t ∧ s.raisedBy t k.portUnit E.FAB_LATE_RESP ∧ s.regsBut t (flagKeys E.FAB_LATE_RESP) ∧
          t = { s with regs := t.regs, log := t.log }) ∧
    (∀ o p, s.openOp k = some o → o.absorb = some p → p < 16 →
      ∀ e ∈ [(Instr.ack k, o.typ ≠ 0x18 ∧ o.typ ≠ 0x1A), (.ldata k, o.typ = 0x18), (.aresp k, o.typ = 0x1A)], e.2 →
        ∃ t, exec e.1 s = .next t ∧ (∀ x ∈ t.fab.ops, ¬(x.unit = o.unit ∧ x.reqid = o.reqid)) ∧ s.sameMem t ∧
          t.rd R.PART_ABSORBED_ANSWERS p = (s.rd R.PART_ABSORBED_ANSWERS p + 1) % 2 ^ R.PART_ABSORBED_ANSWERS.wid ∧
          ((∀ x ∈ s.fab.ops, x.waiting = false ∧ x.held = false ∧ (x.typ = 0x0A → x.port.isSome = true)) →
            s.regsBut t [fkey R.PART_ABSORBED_ANSWERS p 0 0] ∧ t = { s with regs := t.regs, fab := t.fab }))

/-- An operation whose deadline's tick is over (R339, R349) raises DEAD_TARGET in the name of the unit that issued it,
is latched and forgotten; before that, and for one whose answers are absorbed (R399), nothing happens. Kept outcomes
past their time are forgotten (R332). INV and INV_ALL take effect within a beat: the entry, or every entry of the
partition, is read again, with BASE and EN as written (R329). -/
def Obligations.DeadlinesAndKeys : Prop :=
  ∀ s : State, s.wf = true →
    (∀ (unit : BitVec 8) (reqid : BitVec 16),
      ((∀ o ∈ s.fab.ops, o.unit = unit.toNat → o.reqid % 65536 = reqid.toNat →
          o.waiting = true ∨ o.absorb.isSome = true ∨ s.passed o.stamp (s.rd R.FAB_DEAD_BEATS * 1024 + 1) = false) →
        exec (.deadTarget unit reqid) s = .next s) ∧
      (∀ o, s.fab.ops.find? (fun o => o.unit = unit.toNat && o.reqid % 65536 = reqid.toNat && s.lapsed o 1) = some o →
        let gone := fun (t : State) => ∀ x ∈ t.fab.ops, ¬(x.unit = unit.toNat ∧ x.reqid = o.reqid)
        (o.owner = .core ∨ ∃ e num off, o.owner = .copyPart e num off ∧ e < 16) →
        ∃ t, exec (.deadTarget unit reqid) s = .next t ∧ s.raisedBy t unit.toNat E.FAB_DEAD_TARGET ∧
          t.rd R.FAB_LAST_DEAD_PKG = o.dst % 4096 ∧ t.rd R.FAB_LAST_DEAD_UNIT = unit.toNat ∧
          t.rd R.FAB_LAST_DEAD_STAMP_STAMP = s.stamp ∧
          (∀ e num off, o.owner = .copyPart e num off → s.raised t E.COPY_DEAD_TARGET e) ∧
          gone t)) ∧
    (∃ t, exec .outcomeExpiry s = .next t ∧ (∀ o, o ∈ t.fab.kept ↔ o ∈ s.fab.kept ∧ s.tempo.now < o.until_) ∧
      (s.fab.ops.all (fun o => !o.waiting) = true → t = { s with fab := { s.fab with kept := t.fab.kept } }) ∧
      s.regsBut t txKeys ∧ t = { s with regs := t.regs, fab := t.fab, gate := { s.gate with flits := t.gate.flits }, out := t.out }) ∧
    (∀ (p : PartId) (i : Fin 1024),
      (∃ t, exec (.inv p i) s = .next t ∧ t = { s with fab := { s.fab with invs := t.fab.invs } } ∧
        mget none (State.settleKeys { t with tempo := { t.tempo with now := t.tempo.now + 1024 } }).fab.cache
          (1024 * p.val + i.val) = none) ∧
      (∃ t, exec (.invAll p) s = .next t ∧ t = { s with fab := { s.fab with invs := t.fab.invs } } ∧
        (let u := State.settleKeys { t with tempo := { t.tempo with now := t.tempo.now + 1024 } }
         (∀ j < 1024, mget none u.fab.cache (1024 * p.val + j) = none) ∧ mget 0 u.fab.keys p.val = s.keysReg p)))

/-- A copy descriptor at the head of an enabled ring (R333, R334): taken in order, the head moves on; a malformed one
moves nothing and raises MALFORMED; a PUT sends its lines, a GET asks for them, an ATOMIC sends one request, a FENCE
nothing. When every transfer is answered it completes: a record, a count, and no longer in flight. Which descriptors
are malformed beyond the manual's list is log 30. -/
def Obligations.CopyDescriptors : Prop :=
  ∀ (e : CopyId) (s : State), s.wf = true →
    (s.nextDescOf e = none → ∀ c ∈ [Instr.copyPut e, .copyGet e, .copyAtomic e, .copyFence e], exec c s = .next s) ∧
    (∀ d c, s.nextDescOf e = some d →
      (c, min 3 (bits d.w0 3 0)) ∈ [(Instr.copyPut e, 0), (.copyGet e, 1), (.copyAtomic e, 2), (.copyFence e, 3)] →
      let bad := s.descBad (s.rd R.COPY_CTL_PART e) d
      (3 < bits d.w0 3 0 → bad = true) ∧ ∃ t x, exec c s = .next t ∧ t.fab.descs = s.fab.descs ++ [x] ∧ x.eng = e.val ∧
        x.index = s.rd R.COPY_HEAD_HEAD e ∧ x.op = bits d.w0 3 0 ∧ s.sameMem t ∧ s.sameTiles t ∧
        t.rd R.COPY_HEAD_HEAD e = (s.rd R.COPY_HEAD_HEAD e + 1) % s.copyRing e % 2 ^ R.COPY_HEAD_HEAD.wid ∧
        (bad = true → s.raised t E.COPY_MALFORMED e ∧ x.status = 8 ∧ t.fab.ops = s.fab.ops) ∧
        (bad = false → x.status = 0 ∧
          x.left.length = (if bits d.w0 3 0 < 2 then (pieces d.roff (bits d.w3 31 0)).length
            else if bits d.w0 3 0 = 2 then 1 else 0) ∧
          t.fab.ops.length = s.fab.ops.length + x.left.length ∧
          ∀ o ∈ t.fab.ops.drop s.fab.ops.length, o.unit = copyUnit e ∧ o.dst = x.dst % 4096)) ∧
    (∀ i d, s.fab.descs.find? (fun d => d.eng = e.val && d.index = i && d.over) = some d → d.cpl ≠ 0 → d.irq = false →
      (∀ set arr, d.arr = some (set, arr) → set < 48 ∧ arr < 32) →
      ∃ t, exec (.copyComplete e i) s = .next t ∧ (∀ x ∈ t.fab.descs, x.num ≠ d.num) ∧
        s.stored t d.cpl (clean ([d.status, s.stamp, d.old, d.index].flatMap (toLE 8))) ∧
        t.rd R.COPY_DONE_DESCS e = (s.rd R.COPY_DONE_DESCS e + 1) % 2 ^ R.COPY_DONE_DESCS.wid ∧
        (∀ set arr, d.arr = some (set, arr) → d.op = 1 → d.status = 0 → d.bar = s.bar →
          t.rd R.SCHED_ARR_COUNT set arr = (s.rd R.SCHED_ARR_COUNT set arr + 1) % 2 ^ R.SCHED_ARR_COUNT.wid)) ∧
    (∀ i, s.fab.descs.find? (fun d => d.eng = e.val && d.index = i && d.over) = none →
      exec (.copyComplete e i) s = .next s)

/-- Doorbells (R356, R365, R366, R400): the PF's write to a page that a VF serves is dropped with PF_DROP, a VF's to a
page of the PF without effect; a size other than 4 or 8 is bad; during a partition reset it is held; a legal value
moves the index, an illegal one, or any while EN is 0, raises DB_BAD. -/
def Obligations.Doorbells : Prop :=
  ∀ (g : GroupId) (e : CopyId) (c : CqId) (pf : Bool) (size : Nat) (val : Word) (s : State), s.wf = true →
    let v := val.toNat % 65536
    ∀ b ∈ [(Instr.sqTail g pf size val, 0), (.copyTail g e pf size val, 0x40 + 8 * e.val), (.cqHead g c pf size val, 0x100 + 8 * c.val)],
      (pf = true → s.on R.PCIE_GRP_CTL_VF 0 g = true →
        ∃ t, exec b.1 s = .next t ∧ s.raised t E.PCIE_PF_DROP ∧ t = { s with regs := t.regs, log := t.log }) ∧
      (pf = false → s.on R.PCIE_GRP_CTL_VF 0 g = false → exec b.1 s = .next s) ∧
      (pf ≠ s.on R.PCIE_GRP_CTL_VF 0 g →
        let bad := ∃ t, exec b.1 s = .next t ∧ s.raised t E.PCIE_DB_BAD ∧ t.rd R.PCIE_LAST_DB_GROUP = g ∧
          t.rd R.PCIE_LAST_DB_OFFSET = b.2 ∧ t = { s with regs := t.regs, log := t.log }
        (size ≠ 4 ∧ size ≠ 8 → bad) ∧
        (size = 4 ∨ size = 8 → g.val < 16 ∧ s.rd R.PART_STATUS_STATE g = 2 → exec b.1 s =
          .next { s with host := { s.host with bells := s.host.bells ++ [⟨g, b.2, v⟩] } }) ∧
        (size = 4 ∨ size = 8 → ¬(g.val < 16 ∧ s.rd R.PART_STATUS_STATE g = 2) →
          (s.on R.PCIE_GRP_CTL_EN 0 g = false → bad) ∧
          (s.on R.PCIE_GRP_CTL_EN 0 g = true → b.2 = 0 →
            (s.sqTailOk g v = false → bad) ∧
            (s.sqTailOk g v = true → ∃ t, exec b.1 s = .next t ∧ t.rd R.PCIE_GRP_SQ_CFG_TAIL 0 g = v ∧
              s.regsBut t [fkey R.PCIE_GRP_SQ_CFG_TAIL 0 g 0] ∧ t = { s with regs := t.regs })) ∧
          (s.on R.PCIE_GRP_CTL_EN 0 g = true → b.2 = 0x40 + 8 * e.val →
            (s.copyTailOk g e v = false → bad) ∧
            (s.copyTailOk g e v = true → ∃ t, exec b.1 s = .next t ∧
              t.rd R.COPY_TAIL_TAIL e = v % 2 ^ R.COPY_TAIL_TAIL.wid ∧
              s.regsBut t [fkey R.COPY_TAIL_TAIL e 0 0] ∧ t = { s with regs := t.regs })) ∧
          (s.on R.PCIE_GRP_CTL_EN 0 g = true → b.2 = 0x100 + 8 * c.val →
            (s.cqHeadOk g c v = false → bad) ∧
            (s.cqHeadOk g c v = true → (s.cq g c).blCount = 0 → (s.cq g c).waiting = [] →
              ∃ t, exec b.1 s = .next t ∧ t.rd R.PCIE_CQ_CFG_HEAD 0 g c = v % 2 ^ R.PCIE_CQ_CFG_HEAD.wid ∧
                s.regsBut t [fkey R.PCIE_CQ_CFG_HEAD 0 g c] ∧ t = { s with regs := t.regs }))))

/-- The next entry of a submission ring (R367, R369, R370): a listed and well-formed one is taken and stays open; one
of a type not listed completes with DENIED, one with a stray bit with MALFORMED. -/
def Obligations.RequestsTaken : Prop :=
  ∀ (g : GroupId) (s : State), s.wf = true → s.mayTake g = true → s.ringTurn g = true →
    (∀ bs, g.val < 16 → s.rd R.PART_STATUS_STATE g = 2 → s.ringOpen g (reqOf g (entryOf bs)).cq.val →
      ∃ t, exec (.requestTake g (.data bs)) s = .next t ∧ s.entryOut t (reqOf g (entryOf bs)) stReset ∧
        t.rd R.PCIE_GRP_SQ_CFG_HEAD 0 g = (s.rd R.PCIE_GRP_SQ_CFG_HEAD 0 g + 1) % s.sqSize g % 2 ^ R.PCIE_GRP_SQ_CFG_HEAD.wid ∧
        t.host.reqs.length = s.host.reqs.length ∧ s.sameMem t) ∧
    (∀ bs, ¬(g.val < 16 ∧ s.rd R.PART_STATUS_STATE g = 2) →
      let w := entryOf bs
      let r := reqOf g w
      let typ := bits (w.getD 0 0) 7 0
      let taken := fun (t : State) => t.rd R.PCIE_GRP_SQ_CFG_HEAD 0 g =
        (s.rd R.PCIE_GRP_SQ_CFG_HEAD 0 g + 1) % s.sqSize g % 2 ^ R.PCIE_GRP_SQ_CFG_HEAD.wid
      (typeAllowed g typ = true → entryBad typ (w.getD 0 0) (w.getD 2 0) (w.drop 3) = false →
        ∃ t, exec (.requestTake g (.data bs)) s = .next t ∧ taken t ∧
          t.host.reqs = s.host.reqs ++ [⟨r, typ, s.tempo.now⟩] ∧
          t = { s with
            regs := t.regs
            host := { s.host with reqs := t.host.reqs }
            caller := { s.caller with served := t.caller.served }
            out := s.out ++ [Out.hostFetch (s.fnOf g) (4096 * s.rd R.PCIE_GRP_SQ_BASE_BASE 0 g +
              128 * s.rd R.PCIE_GRP_SQ_CFG_HEAD 0 g) 128] }) ∧
      (typeAllowed g typ = false → s.ringOpen g r.cq.val →
        ∃ t, exec (.requestTake g (.data bs)) s = .next t ∧ taken t ∧ s.entryOut t r stDenied ∧
          t.host.reqs.length = s.host.reqs.length ∧ s.sameMem t) ∧
      (typeAllowed g typ = true → entryBad typ (w.getD 0 0) (w.getD 2 0) (w.drop 3) = true → s.ringOpen g r.cq.val →
        ∃ t, exec (.requestTake g (.data bs)) s = .next t ∧ taken t ∧ s.entryOut t r stMalformed ∧
          t.host.reqs.length = s.host.reqs.length ∧ s.sameMem t))

/-- A submission entry whose read fails at its turn is not taken (R189): the ring halts with SQ_HALT and SQ_ERR, the
requests taken before stay open, and nothing is taken; SQ_RESTART clears SQ_HALT and the failed entry is read again
(R368). -/
def Obligations.FailedEntryRead : Prop :=
  ∀ (g : GroupId) (s : State), s.wf = true →
    (∃ u, exec (.sqRestart g) s = .next u ∧ u.on R.PCIE_GRP_CTL_SQ_HALT 0 g = false ∧
      s.regsBut u [fkey R.PCIE_GRP_CTL_SQ_HALT 0 g 0] ∧ u = { s with regs := u.regs }) ∧
    (s.mayTake g = true → s.ringTurn g = true → ∃ t, exec (.requestTake g .failed) s = .next t ∧ t.on R.PCIE_GRP_CTL_SQ_HALT 0 g = true ∧ s.raised t E.PCIE_SQ_ERR ∧
      t.rd R.PCIE_GRP_SQ_CFG_HEAD 0 g = s.rd R.PCIE_GRP_SQ_CFG_HEAD 0 g ∧ t.host.reqs = s.host.reqs ∧
      t = { s with regs := t.regs, log := t.log, host := { s.host with aer := t.host.aer }, out := t.out } ∧
      (∀ d, exec (.requestTake g d) t = .next t) ∧
      ∃ u, exec (.sqRestart g) t = .next u ∧ u.on R.PCIE_GRP_CTL_SQ_HALT 0 g = false ∧ u.mayTake g = true ∧
        u.rd R.PCIE_GRP_SQ_CFG_HEAD 0 g = s.rd R.PCIE_GRP_SQ_CFG_HEAD 0 g ∧
        t.regsBut u [fkey R.PCIE_GRP_CTL_SQ_HALT 0 g 0] ∧ u = { t with regs := u.regs })

/-- TO_DEVICE and TO_HOST (R354, R358 to R360, R371): illegal fields complete with their status; a TO_DEVICE reads the
host up to the next 4 KiB boundary under a free tag of ten bits, its last answer writes the bytes and completes it, an
earlier one is kept, a failed one completes it with HOST_ERR; a TO_HOST writes every line, a marked one with EP. Both
wait while their function may not reach the host or the memories are in self-refresh (R420). A request of a group
whose function may not reach the host is not taken, nor is one out of its ring's turn, and its TO_HOST waits (R189,
R358). The status of an illegal address or length is log 31. -/
def Obligations.HostTransfers : Prop :=
  (∀ (r : Req) (s : State), s.wf = true → s.ringOpen r.grp.val r.cq.val →
     (s.openAs 0x12 r = true → s.host.xfers = [] →
       (s.copyStatus r ≠ 0 → ∃ t, exec (.toDevice r) s = .next t ∧ s.completed t r (s.copyStatus r) ∧ s.sameMem t) ∧
       (s.copyStatus r = 0 → s.power.selfRefresh = true →
         exec (.toDevice r) s = .next { s with
           host := { s.host with xfers := [⟨.toDevice r, r.grp.val, r.w 3, r.f 4 47 0, r.f 5 31 0, [], none, 0⟩] } }) ∧
       (s.copyStatus r = 0 → s.power.selfRefresh = false →
         let n := min (r.f 5 31 0) (4096 - r.w 3 % 4096)
         let tag := s.host.nextTag % 1024
         exec (.toDevice r) s = .next { s with
           host := { s.host with
             xfers := [⟨.toDevice r, r.grp.val, r.w 3, r.f 4 47 0, r.f 5 31 0, [], some tag, n⟩]
             nextTag := (tag + 1) % 1024 }
           out := s.out ++ [.hostRead tag (s.fnOf r.grp) (r.w 3) n] })) ∧
     (s.openAs 0x13 r = true → s.power.selfRefresh = true → exec (.toHost r) s = .next s) ∧
     (s.openAs 0x13 r = true → s.power.selfRefresh = false →
       (s.copyStatus r ≠ 0 → ∃ t, exec (.toHost r) s = .next t ∧ s.completed t r (s.copyStatus r) ∧ s.sameMem t) ∧
       (s.copyStatus r = 0 →
         ∃ t, exec (.toHost r) s = .next t ∧ s.completed t r 0 ∧ s.sameMem t ∧
           (∀ i < r.f 5 31 0 / 64, Out.hostWrite (s.fnOf r.grp) (r.w 3 + 64 * i) (s.devBytes (r.f 4 47 0 + 64 * i) 64)
             (s.lineMark (r.f 4 47 0 + 64 * i)) ∈ t.out.drop s.out.length) ∧
           (s.rangeMarked (r.f 4 47 0) (r.f 5 31 0) = true → s.raised t E.PCIE_EP_TX))) ∧
     (∀ x : Xfer, s.isOpen r = true → s.host.xfers = [x] → x.why = .toDevice r → x.left = x.ask →
       (∀ tag bs, x.tag = some tag → x.ask ≤ bs.length →
         ∃ t, exec (.hostReadCompletion tag (.data bs)) s = .next t ∧ s.completed t r 0 ∧ t.host.xfers = [] ∧
           s.stored t x.daddr (x.got ++ clean (bs.take x.ask))) ∧
       (∀ tag bs, x.tag = some tag → bs.length < x.ask →
         exec (.hostReadCompletion tag (.data bs)) s = .next { s with host := { s.host with
           xfers := [{ x with haddr := x.haddr + bs.length, left := x.left - bs.length, ask := x.ask - bs.length,
                              got := x.got ++ clean bs }] } }) ∧
       (∀ tag, x.tag = some tag →
         ∃ t, exec (.completionTimeout tag) s = .next t ∧ s.completed t r stHostErr ∧ s.raised t E.PCIE_HOST_ERR ∧
           t.host.xfers = [] ∧ s.sameMem t)) ∧
     (∀ tag d, s.xferOf tag = none → exec (.hostReadCompletion tag d) s = .next s ∧
       exec (.completionTimeout tag) s = .next s)) ∧
  (∀ (g : GroupId) (s : State), s.busOk g = false →
     (∀ d, exec (.requestTake g d) s = .next s) ∧
     (∀ (h : GroupId) (d : HostData), s.ringTurn h = false → exec (.requestTake h d) s = .next s) ∧ ∀ r : Req, r.grp = g → exec (.toHost r) s = .next s)

/-- LOAD_FIGURE and RUN_FIGURE (R70, R370, R390, R392, R468): the first check that fails gives the status; a good
image is held with the index it completes with and measured, and an untimed one in no bar is active; a run starts a
pass of every Set it names, from command 0. -/
def Obligations.FiguresLoadRun : Prop :=
  ∀ (r : Req) (s : State), s.wf = true → s.ringOpen r.grp.val r.cq.val →
    (s.openAs 0x10 r = true →
      let p := r.grp.val
      let a := r.f 3 47 0
      let st := if s.locked p = false then stBadState else if s.inPart p a (r.f 4 31 0) = false then stBounds
        else if s.figGood p a (r.f 4 31 0) (Req.digest r) = false then stFigureBad
        else if s.barBegun (r.w 5) then stLate
        else if (s.figIndex p (bits (s.figWord a 0) 59 48)).isNone then stFull else 0
      (st ≠ 0 → ∃ t, exec (.loadFigure r) s = .next t ∧ s.completed t r st ∧ t.figs = s.figs ∧ s.sameMem t) ∧
      (st = 0 → ∃ t, exec (.loadFigure r) s = .next t ∧ s.completed t r 0 ∧
        t.rd R.SEC_MEAS_GEN = (s.rd R.SEC_MEAS_GEN + 1) % 2 ^ R.SEC_MEAS_GEN.wid ∧
        ∃ i im, s.figIndex p (bits (s.figWord a 0) 59 48) = some i ∧ im ∈ t.figs ∧ im.part = p ∧ im.idx = i ∧
          im.addr = a ∧ im.eff = r.w 5 ∧ im.streams = s.figStreams a ∧
          (im.active = true ↔ im.timed = false ∧ s.tempo.barOn = false))) ∧
    (s.openAs 0x11 r = true → s.runs.contains r = false →
      let mask := r.f 4 47 0
      ((s.figsOf r.grp.val).find? (fun x => x.idx = r.f 3 1 0) = none →
        ∃ t, exec (.runFigure r) s = .next t ∧ s.completed t r stNotFound ∧ t.sets = s.sets) ∧
      (∀ im, (s.figsOf r.grp.val).find? (fun x => x.idx = r.f 3 1 0) = some im →
        (onlyBits mask im.sets = false ∨ mask = 0 →
          ∃ t, exec (.runFigure r) s = .next t ∧ s.completed t r stBadArg ∧ t.sets = s.sets) ∧
        (onlyBits mask im.sets = true → mask ≠ 0 → im.timed = false → im.active = true →
          (∀ n < 48, mask.testBit n = true → s.passReady n = true) →
          ∃ t, exec (.runFigure r) s = .next t ∧ t.runs = s.runs ++ [r] ∧
            (∀ n < 48, mask.testBit n = true → t.setState n = 2 ∧ t.rd R.SCHED_STATUS_ISSUE_IDX n = 0 ∧
              t.rd R.SCHED_STATUS_COMMIT_IDX n = 0 ∧ (t.st n).flights = [] ∧ (t.st n).start = s.tempo.now) ∧
            (∀ n < 48, mask.testBit n = false → t.st n = s.st n ∧ t.setState n = s.setState n) ∧
            t = { s with regs := t.regs, sets := t.sets, runs := t.runs })))

/-- ROLE_CHANGE and QLAUNCH (R94, R95, R341, R370): BAD_TABLE, LATE and SUPERSEDED end a role change, a takeover's
table weighed as a pending one; a newer table waits for its bar, and the mirrors of entries whose buddy changes are
copied ahead (log 143). A launch starts every context of every tile of its Sets, each tile's turn with context 0 (log
66), or ends with its status. A thread's instruction (R341): nothing out of its turn; a load or an atomic goes out and
suspends the thread, the turn passing on; a store goes out and the thread goes on; an exit ends the context; any other
instruction is the Larec Quinbingo's, whose manual this is not, and the model stops on it. -/
def Obligations.LaunchesAndThreads : Prop :=
  (∀ (r : Req) (s : State), s.wf = true → s.ringOpen r.grp.val r.cq.val →
     (s.openAs 0x20 r = true → s.rolePend = none →
       let a := r.f 3 47 0
       (s.roleGood a = false →
         ∃ t, exec (.roleChange r) s = .next t ∧ s.completed t r stBadTable ∧ t.rolePend = none ∧ t.roles = s.roles) ∧
       (s.roleGood a = true → s.barBegun (s.devWord (a + 16)) = true →
         ∃ t, exec (.roleChange r) s = .next t ∧ s.completed t r stLate ∧ s.raised t E.SCHED_ROLE_LATE ∧ t.rolePend = none) ∧
       (s.roleGood a = true → s.barBegun (s.devWord (a + 16)) = false →
         s.devWord (a + 8) ≤ s.roles.gen ∨ (s.tableHere = true ∧ s.devWord (a + 8) ≤ s.tableGen) →
         ∃ t, exec (.roleChange r) s = .next t ∧ s.completed t r stSuperseded ∧ t.rolePend = none) ∧
       (s.roleGood a = true → s.barBegun (s.devWord (a + 16)) = false → s.roles.gen < s.devWord (a + 8) →
         (s.tableHere = true → s.tableGen < s.devWord (a + 8)) →
         exec (.roleChange r) s = .next (State.copyMirror { s with rolePend := some ⟨s.roleTable a, some r⟩ }))) ∧
     (s.openAs 0x14 r = true → s.threads.all (fun e => e.2.run ≠ some r) = true →
       (s.qlaunchStatus r ≠ 0 →
         ∃ t, exec (.qlaunch r) s = .next t ∧ s.completed t r (s.qlaunchStatus r) ∧ t.threads = s.threads) ∧
       (s.qlaunchStatus r = 0 →
         ∃ t, exec (.qlaunch r) s = .next t ∧
           (∀ n < 48, (r.f 4 47 0).testBit n = true → ∀ i < 8, mget 0 t.turns (8 * n + i) = 1 ∧
             ∀ c < 16, t.thread (8 * n + i) c = ⟨some r, r.f 3 47 0, r.f 5 47 0, false, [], false⟩) ∧
           t = { s with threads := t.threads, turns := t.turns }))) ∧
  (∀ (tile : TileId) (th : Fin 16) (s : State), s.wf = true →
     (s.executes tile th = false → ∀ op, exec (.quinbingoInstruction tile th op) s = .next s) ∧
     (s.executes tile th = true →
       (∀ code, exec (.quinbingoInstruction tile th (.other code)) s = .refused .quinbingoLocal) ∧
       (∀ (q : PkgId) (part : PartId) (key : BitVec 16) (off : BitVec 40) (len : BitVec 13) (data : List Byte)
           (aop : BitVec 4) (wide uns : Bool) (x y : Word),
         (∀ e ∈ [(QOp.load q part key off len, 0x18, true), (.atomic q part key off aop wide uns x y, 0x1A, true),
             (.store q part key off data, 0x19, false)],
           ∃ t o, exec (.quinbingoInstruction tile th e.1) s = .next t ∧ t.fab.ops = s.fab.ops ++ [o] ∧ o.typ = e.2.1 ∧
             o.dst = q.val ∧ o.owner = .thread tile th e.2.2 ∧ o.pkt.key = key ∧ o.pkt.off = off ∧
             (t.thread tile th).waits = e.2.2 ∧
             mget 0 t.turns tile = (if e.2.2 then t.nextReady tile th else th.val + 1) ∧
             s.regsBut t txKeys ∧
             t = { s with regs := t.regs, fab := t.fab, threads := t.threads, turns := t.turns, gate := { s.gate with flits := t.gate.flits }, out := t.out })) ∧
       ∃ t, exec (.quinbingoInstruction tile th .exit) s = .next t ∧ t.thread tile th = .init ∧
         mget 0 t.turns tile = t.nextReady tile th ∧ ∀ a c, 16 * a + c ≠ 16 * tile.val + th.val → t.thread a c = s.thread a c))

/-- Interrupts and links (R354, R355, R357, R360, R382, R383, R386): TIME after its oldest unsignalled entry a ring is
covered by one message, sent or held pending, from the table entry of the function that serves the group; unmasking
sends a pending one; a link trains, to MAX_SPEED at most, at x1, x4 or x8 and is degraded below 128 GT/s or x8, and
trains again on request; a poisoned write is discarded with EP_RX. Groups and functions (R355, R356, R358, R362,
R386): EN set starts the rings at index 0 with PHASE 1; SR-IOV settings take effect on groups whose EN is 0; a PF FLR
clears EN of the groups that the PF serves, a hot reset and a lost link of every one; a VF FLR is a reset of its
partition; bus mastering and D3hot are kept per function. That a function reset clears Bus Master Enable, D3hot and
the MSI-X state is log 32. -/
def Obligations.LinksAndFunctions : Prop :=
  (∀ s : State, s.wf = true →
     (∀ (g : GroupId) (c : CqId), s.on R.PCIE_CQ_IRQ_IEN 0 g c = true → s.hostOk g = true → 0 < (s.cq g c).unsig →
       let e := s.msixEntry g (s.rd R.PCIE_CQ_IRQ_VEC 0 g c)
       let x := mget (0, 0) s.host.msixTab (msixKey e)
       (s.tempo.now < (s.cq g c).oldest + s.rd R.PCIE_CQ_IRQ_TIME 0 g c → exec (.msixTimeout g c) s = .next s) ∧
       ((s.cq g c).oldest + s.rd R.PCIE_CQ_IRQ_TIME 0 g c ≤ s.tempo.now →
         ∃ t, exec (.msixTimeout g c) s = .next t ∧ (t.cq g c).unsig = 0 ∧
           (t.cq g c).waiting = (s.cq g c).waiting ∧
           (s.host.unmasked.contains (msixKey e) = true → t.out = s.out ++ [Out.msix e.1 e.2 x.1 x.2]) ∧
           (s.host.unmasked.contains (msixKey e) = false → t.host.pba.contains (msixKey e) = true ∧
             t.out = s.out) ∧ t = { s with host := t.host, out := t.out })) ∧
     (∀ (g : GroupId) (v : Fin 64), s.busOk g = true →
       let e := s.msixEntry g v
       let x := mget (0, 0) s.host.msixTab (msixKey e)
       ∃ t, exec (.msixUnmask g v) s = .next t ∧ t.host.unmasked.contains (msixKey e) = true ∧
         t.host.pba.contains (msixKey e) = false ∧
         t.out = s.out ++ (if s.host.pba.contains (msixKey e) then [Out.msix e.1 e.2 x.1 x.2] else []) ∧
         t = { s with host := t.host, out := t.out }) ∧
     (∀ (speed : Fin 8) (width : Fin 9) (flit : Bool),
       (width.val ∉ [1, 4, 8] ∨ speed.val = 0 ∨ (6 ≤ speed.val ∧ flit = false) ∨ s.rd R.PCIE_LINK_CFG_MAX_SPEED < speed.val →
         exec (.pcieLinkUp speed width flit) s = .next s) ∧
       (width.val ∈ [1, 4, 8] → speed.val ≠ 0 → (speed.val < 6 ∨ flit = true) → speed.val ≤ s.rd R.PCIE_LINK_CFG_MAX_SPEED →
       ∃ t, exec (.pcieLinkUp speed width flit) s = .next t ∧ t.on R.PCIE_LINK_UP = true ∧
         t.rd R.PCIE_LINK_SPEED = speed ∧ t.rd R.PCIE_LINK_WIDTH = width ∧ t.on R.PCIE_LINK_FLIT = flit ∧
         (speed.val < 7 ∨ width.val < 8 → s.raised t E.PCIE_DEGRADED) ∧
         (speed.val = 7 → width.val = 8 → t.log = s.log) ∧ t = { s with regs := t.regs, log := t.log })) ∧
     exec .pcieRetrain s = .next (s.emit (.retrain (s.rd R.PCIE_LINK_CFG_MAX_SPEED))) ∧
     (∃ t, exec .epRx s = .next t ∧ s.raised t E.PCIE_EP_RX ∧ s.regsBut t (flagKeys E.PCIE_EP_RX) ∧
       t = { s with regs := t.regs, log := t.log })) ∧
  (∀ s : State, s.wf = true →
     (∀ g : GroupId, s.on R.PCIE_GRP_CTL_EN 0 g = false →
       exec (.groupEnable g false) s = .next s ∧
       ∃ t, exec (.groupEnable g true) s = .next t ∧ t.on R.PCIE_GRP_CTL_EN 0 g = true ∧
         t.rd R.PCIE_GRP_SQ_CFG_HEAD 0 g = 0 ∧ t.rd R.PCIE_GRP_SQ_CFG_TAIL 0 g = 0 ∧
         (∀ c < 16, s.on R.PCIE_CQ_CFG_EN 0 g c = true → t.rd R.PCIE_CQ_CFG_HEAD 0 g c = 0 ∧
           t.rd R.PCIE_CQ_CFG_TAIL 0 g c = 0 ∧ t.rd R.PCIE_CQ_CFG_PHASE 0 g c = 1 ∧ t.cq g c = .init) ∧
         t = { s with regs := t.regs, host := { s.host with cqs := t.host.cqs } }) ∧
     (∀ g : GroupId, s.on R.PCIE_GRP_CTL_EN 0 g = true →
       exec (.groupEnable g true) s = .next s ∧
       ∃ t, exec (.groupEnable g false) s = .next t ∧ t.on R.PCIE_GRP_CTL_EN 0 g = false ∧ s.sameMem t) ∧
     (∀ (on : Bool) (n : Fin 17), ∃ t, exec (.vfEnable on n) s = .next t ∧
       (∀ g < 16, t.on R.PCIE_GRP_CTL_VF 0 g =
         if s.on R.PCIE_GRP_CTL_EN 0 g then s.on R.PCIE_GRP_CTL_VF 0 g else (on && decide (g < n.val))) ∧
       t = { s with regs := t.regs, host := { s.host with vfEnable := on, numVfs := n } }) ∧
     (∃ t, exec .pfFlr s = .next t ∧ t.host.bme.testBit 0 = false ∧ t.host.d3.testBit 0 = false ∧ s.sameMem t ∧
       ∀ g < 17, t.on R.PCIE_GRP_CTL_EN 0 g = (s.on R.PCIE_GRP_CTL_EN 0 g && s.on R.PCIE_GRP_CTL_VF 0 g)) ∧
     (∀ c ∈ [Instr.hotReset, .pcieLinkDown], ∃ t, exec c s = .next t ∧ (∀ g < 17, t.on R.PCIE_GRP_CTL_EN 0 g = false) ∧
       t.host.bme = 0 ∧ t.host.d3 = 0 ∧ t.host.unmasked = [] ∧ t.host.pba = [] ∧ t.host.vfEnable = false ∧ s.sameMem t ∧
       (c = .pcieLinkDown → t.on R.PCIE_LINK_UP = false ∧ s.raised t E.PCIE_LINK_DOWN)) ∧
     (∀ v : PartId, (s.fnReset (v.val + 1)).host.bme.testBit (v.val + 1) = false ∧
       ∃ t, exec (.vfFlr v) s = .next t ∧ exec (.partReset v false false) (s.fnReset (v.val + 1)) = .next t) ∧
     (∀ (fn : GroupId) (on : Bool),
       (∃ t, exec (.busMasterEnable fn on) s = .next t ∧ t.host.bme.testBit fn = on ∧
         ∀ k, k ≠ fn.val → t.host.bme.testBit k = s.host.bme.testBit k) ∧
       ∃ t, exec (.powerStateD3hot fn on) s = .next t ∧ t.host.d3.testBit fn = on ∧
         ∀ k, k ≠ fn.val → t.host.d3.testBit k = s.host.d3.testBit k))

/-- PART_LOCK (R305, R387, R391): a setup whose checks pass is locked, an unlocked partition's STATE with it, and what
its channels kept appears in its window; another raises SETUP_BAD with the code of the first check that fails; before
partition 0 no other locks. A Set reset (R397, R399, R402): the SRAM of its eight tiles reads 0 and none of their rows
is VALID; a timed image runs on in poison from its oldest uncommitted group, an untimed one halts; while the partition
is saved it is held; of other Sets at most hand-offs to its tiles free their ports. A command timeout resets the
command's lowest tile, the second one in a bar the Set. What a lock does not check is log 67. -/
def Obligations.LocksAndSetResets : Prop :=
  (∀ (p : PartId) (s : State), s.wf = true →
     (s.locked p = true → exec (.partLock p) s = .next s) ∧
     (s.locked p = false → s.setupCode p ≠ 0 →
       ∃ t, exec (.partLock p) s = .next t ∧ s.raised t E.PART_SETUP_BAD p ∧ t.locked p = false ∧
         t.rd R.PART_SETUP_ERR_CODE p = s.setupCode p ∧
         s.regsBut t (fkey R.PART_SETUP_ERR_CODE p 0 0 :: flagKeys E.PART_SETUP_BAD p) ∧
         t = { s with regs := t.regs, log := t.log }) ∧
     (s.locked p = false → s.setupCode p = 0 →
       ∃ t, exec (.partLock p) s = .next t ∧ t.locked p = true ∧
         (s.rd R.PART_STATUS_STATE p = 0 → t.rd R.PART_STATUS_STATE p = 1) ∧
         p.val ∉ t.caller.stacked ∧ (s.parked = [] → s.parkedMark = [] → s.sameMem t) ∧
         (∀ k v, (k, v) ∈ s.parked → ∀ a, s.chanAddr p k = some a → s.devByte a = 0 →
           (∀ e ∈ s.parked, s.chanAddr p e.1 = some a → e.1 = k) → t.devByte a = v) ∧
         s.regsBut t [fkey R.PART_STATUS_LOCKED p 0 0, fkey R.PART_STATUS_STATE p 0 0] ∧
         t = { s with
           regs := t.regs, mem := t.mem, memMark := t.memMark, parked := t.parked, parkedMark := t.parkedMark
           caller := { s.caller with stacked := t.caller.stacked } }) ∧
     (p.val ≠ 0 → s.locked 0 = false → s.locked p = false →
       ∃ t, exec (.partLock p) s = .next t ∧ t.rd R.PART_SETUP_ERR_CODE p = 1 ∧ s.raised t E.PART_SETUP_BAD p)) ∧
  (∀ (set : SetId) (s : State), s.wf = true →
     (s.saving set = true → exec (.setReset set) s = .next { s with resetHeld := s.resetHeld ++ [(set.val, none)] }) ∧
     (s.saving set = false → ∃ t, exec (.setReset set) s = .next t ∧
       (∀ i ∈ tilesOfSet set, ∀ k < 2 ^ 22, mget 0 t.tileMem (i * 2 ^ 22 + k) = 0) ∧
       (∀ i ∈ tilesOfSet set, ∀ row < 256, tagValid (t.tag i row) = false) ∧
       (∀ i, i ∉ tilesOfSet set → ∀ k < 2 ^ 22, mget 0 t.tileMem (i * 2 ^ 22 + k) = mget 0 s.tileMem (i * 2 ^ 22 + k)) ∧
       (t.st set).flights = [] ∧ (t.st set).fenced = true ∧ (t.st set).repair = [] ∧
       (∀ n, n ≠ set.val → t.st n = { s.st n with flights := (t.st n).flights } ∧
         (t.st n).flights.length = (s.st n).flights.length ∧ ((∀ f ∈ (s.st n).flights, f.unit ≠ .port) → t.st n = s.st n)) ∧
       (s.timed set = true → t.on R.SCHED_STATUS_POISON set = true ∧
         t.setState set = if s.setState set = 3 then 2 else s.setState set) ∧
       (s.timed set = false → s.setState set ≠ 0 → t.setState set = 5) ∧
       ∀ q ∈ t.runs, (q.f 4 47 0).testBit set = false) ∧
     (∀ idx f, s.flightAt set idx = some f →
       let c := s.cmdAt (s.rd R.SCHED_STREAM_ADDR set + 32 * idx)
       let late := f.unit ≠ .none ∧ s.duration set c + 65536 ≤ s.cyclesIn (set / 12) (s.tempo.now - f.stamp)
       (¬late → exec (.commandTimeout set idx) s = .next s) ∧
       (late → s.saving set = true → exec (.commandTimeout set idx) s = .next { s with
         health := { s.health with faulty := s.health.faulty ++ [c.tile0 set] }
         resetHeld := s.resetHeld ++ [(set.val, some (c.tile0 set))] }) ∧
       (late → s.saving set = false → s.tileResets.contains set.val = false →
         ∃ t, exec (.commandTimeout set idx) s = .next t ∧ t.tileResets = s.tileResets ++ [set.val] ∧
           t.health.faulty = s.health.faulty ++ [c.tile0 set] ∧ (t.st set).flights = [] ∧
           (∀ row < 256, tagValid (t.tag (c.tile0 set) row) = false) ∧
           t.setState set = (if s.setState set = 3 then 2 else s.setState set) ∧
           t = { s with regs := t.regs, sets := t.sets, tags := t.tags, tileResets := t.tileResets, health := t.health }) ∧
       (late → s.saving set = false → s.tileResets.contains set.val = true →
         ∃ t, exec (.commandTimeout set idx) s = .next t ∧ (t.st set).fenced = true ∧ (t.st set).flights = [])))

/-- A partition reset (R392, R400, R402; log 184): refused for partition 0 with CLEAR_LOCK while others are locked;
its steps run in order, the Sets idle and their SRAM zero once its ring is drained, its requests gone once its moves
are complete; FAB_DEAD.BEATS from its start memory is scrubbed, the lock cleared where asked for, and RESET_DONE
raised. Pre-emption (R87, R389, R394 to R396, R404): with a save slot alone, a serving partition waits for the bar, a
standalone one halts every Set and saves; a save writes every tile's image, but for a package area there, and keeps
every Set's record; only a PREEMPTED partition resumes; a restore brings the images back and its halted Sets go on,
one whose EN is 0 idle. -/
def Obligations.PartitionLife : Prop :=
  (∀ (p : PartId) (clear scrub : Bool) (s : State), s.wf = true →
     (p.val = 0 → clear = true → s.lockedBut 0 ≠ [] →
       ∃ t, exec (.partReset p clear scrub) s = .next t ∧ s.raised t E.PART_SETUP_BAD 0 ∧
         t = { s with regs := t.regs, log := t.log }) ∧
     (¬(p.val = 0 ∧ clear = true ∧ s.lockedBut 0 ≠ []) →
       (s.rd R.PART_STATUS_STATE p = 2 → exec (.partReset p clear scrub) s = .next s) ∧
       (mget none s.resets p = none → (s.rd R.PART_STATUS_STATE p = 3 ∨ s.rd R.PART_STATUS_STATE p = 5) →
         ∃ t, exec (.partReset p clear scrub) s = .next t ∧ t = { s with resets := t.resets } ∧
           mget none t.resets p = some ⟨clear, scrub, s.tempo.now, true, 2⟩) ∧
       (mget none s.resets p = none → s.rd R.PART_STATUS_STATE p ≠ 2 → s.rd R.PART_STATUS_STATE p ≠ 3 →
         s.rd R.PART_STATUS_STATE p ≠ 5 → s.fab.descs = [] →
         ∃ t, exec (.partReset p clear scrub) s = .next t ∧ t.rd R.PART_STATUS_STATE p = 2 ∧
           t.on R.CALLER_ADMIT_CTL_OPEN 0 p = false ∧
           (∃ step, mget none t.resets p = some ⟨clear, scrub, s.tempo.now, false, step⟩ ∧
             (step = 2 ↔ s.drained p = false) ∧
             (s.drained p = true → (step = 8 ↔ ∀ m ∈ s.moves, m.part ≠ p.val)) ∧ (step = 8 → t.openIn p = [])) ∧
           (s.drained p = true → ∀ n ∈ s.setsOf p, t.setState n = 0 ∧ (t.st n).flights = [] ∧
             ∀ i ∈ tilesOfSet n, ∀ k < 2 ^ 22, mget 0 t.tileMem (i * 2 ^ 22 + k) = 0))) ∧
     (∀ j, mget none s.resets p = some j →
       (j.waits = true → exec (.resetDone p) s = .next s) ∧
       ((s.advanceReset p).resetOver p = false → exec (.resetDone p) s = .next (s.advanceReset p)) ∧
       (j.waits = false → j.step = 2 → s.drained p = false → exec (.resetDone p) s = .next s) ∧
       (j.waits = false → j.step = 5 → (∃ m ∈ s.moves, m.part = p.val) → exec (.resetDone p) s = .next s) ∧
       (j.waits = false → j.step = 8 → s.resetOver p = true → (∀ b ∈ s.host.bells, b.grp ≠ p.val) →
         ∃ t, exec (.resetDone p) s = .next t ∧ mget none t.resets p = none ∧ s.raised t E.PART_RESET_DONE p ∧
           (j.clearLock = true → t.locked p = false ∧ t.rd R.PART_STATUS_STATE p = 0) ∧
           (j.clearLock = false → s.locked p = true → t.locked p = true ∧ t.rd R.PART_STATUS_STATE p = 1) ∧
           (j.scrub = true → s.rd R.PART_SCRATCH_SCRATCH p = 0 → ∀ a, s.rd R.PART_HBM_BASE p ≤ a → a < s.rd R.PART_HBM_BASE p + s.hbmLen p →
             (∀ r ∈ s.packageAreas, a < r.1 ∨ r.1 + r.2 ≤ a) → t.devByte a = 0) ∧
           (j.scrub = false → ∀ a, (j.clearLock = true → s.locked p = true →
             a < s.rd R.PART_HBM_BASE p ∨ s.rd R.PART_HBM_BASE p + s.hbmLen p ≤ a) → (a < scratchBase ∨ scratchBase + 64 * wayLen ≤ a) → t.devByte a = s.devByte a) ∧
           t = { s with
             regs := t.regs, mem := t.mem, memMark := t.memMark, parked := t.parked, parkedMark := t.parkedMark, log := t.log
             resets := t.resets })) ∧
     (mget none s.resets p = none → exec (.resetDone p) s = .next s)) ∧
  (∀ (p : PartId) (ticks : Nat) (s : State), s.wf = true → mget none s.resets p = none →
     (exec (.partPreempt p true) s = exec (.partResume p) s) ∧
     (1 < s.rd R.PART_STATUS_STATE p ∨ s.on R.PART_SAVE_EN p = false → exec (.partPreempt p false) s = .next s) ∧
     (s.rd R.PART_STATUS_STATE p ≤ 1 → s.on R.PART_SAVE_EN p = true →
       (s.on R.PART_CTL_KIND p = false → ∃ t, exec (.partPreempt p false) s = .next t ∧ t.on R.PART_STATUS_PENDING p = true ∧
         s.regsBut t [fkey R.PART_STATUS_PENDING p 0 0] ∧ t = { s with regs := t.regs }) ∧
       (s.on R.PART_CTL_KIND p = true →
         ∃ t, exec (.partPreempt p false) s = .next t ∧ t.rd R.PART_STATUS_STATE p = 3 ∧
           (∀ n ∈ s.setsOf p, t.setState n = 5 ∧ (t.st n).flights = []) ∧
           t = { s with regs := t.regs, sets := t.sets })) ∧
     (s.rd R.PART_STATUS_STATE p = 3 → s.threadsWait p = false →
       ∃ t, exec (.saveDone p ticks) s = .next t ∧ t.rd R.PART_STATUS_STATE p = 4 ∧ s.raised t E.PART_SAVE_DONE p ∧
         t.saved = s.saved ++ (s.setsOf p).map s.recordOf ∧
         (s.on R.PART_SAVE_EN p = true → s.windowsOff = true → ∀ k tile, (s.tilesOf p)[k]? = some tile → ∀ i < 0x180000,
           inSome s.packageAreas (s.rd R.PART_SAVE_BASE p + 0x200000 * k + i) = false → t.devByte (s.rd R.PART_SAVE_BASE p + 0x200000 * k + i) = mget 0 s.tileMem (tileKey tile false i)) ∧
         t = { s with regs := t.regs, mem := t.mem, memMark := t.memMark, saved := t.saved, log := t.log }) ∧
     (s.rd R.PART_STATUS_STATE p = 4 → ∃ t, exec (.partResume p) s = .next t ∧ t.rd R.PART_STATUS_STATE p = 5 ∧
       s.regsBut t [fkey R.PART_STATUS_STATE p 0 0] ∧ t = { s with regs := t.regs }) ∧
     (s.rd R.PART_STATUS_STATE p ≠ 4 → exec (.partResume p) s = .next s) ∧
     (s.rd R.PART_STATUS_STATE p = 5 → (∀ x ∈ s.resetHeld, x.1 ∉ s.setsOf p) →
       ∃ t, exec (.restoreDone p ticks) s = .next t ∧ t.rd R.PART_STATUS_STATE p = s.rd R.PART_STATUS_LOCKED p ∧ s.raised t E.PART_RESTORE_DONE p ∧
         (s.on R.PART_SAVE_EN p = true → ∀ k tile, (s.tilesOf p)[k]? = some tile → ∀ i < 0x180000,
           mget 0 t.tileMem (tileKey tile false i) = s.devByte (s.rd R.PART_SAVE_BASE p + 0x200000 * k + i)) ∧
         (s.on R.PART_CTL_KIND p = false → ∀ n ∈ s.setsOf p, s.setState n = 5 →
           t.setState n = if s.on R.SCHED_CTL_EN n then 1 else 0) ∧
         (∀ x ∈ t.saved, x.set ∉ s.setsOf p) ∧ s.sameMem t))

/-- A package reset (R397, R425, R457): PERST and the loss of the rails leave NV contents and fuses and lose
everything else; the debug latch, shown from then on, and a signalled sag outlive PERST but not the rails. A rail
fault is a reset with Boot Status first. The boot (R16, R36, R454 to R456, R486): PERST deasserted samples POS and
starts at stage ROM; a stage follows a stage; a failure at stages 0 to 2 goes back to FETCH once and then fails the
boot; a unit that fails later is retired, replaced or its role failed; stage MAP builds the card and copies the
bundle; no stage ends while PERST is held, nor ROM without flow; pieces of the bundle go to boot SRAM in stage FETCH
only. -/
def Obligations.BootAndResets : Prop :=
  (∀ s : State, s.wf = true →
     (∀ c ∈ [Instr.perstAssert, .powerLoss], ∃ t, exec c s = .next t ∧ t.boot.perst = true ∧ t.nv = s.nv ∧
       t.fuses = s.fuses ∧ t.mem = [] ∧ t.memMark = [] ∧ t.tileMem = [] ∧ t.sets = [] ∧ t.log = [] ∧ t.nvLog = s.nvLog ∧
       t.on R.TEMPO_CTL_EN = false ∧ t.pkgId = 0xFFF ∧ t.host = .init ∧ t.caller = .init ∧ t.out = s.out ∧
       (c = .perstAssert → t.boot.latch = s.boot.latch ∧ t.on R.SEC_STATUS_DEBUG = s.boot.latch.isSome ∧
         t.rd R.PWR_STATUS_SAG = s.rd R.PWR_STATUS_SAG) ∧
       (c = .powerLoss → t.boot.latch = none ∧ t.on R.SEC_STATUS_DEBUG = false ∧ t.on R.PWR_STATUS_SAG = false)) ∧
     (s.boot.perst = true → exec .railFault s = .next s) ∧
     (s.boot.perst = false → ∃ t, exec .railFault s = .next t ∧ t.boot.perst = false ∧ t.mem = [] ∧ t.nv = s.nv ∧
       t.rd R.SEC_STATUS_STAGE = 0 ∧ t.rd R.SEC_PKG_POS = s.rd R.SEC_PKG_POS ∧
       Out.i3c 0x20 true (toLE 4 (s.rd R.SEC_STATUS_STAGE + 2 ^ 4 + b2n s.boot.waitFlow * 2 ^ 5)) ∈
         t.out.drop s.out.length)) ∧
  (∀ s : State, s.wf = true →
     (∀ (pos : BitVec 6) (rails flow : Bool),
       (s.boot.perst = false → exec (.perstDeassert pos rails flow) s = .next s) ∧
       (s.boot.perst = true → ∃ t, exec (.perstDeassert pos rails flow) s = .next t ∧ t.boot.perst = false ∧
         t.boot.waitFlow = !flow ∧ t.rd R.SEC_PKG_POS = pos.toNat ∧ t.rd R.SEC_STATUS_STAGE = 0 ∧
         t.on R.PWR_STATUS_FLOW_OK = flow ∧ t = { s with regs := t.regs, boot := t.boot, log := t.log, out := t.out })) ∧
     (∀ (passed : Bool) (units : List BootFail),
       let n := s.rd R.SEC_STATUS_STAGE
       (s.boot.perst = true → exec (.bootStageDone passed units) s = .next s) ∧
       (s.boot.perst = false →
         (n = 0 → s.boot.waitFlow = true → exec (.bootStageDone passed units) s = .next s) ∧
         (n = 0 → s.boot.waitFlow = false → passed = true →
           ∃ t, exec (.bootStageDone passed units) s = .next t ∧ t.rd R.SEC_STATUS_STAGE = 1) ∧
         (n = 1 → s.fuses.noIdentity = true →
           ∃ t, exec (.bootStageDone passed units) s = .next t ∧ t.rd R.SEC_STATUS_STAGE = 15 ∧ t.on R.SEC_STATUS_BOOT_FAIL = true) ∧
         (n = 1 → s.fuses.noIdentity = false → passed = true →
           ∃ t, exec (.bootStageDone passed units) s = .next t ∧ t.rd R.SEC_STATUS_STAGE = 2 ∧ t.boot.sram = [] ∧
             t.boot.deviceKey.isSome = true) ∧
         (n = 2 → passed = true → ∃ t, exec (.bootStageDone passed units) s = .next t ∧ t.rd R.SEC_STATUS_STAGE = 3 ∧
           s.regsBut t [fkey R.SEC_STATUS_STAGE 0 0 0] ∧ t = { s with regs := t.regs, out := t.out }) ∧
         (n = 3 → passed = true → s.bundleGood = true → ∃ t, exec (.bootStageDone passed units) s = .next t ∧
           t.rd R.SEC_STATUS_STAGE = 4 ∧ t.on R.TEMPO_CTL_EN = true) ∧
         (n = 3 → (passed = false ∨ s.bundleGood = false) → ∃ t, exec (.bootStageDone passed units) s = .next t ∧
           s.raised t E.SEC_FW_REJECT ∧ t.rd R.SEC_STATUS_STAGE = (if s.boot.retried then 15 else 2)) ∧
         (n = 4 → ∃ t, exec (.bootStageDone passed units) s = .next t ∧ t.rd R.SEC_STATUS_STAGE = 5 ∧
           (passed = false → units = [] → s.raised t E.SEC_FW_REJECT) ∧
           (passed = false → t.on R.HEALTH_STATUS_FAILED = true ∧ 1 ∈ t.health.causes)) ∧
         (n = 5 → ∃ t, exec (.bootStageDone passed units) s = .next t ∧ t.rd R.SEC_STATUS_STAGE = 6 ∧
           t.layout.retired = s.nv.retired.filter (fun u => !s.fuses.fusedUnits.contains u) ∧
           t.layout.fused = s.fuses.fusedUnits) ∧
         (n = 6 → ∃ t, exec (.bootStageDone passed units) s = .next t ∧
           t.rd R.SEC_STATUS_STAGE = (if t.weights.staging.isNone then 8 else 7) ∧
           (s.card.gen ≤ 1 → t.card.gen = 2) ∧ (s.card.gen = 0 → s.health.replan = none → t.card.shown = t.layout) ∧
           mgetList 0 t.boot.bundleCopy 0 s.bundleLen = s.bootBytes 0 s.bundleLen) ∧
         (n = 7 → s.weights.staging = none → ∃ t, exec (.bootStageDone passed units) s = .next t ∧ t.rd R.SEC_STATUS_STAGE = 8) ∧
         (7 < n → exec (.bootStageDone passed units) s = .next s) ∧
         ((n = 0 ∧ s.boot.waitFlow = false ∨ n = 1 ∧ s.fuses.noIdentity = false ∨ n = 2) → passed = false →
           ∃ t, exec (.bootStageDone passed units) s = .next t ∧
             (s.boot.retried = false → t.rd R.SEC_STATUS_STAGE = 2 ∧ t.boot.retried = true) ∧
             (s.boot.retried = true → t.rd R.SEC_STATUS_STAGE = 15 ∧ t.on R.SEC_STATUS_BOOT_FAIL = true)) ∧
         (∀ u, units = [u] → bootFailAt n u = true →
           ∃ t, exec (.bootStageDone passed units) s = .next t ∧ (match u with
             | .die _ => t.on R.HEALTH_STATUS_FAILED = true ∧ 1 ∈ t.health.causes
             | .link _ => t.on R.HEALTH_STATUS_FAILED = true ∧ 1 ∈ t.health.causes
             | .lane l k => (l.val, k) ∈ t.lanesOut ∨ t.on R.HEALTH_STATUS_FAILED = true ∧ 1 ∈ t.health.causes
             | .shelf g => (0x21, g.val) ∈ t.boot.failed
             | .stack k => (0x22, k.val) ∈ t.boot.failed
             | .channel c => t.layout.channels.contains c = true
             | .tile q => t.layout.out 0x11 q = true)))) ∧
     (∀ off bs,
       (s.boot.perst = true ∨ s.rd R.SEC_STATUS_STAGE ≠ 2 → exec (.firmwareChunk off bs) s = .next s) ∧
       (s.boot.perst = false → s.rd R.SEC_STATUS_STAGE = 2 → ∃ t, exec (.firmwareChunk off bs) s = .next t ∧
         t.bootBytes off bs.length = bs ∧
         (∀ k, (k < off ∨ off + bs.length ≤ k) → mget 0 t.boot.sram k = mget 0 s.boot.sram k) ∧
         t = { s with boot := { s.boot with sram := t.boot.sram }, out := t.out })) ∧
     (∀ ms, exec (.getBootStatus ms) s = .next { s with out := s.out ++ [Out.i3c 0x01 true (toLE 4 (s.rd R.SEC_STATUS_STAGE +
       s.rd R.SEC_STATUS_BOOT_FAIL * 2 ^ 4) ++ toLE 4 ms)] }) ∧
     (∃ t, exec .coolantFlowRestored s = .next t ∧ t.on R.PWR_STATUS_FLOW_OK = true ∧ t.boot.waitFlow = false ∧
       t.power.flowBack = true ∧ s.regsBut t [fkey R.PWR_STATUS_FLOW_OK 0 0 0] ∧
       t = { s with regs := t.regs, boot := t.boot, power := t.power }))

/-- Management commands (R43, R45, R453, R454, R460, R464, R465): only over I3C; a package id is assigned once, and a
card that stands goes through a regeneration with it (log 46); no fuse is burnt in supply sag or with debug unlocked;
SVN rises to the running bundle's, bit by bit; a key is registered or revoked when its conditions hold and refused
with KEY_REFUSED otherwise; the last bit brings FUSE_BURNT and the answer, at the latest before the next burn (log
189). Debug access and attestation (R361, R467, R469, R470): a challenge is a fresh nonce; a token that names it, the
part and a trusted key latches debug, with no effect before a package reset; any other is refused; boundary scan
instructions select BYPASS outside PERST, a private one too unless the part is unlocked, where the manual does not say
what it does and the model stops; an SPDM request is answered, one that fails with SPDM_ERR, with the capabilities,
algorithms, chain of slot 0 and measurements that R467 and R468 give and at most two sessions a path; the mailbox
takes no object beyond 64 KiB; an abort discards its unfinished sessions (R471). -/
def Obligations.Management : Prop :=
  (∀ s : State, s.wf = true →
     (∀ id : PkgId,
       exec (.setPackageId id false) s = .next (s.answer 0x03 false) ∧
       (s.on R.SEC_PKG_ASSIGNED = false → ∃ t, exec (.setPackageId id true) s = .next t ∧ t.pkgId = id ∧
         t.rd R.SEC_PKG_PKG_ID = id ∧ t.on R.SEC_PKG_ASSIGNED = true ∧ Out.i3c 0x03 true [] ∈ t.out.drop s.out.length ∧
         (s.card.gen = 0 ∨ s.card.gen % 2 = 1 → t.out = s.out ++ [Out.i3c 0x03 true []] ∧
           s.regsBut t [fkey R.SEC_PKG_PKG_ID 0 0 0, fkey R.SEC_PKG_ASSIGNED 0 0 0, fkey R.SEC_MEAS_GEN 0 0 0] ∧
           t = { s with regs := t.regs, pkgId := t.pkgId, out := t.out }) ∧
         (s.card.gen ≠ 0 → s.card.gen % 2 = 0 → t.card = { s.card with gen := s.card.gen + 2, stamp := s.stamp } ∧
           Out.mctp 0x0001 [t.card.gen, t.card.stamp, t.card.cause] ∈ t.out.drop s.out.length) ∧
         t = { s with regs := t.regs, pkgId := t.pkgId, out := t.out, card := t.card, log := t.log, host := t.host
                      mem := t.mem, memMark := t.memMark }) ∧
       (s.on R.SEC_PKG_ASSIGNED = true → s.rd R.SEC_PKG_PKG_ID ≠ id → ∃ t, exec (.setPackageId id true) s = .next t ∧
         s.raised t E.SEC_ID_CONFLICT ∧ t.out = s.out ++ [Out.i3c 0x03 false []] ∧ t.pkgId = s.pkgId ∧
         t = { s with regs := t.regs, log := t.log, out := t.out })) ∧
     (exec (.commitSvn false) s = .next (s.answer 0x04 false)) ∧
     (s.noBurn = true → exec (.commitSvn true) s = .next (s.answer 0x04 false) ∧
       ∀ k pt sig, exec (.registerOwnerKey k pt sig true) s = .next (s.answer 0x05 false) ∧
         exec (.revokeOwnerKey k sig true) s = .next (s.answer 0x06 false)) ∧
     (s.noBurn = false → s.boot.burn = none → s.rd R.SEC_SVN_IMAGE ≤ s.fuses.svn → exec (.commitSvn true) s = .next (s.answer 0x04 true)) ∧
     (s.noBurn = false → s.boot.burn = none → s.fuses.svn < s.rd R.SEC_SVN_IMAGE → s.boot.revokeOther = false →
       ∃ steps, exec (.commitSvn true) s = .next { s with boot := { s.boot with burn := some ⟨0x04, steps⟩ } } ∧
         steps.length = s.rd R.SEC_SVN_IMAGE - s.fuses.svn ∧
         ∀ i f, steps[i]? = some f → f = { s.fuses with svn := s.fuses.svn + i + 1 }) ∧
     (∀ code f rest, s.boot.burn = some ⟨code, f :: rest⟩ →
       (rest ≠ [] → s.stepBurn = { s with fuses := f, boot := { s.boot with burn := some ⟨code, rest⟩ } }) ∧
       (rest = [] → s.stepBurn.fuses = f ∧ s.stepBurn.boot.burn = none ∧ s.raised s.stepBurn E.SEC_FUSE_BURNT ∧
         s.stepBurn.rd R.SEC_SVN_FUSED = f.read.svn % 2 ^ R.SEC_SVN_FUSED.wid ∧ s.stepBurn.out = s.out ++ [Out.i3c code true []])) ∧
     (∀ code steps f, s.noBurn = false → s.boot.burn = some ⟨code, steps⟩ → steps.getLast? = some f →
       s.rd R.SEC_SVN_IMAGE ≤ f.svn → ∃ t, exec (.commitSvn true) s = .next t ∧ t.fuses = f ∧ t.boot.burn = none ∧
         s.raised t E.SEC_FUSE_BURNT ∧ t.out = s.out ++ [Out.i3c code true [], Out.i3c 0x04 true []]) ∧
     (∀ (k : Fin 4) pt sig, s.noBurn = false → s.boot.burn = none → s.fuses.owners.length = 4 →
       (s.mayRegister k pt sig = true → ∃ t b f, exec (.registerOwnerKey k pt sig true) s = .next t ∧
         t.boot.burn = some b ∧ b.code = 0x05 ∧ b.steps.getLast? = some f ∧
         f.owner k = ⟨some (sha384 pt), true, false⟩ ∧ (k.val, pt) ∈ t.nv.keyPages ∧
         (∀ j, j ≠ k.val → f.owner j = s.fuses.owner j) ∧
         t = { s with nv := { s.nv with keyPages := t.nv.keyPages }, boot := { s.boot with burn := t.boot.burn } }) ∧
       (s.mayRegister k pt sig = false → ∃ t, exec (.registerOwnerKey k pt sig true) s = .next t ∧
         s.raised t E.SEC_KEY_REFUSED ∧ t = { s with regs := t.regs, log := t.log, out := t.out }) ∧
       (s.mayRevoke k sig = true → ∃ f, exec (.revokeOwnerKey k sig true) s =
           .next { s with boot := { s.boot with burn := some ⟨0x06, [f]⟩ } } ∧
         f.owner k = { s.fuses.owner k with revoked := true } ∧ ∀ j, j ≠ k.val → f.owner j = s.fuses.owner j) ∧
       (s.mayRevoke k sig = false → ∃ t, exec (.revokeOwnerKey k sig true) s = .next t ∧ s.raised t E.SEC_KEY_REFUSED ∧
         t = { s with regs := t.regs, log := t.log, out := t.out }))) ∧
  (∀ s : State, s.wf = true →
     (exec (.getDebugChallenge false) s = .next (s.answer 0x07 false)) ∧
     (∃ t n, exec (.getDebugChallenge true) s = .next t ∧ t.boot.nonce = some n ∧ n.length = 32 ∧
       t.boot.nonces = s.boot.nonces + 1 ∧ t.out = s.out ++ [Out.i3c 0x07 true n] ∧
       t = { s with boot := t.boot, out := t.out }) ∧
     (∀ k : DebugToken,
       exec (.debugUnlock k false) s = .next (s.answer 0x08 false) ∧
       (let good := s.fuses.read.noDebug = false ∧ s.boot.nonce = some k.nonce ∧ k.uid.toNat = s.fuses.uid ∧
          s.tokenSigned k = true ∧ s.fuses.read.lifecycle ≠ 0
        (good → exec (.debugUnlock k true) s =
           .next { s with boot := { s.boot with latch := some k.kind }, out := s.out ++ [Out.i3c 0x08 true []] }) ∧
        (¬good → ∃ t, exec (.debugUnlock k true) s = .next t ∧ s.raised t E.SEC_KEY_REFUSED ∧
           t.out = s.out ++ [Out.i3c 0x08 false []] ∧ t = { s with regs := t.regs, log := t.log, out := t.out }))) ∧
     (∀ i ∈ [TapInstr.bypass, .idcode, .samplePreload], exec (.tapInstruction i) s =
       .next { s with boot := { s.boot with tap := i } }) ∧
     (∀ i ∈ [TapInstr.extest, .clamp, .highz], exec (.tapInstruction i) s =
       .next { s with boot := { s.boot with tap := if s.boot.perst then i else .bypass } }) ∧
     (∀ code, (s.on R.SEC_STATUS_DEBUG = false → exec (.tapInstruction (.shuilePrivate code)) s =
         .next { s with boot := { s.boot with tap := .bypass } }) ∧
       (s.on R.SEC_STATUS_DEBUG = true → exec (.tapInstruction (.shuilePrivate code)) s = .refused .shuilePrivate)) ∧
     (∀ (via : SpdmVia) (msg : List Byte), (∀ i, via ≠ .discovery i) →
       (viaDoe via = true → 65536 < msg.length + 8 → exec (.spdmRequest via msg) s = .next s) ∧
       (viaDoe via = false ∨ msg.length + 8 ≤ 65536 → ∃ t body bs, exec (.spdmRequest via msg) s = .next t ∧
         t.out = s.out ++ [Out.spdm via body bs] ∧ t.boot.spdm = s.boot.spdm ++ [(viaDoe via, msg)] ∧
         (spdmCode msg = 0xEE ∨ (spdmCode msg = 0x83 ∧ s.on R.SEC_STATUS_DEBUG = true) ∨
           (spdmCode msg = 0xE4 ∧ 2 ≤ (s.sessionsOf (viaDoe via)).length) → s.raised t E.SEC_SPDM_ERR ∧ body = .error) ∧
         (s.spdmFails via msg = true → t.boot.sessions = s.boot.sessions) ∧
         (s.spdmFails via msg = false → t.log = s.log ∧ t.regs = s.regs ∧
           (spdmCode msg = 0xE1 → body = .capabilities spdmCaps) ∧ (spdmCode msg = 0xE3 → body = .algorithms spdmAlgs) ∧
           (spdmCode msg = 0x82 → body = .chain s.nv.certs s.boot.aliasCert ∧ s.on R.SEC_STATUS_DEBUG = false) ∧
           (spdmCode msg = 0xE0 → body = .measurements (s.rd R.SEC_MEAS_GEN) ([1, 2, 3, 4, 5, 6, 7, 8].map s.block)) ∧
           (spdmCode msg = 0xE4 → (t.sessionsOf (viaDoe via)).length = (s.sessionsOf (viaDoe via)).length + 1)) ∧
         t = { s with regs := t.regs, log := t.log, boot := { s.boot with spdm := t.boot.spdm, sessions := t.boot.sessions }
                      out := t.out })) ∧
     (∀ i msg, exec (.spdmRequest (.discovery i) msg) s = .next (s.emit (.spdm (.discovery i)
       (.protocols ([DoeProto.discovery, .spdm, .securedSpdm][i]?) (if i < 2 then i + 1 else 0)) []))) ∧
     ∃ t, exec .doeAbort s = .next t ∧ t.out = s.out ++ [Out.doeAborted] ∧
       (∀ x, x ∈ t.boot.sessions ↔ x ∈ s.boot.sessions ∧ (x.doe = true → x.finished = true)) ∧
       t = { s with boot := { s.boot with spdm := s.boot.spdm ++ [(true, [])], sessions := t.boot.sessions }, out := t.out })

/-- Caps and floors (R408, R411, R413): C is the least limit, each taken between 400 W and 3,600 W, forced where the
one that sets it is; below the floor and not forced the package is held at it; DECL is refused another value once
partition 0 is locked. A power window (R405 to R412): the estimate and the energy are counted, and its end's stamp and
source are kept; a window in which the gate was closed raises THROTTLE; the forecasts move up by one window, and with
no ramp under way the next budget is C′. Operating points and the standby (R416, R429, R477): a settled rail lets the
clock change at the next boundary; an AVSBus error leaves the die where it is and is reported; a failed governor hands
over to the standby, which drives every rail. -/
def Obligations.PowerControl : Prop :=
  (∀ (w : BitVec 16) (force : Bool) (s : State), s.wf = true → s.power.thermal = none → s.on R.PWR_STATUS_SAG = false →
     let held := fun (t : State) => t.power.held =
       if t.rd R.PWR_CAP_EFFECTIVE < t.rd R.PWR_FLOOR_EFF then s.power.held || !t.on R.PWR_CAP_C_FORCED else false
     (let a := clampCap w.toNat
      let b := clampCap (s.rd R.PWR_HOST_CAP_CAP)
      ∃ t, exec (.setPowerCap w force) s = .next t ∧ t.rd R.PWR_CAP_EFFECTIVE = min a b ∧
        t.on R.PWR_CAP_C_FORCED = (force && decide (a ≤ b)) ∧ t.rd R.PWR_CAP_MGMT = w.toNat ∧ held t) ∧
     (let a := clampCap (s.rd R.PWR_CAP_MGMT)
      let b := clampCap w.toNat
      ∃ t, exec (.hostCapWrite w) s = .next t ∧ t.rd R.PWR_CAP_EFFECTIVE = min a b ∧
        t.on R.PWR_CAP_C_FORCED = (s.on R.PWR_CAP_FORCE && decide (a ≤ b)) ∧ t.rd R.PWR_HOST_CAP_CAP = w.toNat ∧ held t) ∧
     (s.locked 0 = true → s.rd R.PWR_FLOOR_DECL ≠ w.toNat →
       ∃ t, exec (.floorDeclWrite w) s = .next t ∧ s.raised t E.PART_LOCK_VIOL 0 ∧
         s.regsBut t (flagKeys E.PART_LOCK_VIOL 0) ∧ t = { s with regs := t.regs, log := t.log }) ∧
     (s.locked 0 = false →
       ∃ t, exec (.floorDeclWrite w) s = .next t ∧ t.rd R.PWR_FLOOR_DECL = w.toNat ∧ t.rd R.PWR_FLOOR_EFF = w.toNat ∧ held t)) ∧
  (∀ (a : Activity) (s : State), s.wf = true →
     ∃ t, exec (.powerWindow a) s = .next t ∧ t.power.windows = s.power.windows + 1 ∧
       t.rd R.PWR_EST_LAST = min 65535 (s.watts a) ∧
       t.rd R.PWR_ENERGY_ENERGY = (s.rd R.PWR_ENERGY_ENERGY + s.windowFj a / 1000000000) % 2 ^ R.PWR_ENERGY_ENERGY.wid ∧
       t.power.estStamp = s.stamp ∧ t.power.estUnit = s.pkgId * 256 + 0x8F ∧
       t.gate.forecast = s.gate.forecast.map laterForecast ∧ t.gate.asked = [0, 0, 0, 0] ∧ t.gate.shut = s.gate.closed ∧
       (s.gate.shut = true → s.raised t E.PWR_THROTTLE s.gov) ∧
       (s.power.thermal = none → s.power.ramp = none → t.power.budget = s.target)) ∧
  (∀ s : State, s.wf = true →
     (∀ die : Fin 4,
       (∀ c, (s.dieClk die).rising = some c → exec (.railSettled die) s = .next (s.setDie die ⟨none, some c⟩)) ∧
       ((s.dieClk die).rising = none → exec (.railSettled die) s = .next s) ∧
       (s.ringOpen 16 (s.rd R.PCIE_GRP_CTL_MGMT_CQ 0 16) →
         ∃ t, exec (.avsError die) s = .next t ∧ t.power.dies = s.power.dies.set die ⟨none, none⟩ ∧
           s.eventOut t 16 0x0007 ∧ ∀ d, t.opp d = s.opp d)) ∧
     (s.on R.PWR_STATUS_ACTIVE 0 = false → exec .governorFailover s = .next s) ∧
     (s.on R.PWR_STATUS_ACTIVE 0 = true →
       ∃ t, exec .governorFailover s = .next t ∧ t.on R.PWR_STATUS_ACTIVE 0 = false ∧ t.on R.PWR_STATUS_ACTIVE 1 = true ∧
         (∀ k mv, s.power.rails[k]? = some mv → mv ≠ 0 → Out.avs k mv ∈ t.out.drop s.out.length) ∧
         s.regsBut t [fkey R.PWR_STATUS_ACTIVE 0 0 0, fkey R.PWR_STATUS_ACTIVE 1 0 0] ∧
         t = { s with regs := t.regs, out := t.out }))

/-- Coolant loss, thermal trip, unpark (R420, R421): every Set that runs is halted, the gate shuts, the role has
failed with cause 0x04; MODE is PARKED, every die at code 0, memory in self-refresh, until flow is back for 1 s and
UNPARK; or TRIPPED with THERM_TRIP_N until a reset. Heat and sag (R408, R421, R423, R486): the first die at THROTTLE
starts a cap at the last estimate; a sag caps C at SAG_CAP and stands until it ends, when what it held back is
committed; while PERST_N is low it is only noted. -/
def Obligations.ThermalAndSag : Prop :=
  (∀ s : State, s.wf = true →
     let stopped := fun (t : State) => t.gate.closed = true ∧ t.gate.shut = true ∧ t.on R.HEALTH_STATUS_FAILED = true ∧
       t.rd R.HEALTH_STATUS_CAUSE = 4 ∧ s.raised t E.PWR_FLOW_LOST s.gov ∧ ∀ n < 48, s.setState n ≠ 0 → t.setState n = 5
     (s.on R.PWR_STATUS_FLOW_OK = false → exec .coolantLoss s = .next s) ∧
     (s.on R.PWR_STATUS_FLOW_OK = true → ∃ t, exec .coolantLoss s = .next t ∧ stopped t ∧
       t.on R.PWR_STATUS_FLOW_OK = false ∧ t.rd R.PWR_STATUS_MODE = (if s.rd R.PWR_STATUS_MODE = 5 then 5 else 4) ∧
       t.power.selfRefresh = true ∧ t.health.replan = none ∧ ∀ d < 4, t.opp d = 0) ∧
     (∀ (die : DieId) (c : BitVec 8),
       (c.toNat < s.rd R.PWR_THERM_TRIP ∨ s.boot.trip = true → exec (.thermalTrip die c) s = .next s) ∧
       (s.rd R.PWR_THERM_TRIP ≤ c.toNat → s.boot.trip = false → ∃ t, exec (.thermalTrip die c) s = .next t ∧ stopped t ∧
         t.boot.trip = true ∧ t.rd R.PWR_STATUS_MODE = 5 ∧ Out.thermTrip ∈ t.out.drop s.out.length ∧
         s.raised t E.PWR_THERM_TRIP s.gov)) ∧
     (let ok := s.rd R.PWR_STATUS_MODE = 4 ∧ s.on R.PWR_STATUS_FLOW_OK = true ∧ s.power.flowBack = true
      (¬ok → exec .unpark s = .next s) ∧
      (ok → ∃ t, exec .unpark s = .next t ∧ t.gate.closed = false ∧ 4 ∉ t.health.causes ∧
        t.rd R.PWR_STATUS_MODE = (if s.on R.PWR_CAP_C_FORCED then 3 else if s.power.held then 2 else 0) ∧
        s.regsBut t [fkey R.PWR_STATUS_MODE 0 0 0] ∧
        t.power = { s.power with selfRefresh := false } ∧
        t = { s with regs := t.regs, gate := t.gate, health := t.health, power := t.power, host := t.host, out := t.out }))) ∧
  (∀ s : State, s.wf = true →
     (∀ (die : DieId) (c : BitVec 8),
       (c.toNat < s.rd R.PWR_THERM_THROTTLE ∨ s.power.thermal.isSome = true → exec (.thermalThrottle die c) s = .next s) ∧
       (s.rd R.PWR_THERM_THROTTLE ≤ c.toNat → s.power.thermal = none →
         ∃ t, exec (.thermalThrottle die c) s = .next t ∧ t.power.thermal = some s.power.est ∧
           s.raised t E.PWR_THERM_HOT s.gov ∧ t.rd R.PWR_CAP_EFFECTIVE ≤ s.power.est)) ∧
     (s.on R.PWR_STATUS_SAG = true → exec .supplySag s = .next s) ∧
     (s.on R.PWR_STATUS_SAG = false → exec .sagEnd s = .next s) ∧
     (s.boot.perst = true → ∀ e ∈ [(Instr.supplySag, true), (.sagEnd, false)], ∃ t, exec e.1 s = .next t ∧
       t.on R.PWR_STATUS_SAG = e.2 ∧ s.regsBut t [fkey R.PWR_STATUS_SAG 0 0 0] ∧ t = { s with regs := t.regs }) ∧
     (s.boot.perst = false → s.on R.PWR_STATUS_SAG = false →
       ∃ t, exec .supplySag s = .next t ∧ t.on R.PWR_STATUS_SAG = true ∧ s.raised t E.PWR_SAG s.gov ∧
         t.rd R.PWR_CAP_EFFECTIVE ≤ s.rd R.PWR_SAG_SAG_CAP ∧
         (s.weights.install.isSome = true → t.on R.NVC_PROG_SAG_HOLD = true)) ∧
     (s.boot.perst = false → s.on R.PWR_STATUS_SAG = true → ∃ t, exec .sagEnd s = .next t ∧
       t.on R.PWR_STATUS_SAG = false ∧ t.on R.NVC_PROG_SAG_HOLD = false ∧ t.weights.held = [] ∧ t.power.logHeld = false ∧
       (∀ e, s.weights.held = [e] → t.slotRec e.1 = { e.2 with seq := max s.nv.recA.seq s.nv.recB.seq + 1 }) ∧
       (s.power.logHeld = true → t.nvLog.take s.log.length = s.log)))

/-- Takeover up to its start (R435, R441, R447): a spare takes a new order and asks its buddy for the kit, or answers
that it cannot; with no table TMO beats on, the next member coordinates; the coordinator sends the table to every
package of the ensemble once every order is ready and its two cores agree on it, and gives up where they do not; at
START_BEAT the table is current and the held bar starts. -/
def Obligations.Takeovers : Prop :=
  ∀ s : State, s.wf = true →
    (let w0 := s.devWord (s.tkAt 0x40000)
     let gen := s.devWord (s.tkAt 0x40008)
     let due := s.on R.HEALTH_CTL_TAKEOVER_EN = true ∧ s.rank.isNone = true ∧ w0.testBit 12 = true ∧ s.health.orderGen < gen
     (¬due → exec .takeoverOrder s = .next s) ∧
     (due → s.health.kit = none →
       ∃ t k, exec .takeoverOrder s = .next t ∧ t.health.orderGen = gen ∧ t.health.kit = some k ∧ k.rank = bits w0 11 0 ∧
         k.gen = gen ∧ s.sameMem t ∧
         (∀ b, s.buddyOf (bits w0 11 0) = some b → k.ended = false ∧
           ∃ o ∈ t.fab.ops.drop s.fab.ops.length, o.typ = 0x18 ∧ o.dst = b % 4096) ∧
         (s.buddyOf (bits w0 11 0) = none → k.ended = true))) ∧
    (s.health.tmoAt = none → exec .coordinatorTimeout s = .next s) ∧
    (∀ at_, s.health.tmoAt = some at_ →
      (s.tempo.now < at_ + s.tempo.tmoEff * 1024 ∨ s.tableHere = true → exec .coordinatorTimeout s = .next s) ∧
      (at_ + s.tempo.tmoEff * 1024 ≤ s.tempo.now → s.tableHere = false →
        ∃ t, exec .coordinatorTimeout s = .next t ∧ t.health.coordsOut = s.health.coordsOut + 1 ∧
          t.health.tmoAt = some s.tempo.now ∧
          (s.on R.HEALTH_CTL_TAKEOVER_EN = true → s.rank.isSome = true →
            (s.members.filter (fun q => !s.missing.contains q))[s.health.coordsOut + 1]? = some s.pkgId →
            t.on R.HEALTH_STATUS_COORD = true ∧ ∃ c, t.health.coord = some c ∧ c.bar = s.bar + 1 ∧
              c.gen = s.roles.gen + 1 + (s.health.coordsOut + 1) ∧ c.failed = s.failedSet ∧ c.sent = false))) ∧
    (s.health.coord = none → ∀ agree, exec (.takeoverReady agree) s = .next s) ∧
    (∀ c, s.health.coord = some c →
      let os := c.orders.map (s.readOrder c.gen)
      (c.sent = true → ∀ agree, exec (.takeoverReady agree) s = .next s) ∧
      (c.sent = false → os.all (fun o => o.ok = some true) = true → s.failedSet.all (fun q => c.failed.contains q) = true →
        (s.ranksOf c.failed).all (fun r => os.any (fun o => o.rank = r)) = true →
        (∃ t, exec (.takeoverReady true) s = .next t ∧ t.health.coord = some { c with orders := os, sent := true } ∧
          s.sameMem t ∧ ∀ q ∈ s.ensemble, ∃ o ∈ t.fab.ops.drop s.fab.ops.length, o.typ = 0x19 ∧ o.dst = q) ∧
        ((s.health.resets.filter (fun e => e.1 = 1)).length < 3 → ∃ t, exec (.takeoverReady false) s = .next t ∧
          s.raised t E.HEALTH_CORE_CHECK ∧ t.on R.HEALTH_STATUS_COORD = false ∧ t.health.coord = none ∧ s.sameMem t))) ∧
    (s.takeoverDue = false →
      (s.tableLate = false → exec .takeoverStart s = .next s) ∧
      (s.tableLate = true → ∃ t, exec .takeoverStart s = .next t ∧ s.raised t E.SCHED_ROLE_LATE ∧
        s.regsBut t (flagKeys E.SCHED_ROLE_LATE) ∧
        t = { s with regs := t.regs, log := t.log, health := { s.health with judged := s.tableGen } })) ∧
    (s.takeoverDue = true →
      ∃ t, exec .takeoverStart s = .next t ∧ t.roles = s.roleTable (s.tkAt 0x80040) ∧ s.raised t E.HEALTH_TAKEOVER ∧
        t.rd R.TEMPO_BAR_NUM_BAR = (s.bar + 1) % 2 ^ R.TEMPO_BAR_NUM_BAR.wid)

/-- Health records, failed roles and control cores (R66, R424, R431 to R434, R440, R441, R457): a record goes to every
package of the ensemble when one is due; CLEAR_FAILED keeps the causes that stand; a core is reset for a missed
service, an error of its own memory or a wrong code CRC, the third reset in 4,096 beats is a failed role with cause
0x08, and three of every core of X0 a package reset; a log commit keeps the log, the retirement record and the ageing
records, after a sag where it meets one. The margin re-plan and the monitors (R442 to R444): a re-plan starts when it
is due or asked for, that of one die when drift has brought it forward; a sweep's end keeps the slack at every code,
or retires a tile with a functional error or past OFFSET_MAX; a sample latches the eyes, and drift of half the floor
brings the die's re-plan forward. -/
def Obligations.HealthAndReplans : Prop :=
  (∀ s : State, s.wf = true →
     (s.healthDue = false → exec .healthRecord s = .next s) ∧
     (s.healthDue = true → ∃ t, exec .healthRecord s = .next t ∧ t.on R.HEALTH_STATUS_ELIGIBLE = s.eligible ∧
       s.regsBut t (fkey R.HEALTH_STATUS_ELIGIBLE 0 0 0 :: txKeys) ∧
       t.health = { s.health with record := (s.healthWords s.eligible).eraseIdx 1 } ∧
       (∀ q ∈ s.ensemble, ∃ o ∈ t.fab.ops.drop s.fab.ops.length, o.typ = 0x19 ∧ o.dst = q) ∧
       t = { s with regs := t.regs, fab := t.fab, health := t.health, gate := { s.gate with flits := t.gate.flits }, out := t.out }) ∧
     (∃ t, exec .clearFailed s = .next t ∧ t.health = { s.health with causes := s.standing } ∧
       (s.standing = [] → t.on R.HEALTH_STATUS_FAILED = false ∧ t.rd R.HEALTH_STATUS_CAUSE = 0) ∧
       (s.standing ≠ [] → t.regs = s.regs) ∧
       s.regsBut t [fkey R.HEALTH_STATUS_FAILED 0 0 0, fkey R.HEALTH_STATUS_CAUSE 0 0 0] ∧
       t = { s with regs := t.regs, health := t.health }) ∧
     (∀ (core : Fin 8) (crc : BitVec 32) (ecc : Bool),
       let near := (s.health.resets ++ [(core.val, s.beat)]).filter (fun e => decide (s.beat ≤ e.2 + 4096))
       let third := (near.filter (fun e => e.1 = core.val)).length = 3
       let good := ecc = false ∧ crc = Config.coreCrc core (crc32c (mgetList 0 s.boot.bundleCopy 0 s.bundleLen))
       (good → exec (.coreCodeCheck core ⟨crc, ecc⟩) s = .next s) ∧
       let lost := (List.range 4).all (fun k => decide (3 ≤ (near.filter (fun e => e.1 = k)).length))
       let after := fun (t : State) => t.health.resets = near ∧
         (third → t.on R.HEALTH_STATUS_FAILED = true ∧ t.rd R.HEALTH_STATUS_CAUSE = 8 ∧ 8 ∈ t.health.causes)
       let own := fun (t : State) => t = { s with regs := t.regs, log := t.log, health := t.health }
       (lost = false →
         (∃ t, exec (.coreWatchdog core) s = .next t ∧ s.raisedBy t (srcUnit 0x02 core) E.HEALTH_CORE_WDOG ∧ after t ∧
           (¬third → s.regsBut t (flagKeys E.HEALTH_CORE_WDOG) ∧ own t)) ∧
         (¬good → ∃ t, exec (.coreCodeCheck core ⟨crc, ecc⟩) s = .next t ∧ after t ∧
           (∃ r ∈ t.log.drop s.log.length, r.what = .note (if ecc then .coreEcc core else .coreReload core) ∧ r.unit = srcUnit 0x02 core) ∧
           (¬third → t.regs = s.regs ∧ own t))) ∧
       (lost = true → ∀ c ∈ [Instr.coreWatchdog core] ++ (if good then [] else [Instr.coreCodeCheck core ⟨crc, ecc⟩]),
         ∃ t, exec c s = .next t ∧ t.mem = [] ∧ t.nv = s.nv ∧ t.boot.perst = false ∧ t.rd R.SEC_STATUS_STAGE = 0)) ∧
     (s.on R.PWR_STATUS_SAG = true → exec .logCommit s = .next { s with power := { s.power with logHeld := true } }) ∧
     (s.on R.PWR_STATUS_SAG = false → ∃ t, exec .logCommit s = .next t ∧ t.nvLog = s.log ∧
       (∀ u ∈ s.nv.retired ++ s.layout.retired, u ∈ t.nv.retired) ∧ (∀ c ∈ s.nv.channels ++ s.layout.channels, c ∈ t.nv.channels) ∧
       t.nv.ageing = s.ageing ∧ t.nv.data = s.nv.data ∧ t.health = { s.health with committed := s.rd R.HEALTH_LOG_SEQ_SEQ } ∧
       t.rd R.HEALTH_LOG_COMMIT_STAMP = s.stamp % 2 ^ R.HEALTH_LOG_COMMIT_STAMP.wid ∧
       s.regsBut t [fkey R.HEALTH_LOG_COMMIT_STAMP 0 0 0] ∧
       t = { s with regs := t.regs, nvLog := t.nvLog, nv := t.nv, health := t.health })) ∧
  (∀ s : State, s.wf = true →
     (s.replanDue = false → s.mayReplan = false ∨ s.health.forward = [] → exec .replanStart s = .next s) ∧
     (∀ d ds, s.replanDue = false → s.mayReplan = true → s.health.forward = d :: ds →
       ∃ t, exec .replanStart s = .next t ∧ t.on R.HEALTH_STATUS_REPLAN = true ∧ s.regsBut t [fkey R.HEALTH_STATUS_REPLAN 0 0 0] ∧
         t = { s with regs := t.regs
                      health := { s.health with nextTile := 96 * d, planEnd := 96 * d + 96, whole := false
                                                forward := s.health.forward.filter (· ≠ d) } }) ∧
     (s.healthOn = false ∨ s.on R.HEALTH_STATUS_REPLAN = true → exec .replanNow s = .next s) ∧
     (∀ c ∈ [(Instr.replanStart, s.replanDue), (.replanNow, s.healthOn && !s.on R.HEALTH_STATUS_REPLAN)],
       (c.2 = true → ∃ t, exec c.1 s = .next t ∧ t.on R.HEALTH_STATUS_REPLAN = true ∧
         s.regsBut t [fkey R.HEALTH_STATUS_REPLAN 0 0 0] ∧
         t = { s with regs := t.regs
                      health := { s.health with nextTile := 0, planEnd := 384, whole := true, replanBar := s.bar, forward := [] } })) ∧
     (∀ (ps : List Int) (bad : Bool),
       (s.health.replan = none → exec (.replanSweepEnd ps bad) s = .next s) ∧
       (∀ r, s.health.replan = some r →
         let above := ∃ x, ps[17]? = some x ∧ s.rd R.HEALTH_FLOOR_OFFSET_MAX < s.needed x
         (r.stage ≠ 2 ∨ s.bar < r.since + s.rd R.HEALTH_CFG_SWEEP_BARS → exec (.replanSweepEnd ps bad) s = .next s) ∧
         (r.stage = 2 → r.since + s.rd R.HEALTH_CFG_SWEEP_BARS ≤ s.bar →
           ∃ t, exec (.replanSweepEnd ps bad) s = .next t ∧
             t.health.replan = some { r with stage := 3, since := s.bar, swept := true } ∧
             t.rd R.HEALTH_REPLAN_STAGE = 3 ∧ s.sameMem t ∧
             (bad = false → ¬above → t.layout = s.layout ∧ t.log = s.log ∧
               ∀ c < 23, ∀ x, ps[c]? = some x → -65536 < x → t.slackOf c r.tile = some x) ∧
             (bad = true ∨ above → (∀ c < 32, t.slackOf c r.tile = none) ∧ t.layout.retired.contains (0x11, r.phys) = true) ∧
             (above → s.raised t E.HEALTH_MARGIN_LOW)))) ∧
     (∀ m : Monitor,
       (s.healthOn = false → exec (.monitorSample m) s = .next s) ∧
       (s.healthOn = true →
         (m.drift.all (fun d => decide (2 * d < s.rd R.HEALTH_FLOOR_SLACK_PS)) = true →
           m.eyes.all (fun e => decide (s.rd R.HEALTH_FLOOR_EYE_MV ≤ e)) = true →
           ∃ t, exec (.monitorSample m) s = .next t ∧
             t = { s with regs := t.regs
                          health := { s.health with drift := t.health.drift, forward := (List.range 4).filter s.health.forward.contains } } ∧
             (∀ l < 192, ∀ mv, m.eyes[l]? = some mv → t.rd R.LANE_STATUS_EYE_MV l = min 65535 mv) ∧
             s.regsBut t ((List.range 192).map (fun l => fkey R.LANE_STATUS_EYE_MV l 0 0))) ∧
         (∃ t, exec (.monitorSample m) s = .next t ∧
           ∀ d < 4, ∀ x, m.drift[d]? = some x → s.rd R.HEALTH_FLOOR_SLACK_PS ≤ 2 * x → d ∈ t.health.forward))))

/-- Channels, lanes, retraining and CHECK windows (R182, R391, R429, R430, R442, R461): a channel under its floor is
repaired, or retired with a failed role; a die-to-die lane is replaced while its 64-lane group has a spare, past which
the link is lost; a retraining changes nothing that a program sees; a window is enabled when it is sound and no lock
forbids it. The repair step (R86, R177): it ends with nothing left to repair, so the re-run may issue; an object that
verifies when fetched again stands in its place and nothing else of device memory changes; one that cannot be fetched
and has no recorded origin is marked, with REPAIR_FAIL. -/
def Obligations.AgeingAndRepair : Prop :=
  (∀ s : State, s.wf = true →
     (∀ (c : Fin 256) (steps : Nat) (repaired : Bool),
       let swept := s.healthOn = true ∧ s.layout.channels.contains c.val = false
       let low := swept ∧ steps < s.rd R.HEALTH_FLOOR_HBM_STEPS
       let kept : Health := { s.health with hbm := mset 0 c.val (steps + 1) s.health.hbm }
       (¬swept → exec (.hbmMarginSweep c steps repaired) s = .next s) ∧
       (swept → ¬low → exec (.hbmMarginSweep c steps repaired) s = .next { s with health := kept }) ∧
       (low → ∃ t, exec (.hbmMarginSweep c steps repaired) s = .next t ∧ s.raised t E.HEALTH_MARGIN_LOW ∧
         (repaired = true → s.regsBut t (flagKeys E.HEALTH_MARGIN_LOW) ∧ t = { s with regs := t.regs, log := t.log, health := kept }) ∧
         (repaired = false → t.layout.channels = s.layout.channels ++ [c.val] ∧ s.raised t E.HEALTH_RETIRED ∧
           t.on R.HEALTH_STATUS_FAILED = true ∧ t.rd R.HEALTH_STATUS_CAUSE = 7))) ∧
     (∀ (link : Fin 40) (lane : Nat),
       let used := (s.lanesOut.filter (fun e => e.1 = link.val && e.2 / 64 = lane / 64)).eraseDups.length
       (s.lanesOut.contains (link.val, lane) = true → exec (.d2dLaneReplace link lane) s = .next s) ∧
       (s.lanesOut.contains (link.val, lane) = false →
         (link.val < 30 ∧ used < 2 → ∃ t, exec (.d2dLaneReplace link lane) s = .next t ∧
           t.lanesOut = s.lanesOut ++ [(link.val, lane)] ∧ t = { s with log := t.log }) ∧
         (¬(link.val < 30 ∧ used < 2) → ∃ t, exec (.d2dLaneReplace link lane) s = .next t ∧
           t.on R.HEALTH_STATUS_FAILED = true ∧ t.rd R.HEALTH_STATUS_CAUSE = 1))) ∧
     (∀ (c : Fin 256) (g : Fin 4), exec (.hbmRetrain c) s = .next s ∧ exec (.lpddrRetrain g) s = .next s ∧
       exec (.nvRetrain g) s = .next s) ∧
     (∀ w : Fin 16,
       let p := s.rd R.CHECK_WIN_SLOT_PART 0 w
       (s.on R.CHECK_WIN_BASE_EN 0 w = true → exec (.checkWindowEnable w) s = .next s) ∧
       (s.on R.CHECK_WIN_BASE_EN 0 w = false →
         (s.locked p = true → ∃ t, exec (.checkWindowEnable w) s = .next t ∧ s.raised t E.PART_LOCK_VIOL p ∧
           s.regsBut t (flagKeys E.PART_LOCK_VIOL p) ∧ t = { s with regs := t.regs, log := t.log }) ∧
         (s.locked p = false → s.windowGood w = true → ∃ t, exec (.checkWindowEnable w) s = .next t ∧
           t.on R.CHECK_WIN_BASE_EN 0 w = true ∧ s.regsBut t [fkey R.CHECK_WIN_BASE_EN 0 w 0] ∧
           t = { s with regs := t.regs }) ∧
         (s.locked p = false → s.windowGood w = false → ∃ t, exec (.checkWindowEnable w) s = .next t ∧
           s.raised t E.CHECK_WIN_BAD ∧ s.regsBut t (flagKeys E.CHECK_WIN_BAD) ∧
           t = { s with regs := t.regs, log := t.log })))) ∧
  (∀ (set : SetId) (remote : List (List Byte)) (s : State), s.wf = true →
     (∃ t, exec (.repairComplete set remote) s = .next t ∧ (t.st set).repair = [] ∧ (∀ n, n ≠ set.val → t.st n = s.st n) ∧
       t = { s with regs := t.regs, log := t.log, mem := t.mem, memMark := t.memMark, tileMem := t.tileMem
                    tileMark := t.tileMark, sets := t.sets }) ∧
     (∀ x, (s.st set).repair = [x] → x.tile < 384 →
       (∀ bs, s.readFor set x.src x.len = .ok bs → bs.length = x.len → verifies bs x.len x.crc = true →
         ∃ t, exec (.repairComplete set remote) s = .next t ∧ s.raised t E.EXPAND_REFETCH x.tile ∧ s.sameMem t ∧
           (t.sram x.tile false x.off x.len).map (·.1) = bs.map (·.1)) ∧
       (∀ e, s.readFor set x.src x.len = .error e → s.originOf x.src x.len = none →
         ∃ t, exec (.repairComplete set remote) s = .next t ∧ s.raised t E.EXPAND_REFETCH x.tile ∧
           s.raised t E.EXPAND_REPAIR_FAIL x.tile ∧ ∀ b ∈ t.sram x.tile false x.off x.len, b.2 = true)))
end

