-- ==== Sys2Proof/Laws/Maps.lean ====
section
/-! SUPPORT. Laws of sparse maps: a read after a write, and that every operation keeps the canonical form. -/

namespace Sys2Proof.Machine

variable {α : Type}

theorem mget_nil (d : α) (k : Nat) : mget d [] k = d := rfl

/-! ### Reads after writes -/

theorem mget_mins_self (d v : α) (k : Nat) (m : SMap α) : mget d (mins k v m) k = v := by
  induction m with
  | nil => simp [mins, mget]
  | cons e r ih =>
    obtain ⟨j, w⟩ := e
    simp only [mins]
    split
    · simp [mget]
    · split
      · simp [mget]
      · rename_i h₁ h₂
        simp [mget, Ne.symm h₂, ih]

theorem mget_mins_ne (d v : α) {k j : Nat} (h : k ≠ j) (m : SMap α) : mget d (mins k v m) j = mget d m j := by
  induction m with
  | nil => simp [mins, mget, h]
  | cons e r ih =>
    obtain ⟨i, w⟩ := e
    simp only [mins]
    split
    · simp [mget, h]
    · split
      · subst_vars; simp [mget, h]
      · simp [mget, ih]

/-- Every key of a rising list is above a bound. -/
def allAbove (b : Nat) (m : SMap α) : Prop := ∀ e ∈ m, b < e.1

theorem mrising_tail {e : Nat × α} {r : SMap α} (h : mrising (e :: r) = true) : mrising r = true := by
  cases r with
  | nil => rfl
  | cons f t => simp [mrising] at h; exact h.2

theorem mrising_head {j : Nat} {v : α} {r : SMap α} (h : mrising ((j, v) :: r) = true) : allAbove j r := by
  induction r generalizing j v with
  | nil => intro e he; cases he
  | cons f t ih =>
    obtain ⟨k, w⟩ := f
    simp [mrising] at h
    intro e he
    cases he with
    | head => exact h.1
    | tail _ he => exact Nat.lt_trans h.1 (ih h.2 e he)

theorem mrising_cons {j : Nat} {v : α} {r : SMap α} (h : mrising r = true) (ha : allAbove j r) :
    mrising ((j, v) :: r) = true := by
  cases r with
  | nil => rfl
  | cons f t =>
    obtain ⟨k, w⟩ := f
    simp [mrising, h]
    exact ha (k, w) (List.mem_cons_self ..)

theorem mget_above (d : α) {b : Nat} {m : SMap α} (h : allAbove b m) : mget d m b = d := by
  induction m with
  | nil => rfl
  | cons e r ih =>
    obtain ⟨j, w⟩ := e
    have hj := h (j, w) (List.mem_cons_self ..)
    have : j ≠ b := by simp at hj; omega
    simp [mget, this]
    exact ih (fun e he => h e (List.mem_cons_of_mem _ he))

theorem mget_mdel_self (d : α) (k : Nat) {m : SMap α} (h : mrising m = true) : mget d (mdel k m) k = d := by
  induction m with
  | nil => rfl
  | cons e r ih =>
    obtain ⟨j, w⟩ := e
    simp only [mdel]
    split
    · subst_vars; exact mget_above d (mrising_head h)
    · rename_i hj; simp [mget, hj, ih (mrising_tail h)]

theorem mget_mdel_ne (d : α) {k j : Nat} (h : k ≠ j) (m : SMap α) : mget d (mdel k m) j = mget d m j := by
  induction m with
  | nil => rfl
  | cons e r ih =>
    obtain ⟨i, w⟩ := e
    simp only [mdel]
    split
    · subst_vars; simp [mget, h]
    · simp [mget, ih]

theorem mem_mins {k : Nat} {v : α} {m : SMap α} {e : Nat × α} (h : e ∈ mins k v m) : e = (k, v) ∨ e ∈ m := by
  induction m with
  | nil => simpa [mins] using h
  | cons f r ih =>
    obtain ⟨j, w⟩ := f
    simp only [mins] at h
    split at h
    · simpa using h
    · split at h
      · rcases List.mem_cons.1 h with h | h
        · exact .inl h
        · exact .inr (List.mem_cons_of_mem _ h)
      · rcases List.mem_cons.1 h with h | h
        · exact .inr (h ▸ List.mem_cons_self ..)
        · exact (ih h).imp id (List.mem_cons_of_mem _)

theorem mem_mdel {k : Nat} {m : SMap α} {e : Nat × α} (h : e ∈ mdel k m) : e ∈ m := by
  induction m with
  | nil => cases h
  | cons f r ih =>
    obtain ⟨j, w⟩ := f
    simp only [mdel] at h
    split at h
    · exact List.mem_cons_of_mem _ h
    · rcases List.mem_cons.1 h with h | h
      · exact h ▸ List.mem_cons_self ..
      · exact List.mem_cons_of_mem _ (ih h)

theorem mrising_mins {k : Nat} {v : α} {m : SMap α} (h : mrising m = true) : mrising (mins k v m) = true := by
  induction m with
  | nil => rfl
  | cons f r ih =>
    obtain ⟨j, w⟩ := f
    simp only [mins]
    split
    · rename_i hk
      exact mrising_cons h (fun e he => by
        rcases List.mem_cons.1 he with he | he
        · exact he ▸ hk
        · exact Nat.lt_trans hk (mrising_head h e he))
    · split
      · subst_vars; exact mrising_cons (mrising_tail h) (mrising_head h)
      · rename_i h₁ h₂
        refine mrising_cons (ih (mrising_tail h)) (fun e he => ?_)
        rcases mem_mins he with he | he
        · subst he; simp; omega
        · exact mrising_head h e he

theorem mrising_mdel {k : Nat} {m : SMap α} (h : mrising m = true) : mrising (mdel k m) = true := by
  induction m with
  | nil => rfl
  | cons f r ih =>
    obtain ⟨j, w⟩ := f
    simp only [mdel]
    split
    · exact mrising_tail h
    · exact mrising_cons (ih (mrising_tail h)) (fun e he => mrising_head h e (mem_mdel he))

variable [DecidableEq α]

/-- A read after a write of the same key gives the value written. -/
theorem mget_mset_self (d v : α) (k : Nat) {m : SMap α} (h : mrising m = true) : mget d (mset d k v m) k = v := by
  unfold mset
  split
  · subst_vars; exact mget_mdel_self _ k h
  · exact mget_mins_self d v k m

/-- A write leaves every other key alone. -/
theorem mget_mset_ne (d v : α) {k j : Nat} (h : k ≠ j) (m : SMap α) : mget d (mset d k v m) j = mget d m j := by
  unfold mset
  split
  · exact mget_mdel_ne d h m
  · exact mget_mins_ne d v h m

/-! ### The canonical form is kept -/

theorem mwf_iff (d : α) (m : SMap α) : mwf d m = true ↔ mrising m = true ∧ ∀ e ∈ m, e.2 ≠ d := by
  simp [mwf]

theorem mwf_nil (d : α) : mwf d ([] : SMap α) = true := rfl

/-- A write keeps the canonical form. -/
theorem mwf_mset {d : α} {m : SMap α} (h : mwf d m = true) (k : Nat) (v : α) : mwf d (mset d k v m) = true := by
  rw [mwf_iff] at h ⊢
  unfold mset
  split
  · exact ⟨mrising_mdel h.1, fun e he => h.2 e (mem_mdel he)⟩
  · rename_i hv
    exact ⟨mrising_mins h.1, fun e he => by
      rcases mem_mins he with he | he
      · subst he; exact hv
      · exact h.2 e he⟩

/-- Dropping keys keeps the canonical form. -/
theorem mwf_filter {d : α} {m : SMap α} (h : mwf d m = true) (p : Nat × α → Bool) : mwf d (m.filter p) = true := by
  rw [mwf_iff] at h ⊢
  refine ⟨?_, fun e he => h.2 e (List.mem_filter.1 he).1⟩
  have hr := h.1
  clear h
  induction m with
  | nil => rfl
  | cons f r ih =>
    obtain ⟨j, w⟩ := f
    simp only [List.filter_cons]
    split
    · exact mrising_cons (ih (mrising_tail hr)) (fun e he => mrising_head hr e (List.mem_filter.1 he).1)
    · exact ih (mrising_tail hr)

theorem mwf_mkeep {d : α} {m : SMap α} (h : mwf d m = true) (p : Nat → Bool) : mwf d (mkeep p m) = true := mwf_filter h _

/-- Writing a list keeps the canonical form. -/
theorem mwf_msetList {d : α} (l : List α) : ∀ {m : SMap α}, mwf d m = true → ∀ k, mwf d (msetList d k l m) = true := by
  induction l with
  | nil => intro m h k; exact h
  | cons v r ih => intro m h k; exact ih (mwf_mset h k v) (k + 1)

/-- A fold of steps that each keep a property keeps it. -/
theorem foldl_keeps {β γ : Type} {P : γ → Prop} {f : γ → β → γ} (hf : ∀ c b, P c → P (f c b)) (l : List β) :
    ∀ c, P c → P (l.foldl f c) := by
  induction l with
  | nil => intro c h; exact h
  | cons b r ih => intro c h; exact ih _ (hf c b h)

/-- A byte outside the keys a list is written to reads as before. -/
theorem mget_msetList_out (d : α) (l : List α) : ∀ (m : SMap α) (k j : Nat), (j < k ∨ k + l.length ≤ j) →
    mget d (msetList d k l m) j = mget d m j := by
  induction l with
  | nil => intro m k j _; rfl
  | cons v r ih =>
    intro m k j h
    simp only [List.length_cons] at h
    rw [msetList, ih _ _ _ (by omega), mget_mset_ne d v (by omega)]

end Sys2Proof.Machine
end

