-- ==== Sys2Proof/Laws/State.lean ====
section
/-! SUPPORT. What each elementary update of the state leaves as it is: one lemma for each field and update. -/

namespace Sys2Proof.Machine

variable (s : State)

/-! ### wr -/

@[simp] theorem State.wr_pending (f : Fld) (v i k j : Nat) : (s.wr f v i k j).pending = s.pending := rfl
@[simp] theorem State.wr_tempo (f : Fld) (v i k j : Nat) : (s.wr f v i k j).tempo = s.tempo := rfl
@[simp] theorem State.wr_layout (f : Fld) (v i k j : Nat) : (s.wr f v i k j).layout = s.layout := rfl
@[simp] theorem State.wr_card (f : Fld) (v i k j : Nat) : (s.wr f v i k j).card = s.card := rfl
@[simp] theorem State.wr_pkgId (f : Fld) (v i k j : Nat) : (s.wr f v i k j).pkgId = s.pkgId := rfl
@[simp] theorem State.wr_mem (f : Fld) (v i k j : Nat) : (s.wr f v i k j).mem = s.mem := rfl
@[simp] theorem State.wr_memMark (f : Fld) (v i k j : Nat) : (s.wr f v i k j).memMark = s.memMark := rfl
@[simp] theorem State.wr_parked (f : Fld) (v i k j : Nat) : (s.wr f v i k j).parked = s.parked := rfl
@[simp] theorem State.wr_parkedMark (f : Fld) (v i k j : Nat) : (s.wr f v i k j).parkedMark = s.parkedMark := rfl
@[simp] theorem State.wr_tileMem (f : Fld) (v i k j : Nat) : (s.wr f v i k j).tileMem = s.tileMem := rfl
@[simp] theorem State.wr_tileMark (f : Fld) (v i k j : Nat) : (s.wr f v i k j).tileMark = s.tileMark := rfl
@[simp] theorem State.wr_tags (f : Fld) (v i k j : Nat) : (s.wr f v i k j).tags = s.tags := rfl
@[simp] theorem State.wr_sets (f : Fld) (v i k j : Nat) : (s.wr f v i k j).sets = s.sets := rfl
@[simp] theorem State.wr_gate (f : Fld) (v i k j : Nat) : (s.wr f v i k j).gate = s.gate := rfl
@[simp] theorem State.wr_fab (f : Fld) (v i k j : Nat) : (s.wr f v i k j).fab = s.fab := rfl
@[simp] theorem State.wr_roles (f : Fld) (v i k j : Nat) : (s.wr f v i k j).roles = s.roles := rfl
@[simp] theorem State.wr_rolePend (f : Fld) (v i k j : Nat) : (s.wr f v i k j).rolePend = s.rolePend := rfl
@[simp] theorem State.wr_host (f : Fld) (v i k j : Nat) : (s.wr f v i k j).host = s.host := rfl
@[simp] theorem State.wr_caller (f : Fld) (v i k j : Nat) : (s.wr f v i k j).caller = s.caller := rfl
@[simp] theorem State.wr_figs (f : Fld) (v i k j : Nat) : (s.wr f v i k j).figs = s.figs := rfl
@[simp] theorem State.wr_runs (f : Fld) (v i k j : Nat) : (s.wr f v i k j).runs = s.runs := rfl
@[simp] theorem State.wr_notReady (f : Fld) (v i k j : Nat) : (s.wr f v i k j).notReady = s.notReady := rfl
@[simp] theorem State.wr_stranded (f : Fld) (v i k j : Nat) : (s.wr f v i k j).stranded = s.stranded := rfl
@[simp] theorem State.wr_moves (f : Fld) (v i k j : Nat) : (s.wr f v i k j).moves = s.moves := rfl
@[simp] theorem State.wr_swap (f : Fld) (v i k j : Nat) : (s.wr f v i k j).swap = s.swap := rfl
@[simp] theorem State.wr_reel (f : Fld) (v i k j : Nat) : (s.wr f v i k j).reel = s.reel := rfl
@[simp] theorem State.wr_reelPeriod (f : Fld) (v i k j : Nat) : (s.wr f v i k j).reelPeriod = s.reelPeriod := rfl
@[simp] theorem State.wr_places (f : Fld) (v i k j : Nat) : (s.wr f v i k j).places = s.places := rfl
@[simp] theorem State.wr_nv (f : Fld) (v i k j : Nat) : (s.wr f v i k j).nv = s.nv := rfl
@[simp] theorem State.wr_weights (f : Fld) (v i k j : Nat) : (s.wr f v i k j).weights = s.weights := rfl
@[simp] theorem State.wr_fuses (f : Fld) (v i k j : Nat) : (s.wr f v i k j).fuses = s.fuses := rfl
@[simp] theorem State.wr_boot (f : Fld) (v i k j : Nat) : (s.wr f v i k j).boot = s.boot := rfl
@[simp] theorem State.wr_power (f : Fld) (v i k j : Nat) : (s.wr f v i k j).power = s.power := rfl
@[simp] theorem State.wr_health (f : Fld) (v i k j : Nat) : (s.wr f v i k j).health = s.health := rfl
@[simp] theorem State.wr_resets (f : Fld) (v i k j : Nat) : (s.wr f v i k j).resets = s.resets := rfl
@[simp] theorem State.wr_saved (f : Fld) (v i k j : Nat) : (s.wr f v i k j).saved = s.saved := rfl
@[simp] theorem State.wr_resetHeld (f : Fld) (v i k j : Nat) : (s.wr f v i k j).resetHeld = s.resetHeld := rfl
@[simp] theorem State.wr_tileResets (f : Fld) (v i k j : Nat) : (s.wr f v i k j).tileResets = s.tileResets := rfl
@[simp] theorem State.wr_threads (f : Fld) (v i k j : Nat) : (s.wr f v i k j).threads = s.threads := rfl
@[simp] theorem State.wr_turns (f : Fld) (v i k j : Nat) : (s.wr f v i k j).turns = s.turns := rfl
@[simp] theorem State.wr_windows (f : Fld) (v i k j : Nat) : (s.wr f v i k j).windows = s.windows := rfl
@[simp] theorem State.wr_nvLog (f : Fld) (v i k j : Nat) : (s.wr f v i k j).nvLog = s.nvLog := rfl
@[simp] theorem State.wr_log (f : Fld) (v i k j : Nat) : (s.wr f v i k j).log = s.log := rfl
@[simp] theorem State.wr_logged (f : Fld) (v i k j : Nat) : (s.wr f v i k j).logged = s.logged := rfl
@[simp] theorem State.wr_out (f : Fld) (v i k j : Nat) : (s.wr f v i k j).out = s.out := rfl

/-! ### logAs -/

@[simp] theorem State.logAs_pending (u : Nat) (w : LogWhat) (a : List Nat) : (s.logAs u w a).pending = s.pending := rfl
@[simp] theorem State.logAs_regs (u : Nat) (w : LogWhat) (a : List Nat) : (s.logAs u w a).regs = s.regs := rfl
@[simp] theorem State.logAs_tempo (u : Nat) (w : LogWhat) (a : List Nat) : (s.logAs u w a).tempo = s.tempo := rfl
@[simp] theorem State.logAs_layout (u : Nat) (w : LogWhat) (a : List Nat) : (s.logAs u w a).layout = s.layout := rfl
@[simp] theorem State.logAs_card (u : Nat) (w : LogWhat) (a : List Nat) : (s.logAs u w a).card = s.card := rfl
@[simp] theorem State.logAs_pkgId (u : Nat) (w : LogWhat) (a : List Nat) : (s.logAs u w a).pkgId = s.pkgId := rfl
@[simp] theorem State.logAs_mem (u : Nat) (w : LogWhat) (a : List Nat) : (s.logAs u w a).mem = s.mem := rfl
@[simp] theorem State.logAs_memMark (u : Nat) (w : LogWhat) (a : List Nat) : (s.logAs u w a).memMark = s.memMark := rfl
@[simp] theorem State.logAs_parked (u : Nat) (w : LogWhat) (a : List Nat) : (s.logAs u w a).parked = s.parked := rfl
@[simp] theorem State.logAs_parkedMark (u : Nat) (w : LogWhat) (a : List Nat) : (s.logAs u w a).parkedMark = s.parkedMark := rfl
@[simp] theorem State.logAs_tileMem (u : Nat) (w : LogWhat) (a : List Nat) : (s.logAs u w a).tileMem = s.tileMem := rfl
@[simp] theorem State.logAs_tileMark (u : Nat) (w : LogWhat) (a : List Nat) : (s.logAs u w a).tileMark = s.tileMark := rfl
@[simp] theorem State.logAs_tags (u : Nat) (w : LogWhat) (a : List Nat) : (s.logAs u w a).tags = s.tags := rfl
@[simp] theorem State.logAs_sets (u : Nat) (w : LogWhat) (a : List Nat) : (s.logAs u w a).sets = s.sets := rfl
@[simp] theorem State.logAs_gate (u : Nat) (w : LogWhat) (a : List Nat) : (s.logAs u w a).gate = s.gate := rfl
@[simp] theorem State.logAs_fab (u : Nat) (w : LogWhat) (a : List Nat) : (s.logAs u w a).fab = s.fab := rfl
@[simp] theorem State.logAs_roles (u : Nat) (w : LogWhat) (a : List Nat) : (s.logAs u w a).roles = s.roles := rfl
@[simp] theorem State.logAs_rolePend (u : Nat) (w : LogWhat) (a : List Nat) : (s.logAs u w a).rolePend = s.rolePend := rfl
@[simp] theorem State.logAs_host (u : Nat) (w : LogWhat) (a : List Nat) : (s.logAs u w a).host = s.host := rfl
@[simp] theorem State.logAs_caller (u : Nat) (w : LogWhat) (a : List Nat) : (s.logAs u w a).caller = s.caller := rfl
@[simp] theorem State.logAs_figs (u : Nat) (w : LogWhat) (a : List Nat) : (s.logAs u w a).figs = s.figs := rfl
@[simp] theorem State.logAs_runs (u : Nat) (w : LogWhat) (a : List Nat) : (s.logAs u w a).runs = s.runs := rfl
@[simp] theorem State.logAs_notReady (u : Nat) (w : LogWhat) (a : List Nat) : (s.logAs u w a).notReady = s.notReady := rfl
@[simp] theorem State.logAs_stranded (u : Nat) (w : LogWhat) (a : List Nat) : (s.logAs u w a).stranded = s.stranded := rfl
@[simp] theorem State.logAs_moves (u : Nat) (w : LogWhat) (a : List Nat) : (s.logAs u w a).moves = s.moves := rfl
@[simp] theorem State.logAs_swap (u : Nat) (w : LogWhat) (a : List Nat) : (s.logAs u w a).swap = s.swap := rfl
@[simp] theorem State.logAs_reel (u : Nat) (w : LogWhat) (a : List Nat) : (s.logAs u w a).reel = s.reel := rfl
@[simp] theorem State.logAs_reelPeriod (u : Nat) (w : LogWhat) (a : List Nat) : (s.logAs u w a).reelPeriod = s.reelPeriod := rfl
@[simp] theorem State.logAs_places (u : Nat) (w : LogWhat) (a : List Nat) : (s.logAs u w a).places = s.places := rfl
@[simp] theorem State.logAs_nv (u : Nat) (w : LogWhat) (a : List Nat) : (s.logAs u w a).nv = s.nv := rfl
@[simp] theorem State.logAs_weights (u : Nat) (w : LogWhat) (a : List Nat) : (s.logAs u w a).weights = s.weights := rfl
@[simp] theorem State.logAs_fuses (u : Nat) (w : LogWhat) (a : List Nat) : (s.logAs u w a).fuses = s.fuses := rfl
@[simp] theorem State.logAs_boot (u : Nat) (w : LogWhat) (a : List Nat) : (s.logAs u w a).boot = s.boot := rfl
@[simp] theorem State.logAs_power (u : Nat) (w : LogWhat) (a : List Nat) : (s.logAs u w a).power = s.power := rfl
@[simp] theorem State.logAs_health (u : Nat) (w : LogWhat) (a : List Nat) : (s.logAs u w a).health = s.health := rfl
@[simp] theorem State.logAs_resets (u : Nat) (w : LogWhat) (a : List Nat) : (s.logAs u w a).resets = s.resets := rfl
@[simp] theorem State.logAs_saved (u : Nat) (w : LogWhat) (a : List Nat) : (s.logAs u w a).saved = s.saved := rfl
@[simp] theorem State.logAs_resetHeld (u : Nat) (w : LogWhat) (a : List Nat) : (s.logAs u w a).resetHeld = s.resetHeld := rfl
@[simp] theorem State.logAs_tileResets (u : Nat) (w : LogWhat) (a : List Nat) : (s.logAs u w a).tileResets = s.tileResets := rfl
@[simp] theorem State.logAs_threads (u : Nat) (w : LogWhat) (a : List Nat) : (s.logAs u w a).threads = s.threads := rfl
@[simp] theorem State.logAs_turns (u : Nat) (w : LogWhat) (a : List Nat) : (s.logAs u w a).turns = s.turns := rfl
@[simp] theorem State.logAs_windows (u : Nat) (w : LogWhat) (a : List Nat) : (s.logAs u w a).windows = s.windows := rfl
@[simp] theorem State.logAs_nvLog (u : Nat) (w : LogWhat) (a : List Nat) : (s.logAs u w a).nvLog = s.nvLog := rfl
@[simp] theorem State.logAs_logged (u : Nat) (w : LogWhat) (a : List Nat) : (s.logAs u w a).logged = s.logged := rfl
@[simp] theorem State.logAs_out (u : Nat) (w : LogWhat) (a : List Nat) : (s.logAs u w a).out = s.out := rfl

/-! ### emit -/

@[simp] theorem State.emit_pending (o : Out) : (s.emit o).pending = s.pending := rfl
@[simp] theorem State.emit_regs (o : Out) : (s.emit o).regs = s.regs := rfl
@[simp] theorem State.emit_tempo (o : Out) : (s.emit o).tempo = s.tempo := rfl
@[simp] theorem State.emit_layout (o : Out) : (s.emit o).layout = s.layout := rfl
@[simp] theorem State.emit_card (o : Out) : (s.emit o).card = s.card := rfl
@[simp] theorem State.emit_pkgId (o : Out) : (s.emit o).pkgId = s.pkgId := rfl
@[simp] theorem State.emit_mem (o : Out) : (s.emit o).mem = s.mem := rfl
@[simp] theorem State.emit_memMark (o : Out) : (s.emit o).memMark = s.memMark := rfl
@[simp] theorem State.emit_parked (o : Out) : (s.emit o).parked = s.parked := rfl
@[simp] theorem State.emit_parkedMark (o : Out) : (s.emit o).parkedMark = s.parkedMark := rfl
@[simp] theorem State.emit_tileMem (o : Out) : (s.emit o).tileMem = s.tileMem := rfl
@[simp] theorem State.emit_tileMark (o : Out) : (s.emit o).tileMark = s.tileMark := rfl
@[simp] theorem State.emit_tags (o : Out) : (s.emit o).tags = s.tags := rfl
@[simp] theorem State.emit_sets (o : Out) : (s.emit o).sets = s.sets := rfl
@[simp] theorem State.emit_gate (o : Out) : (s.emit o).gate = s.gate := rfl
@[simp] theorem State.emit_fab (o : Out) : (s.emit o).fab = s.fab := rfl
@[simp] theorem State.emit_roles (o : Out) : (s.emit o).roles = s.roles := rfl
@[simp] theorem State.emit_rolePend (o : Out) : (s.emit o).rolePend = s.rolePend := rfl
@[simp] theorem State.emit_host (o : Out) : (s.emit o).host = s.host := rfl
@[simp] theorem State.emit_caller (o : Out) : (s.emit o).caller = s.caller := rfl
@[simp] theorem State.emit_figs (o : Out) : (s.emit o).figs = s.figs := rfl
@[simp] theorem State.emit_runs (o : Out) : (s.emit o).runs = s.runs := rfl
@[simp] theorem State.emit_notReady (o : Out) : (s.emit o).notReady = s.notReady := rfl
@[simp] theorem State.emit_stranded (o : Out) : (s.emit o).stranded = s.stranded := rfl
@[simp] theorem State.emit_moves (o : Out) : (s.emit o).moves = s.moves := rfl
@[simp] theorem State.emit_swap (o : Out) : (s.emit o).swap = s.swap := rfl
@[simp] theorem State.emit_reel (o : Out) : (s.emit o).reel = s.reel := rfl
@[simp] theorem State.emit_reelPeriod (o : Out) : (s.emit o).reelPeriod = s.reelPeriod := rfl
@[simp] theorem State.emit_places (o : Out) : (s.emit o).places = s.places := rfl
@[simp] theorem State.emit_nv (o : Out) : (s.emit o).nv = s.nv := rfl
@[simp] theorem State.emit_weights (o : Out) : (s.emit o).weights = s.weights := rfl
@[simp] theorem State.emit_fuses (o : Out) : (s.emit o).fuses = s.fuses := rfl
@[simp] theorem State.emit_boot (o : Out) : (s.emit o).boot = s.boot := rfl
@[simp] theorem State.emit_power (o : Out) : (s.emit o).power = s.power := rfl
@[simp] theorem State.emit_health (o : Out) : (s.emit o).health = s.health := rfl
@[simp] theorem State.emit_resets (o : Out) : (s.emit o).resets = s.resets := rfl
@[simp] theorem State.emit_saved (o : Out) : (s.emit o).saved = s.saved := rfl
@[simp] theorem State.emit_resetHeld (o : Out) : (s.emit o).resetHeld = s.resetHeld := rfl
@[simp] theorem State.emit_tileResets (o : Out) : (s.emit o).tileResets = s.tileResets := rfl
@[simp] theorem State.emit_threads (o : Out) : (s.emit o).threads = s.threads := rfl
@[simp] theorem State.emit_turns (o : Out) : (s.emit o).turns = s.turns := rfl
@[simp] theorem State.emit_windows (o : Out) : (s.emit o).windows = s.windows := rfl
@[simp] theorem State.emit_nvLog (o : Out) : (s.emit o).nvLog = s.nvLog := rfl
@[simp] theorem State.emit_log (o : Out) : (s.emit o).log = s.log := rfl
@[simp] theorem State.emit_logged (o : Out) : (s.emit o).logged = s.logged := rfl

/-! ### setSt -/

@[simp] theorem State.setSt_pending (n : Nat) (x : SetSt) : (s.setSt n x).pending = s.pending := rfl
@[simp] theorem State.setSt_regs (n : Nat) (x : SetSt) : (s.setSt n x).regs = s.regs := rfl
@[simp] theorem State.setSt_tempo (n : Nat) (x : SetSt) : (s.setSt n x).tempo = s.tempo := rfl
@[simp] theorem State.setSt_layout (n : Nat) (x : SetSt) : (s.setSt n x).layout = s.layout := rfl
@[simp] theorem State.setSt_card (n : Nat) (x : SetSt) : (s.setSt n x).card = s.card := rfl
@[simp] theorem State.setSt_pkgId (n : Nat) (x : SetSt) : (s.setSt n x).pkgId = s.pkgId := rfl
@[simp] theorem State.setSt_mem (n : Nat) (x : SetSt) : (s.setSt n x).mem = s.mem := rfl
@[simp] theorem State.setSt_memMark (n : Nat) (x : SetSt) : (s.setSt n x).memMark = s.memMark := rfl
@[simp] theorem State.setSt_parked (n : Nat) (x : SetSt) : (s.setSt n x).parked = s.parked := rfl
@[simp] theorem State.setSt_parkedMark (n : Nat) (x : SetSt) : (s.setSt n x).parkedMark = s.parkedMark := rfl
@[simp] theorem State.setSt_tileMem (n : Nat) (x : SetSt) : (s.setSt n x).tileMem = s.tileMem := rfl
@[simp] theorem State.setSt_tileMark (n : Nat) (x : SetSt) : (s.setSt n x).tileMark = s.tileMark := rfl
@[simp] theorem State.setSt_tags (n : Nat) (x : SetSt) : (s.setSt n x).tags = s.tags := rfl
@[simp] theorem State.setSt_gate (n : Nat) (x : SetSt) : (s.setSt n x).gate = s.gate := rfl
@[simp] theorem State.setSt_fab (n : Nat) (x : SetSt) : (s.setSt n x).fab = s.fab := rfl
@[simp] theorem State.setSt_roles (n : Nat) (x : SetSt) : (s.setSt n x).roles = s.roles := rfl
@[simp] theorem State.setSt_rolePend (n : Nat) (x : SetSt) : (s.setSt n x).rolePend = s.rolePend := rfl
@[simp] theorem State.setSt_host (n : Nat) (x : SetSt) : (s.setSt n x).host = s.host := rfl
@[simp] theorem State.setSt_caller (n : Nat) (x : SetSt) : (s.setSt n x).caller = s.caller := rfl
@[simp] theorem State.setSt_figs (n : Nat) (x : SetSt) : (s.setSt n x).figs = s.figs := rfl
@[simp] theorem State.setSt_runs (n : Nat) (x : SetSt) : (s.setSt n x).runs = s.runs := rfl
@[simp] theorem State.setSt_notReady (n : Nat) (x : SetSt) : (s.setSt n x).notReady = s.notReady := rfl
@[simp] theorem State.setSt_stranded (n : Nat) (x : SetSt) : (s.setSt n x).stranded = s.stranded := rfl
@[simp] theorem State.setSt_moves (n : Nat) (x : SetSt) : (s.setSt n x).moves = s.moves := rfl
@[simp] theorem State.setSt_swap (n : Nat) (x : SetSt) : (s.setSt n x).swap = s.swap := rfl
@[simp] theorem State.setSt_reel (n : Nat) (x : SetSt) : (s.setSt n x).reel = s.reel := rfl
@[simp] theorem State.setSt_reelPeriod (n : Nat) (x : SetSt) : (s.setSt n x).reelPeriod = s.reelPeriod := rfl
@[simp] theorem State.setSt_places (n : Nat) (x : SetSt) : (s.setSt n x).places = s.places := rfl
@[simp] theorem State.setSt_nv (n : Nat) (x : SetSt) : (s.setSt n x).nv = s.nv := rfl
@[simp] theorem State.setSt_weights (n : Nat) (x : SetSt) : (s.setSt n x).weights = s.weights := rfl
@[simp] theorem State.setSt_fuses (n : Nat) (x : SetSt) : (s.setSt n x).fuses = s.fuses := rfl
@[simp] theorem State.setSt_boot (n : Nat) (x : SetSt) : (s.setSt n x).boot = s.boot := rfl
@[simp] theorem State.setSt_power (n : Nat) (x : SetSt) : (s.setSt n x).power = s.power := rfl
@[simp] theorem State.setSt_health (n : Nat) (x : SetSt) : (s.setSt n x).health = s.health := rfl
@[simp] theorem State.setSt_resets (n : Nat) (x : SetSt) : (s.setSt n x).resets = s.resets := rfl
@[simp] theorem State.setSt_saved (n : Nat) (x : SetSt) : (s.setSt n x).saved = s.saved := rfl
@[simp] theorem State.setSt_resetHeld (n : Nat) (x : SetSt) : (s.setSt n x).resetHeld = s.resetHeld := rfl
@[simp] theorem State.setSt_tileResets (n : Nat) (x : SetSt) : (s.setSt n x).tileResets = s.tileResets := rfl
@[simp] theorem State.setSt_threads (n : Nat) (x : SetSt) : (s.setSt n x).threads = s.threads := rfl
@[simp] theorem State.setSt_turns (n : Nat) (x : SetSt) : (s.setSt n x).turns = s.turns := rfl
@[simp] theorem State.setSt_windows (n : Nat) (x : SetSt) : (s.setSt n x).windows = s.windows := rfl
@[simp] theorem State.setSt_nvLog (n : Nat) (x : SetSt) : (s.setSt n x).nvLog = s.nvLog := rfl
@[simp] theorem State.setSt_log (n : Nat) (x : SetSt) : (s.setSt n x).log = s.log := rfl
@[simp] theorem State.setSt_logged (n : Nat) (x : SetSt) : (s.setSt n x).logged = s.logged := rfl
@[simp] theorem State.setSt_out (n : Nat) (x : SetSt) : (s.setSt n x).out = s.out := rfl

/-! ### devPut -/

@[simp] theorem State.devPut_pending (a : Nat) (d : List MarkByte) : (s.devPut a d).pending = s.pending := rfl
@[simp] theorem State.devPut_regs (a : Nat) (d : List MarkByte) : (s.devPut a d).regs = s.regs := rfl
@[simp] theorem State.devPut_tempo (a : Nat) (d : List MarkByte) : (s.devPut a d).tempo = s.tempo := rfl
@[simp] theorem State.devPut_layout (a : Nat) (d : List MarkByte) : (s.devPut a d).layout = s.layout := rfl
@[simp] theorem State.devPut_card (a : Nat) (d : List MarkByte) : (s.devPut a d).card = s.card := rfl
@[simp] theorem State.devPut_pkgId (a : Nat) (d : List MarkByte) : (s.devPut a d).pkgId = s.pkgId := rfl
@[simp] theorem State.devPut_tileMem (a : Nat) (d : List MarkByte) : (s.devPut a d).tileMem = s.tileMem := rfl
@[simp] theorem State.devPut_tileMark (a : Nat) (d : List MarkByte) : (s.devPut a d).tileMark = s.tileMark := rfl
@[simp] theorem State.devPut_tags (a : Nat) (d : List MarkByte) : (s.devPut a d).tags = s.tags := rfl
@[simp] theorem State.devPut_sets (a : Nat) (d : List MarkByte) : (s.devPut a d).sets = s.sets := rfl
@[simp] theorem State.devPut_gate (a : Nat) (d : List MarkByte) : (s.devPut a d).gate = s.gate := rfl
@[simp] theorem State.devPut_fab (a : Nat) (d : List MarkByte) : (s.devPut a d).fab = s.fab := rfl
@[simp] theorem State.devPut_roles (a : Nat) (d : List MarkByte) : (s.devPut a d).roles = s.roles := rfl
@[simp] theorem State.devPut_rolePend (a : Nat) (d : List MarkByte) : (s.devPut a d).rolePend = s.rolePend := rfl
@[simp] theorem State.devPut_host (a : Nat) (d : List MarkByte) : (s.devPut a d).host = s.host := rfl
@[simp] theorem State.devPut_caller (a : Nat) (d : List MarkByte) : (s.devPut a d).caller = s.caller := rfl
@[simp] theorem State.devPut_figs (a : Nat) (d : List MarkByte) : (s.devPut a d).figs = s.figs := rfl
@[simp] theorem State.devPut_runs (a : Nat) (d : List MarkByte) : (s.devPut a d).runs = s.runs := rfl
@[simp] theorem State.devPut_notReady (a : Nat) (d : List MarkByte) : (s.devPut a d).notReady = s.notReady := rfl
@[simp] theorem State.devPut_stranded (a : Nat) (d : List MarkByte) : (s.devPut a d).stranded = s.stranded := rfl
@[simp] theorem State.devPut_moves (a : Nat) (d : List MarkByte) : (s.devPut a d).moves = s.moves := rfl
@[simp] theorem State.devPut_swap (a : Nat) (d : List MarkByte) : (s.devPut a d).swap = s.swap := rfl
@[simp] theorem State.devPut_reel (a : Nat) (d : List MarkByte) : (s.devPut a d).reel = s.reel := rfl
@[simp] theorem State.devPut_reelPeriod (a : Nat) (d : List MarkByte) : (s.devPut a d).reelPeriod = s.reelPeriod := rfl
@[simp] theorem State.devPut_places (a : Nat) (d : List MarkByte) : (s.devPut a d).places = s.places := rfl
@[simp] theorem State.devPut_nv (a : Nat) (d : List MarkByte) : (s.devPut a d).nv = s.nv := rfl
@[simp] theorem State.devPut_weights (a : Nat) (d : List MarkByte) : (s.devPut a d).weights = s.weights := rfl
@[simp] theorem State.devPut_fuses (a : Nat) (d : List MarkByte) : (s.devPut a d).fuses = s.fuses := rfl
@[simp] theorem State.devPut_boot (a : Nat) (d : List MarkByte) : (s.devPut a d).boot = s.boot := rfl
@[simp] theorem State.devPut_power (a : Nat) (d : List MarkByte) : (s.devPut a d).power = s.power := rfl
@[simp] theorem State.devPut_health (a : Nat) (d : List MarkByte) : (s.devPut a d).health = s.health := rfl
@[simp] theorem State.devPut_resets (a : Nat) (d : List MarkByte) : (s.devPut a d).resets = s.resets := rfl
@[simp] theorem State.devPut_saved (a : Nat) (d : List MarkByte) : (s.devPut a d).saved = s.saved := rfl
@[simp] theorem State.devPut_resetHeld (a : Nat) (d : List MarkByte) : (s.devPut a d).resetHeld = s.resetHeld := rfl
@[simp] theorem State.devPut_tileResets (a : Nat) (d : List MarkByte) : (s.devPut a d).tileResets = s.tileResets := rfl
@[simp] theorem State.devPut_threads (a : Nat) (d : List MarkByte) : (s.devPut a d).threads = s.threads := rfl
@[simp] theorem State.devPut_turns (a : Nat) (d : List MarkByte) : (s.devPut a d).turns = s.turns := rfl
@[simp] theorem State.devPut_windows (a : Nat) (d : List MarkByte) : (s.devPut a d).windows = s.windows := rfl
@[simp] theorem State.devPut_nvLog (a : Nat) (d : List MarkByte) : (s.devPut a d).nvLog = s.nvLog := rfl
@[simp] theorem State.devPut_log (a : Nat) (d : List MarkByte) : (s.devPut a d).log = s.log := rfl
@[simp] theorem State.devPut_logged (a : Nat) (d : List MarkByte) : (s.devPut a d).logged = s.logged := rfl
@[simp] theorem State.devPut_out (a : Nat) (d : List MarkByte) : (s.devPut a d).out = s.out := rfl

/-! ### zeroRange -/

@[simp] theorem State.zeroRange_pending (a n : Nat) : (s.zeroRange a n).pending = s.pending := rfl
@[simp] theorem State.zeroRange_regs (a n : Nat) : (s.zeroRange a n).regs = s.regs := rfl
@[simp] theorem State.zeroRange_tempo (a n : Nat) : (s.zeroRange a n).tempo = s.tempo := rfl
@[simp] theorem State.zeroRange_layout (a n : Nat) : (s.zeroRange a n).layout = s.layout := rfl
@[simp] theorem State.zeroRange_card (a n : Nat) : (s.zeroRange a n).card = s.card := rfl
@[simp] theorem State.zeroRange_pkgId (a n : Nat) : (s.zeroRange a n).pkgId = s.pkgId := rfl
@[simp] theorem State.zeroRange_tileMem (a n : Nat) : (s.zeroRange a n).tileMem = s.tileMem := rfl
@[simp] theorem State.zeroRange_tileMark (a n : Nat) : (s.zeroRange a n).tileMark = s.tileMark := rfl
@[simp] theorem State.zeroRange_tags (a n : Nat) : (s.zeroRange a n).tags = s.tags := rfl
@[simp] theorem State.zeroRange_sets (a n : Nat) : (s.zeroRange a n).sets = s.sets := rfl
@[simp] theorem State.zeroRange_gate (a n : Nat) : (s.zeroRange a n).gate = s.gate := rfl
@[simp] theorem State.zeroRange_fab (a n : Nat) : (s.zeroRange a n).fab = s.fab := rfl
@[simp] theorem State.zeroRange_roles (a n : Nat) : (s.zeroRange a n).roles = s.roles := rfl
@[simp] theorem State.zeroRange_rolePend (a n : Nat) : (s.zeroRange a n).rolePend = s.rolePend := rfl
@[simp] theorem State.zeroRange_host (a n : Nat) : (s.zeroRange a n).host = s.host := rfl
@[simp] theorem State.zeroRange_caller (a n : Nat) : (s.zeroRange a n).caller = s.caller := rfl
@[simp] theorem State.zeroRange_figs (a n : Nat) : (s.zeroRange a n).figs = s.figs := rfl
@[simp] theorem State.zeroRange_runs (a n : Nat) : (s.zeroRange a n).runs = s.runs := rfl
@[simp] theorem State.zeroRange_notReady (a n : Nat) : (s.zeroRange a n).notReady = s.notReady := rfl
@[simp] theorem State.zeroRange_stranded (a n : Nat) : (s.zeroRange a n).stranded = s.stranded := rfl
@[simp] theorem State.zeroRange_moves (a n : Nat) : (s.zeroRange a n).moves = s.moves := rfl
@[simp] theorem State.zeroRange_swap (a n : Nat) : (s.zeroRange a n).swap = s.swap := rfl
@[simp] theorem State.zeroRange_reel (a n : Nat) : (s.zeroRange a n).reel = s.reel := rfl
@[simp] theorem State.zeroRange_reelPeriod (a n : Nat) : (s.zeroRange a n).reelPeriod = s.reelPeriod := rfl
@[simp] theorem State.zeroRange_places (a n : Nat) : (s.zeroRange a n).places = s.places := rfl
@[simp] theorem State.zeroRange_nv (a n : Nat) : (s.zeroRange a n).nv = s.nv := rfl
@[simp] theorem State.zeroRange_weights (a n : Nat) : (s.zeroRange a n).weights = s.weights := rfl
@[simp] theorem State.zeroRange_fuses (a n : Nat) : (s.zeroRange a n).fuses = s.fuses := rfl
@[simp] theorem State.zeroRange_boot (a n : Nat) : (s.zeroRange a n).boot = s.boot := rfl
@[simp] theorem State.zeroRange_power (a n : Nat) : (s.zeroRange a n).power = s.power := rfl
@[simp] theorem State.zeroRange_health (a n : Nat) : (s.zeroRange a n).health = s.health := rfl
@[simp] theorem State.zeroRange_resets (a n : Nat) : (s.zeroRange a n).resets = s.resets := rfl
@[simp] theorem State.zeroRange_saved (a n : Nat) : (s.zeroRange a n).saved = s.saved := rfl
@[simp] theorem State.zeroRange_resetHeld (a n : Nat) : (s.zeroRange a n).resetHeld = s.resetHeld := rfl
@[simp] theorem State.zeroRange_tileResets (a n : Nat) : (s.zeroRange a n).tileResets = s.tileResets := rfl
@[simp] theorem State.zeroRange_threads (a n : Nat) : (s.zeroRange a n).threads = s.threads := rfl
@[simp] theorem State.zeroRange_turns (a n : Nat) : (s.zeroRange a n).turns = s.turns := rfl
@[simp] theorem State.zeroRange_windows (a n : Nat) : (s.zeroRange a n).windows = s.windows := rfl
@[simp] theorem State.zeroRange_nvLog (a n : Nat) : (s.zeroRange a n).nvLog = s.nvLog := rfl
@[simp] theorem State.zeroRange_log (a n : Nat) : (s.zeroRange a n).log = s.log := rfl
@[simp] theorem State.zeroRange_logged (a n : Nat) : (s.zeroRange a n).logged = s.logged := rfl
@[simp] theorem State.zeroRange_out (a n : Nat) : (s.zeroRange a n).out = s.out := rfl

/-! ### sramPut -/

@[simp] theorem State.sramPut_pending (key : Nat) (d : List MarkByte) : (s.sramPut key d).pending = s.pending := rfl
@[simp] theorem State.sramPut_regs (key : Nat) (d : List MarkByte) : (s.sramPut key d).regs = s.regs := rfl
@[simp] theorem State.sramPut_tempo (key : Nat) (d : List MarkByte) : (s.sramPut key d).tempo = s.tempo := rfl
@[simp] theorem State.sramPut_layout (key : Nat) (d : List MarkByte) : (s.sramPut key d).layout = s.layout := rfl
@[simp] theorem State.sramPut_card (key : Nat) (d : List MarkByte) : (s.sramPut key d).card = s.card := rfl
@[simp] theorem State.sramPut_pkgId (key : Nat) (d : List MarkByte) : (s.sramPut key d).pkgId = s.pkgId := rfl
@[simp] theorem State.sramPut_mem (key : Nat) (d : List MarkByte) : (s.sramPut key d).mem = s.mem := rfl
@[simp] theorem State.sramPut_memMark (key : Nat) (d : List MarkByte) : (s.sramPut key d).memMark = s.memMark := rfl
@[simp] theorem State.sramPut_parked (key : Nat) (d : List MarkByte) : (s.sramPut key d).parked = s.parked := rfl
@[simp] theorem State.sramPut_parkedMark (key : Nat) (d : List MarkByte) : (s.sramPut key d).parkedMark = s.parkedMark := rfl
@[simp] theorem State.sramPut_tags (key : Nat) (d : List MarkByte) : (s.sramPut key d).tags = s.tags := rfl
@[simp] theorem State.sramPut_sets (key : Nat) (d : List MarkByte) : (s.sramPut key d).sets = s.sets := rfl
@[simp] theorem State.sramPut_gate (key : Nat) (d : List MarkByte) : (s.sramPut key d).gate = s.gate := rfl
@[simp] theorem State.sramPut_fab (key : Nat) (d : List MarkByte) : (s.sramPut key d).fab = s.fab := rfl
@[simp] theorem State.sramPut_roles (key : Nat) (d : List MarkByte) : (s.sramPut key d).roles = s.roles := rfl
@[simp] theorem State.sramPut_rolePend (key : Nat) (d : List MarkByte) : (s.sramPut key d).rolePend = s.rolePend := rfl
@[simp] theorem State.sramPut_host (key : Nat) (d : List MarkByte) : (s.sramPut key d).host = s.host := rfl
@[simp] theorem State.sramPut_caller (key : Nat) (d : List MarkByte) : (s.sramPut key d).caller = s.caller := rfl
@[simp] theorem State.sramPut_figs (key : Nat) (d : List MarkByte) : (s.sramPut key d).figs = s.figs := rfl
@[simp] theorem State.sramPut_runs (key : Nat) (d : List MarkByte) : (s.sramPut key d).runs = s.runs := rfl
@[simp] theorem State.sramPut_notReady (key : Nat) (d : List MarkByte) : (s.sramPut key d).notReady = s.notReady := rfl
@[simp] theorem State.sramPut_stranded (key : Nat) (d : List MarkByte) : (s.sramPut key d).stranded = s.stranded := rfl
@[simp] theorem State.sramPut_moves (key : Nat) (d : List MarkByte) : (s.sramPut key d).moves = s.moves := rfl
@[simp] theorem State.sramPut_swap (key : Nat) (d : List MarkByte) : (s.sramPut key d).swap = s.swap := rfl
@[simp] theorem State.sramPut_reel (key : Nat) (d : List MarkByte) : (s.sramPut key d).reel = s.reel := rfl
@[simp] theorem State.sramPut_reelPeriod (key : Nat) (d : List MarkByte) : (s.sramPut key d).reelPeriod = s.reelPeriod := rfl
@[simp] theorem State.sramPut_places (key : Nat) (d : List MarkByte) : (s.sramPut key d).places = s.places := rfl
@[simp] theorem State.sramPut_nv (key : Nat) (d : List MarkByte) : (s.sramPut key d).nv = s.nv := rfl
@[simp] theorem State.sramPut_weights (key : Nat) (d : List MarkByte) : (s.sramPut key d).weights = s.weights := rfl
@[simp] theorem State.sramPut_fuses (key : Nat) (d : List MarkByte) : (s.sramPut key d).fuses = s.fuses := rfl
@[simp] theorem State.sramPut_boot (key : Nat) (d : List MarkByte) : (s.sramPut key d).boot = s.boot := rfl
@[simp] theorem State.sramPut_power (key : Nat) (d : List MarkByte) : (s.sramPut key d).power = s.power := rfl
@[simp] theorem State.sramPut_health (key : Nat) (d : List MarkByte) : (s.sramPut key d).health = s.health := rfl
@[simp] theorem State.sramPut_resets (key : Nat) (d : List MarkByte) : (s.sramPut key d).resets = s.resets := rfl
@[simp] theorem State.sramPut_saved (key : Nat) (d : List MarkByte) : (s.sramPut key d).saved = s.saved := rfl
@[simp] theorem State.sramPut_resetHeld (key : Nat) (d : List MarkByte) : (s.sramPut key d).resetHeld = s.resetHeld := rfl
@[simp] theorem State.sramPut_tileResets (key : Nat) (d : List MarkByte) : (s.sramPut key d).tileResets = s.tileResets := rfl
@[simp] theorem State.sramPut_threads (key : Nat) (d : List MarkByte) : (s.sramPut key d).threads = s.threads := rfl
@[simp] theorem State.sramPut_turns (key : Nat) (d : List MarkByte) : (s.sramPut key d).turns = s.turns := rfl
@[simp] theorem State.sramPut_windows (key : Nat) (d : List MarkByte) : (s.sramPut key d).windows = s.windows := rfl
@[simp] theorem State.sramPut_nvLog (key : Nat) (d : List MarkByte) : (s.sramPut key d).nvLog = s.nvLog := rfl
@[simp] theorem State.sramPut_log (key : Nat) (d : List MarkByte) : (s.sramPut key d).log = s.log := rfl
@[simp] theorem State.sramPut_logged (key : Nat) (d : List MarkByte) : (s.sramPut key d).logged = s.logged := rfl
@[simp] theorem State.sramPut_out (key : Nat) (d : List MarkByte) : (s.sramPut key d).out = s.out := rfl

/-! ### setTag -/

@[simp] theorem State.setTag_pending (key v : Nat) : (s.setTag key v).pending = s.pending := rfl
@[simp] theorem State.setTag_regs (key v : Nat) : (s.setTag key v).regs = s.regs := rfl
@[simp] theorem State.setTag_tempo (key v : Nat) : (s.setTag key v).tempo = s.tempo := rfl
@[simp] theorem State.setTag_layout (key v : Nat) : (s.setTag key v).layout = s.layout := rfl
@[simp] theorem State.setTag_card (key v : Nat) : (s.setTag key v).card = s.card := rfl
@[simp] theorem State.setTag_pkgId (key v : Nat) : (s.setTag key v).pkgId = s.pkgId := rfl
@[simp] theorem State.setTag_mem (key v : Nat) : (s.setTag key v).mem = s.mem := rfl
@[simp] theorem State.setTag_memMark (key v : Nat) : (s.setTag key v).memMark = s.memMark := rfl
@[simp] theorem State.setTag_parked (key v : Nat) : (s.setTag key v).parked = s.parked := rfl
@[simp] theorem State.setTag_parkedMark (key v : Nat) : (s.setTag key v).parkedMark = s.parkedMark := rfl
@[simp] theorem State.setTag_tileMem (key v : Nat) : (s.setTag key v).tileMem = s.tileMem := rfl
@[simp] theorem State.setTag_tileMark (key v : Nat) : (s.setTag key v).tileMark = s.tileMark := rfl
@[simp] theorem State.setTag_sets (key v : Nat) : (s.setTag key v).sets = s.sets := rfl
@[simp] theorem State.setTag_gate (key v : Nat) : (s.setTag key v).gate = s.gate := rfl
@[simp] theorem State.setTag_fab (key v : Nat) : (s.setTag key v).fab = s.fab := rfl
@[simp] theorem State.setTag_roles (key v : Nat) : (s.setTag key v).roles = s.roles := rfl
@[simp] theorem State.setTag_rolePend (key v : Nat) : (s.setTag key v).rolePend = s.rolePend := rfl
@[simp] theorem State.setTag_host (key v : Nat) : (s.setTag key v).host = s.host := rfl
@[simp] theorem State.setTag_caller (key v : Nat) : (s.setTag key v).caller = s.caller := rfl
@[simp] theorem State.setTag_figs (key v : Nat) : (s.setTag key v).figs = s.figs := rfl
@[simp] theorem State.setTag_runs (key v : Nat) : (s.setTag key v).runs = s.runs := rfl
@[simp] theorem State.setTag_notReady (key v : Nat) : (s.setTag key v).notReady = s.notReady := rfl
@[simp] theorem State.setTag_stranded (key v : Nat) : (s.setTag key v).stranded = s.stranded := rfl
@[simp] theorem State.setTag_moves (key v : Nat) : (s.setTag key v).moves = s.moves := rfl
@[simp] theorem State.setTag_swap (key v : Nat) : (s.setTag key v).swap = s.swap := rfl
@[simp] theorem State.setTag_reel (key v : Nat) : (s.setTag key v).reel = s.reel := rfl
@[simp] theorem State.setTag_reelPeriod (key v : Nat) : (s.setTag key v).reelPeriod = s.reelPeriod := rfl
@[simp] theorem State.setTag_places (key v : Nat) : (s.setTag key v).places = s.places := rfl
@[simp] theorem State.setTag_nv (key v : Nat) : (s.setTag key v).nv = s.nv := rfl
@[simp] theorem State.setTag_weights (key v : Nat) : (s.setTag key v).weights = s.weights := rfl
@[simp] theorem State.setTag_fuses (key v : Nat) : (s.setTag key v).fuses = s.fuses := rfl
@[simp] theorem State.setTag_boot (key v : Nat) : (s.setTag key v).boot = s.boot := rfl
@[simp] theorem State.setTag_power (key v : Nat) : (s.setTag key v).power = s.power := rfl
@[simp] theorem State.setTag_health (key v : Nat) : (s.setTag key v).health = s.health := rfl
@[simp] theorem State.setTag_resets (key v : Nat) : (s.setTag key v).resets = s.resets := rfl
@[simp] theorem State.setTag_saved (key v : Nat) : (s.setTag key v).saved = s.saved := rfl
@[simp] theorem State.setTag_resetHeld (key v : Nat) : (s.setTag key v).resetHeld = s.resetHeld := rfl
@[simp] theorem State.setTag_tileResets (key v : Nat) : (s.setTag key v).tileResets = s.tileResets := rfl
@[simp] theorem State.setTag_threads (key v : Nat) : (s.setTag key v).threads = s.threads := rfl
@[simp] theorem State.setTag_turns (key v : Nat) : (s.setTag key v).turns = s.turns := rfl
@[simp] theorem State.setTag_windows (key v : Nat) : (s.setTag key v).windows = s.windows := rfl
@[simp] theorem State.setTag_nvLog (key v : Nat) : (s.setTag key v).nvLog = s.nvLog := rfl
@[simp] theorem State.setTag_log (key v : Nat) : (s.setTag key v).log = s.log := rfl
@[simp] theorem State.setTag_logged (key v : Nat) : (s.setTag key v).logged = s.logged := rfl
@[simp] theorem State.setTag_out (key v : Nat) : (s.setTag key v).out = s.out := rfl

/-! ### setPort -/

@[simp] theorem State.setPort_pending (p : Nat) (x : PortSt) : (s.setPort p x).pending = s.pending := rfl
@[simp] theorem State.setPort_regs (p : Nat) (x : PortSt) : (s.setPort p x).regs = s.regs := rfl
@[simp] theorem State.setPort_tempo (p : Nat) (x : PortSt) : (s.setPort p x).tempo = s.tempo := rfl
@[simp] theorem State.setPort_layout (p : Nat) (x : PortSt) : (s.setPort p x).layout = s.layout := rfl
@[simp] theorem State.setPort_card (p : Nat) (x : PortSt) : (s.setPort p x).card = s.card := rfl
@[simp] theorem State.setPort_pkgId (p : Nat) (x : PortSt) : (s.setPort p x).pkgId = s.pkgId := rfl
@[simp] theorem State.setPort_mem (p : Nat) (x : PortSt) : (s.setPort p x).mem = s.mem := rfl
@[simp] theorem State.setPort_memMark (p : Nat) (x : PortSt) : (s.setPort p x).memMark = s.memMark := rfl
@[simp] theorem State.setPort_parked (p : Nat) (x : PortSt) : (s.setPort p x).parked = s.parked := rfl
@[simp] theorem State.setPort_parkedMark (p : Nat) (x : PortSt) : (s.setPort p x).parkedMark = s.parkedMark := rfl
@[simp] theorem State.setPort_tileMem (p : Nat) (x : PortSt) : (s.setPort p x).tileMem = s.tileMem := rfl
@[simp] theorem State.setPort_tileMark (p : Nat) (x : PortSt) : (s.setPort p x).tileMark = s.tileMark := rfl
@[simp] theorem State.setPort_tags (p : Nat) (x : PortSt) : (s.setPort p x).tags = s.tags := rfl
@[simp] theorem State.setPort_sets (p : Nat) (x : PortSt) : (s.setPort p x).sets = s.sets := rfl
@[simp] theorem State.setPort_gate (p : Nat) (x : PortSt) : (s.setPort p x).gate = s.gate := rfl
@[simp] theorem State.setPort_roles (p : Nat) (x : PortSt) : (s.setPort p x).roles = s.roles := rfl
@[simp] theorem State.setPort_rolePend (p : Nat) (x : PortSt) : (s.setPort p x).rolePend = s.rolePend := rfl
@[simp] theorem State.setPort_host (p : Nat) (x : PortSt) : (s.setPort p x).host = s.host := rfl
@[simp] theorem State.setPort_caller (p : Nat) (x : PortSt) : (s.setPort p x).caller = s.caller := rfl
@[simp] theorem State.setPort_figs (p : Nat) (x : PortSt) : (s.setPort p x).figs = s.figs := rfl
@[simp] theorem State.setPort_runs (p : Nat) (x : PortSt) : (s.setPort p x).runs = s.runs := rfl
@[simp] theorem State.setPort_notReady (p : Nat) (x : PortSt) : (s.setPort p x).notReady = s.notReady := rfl
@[simp] theorem State.setPort_stranded (p : Nat) (x : PortSt) : (s.setPort p x).stranded = s.stranded := rfl
@[simp] theorem State.setPort_moves (p : Nat) (x : PortSt) : (s.setPort p x).moves = s.moves := rfl
@[simp] theorem State.setPort_swap (p : Nat) (x : PortSt) : (s.setPort p x).swap = s.swap := rfl
@[simp] theorem State.setPort_reel (p : Nat) (x : PortSt) : (s.setPort p x).reel = s.reel := rfl
@[simp] theorem State.setPort_reelPeriod (p : Nat) (x : PortSt) : (s.setPort p x).reelPeriod = s.reelPeriod := rfl
@[simp] theorem State.setPort_places (p : Nat) (x : PortSt) : (s.setPort p x).places = s.places := rfl
@[simp] theorem State.setPort_nv (p : Nat) (x : PortSt) : (s.setPort p x).nv = s.nv := rfl
@[simp] theorem State.setPort_weights (p : Nat) (x : PortSt) : (s.setPort p x).weights = s.weights := rfl
@[simp] theorem State.setPort_fuses (p : Nat) (x : PortSt) : (s.setPort p x).fuses = s.fuses := rfl
@[simp] theorem State.setPort_boot (p : Nat) (x : PortSt) : (s.setPort p x).boot = s.boot := rfl
@[simp] theorem State.setPort_power (p : Nat) (x : PortSt) : (s.setPort p x).power = s.power := rfl
@[simp] theorem State.setPort_health (p : Nat) (x : PortSt) : (s.setPort p x).health = s.health := rfl
@[simp] theorem State.setPort_resets (p : Nat) (x : PortSt) : (s.setPort p x).resets = s.resets := rfl
@[simp] theorem State.setPort_saved (p : Nat) (x : PortSt) : (s.setPort p x).saved = s.saved := rfl
@[simp] theorem State.setPort_resetHeld (p : Nat) (x : PortSt) : (s.setPort p x).resetHeld = s.resetHeld := rfl
@[simp] theorem State.setPort_tileResets (p : Nat) (x : PortSt) : (s.setPort p x).tileResets = s.tileResets := rfl
@[simp] theorem State.setPort_threads (p : Nat) (x : PortSt) : (s.setPort p x).threads = s.threads := rfl
@[simp] theorem State.setPort_turns (p : Nat) (x : PortSt) : (s.setPort p x).turns = s.turns := rfl
@[simp] theorem State.setPort_windows (p : Nat) (x : PortSt) : (s.setPort p x).windows = s.windows := rfl
@[simp] theorem State.setPort_nvLog (p : Nat) (x : PortSt) : (s.setPort p x).nvLog = s.nvLog := rfl
@[simp] theorem State.setPort_log (p : Nat) (x : PortSt) : (s.setPort p x).log = s.log := rfl
@[simp] theorem State.setPort_logged (p : Nat) (x : PortSt) : (s.setPort p x).logged = s.logged := rfl
@[simp] theorem State.setPort_out (p : Nat) (x : PortSt) : (s.setPort p x).out = s.out := rfl

/-! ### setPower -/

@[simp] theorem State.setPower_pending (f : Power → Power) : (s.setPower f).pending = s.pending := rfl
@[simp] theorem State.setPower_regs (f : Power → Power) : (s.setPower f).regs = s.regs := rfl
@[simp] theorem State.setPower_tempo (f : Power → Power) : (s.setPower f).tempo = s.tempo := rfl
@[simp] theorem State.setPower_layout (f : Power → Power) : (s.setPower f).layout = s.layout := rfl
@[simp] theorem State.setPower_card (f : Power → Power) : (s.setPower f).card = s.card := rfl
@[simp] theorem State.setPower_pkgId (f : Power → Power) : (s.setPower f).pkgId = s.pkgId := rfl
@[simp] theorem State.setPower_mem (f : Power → Power) : (s.setPower f).mem = s.mem := rfl
@[simp] theorem State.setPower_memMark (f : Power → Power) : (s.setPower f).memMark = s.memMark := rfl
@[simp] theorem State.setPower_parked (f : Power → Power) : (s.setPower f).parked = s.parked := rfl
@[simp] theorem State.setPower_parkedMark (f : Power → Power) : (s.setPower f).parkedMark = s.parkedMark := rfl
@[simp] theorem State.setPower_tileMem (f : Power → Power) : (s.setPower f).tileMem = s.tileMem := rfl
@[simp] theorem State.setPower_tileMark (f : Power → Power) : (s.setPower f).tileMark = s.tileMark := rfl
@[simp] theorem State.setPower_tags (f : Power → Power) : (s.setPower f).tags = s.tags := rfl
@[simp] theorem State.setPower_sets (f : Power → Power) : (s.setPower f).sets = s.sets := rfl
@[simp] theorem State.setPower_gate (f : Power → Power) : (s.setPower f).gate = s.gate := rfl
@[simp] theorem State.setPower_fab (f : Power → Power) : (s.setPower f).fab = s.fab := rfl
@[simp] theorem State.setPower_roles (f : Power → Power) : (s.setPower f).roles = s.roles := rfl
@[simp] theorem State.setPower_rolePend (f : Power → Power) : (s.setPower f).rolePend = s.rolePend := rfl
@[simp] theorem State.setPower_host (f : Power → Power) : (s.setPower f).host = s.host := rfl
@[simp] theorem State.setPower_caller (f : Power → Power) : (s.setPower f).caller = s.caller := rfl
@[simp] theorem State.setPower_figs (f : Power → Power) : (s.setPower f).figs = s.figs := rfl
@[simp] theorem State.setPower_runs (f : Power → Power) : (s.setPower f).runs = s.runs := rfl
@[simp] theorem State.setPower_notReady (f : Power → Power) : (s.setPower f).notReady = s.notReady := rfl
@[simp] theorem State.setPower_stranded (f : Power → Power) : (s.setPower f).stranded = s.stranded := rfl
@[simp] theorem State.setPower_moves (f : Power → Power) : (s.setPower f).moves = s.moves := rfl
@[simp] theorem State.setPower_swap (f : Power → Power) : (s.setPower f).swap = s.swap := rfl
@[simp] theorem State.setPower_reel (f : Power → Power) : (s.setPower f).reel = s.reel := rfl
@[simp] theorem State.setPower_reelPeriod (f : Power → Power) : (s.setPower f).reelPeriod = s.reelPeriod := rfl
@[simp] theorem State.setPower_places (f : Power → Power) : (s.setPower f).places = s.places := rfl
@[simp] theorem State.setPower_nv (f : Power → Power) : (s.setPower f).nv = s.nv := rfl
@[simp] theorem State.setPower_weights (f : Power → Power) : (s.setPower f).weights = s.weights := rfl
@[simp] theorem State.setPower_fuses (f : Power → Power) : (s.setPower f).fuses = s.fuses := rfl
@[simp] theorem State.setPower_boot (f : Power → Power) : (s.setPower f).boot = s.boot := rfl
@[simp] theorem State.setPower_health (f : Power → Power) : (s.setPower f).health = s.health := rfl
@[simp] theorem State.setPower_resets (f : Power → Power) : (s.setPower f).resets = s.resets := rfl
@[simp] theorem State.setPower_saved (f : Power → Power) : (s.setPower f).saved = s.saved := rfl
@[simp] theorem State.setPower_resetHeld (f : Power → Power) : (s.setPower f).resetHeld = s.resetHeld := rfl
@[simp] theorem State.setPower_tileResets (f : Power → Power) : (s.setPower f).tileResets = s.tileResets := rfl
@[simp] theorem State.setPower_threads (f : Power → Power) : (s.setPower f).threads = s.threads := rfl
@[simp] theorem State.setPower_turns (f : Power → Power) : (s.setPower f).turns = s.turns := rfl
@[simp] theorem State.setPower_windows (f : Power → Power) : (s.setPower f).windows = s.windows := rfl
@[simp] theorem State.setPower_nvLog (f : Power → Power) : (s.setPower f).nvLog = s.nvLog := rfl
@[simp] theorem State.setPower_log (f : Power → Power) : (s.setPower f).log = s.log := rfl
@[simp] theorem State.setPower_logged (f : Power → Power) : (s.setPower f).logged = s.logged := rfl
@[simp] theorem State.setPower_out (f : Power → Power) : (s.setPower f).out = s.out := rfl

/-! ### setCq -/

@[simp] theorem State.setCq_pending (g c : Nat) (x : CqSt) : (s.setCq g c x).pending = s.pending := rfl
@[simp] theorem State.setCq_regs (g c : Nat) (x : CqSt) : (s.setCq g c x).regs = s.regs := rfl
@[simp] theorem State.setCq_tempo (g c : Nat) (x : CqSt) : (s.setCq g c x).tempo = s.tempo := rfl
@[simp] theorem State.setCq_layout (g c : Nat) (x : CqSt) : (s.setCq g c x).layout = s.layout := rfl
@[simp] theorem State.setCq_card (g c : Nat) (x : CqSt) : (s.setCq g c x).card = s.card := rfl
@[simp] theorem State.setCq_pkgId (g c : Nat) (x : CqSt) : (s.setCq g c x).pkgId = s.pkgId := rfl
@[simp] theorem State.setCq_mem (g c : Nat) (x : CqSt) : (s.setCq g c x).mem = s.mem := rfl
@[simp] theorem State.setCq_memMark (g c : Nat) (x : CqSt) : (s.setCq g c x).memMark = s.memMark := rfl
@[simp] theorem State.setCq_parked (g c : Nat) (x : CqSt) : (s.setCq g c x).parked = s.parked := rfl
@[simp] theorem State.setCq_parkedMark (g c : Nat) (x : CqSt) : (s.setCq g c x).parkedMark = s.parkedMark := rfl
@[simp] theorem State.setCq_tileMem (g c : Nat) (x : CqSt) : (s.setCq g c x).tileMem = s.tileMem := rfl
@[simp] theorem State.setCq_tileMark (g c : Nat) (x : CqSt) : (s.setCq g c x).tileMark = s.tileMark := rfl
@[simp] theorem State.setCq_tags (g c : Nat) (x : CqSt) : (s.setCq g c x).tags = s.tags := rfl
@[simp] theorem State.setCq_sets (g c : Nat) (x : CqSt) : (s.setCq g c x).sets = s.sets := rfl
@[simp] theorem State.setCq_gate (g c : Nat) (x : CqSt) : (s.setCq g c x).gate = s.gate := rfl
@[simp] theorem State.setCq_fab (g c : Nat) (x : CqSt) : (s.setCq g c x).fab = s.fab := rfl
@[simp] theorem State.setCq_roles (g c : Nat) (x : CqSt) : (s.setCq g c x).roles = s.roles := rfl
@[simp] theorem State.setCq_rolePend (g c : Nat) (x : CqSt) : (s.setCq g c x).rolePend = s.rolePend := rfl
@[simp] theorem State.setCq_caller (g c : Nat) (x : CqSt) : (s.setCq g c x).caller = s.caller := rfl
@[simp] theorem State.setCq_figs (g c : Nat) (x : CqSt) : (s.setCq g c x).figs = s.figs := rfl
@[simp] theorem State.setCq_runs (g c : Nat) (x : CqSt) : (s.setCq g c x).runs = s.runs := rfl
@[simp] theorem State.setCq_notReady (g c : Nat) (x : CqSt) : (s.setCq g c x).notReady = s.notReady := rfl
@[simp] theorem State.setCq_stranded (g c : Nat) (x : CqSt) : (s.setCq g c x).stranded = s.stranded := rfl
@[simp] theorem State.setCq_moves (g c : Nat) (x : CqSt) : (s.setCq g c x).moves = s.moves := rfl
@[simp] theorem State.setCq_swap (g c : Nat) (x : CqSt) : (s.setCq g c x).swap = s.swap := rfl
@[simp] theorem State.setCq_reel (g c : Nat) (x : CqSt) : (s.setCq g c x).reel = s.reel := rfl
@[simp] theorem State.setCq_reelPeriod (g c : Nat) (x : CqSt) : (s.setCq g c x).reelPeriod = s.reelPeriod := rfl
@[simp] theorem State.setCq_places (g c : Nat) (x : CqSt) : (s.setCq g c x).places = s.places := rfl
@[simp] theorem State.setCq_nv (g c : Nat) (x : CqSt) : (s.setCq g c x).nv = s.nv := rfl
@[simp] theorem State.setCq_weights (g c : Nat) (x : CqSt) : (s.setCq g c x).weights = s.weights := rfl
@[simp] theorem State.setCq_fuses (g c : Nat) (x : CqSt) : (s.setCq g c x).fuses = s.fuses := rfl
@[simp] theorem State.setCq_boot (g c : Nat) (x : CqSt) : (s.setCq g c x).boot = s.boot := rfl
@[simp] theorem State.setCq_power (g c : Nat) (x : CqSt) : (s.setCq g c x).power = s.power := rfl
@[simp] theorem State.setCq_health (g c : Nat) (x : CqSt) : (s.setCq g c x).health = s.health := rfl
@[simp] theorem State.setCq_resets (g c : Nat) (x : CqSt) : (s.setCq g c x).resets = s.resets := rfl
@[simp] theorem State.setCq_saved (g c : Nat) (x : CqSt) : (s.setCq g c x).saved = s.saved := rfl
@[simp] theorem State.setCq_resetHeld (g c : Nat) (x : CqSt) : (s.setCq g c x).resetHeld = s.resetHeld := rfl
@[simp] theorem State.setCq_tileResets (g c : Nat) (x : CqSt) : (s.setCq g c x).tileResets = s.tileResets := rfl
@[simp] theorem State.setCq_threads (g c : Nat) (x : CqSt) : (s.setCq g c x).threads = s.threads := rfl
@[simp] theorem State.setCq_turns (g c : Nat) (x : CqSt) : (s.setCq g c x).turns = s.turns := rfl
@[simp] theorem State.setCq_windows (g c : Nat) (x : CqSt) : (s.setCq g c x).windows = s.windows := rfl
@[simp] theorem State.setCq_nvLog (g c : Nat) (x : CqSt) : (s.setCq g c x).nvLog = s.nvLog := rfl
@[simp] theorem State.setCq_log (g c : Nat) (x : CqSt) : (s.setCq g c x).log = s.log := rfl
@[simp] theorem State.setCq_logged (g c : Nat) (x : CqSt) : (s.setCq g c x).logged = s.logged := rfl
@[simp] theorem State.setCq_out (g c : Nat) (x : CqSt) : (s.setCq g c x).out = s.out := rfl

/-! ### setThread -/

@[simp] theorem State.setThread_pending (tile th : Nat) (x : Thread) : (s.setThread tile th x).pending = s.pending := rfl
@[simp] theorem State.setThread_regs (tile th : Nat) (x : Thread) : (s.setThread tile th x).regs = s.regs := rfl
@[simp] theorem State.setThread_tempo (tile th : Nat) (x : Thread) : (s.setThread tile th x).tempo = s.tempo := rfl
@[simp] theorem State.setThread_layout (tile th : Nat) (x : Thread) : (s.setThread tile th x).layout = s.layout := rfl
@[simp] theorem State.setThread_card (tile th : Nat) (x : Thread) : (s.setThread tile th x).card = s.card := rfl
@[simp] theorem State.setThread_pkgId (tile th : Nat) (x : Thread) : (s.setThread tile th x).pkgId = s.pkgId := rfl
@[simp] theorem State.setThread_mem (tile th : Nat) (x : Thread) : (s.setThread tile th x).mem = s.mem := rfl
@[simp] theorem State.setThread_memMark (tile th : Nat) (x : Thread) : (s.setThread tile th x).memMark = s.memMark := rfl
@[simp] theorem State.setThread_parked (tile th : Nat) (x : Thread) : (s.setThread tile th x).parked = s.parked := rfl
@[simp] theorem State.setThread_parkedMark (tile th : Nat) (x : Thread) : (s.setThread tile th x).parkedMark = s.parkedMark := rfl
@[simp] theorem State.setThread_tileMem (tile th : Nat) (x : Thread) : (s.setThread tile th x).tileMem = s.tileMem := rfl
@[simp] theorem State.setThread_tileMark (tile th : Nat) (x : Thread) : (s.setThread tile th x).tileMark = s.tileMark := rfl
@[simp] theorem State.setThread_tags (tile th : Nat) (x : Thread) : (s.setThread tile th x).tags = s.tags := rfl
@[simp] theorem State.setThread_sets (tile th : Nat) (x : Thread) : (s.setThread tile th x).sets = s.sets := rfl
@[simp] theorem State.setThread_gate (tile th : Nat) (x : Thread) : (s.setThread tile th x).gate = s.gate := rfl
@[simp] theorem State.setThread_fab (tile th : Nat) (x : Thread) : (s.setThread tile th x).fab = s.fab := rfl
@[simp] theorem State.setThread_roles (tile th : Nat) (x : Thread) : (s.setThread tile th x).roles = s.roles := rfl
@[simp] theorem State.setThread_rolePend (tile th : Nat) (x : Thread) : (s.setThread tile th x).rolePend = s.rolePend := rfl
@[simp] theorem State.setThread_host (tile th : Nat) (x : Thread) : (s.setThread tile th x).host = s.host := rfl
@[simp] theorem State.setThread_caller (tile th : Nat) (x : Thread) : (s.setThread tile th x).caller = s.caller := rfl
@[simp] theorem State.setThread_figs (tile th : Nat) (x : Thread) : (s.setThread tile th x).figs = s.figs := rfl
@[simp] theorem State.setThread_runs (tile th : Nat) (x : Thread) : (s.setThread tile th x).runs = s.runs := rfl
@[simp] theorem State.setThread_notReady (tile th : Nat) (x : Thread) : (s.setThread tile th x).notReady = s.notReady := rfl
@[simp] theorem State.setThread_stranded (tile th : Nat) (x : Thread) : (s.setThread tile th x).stranded = s.stranded := rfl
@[simp] theorem State.setThread_moves (tile th : Nat) (x : Thread) : (s.setThread tile th x).moves = s.moves := rfl
@[simp] theorem State.setThread_swap (tile th : Nat) (x : Thread) : (s.setThread tile th x).swap = s.swap := rfl
@[simp] theorem State.setThread_reel (tile th : Nat) (x : Thread) : (s.setThread tile th x).reel = s.reel := rfl
@[simp] theorem State.setThread_reelPeriod (tile th : Nat) (x : Thread) : (s.setThread tile th x).reelPeriod = s.reelPeriod := rfl
@[simp] theorem State.setThread_places (tile th : Nat) (x : Thread) : (s.setThread tile th x).places = s.places := rfl
@[simp] theorem State.setThread_nv (tile th : Nat) (x : Thread) : (s.setThread tile th x).nv = s.nv := rfl
@[simp] theorem State.setThread_weights (tile th : Nat) (x : Thread) : (s.setThread tile th x).weights = s.weights := rfl
@[simp] theorem State.setThread_fuses (tile th : Nat) (x : Thread) : (s.setThread tile th x).fuses = s.fuses := rfl
@[simp] theorem State.setThread_boot (tile th : Nat) (x : Thread) : (s.setThread tile th x).boot = s.boot := rfl
@[simp] theorem State.setThread_power (tile th : Nat) (x : Thread) : (s.setThread tile th x).power = s.power := rfl
@[simp] theorem State.setThread_health (tile th : Nat) (x : Thread) : (s.setThread tile th x).health = s.health := rfl
@[simp] theorem State.setThread_resets (tile th : Nat) (x : Thread) : (s.setThread tile th x).resets = s.resets := rfl
@[simp] theorem State.setThread_saved (tile th : Nat) (x : Thread) : (s.setThread tile th x).saved = s.saved := rfl
@[simp] theorem State.setThread_resetHeld (tile th : Nat) (x : Thread) : (s.setThread tile th x).resetHeld = s.resetHeld := rfl
@[simp] theorem State.setThread_tileResets (tile th : Nat) (x : Thread) : (s.setThread tile th x).tileResets = s.tileResets := rfl
@[simp] theorem State.setThread_turns (tile th : Nat) (x : Thread) : (s.setThread tile th x).turns = s.turns := rfl
@[simp] theorem State.setThread_windows (tile th : Nat) (x : Thread) : (s.setThread tile th x).windows = s.windows := rfl
@[simp] theorem State.setThread_nvLog (tile th : Nat) (x : Thread) : (s.setThread tile th x).nvLog = s.nvLog := rfl
@[simp] theorem State.setThread_log (tile th : Nat) (x : Thread) : (s.setThread tile th x).log = s.log := rfl
@[simp] theorem State.setThread_logged (tile th : Nat) (x : Thread) : (s.setThread tile th x).logged = s.logged := rfl
@[simp] theorem State.setThread_out (tile th : Nat) (x : Thread) : (s.setThread tile th x).out = s.out := rfl

/-! ### setTurn -/

@[simp] theorem State.setTurn_pending (tile v : Nat) : (s.setTurn tile v).pending = s.pending := rfl
@[simp] theorem State.setTurn_regs (tile v : Nat) : (s.setTurn tile v).regs = s.regs := rfl
@[simp] theorem State.setTurn_tempo (tile v : Nat) : (s.setTurn tile v).tempo = s.tempo := rfl
@[simp] theorem State.setTurn_layout (tile v : Nat) : (s.setTurn tile v).layout = s.layout := rfl
@[simp] theorem State.setTurn_card (tile v : Nat) : (s.setTurn tile v).card = s.card := rfl
@[simp] theorem State.setTurn_pkgId (tile v : Nat) : (s.setTurn tile v).pkgId = s.pkgId := rfl
@[simp] theorem State.setTurn_mem (tile v : Nat) : (s.setTurn tile v).mem = s.mem := rfl
@[simp] theorem State.setTurn_memMark (tile v : Nat) : (s.setTurn tile v).memMark = s.memMark := rfl
@[simp] theorem State.setTurn_parked (tile v : Nat) : (s.setTurn tile v).parked = s.parked := rfl
@[simp] theorem State.setTurn_parkedMark (tile v : Nat) : (s.setTurn tile v).parkedMark = s.parkedMark := rfl
@[simp] theorem State.setTurn_tileMem (tile v : Nat) : (s.setTurn tile v).tileMem = s.tileMem := rfl
@[simp] theorem State.setTurn_tileMark (tile v : Nat) : (s.setTurn tile v).tileMark = s.tileMark := rfl
@[simp] theorem State.setTurn_tags (tile v : Nat) : (s.setTurn tile v).tags = s.tags := rfl
@[simp] theorem State.setTurn_sets (tile v : Nat) : (s.setTurn tile v).sets = s.sets := rfl
@[simp] theorem State.setTurn_gate (tile v : Nat) : (s.setTurn tile v).gate = s.gate := rfl
@[simp] theorem State.setTurn_fab (tile v : Nat) : (s.setTurn tile v).fab = s.fab := rfl
@[simp] theorem State.setTurn_roles (tile v : Nat) : (s.setTurn tile v).roles = s.roles := rfl
@[simp] theorem State.setTurn_rolePend (tile v : Nat) : (s.setTurn tile v).rolePend = s.rolePend := rfl
@[simp] theorem State.setTurn_host (tile v : Nat) : (s.setTurn tile v).host = s.host := rfl
@[simp] theorem State.setTurn_caller (tile v : Nat) : (s.setTurn tile v).caller = s.caller := rfl
@[simp] theorem State.setTurn_figs (tile v : Nat) : (s.setTurn tile v).figs = s.figs := rfl
@[simp] theorem State.setTurn_runs (tile v : Nat) : (s.setTurn tile v).runs = s.runs := rfl
@[simp] theorem State.setTurn_notReady (tile v : Nat) : (s.setTurn tile v).notReady = s.notReady := rfl
@[simp] theorem State.setTurn_stranded (tile v : Nat) : (s.setTurn tile v).stranded = s.stranded := rfl
@[simp] theorem State.setTurn_moves (tile v : Nat) : (s.setTurn tile v).moves = s.moves := rfl
@[simp] theorem State.setTurn_swap (tile v : Nat) : (s.setTurn tile v).swap = s.swap := rfl
@[simp] theorem State.setTurn_reel (tile v : Nat) : (s.setTurn tile v).reel = s.reel := rfl
@[simp] theorem State.setTurn_reelPeriod (tile v : Nat) : (s.setTurn tile v).reelPeriod = s.reelPeriod := rfl
@[simp] theorem State.setTurn_places (tile v : Nat) : (s.setTurn tile v).places = s.places := rfl
@[simp] theorem State.setTurn_nv (tile v : Nat) : (s.setTurn tile v).nv = s.nv := rfl
@[simp] theorem State.setTurn_weights (tile v : Nat) : (s.setTurn tile v).weights = s.weights := rfl
@[simp] theorem State.setTurn_fuses (tile v : Nat) : (s.setTurn tile v).fuses = s.fuses := rfl
@[simp] theorem State.setTurn_boot (tile v : Nat) : (s.setTurn tile v).boot = s.boot := rfl
@[simp] theorem State.setTurn_power (tile v : Nat) : (s.setTurn tile v).power = s.power := rfl
@[simp] theorem State.setTurn_health (tile v : Nat) : (s.setTurn tile v).health = s.health := rfl
@[simp] theorem State.setTurn_resets (tile v : Nat) : (s.setTurn tile v).resets = s.resets := rfl
@[simp] theorem State.setTurn_saved (tile v : Nat) : (s.setTurn tile v).saved = s.saved := rfl
@[simp] theorem State.setTurn_resetHeld (tile v : Nat) : (s.setTurn tile v).resetHeld = s.resetHeld := rfl
@[simp] theorem State.setTurn_tileResets (tile v : Nat) : (s.setTurn tile v).tileResets = s.tileResets := rfl
@[simp] theorem State.setTurn_threads (tile v : Nat) : (s.setTurn tile v).threads = s.threads := rfl
@[simp] theorem State.setTurn_windows (tile v : Nat) : (s.setTurn tile v).windows = s.windows := rfl
@[simp] theorem State.setTurn_nvLog (tile v : Nat) : (s.setTurn tile v).nvLog = s.nvLog := rfl
@[simp] theorem State.setTurn_log (tile v : Nat) : (s.setTurn tile v).log = s.log := rfl
@[simp] theorem State.setTurn_logged (tile v : Nat) : (s.setTurn tile v).logged = s.logged := rfl
@[simp] theorem State.setTurn_out (tile v : Nat) : (s.setTurn tile v).out = s.out := rfl

/-! ### setReel -/

@[simp] theorem State.setReel_pending (p : Nat) (x : ReelPart) : (s.setReel p x).pending = s.pending := rfl
@[simp] theorem State.setReel_regs (p : Nat) (x : ReelPart) : (s.setReel p x).regs = s.regs := rfl
@[simp] theorem State.setReel_tempo (p : Nat) (x : ReelPart) : (s.setReel p x).tempo = s.tempo := rfl
@[simp] theorem State.setReel_layout (p : Nat) (x : ReelPart) : (s.setReel p x).layout = s.layout := rfl
@[simp] theorem State.setReel_card (p : Nat) (x : ReelPart) : (s.setReel p x).card = s.card := rfl
@[simp] theorem State.setReel_pkgId (p : Nat) (x : ReelPart) : (s.setReel p x).pkgId = s.pkgId := rfl
@[simp] theorem State.setReel_mem (p : Nat) (x : ReelPart) : (s.setReel p x).mem = s.mem := rfl
@[simp] theorem State.setReel_memMark (p : Nat) (x : ReelPart) : (s.setReel p x).memMark = s.memMark := rfl
@[simp] theorem State.setReel_parked (p : Nat) (x : ReelPart) : (s.setReel p x).parked = s.parked := rfl
@[simp] theorem State.setReel_parkedMark (p : Nat) (x : ReelPart) : (s.setReel p x).parkedMark = s.parkedMark := rfl
@[simp] theorem State.setReel_tileMem (p : Nat) (x : ReelPart) : (s.setReel p x).tileMem = s.tileMem := rfl
@[simp] theorem State.setReel_tileMark (p : Nat) (x : ReelPart) : (s.setReel p x).tileMark = s.tileMark := rfl
@[simp] theorem State.setReel_tags (p : Nat) (x : ReelPart) : (s.setReel p x).tags = s.tags := rfl
@[simp] theorem State.setReel_sets (p : Nat) (x : ReelPart) : (s.setReel p x).sets = s.sets := rfl
@[simp] theorem State.setReel_gate (p : Nat) (x : ReelPart) : (s.setReel p x).gate = s.gate := rfl
@[simp] theorem State.setReel_fab (p : Nat) (x : ReelPart) : (s.setReel p x).fab = s.fab := rfl
@[simp] theorem State.setReel_roles (p : Nat) (x : ReelPart) : (s.setReel p x).roles = s.roles := rfl
@[simp] theorem State.setReel_rolePend (p : Nat) (x : ReelPart) : (s.setReel p x).rolePend = s.rolePend := rfl
@[simp] theorem State.setReel_host (p : Nat) (x : ReelPart) : (s.setReel p x).host = s.host := rfl
@[simp] theorem State.setReel_caller (p : Nat) (x : ReelPart) : (s.setReel p x).caller = s.caller := rfl
@[simp] theorem State.setReel_figs (p : Nat) (x : ReelPart) : (s.setReel p x).figs = s.figs := rfl
@[simp] theorem State.setReel_runs (p : Nat) (x : ReelPart) : (s.setReel p x).runs = s.runs := rfl
@[simp] theorem State.setReel_notReady (p : Nat) (x : ReelPart) : (s.setReel p x).notReady = s.notReady := rfl
@[simp] theorem State.setReel_stranded (p : Nat) (x : ReelPart) : (s.setReel p x).stranded = s.stranded := rfl
@[simp] theorem State.setReel_moves (p : Nat) (x : ReelPart) : (s.setReel p x).moves = s.moves := rfl
@[simp] theorem State.setReel_swap (p : Nat) (x : ReelPart) : (s.setReel p x).swap = s.swap := rfl
@[simp] theorem State.setReel_reelPeriod (p : Nat) (x : ReelPart) : (s.setReel p x).reelPeriod = s.reelPeriod := rfl
@[simp] theorem State.setReel_places (p : Nat) (x : ReelPart) : (s.setReel p x).places = s.places := rfl
@[simp] theorem State.setReel_nv (p : Nat) (x : ReelPart) : (s.setReel p x).nv = s.nv := rfl
@[simp] theorem State.setReel_weights (p : Nat) (x : ReelPart) : (s.setReel p x).weights = s.weights := rfl
@[simp] theorem State.setReel_fuses (p : Nat) (x : ReelPart) : (s.setReel p x).fuses = s.fuses := rfl
@[simp] theorem State.setReel_boot (p : Nat) (x : ReelPart) : (s.setReel p x).boot = s.boot := rfl
@[simp] theorem State.setReel_power (p : Nat) (x : ReelPart) : (s.setReel p x).power = s.power := rfl
@[simp] theorem State.setReel_health (p : Nat) (x : ReelPart) : (s.setReel p x).health = s.health := rfl
@[simp] theorem State.setReel_resets (p : Nat) (x : ReelPart) : (s.setReel p x).resets = s.resets := rfl
@[simp] theorem State.setReel_saved (p : Nat) (x : ReelPart) : (s.setReel p x).saved = s.saved := rfl
@[simp] theorem State.setReel_resetHeld (p : Nat) (x : ReelPart) : (s.setReel p x).resetHeld = s.resetHeld := rfl
@[simp] theorem State.setReel_tileResets (p : Nat) (x : ReelPart) : (s.setReel p x).tileResets = s.tileResets := rfl
@[simp] theorem State.setReel_threads (p : Nat) (x : ReelPart) : (s.setReel p x).threads = s.threads := rfl
@[simp] theorem State.setReel_turns (p : Nat) (x : ReelPart) : (s.setReel p x).turns = s.turns := rfl
@[simp] theorem State.setReel_windows (p : Nat) (x : ReelPart) : (s.setReel p x).windows = s.windows := rfl
@[simp] theorem State.setReel_nvLog (p : Nat) (x : ReelPart) : (s.setReel p x).nvLog = s.nvLog := rfl
@[simp] theorem State.setReel_log (p : Nat) (x : ReelPart) : (s.setReel p x).log = s.log := rfl
@[simp] theorem State.setReel_logged (p : Nat) (x : ReelPart) : (s.setReel p x).logged = s.logged := rfl
@[simp] theorem State.setReel_out (p : Nat) (x : ReelPart) : (s.setReel p x).out = s.out := rfl

/-! ### setNow -/

@[simp] theorem State.setNow_pending (t : Nat) : (s.setNow t).pending = s.pending := rfl
@[simp] theorem State.setNow_regs (t : Nat) : (s.setNow t).regs = s.regs := rfl
@[simp] theorem State.setNow_layout (t : Nat) : (s.setNow t).layout = s.layout := rfl
@[simp] theorem State.setNow_card (t : Nat) : (s.setNow t).card = s.card := rfl
@[simp] theorem State.setNow_pkgId (t : Nat) : (s.setNow t).pkgId = s.pkgId := rfl
@[simp] theorem State.setNow_mem (t : Nat) : (s.setNow t).mem = s.mem := rfl
@[simp] theorem State.setNow_memMark (t : Nat) : (s.setNow t).memMark = s.memMark := rfl
@[simp] theorem State.setNow_parked (t : Nat) : (s.setNow t).parked = s.parked := rfl
@[simp] theorem State.setNow_parkedMark (t : Nat) : (s.setNow t).parkedMark = s.parkedMark := rfl
@[simp] theorem State.setNow_tileMem (t : Nat) : (s.setNow t).tileMem = s.tileMem := rfl
@[simp] theorem State.setNow_tileMark (t : Nat) : (s.setNow t).tileMark = s.tileMark := rfl
@[simp] theorem State.setNow_tags (t : Nat) : (s.setNow t).tags = s.tags := rfl
@[simp] theorem State.setNow_sets (t : Nat) : (s.setNow t).sets = s.sets := rfl
@[simp] theorem State.setNow_gate (t : Nat) : (s.setNow t).gate = s.gate := rfl
@[simp] theorem State.setNow_fab (t : Nat) : (s.setNow t).fab = s.fab := rfl
@[simp] theorem State.setNow_roles (t : Nat) : (s.setNow t).roles = s.roles := rfl
@[simp] theorem State.setNow_rolePend (t : Nat) : (s.setNow t).rolePend = s.rolePend := rfl
@[simp] theorem State.setNow_host (t : Nat) : (s.setNow t).host = s.host := rfl
@[simp] theorem State.setNow_caller (t : Nat) : (s.setNow t).caller = s.caller := rfl
@[simp] theorem State.setNow_figs (t : Nat) : (s.setNow t).figs = s.figs := rfl
@[simp] theorem State.setNow_runs (t : Nat) : (s.setNow t).runs = s.runs := rfl
@[simp] theorem State.setNow_notReady (t : Nat) : (s.setNow t).notReady = s.notReady := rfl
@[simp] theorem State.setNow_stranded (t : Nat) : (s.setNow t).stranded = s.stranded := rfl
@[simp] theorem State.setNow_moves (t : Nat) : (s.setNow t).moves = s.moves := rfl
@[simp] theorem State.setNow_swap (t : Nat) : (s.setNow t).swap = s.swap := rfl
@[simp] theorem State.setNow_reel (t : Nat) : (s.setNow t).reel = s.reel := rfl
@[simp] theorem State.setNow_reelPeriod (t : Nat) : (s.setNow t).reelPeriod = s.reelPeriod := rfl
@[simp] theorem State.setNow_places (t : Nat) : (s.setNow t).places = s.places := rfl
@[simp] theorem State.setNow_nv (t : Nat) : (s.setNow t).nv = s.nv := rfl
@[simp] theorem State.setNow_weights (t : Nat) : (s.setNow t).weights = s.weights := rfl
@[simp] theorem State.setNow_fuses (t : Nat) : (s.setNow t).fuses = s.fuses := rfl
@[simp] theorem State.setNow_boot (t : Nat) : (s.setNow t).boot = s.boot := rfl
@[simp] theorem State.setNow_power (t : Nat) : (s.setNow t).power = s.power := rfl
@[simp] theorem State.setNow_health (t : Nat) : (s.setNow t).health = s.health := rfl
@[simp] theorem State.setNow_resets (t : Nat) : (s.setNow t).resets = s.resets := rfl
@[simp] theorem State.setNow_saved (t : Nat) : (s.setNow t).saved = s.saved := rfl
@[simp] theorem State.setNow_resetHeld (t : Nat) : (s.setNow t).resetHeld = s.resetHeld := rfl
@[simp] theorem State.setNow_tileResets (t : Nat) : (s.setNow t).tileResets = s.tileResets := rfl
@[simp] theorem State.setNow_threads (t : Nat) : (s.setNow t).threads = s.threads := rfl
@[simp] theorem State.setNow_turns (t : Nat) : (s.setNow t).turns = s.turns := rfl
@[simp] theorem State.setNow_windows (t : Nat) : (s.setNow t).windows = s.windows := rfl
@[simp] theorem State.setNow_nvLog (t : Nat) : (s.setNow t).nvLog = s.nvLog := rfl
@[simp] theorem State.setNow_log (t : Nat) : (s.setNow t).log = s.log := rfl
@[simp] theorem State.setNow_logged (t : Nat) : (s.setNow t).logged = s.logged := rfl
@[simp] theorem State.setNow_out (t : Nat) : (s.setNow t).out = s.out := rfl

/-! ### setFig -/

@[simp] theorem State.setFig_pending (im : Image) : (s.setFig im).pending = s.pending := rfl
@[simp] theorem State.setFig_regs (im : Image) : (s.setFig im).regs = s.regs := rfl
@[simp] theorem State.setFig_tempo (im : Image) : (s.setFig im).tempo = s.tempo := rfl
@[simp] theorem State.setFig_layout (im : Image) : (s.setFig im).layout = s.layout := rfl
@[simp] theorem State.setFig_card (im : Image) : (s.setFig im).card = s.card := rfl
@[simp] theorem State.setFig_pkgId (im : Image) : (s.setFig im).pkgId = s.pkgId := rfl
@[simp] theorem State.setFig_mem (im : Image) : (s.setFig im).mem = s.mem := rfl
@[simp] theorem State.setFig_memMark (im : Image) : (s.setFig im).memMark = s.memMark := rfl
@[simp] theorem State.setFig_parked (im : Image) : (s.setFig im).parked = s.parked := rfl
@[simp] theorem State.setFig_parkedMark (im : Image) : (s.setFig im).parkedMark = s.parkedMark := rfl
@[simp] theorem State.setFig_tileMem (im : Image) : (s.setFig im).tileMem = s.tileMem := rfl
@[simp] theorem State.setFig_tileMark (im : Image) : (s.setFig im).tileMark = s.tileMark := rfl
@[simp] theorem State.setFig_tags (im : Image) : (s.setFig im).tags = s.tags := rfl
@[simp] theorem State.setFig_sets (im : Image) : (s.setFig im).sets = s.sets := rfl
@[simp] theorem State.setFig_gate (im : Image) : (s.setFig im).gate = s.gate := rfl
@[simp] theorem State.setFig_fab (im : Image) : (s.setFig im).fab = s.fab := rfl
@[simp] theorem State.setFig_roles (im : Image) : (s.setFig im).roles = s.roles := rfl
@[simp] theorem State.setFig_rolePend (im : Image) : (s.setFig im).rolePend = s.rolePend := rfl
@[simp] theorem State.setFig_host (im : Image) : (s.setFig im).host = s.host := rfl
@[simp] theorem State.setFig_caller (im : Image) : (s.setFig im).caller = s.caller := rfl
@[simp] theorem State.setFig_runs (im : Image) : (s.setFig im).runs = s.runs := rfl
@[simp] theorem State.setFig_notReady (im : Image) : (s.setFig im).notReady = s.notReady := rfl
@[simp] theorem State.setFig_stranded (im : Image) : (s.setFig im).stranded = s.stranded := rfl
@[simp] theorem State.setFig_moves (im : Image) : (s.setFig im).moves = s.moves := rfl
@[simp] theorem State.setFig_swap (im : Image) : (s.setFig im).swap = s.swap := rfl
@[simp] theorem State.setFig_reel (im : Image) : (s.setFig im).reel = s.reel := rfl
@[simp] theorem State.setFig_reelPeriod (im : Image) : (s.setFig im).reelPeriod = s.reelPeriod := rfl
@[simp] theorem State.setFig_places (im : Image) : (s.setFig im).places = s.places := rfl
@[simp] theorem State.setFig_nv (im : Image) : (s.setFig im).nv = s.nv := rfl
@[simp] theorem State.setFig_weights (im : Image) : (s.setFig im).weights = s.weights := rfl
@[simp] theorem State.setFig_fuses (im : Image) : (s.setFig im).fuses = s.fuses := rfl
@[simp] theorem State.setFig_boot (im : Image) : (s.setFig im).boot = s.boot := rfl
@[simp] theorem State.setFig_power (im : Image) : (s.setFig im).power = s.power := rfl
@[simp] theorem State.setFig_health (im : Image) : (s.setFig im).health = s.health := rfl
@[simp] theorem State.setFig_resets (im : Image) : (s.setFig im).resets = s.resets := rfl
@[simp] theorem State.setFig_saved (im : Image) : (s.setFig im).saved = s.saved := rfl
@[simp] theorem State.setFig_resetHeld (im : Image) : (s.setFig im).resetHeld = s.resetHeld := rfl
@[simp] theorem State.setFig_tileResets (im : Image) : (s.setFig im).tileResets = s.tileResets := rfl
@[simp] theorem State.setFig_threads (im : Image) : (s.setFig im).threads = s.threads := rfl
@[simp] theorem State.setFig_turns (im : Image) : (s.setFig im).turns = s.turns := rfl
@[simp] theorem State.setFig_windows (im : Image) : (s.setFig im).windows = s.windows := rfl
@[simp] theorem State.setFig_nvLog (im : Image) : (s.setFig im).nvLog = s.nvLog := rfl
@[simp] theorem State.setFig_log (im : Image) : (s.setFig im).log = s.log := rfl
@[simp] theorem State.setFig_logged (im : Image) : (s.setFig im).logged = s.logged := rfl
@[simp] theorem State.setFig_out (im : Image) : (s.setFig im).out = s.out := rfl

end Sys2Proof.Machine
end

