-- ==== Sys2Proof/Laws/Memory.lean ====
section
/-! SUPPORT. Every operation over device memory and tile SRAM keeps their canonical form; what a write reads back as, and
what it leaves alone. -/

namespace Sys2Proof.Machine

variable {s t : State}

/-! ### The canonical form -/

theorem State.memWf_iff : s.memWf = true ↔ mwf 0 s.mem = true ∧ mwf false s.memMark = true ∧ mwf 0 s.tileMem = true ∧
    mwf false s.tileMark = true ∧ mwf 0 s.tags = true ∧ mwf 0 s.parked = true ∧ mwf false s.parkedMark = true := by
  simp [State.memWf, and_assoc]

theorem State.memWf_of_wf (h : s.wf = true) : s.memWf = true := by
  simp only [State.wf, Bool.and_eq_true] at h
  tauto

/-- Reset memory lists nothing. -/
theorem State.memWf_reset : State.reset.memWf = true := rfl

/-- A step that leaves memory and tile SRAM alone keeps the form. -/
theorem State.memWf_of_eq (h : s.memWf = true) (h1 : t.mem = s.mem) (h2 : t.memMark = s.memMark)
    (h3 : t.tileMem = s.tileMem) (h4 : t.tileMark = s.tileMark) (h5 : t.tags = s.tags) (h6 : t.parked = s.parked)
    (h7 : t.parkedMark = s.parkedMark) : t.memWf = true := by
  simpa only [State.memWf, h1, h2, h3, h4, h5, h6, h7] using h

/-- A fold of writes to one map keeps its form. -/
theorem mwf_foldl_mset {α β : Type} [DecidableEq α] {d : α} (key : β → Nat) (val : SMap α → β → α) (l : List β) {m : SMap α}
    (h : mwf d m = true) : mwf d (l.foldl (fun m b => mset d (key b) (val m b) m) m) = true :=
  foldl_keeps (P := fun m => mwf d m = true) (fun _ _ hc => mwf_mset hc _ _) l m h

theorem State.memWf_wr (h : s.memWf = true) (f : Fld) (v i k j : Nat) : (s.wr f v i k j).memWf = true := h

theorem State.memWf_bump (h : s.memWf = true) (f : Fld) (n i k j : Nat) : (s.bump f n i k j).memWf = true := h

theorem State.memWf_raise (h : s.memWf = true) (e : EvFlag) (i : Nat) (args : List Nat) (k : Nat) :
    (s.raise e i args k).memWf = true := by
  refine State.memWf_of_eq h ?_ ?_ ?_ ?_ ?_ ?_ ?_ <;> (unfold State.raise State.raiseAs State.bump; cases e.last <;> rfl)

theorem State.memWf_devPut (h : s.memWf = true) (a : Nat) (d : List MarkByte) : (s.devPut a d).memWf = true := by
  rw [State.memWf_iff] at h ⊢
  exact ⟨mwf_msetList _ h.1 _, mwf_foldl_mset (fun l => l) (fun _ l => lineMarkAfter (mget false s.memMark l) a d l) _ h.2.1,
    h.2.2.1, h.2.2.2.1, h.2.2.2.2⟩

theorem State.memWf_markRange (h : s.memWf = true) (a n : Nat) : (s.markRange a n).memWf = true := by
  rw [State.memWf_iff] at h ⊢
  exact ⟨h.1, mwf_foldl_mset (fun l => l) (fun _ _ => true) _ h.2.1, h.2.2.1, h.2.2.2.1, h.2.2.2.2⟩

theorem State.memWf_zeroRange (h : s.memWf = true) (a n : Nat) : (s.zeroRange a n).memWf = true := by
  rw [State.memWf_iff] at h ⊢
  unfold State.zeroRange
  exact ⟨mwf_mkeep h.1 (fun k => !(decide (a ≤ k) && decide (k < a + n))),
    mwf_mkeep h.2.1 (fun k => !(decide (a ≤ k * 64) && decide (k * 64 < a + n))),
    h.2.2.1, h.2.2.2.1, h.2.2.2.2⟩

theorem State.memWf_sramPut (h : s.memWf = true) (key : Nat) (d : List MarkByte) : (s.sramPut key d).memWf = true := by
  rw [State.memWf_iff] at h ⊢
  exact ⟨h.1, h.2.1, mwf_msetList _ h.2.2.1 _,
    mwf_foldl_mset (fun w => w) (fun _ w => wordMarkAfter (mget false s.tileMark w) key d w) _ h.2.2.2.1, h.2.2.2.2⟩

theorem State.memWf_setTag (h : s.memWf = true) (key v : Nat) : (s.setTag key v).memWf = true := by
  rw [State.memWf_iff] at h ⊢
  exact ⟨h.1, h.2.1, h.2.2.1, h.2.2.2.1, mwf_mset h.2.2.2.2.1 _ _, h.2.2.2.2.2⟩

theorem State.memWf_clearValid (h : s.memWf = true) (tile : Nat) : (s.clearValid tile).memWf = true := by
  rw [State.memWf_iff] at h ⊢
  unfold State.clearValid
  generalize List.range 256 = l
  exact ⟨h.1, h.2.1, h.2.2.1, h.2.2.2.1,
    foldl_keeps (P := fun m => mwf 0 m = true) (fun _ _ hc => mwf_mset hc _ _) _ _ h.2.2.2.2.1, h.2.2.2.2.2⟩

/-- Bytes written below the marks keep the form. -/
theorem State.memWf_setMem (h : s.memWf = true) (a : Nat) (bs : List Byte) :
    ({ s with mem := msetList 0 a bs s.mem } : State).memWf = true := by
  rw [State.memWf_iff] at h ⊢
  exact ⟨mwf_msetList _ h.1 _, h.2⟩

theorem State.memWf_crcUpdate (h : t.memWf = true) (s : State) (o a n : Nat) : (s.crcUpdate t o a n).memWf = true := by
  unfold State.crcUpdate
  simp only
  split
  · exact State.memWf_bump (State.memWf_setMem h _ _) _ _ _ _ _
  · have hu : (if overlaps a n (o + 4) 28 && s.devBytes (o + 4) 28 ≠ t.devBytes (o + 4) 28 then
        (t.raise E.CHECK_HDR_PARTIAL (s.ownerDie o) [o]).markRange o 32 else t).memWf = true := by
      split
      · exact State.memWf_markRange (State.memWf_raise h _ _ _ _) _ _
      · exact h
    split
    · exact State.memWf_bump (State.memWf_setMem hu _ _) _ _ _ _ _
    · exact hu

theorem State.memWf_generatorCheck (h : t.memWf = true) (die o : Nat) : (t.generatorCheck die o).memWf = true := by
  unfold State.generatorCheck
  split
  · exact State.memWf_markRange (State.memWf_raise h _ _ _ _) _ _
  · exact h

theorem State.memWf_devWrite (h : s.memWf = true) (a : Nat) (d : List MarkByte) : (s.devWrite a d).memWf = true := by
  unfold State.devWrite State.committed
  exact foldl_keeps (P := fun t => State.memWf t = true) (fun t o ht =>
    State.memWf_generatorCheck (State.memWf_crcUpdate ht s o a d.length) _ _) _ _
    (State.memWf_devPut h a d)

theorem State.memWf_devSet (h : s.memWf = true) (a : Nat) (bs : List Byte) : (s.devSet a bs).memWf = true :=
  State.memWf_devWrite h a _

theorem State.memWf_devSetNat (h : s.memWf = true) (a n v : Nat) : (s.devSetNat a n v).memWf = true :=
  State.memWf_devSet h a _

/-! ### Checksums (R174) -/

theorem State.windowsOff_of_regs (h : t.regs = s.regs) : t.windowsOff = s.windowsOff := by
  unfold State.windowsOff State.on State.rd
  rw [h]

/-- Without a CHECK window a committed write is its bytes and marks. -/
theorem State.devWrite_off (h : s.windowsOff = true) (a : Nat) (d : List MarkByte) : s.devWrite a d = s.devPut a d := by
  have none : (List.range 16).flatMap (fun w => s.touched w a d.length) = [] := by
    rw [List.flatMap_eq_nil_iff]
    intro w hw
    have hoff : s.on R.CHECK_WIN_BASE_EN 0 w = false := by
      have := List.all_eq_true.1 h w hw
      simpa using this
    simp [State.touched, hoff]
  simp only [State.devWrite, State.committed, none, List.foldl_nil]

/-- Then a write of bytes moves no register. -/
theorem State.devSet_regs (h : s.windowsOff = true) (a : Nat) (bs : List Byte) : (s.devSet a bs).regs = s.regs := by
  unfold State.devSet
  rw [State.devWrite_off h]
  rfl

theorem State.windowsOff_devSet (h : s.windowsOff = true) (a : Nat) (bs : List Byte) : (s.devSet a bs).windowsOff = true :=
  (State.windowsOff_of_regs (State.devSet_regs h a bs)).trans h

/-! ### Read after write -/

/-- A byte outside a write reads as before. -/
theorem State.devByte_devPut_out {a b : Nat} {d : List MarkByte} (h : b < a ∨ a + d.length ≤ b) :
    (s.devPut a d).devByte b = s.devByte b := by
  unfold State.devByte State.devPut
  exact mget_msetList_out 0 _ _ _ _ (by simpa using h)

/-- A byte of a list written reads back. -/
theorem mget_msetList_in {α : Type} [DecidableEq α] (d : α) (l : List α) : ∀ (m : SMap α) (k i : Nat) (h : i < l.length),
    mwf d m = true → mget d (msetList d k l m) (k + i) = l[i] := by
  induction l with
  | nil => intro m k i h; simp at h
  | cons v r ih =>
    intro m k i h hm
    cases i with
    | zero =>
      rw [msetList, mget_msetList_out d r _ _ _ (by omega)]
      exact mget_mset_self d v _ ((mwf_iff d m).1 hm).1
    | succ n =>
      simp only [List.length_cons] at h
      rw [msetList, show k + (n + 1) = (k + 1) + n by omega, ih _ _ _ (by omega) (mwf_mset hm _ _)]
      rfl

/-- A byte written reads back. -/
theorem State.devByte_devPut_in (hs : s.memWf = true) {a i : Nat} {d : List MarkByte} (h : i < d.length) :
    (s.devPut a d).devByte (a + i) = d[i].1 := by
  unfold State.devByte State.devPut
  rw [mget_msetList_in 0 _ _ _ _ (by simpa using h) (State.memWf_iff.1 hs).1]
  simp

/-- A byte of a zeroed range reads 0, and one outside it as before. -/
theorem State.devByte_zeroRange (a n b : Nat) :
    (s.zeroRange a n).devByte b = if a ≤ b ∧ b < a + n then 0 else s.devByte b := by
  have key : ∀ (m : SMap Byte) (p : Nat → Bool), mget 0 (mkeep p m) b = if p b then mget 0 m b else 0 := by
    intro m p
    induction m with
    | nil => simp [mkeep, mget]
    | cons e r ih =>
      obtain ⟨j, w⟩ := e
      simp only [mkeep] at ih ⊢
      by_cases hj : j = b
      · subst hj
        by_cases hp : p j = true <;> simp_all [mget]
      · by_cases hp : p j = true <;> simp_all [mget]
  unfold State.devByte State.zeroRange
  rw [key]
  by_cases h1 : a ≤ b <;> by_cases h2 : b < a + n <;> simp [h1, h2]

/-- No write to tile SRAM moves a byte of device memory. -/
@[simp] theorem State.devByte_sramPut (key b : Nat) (d : List MarkByte) : (s.sramPut key d).devByte b = s.devByte b := rfl

@[simp] theorem State.devByte_setTag (key v b : Nat) : (s.setTag key v).devByte b = s.devByte b := rfl

@[simp] theorem State.devByte_wr (f : Fld) (v i k j b : Nat) : (s.wr f v i k j).devByte b = s.devByte b := rfl

/-- A byte of tile SRAM outside a write reads as before. -/
theorem State.tileMem_sramPut_out {key k : Nat} {d : List MarkByte} (h : k < key ∨ key + d.length ≤ k) :
    mget 0 (s.sramPut key d).tileMem k = mget 0 s.tileMem k := by
  unfold State.sramPut
  exact mget_msetList_out 0 _ _ _ _ (by simpa using h)

/-- A byte of tile SRAM written reads back. -/
theorem State.tileMem_sramPut_in (hs : s.memWf = true) {key i : Nat} {d : List MarkByte} (h : i < d.length) :
    mget 0 (s.sramPut key d).tileMem (key + i) = d[i].1 := by
  unfold State.sramPut
  rw [mget_msetList_in 0 _ _ _ _ (by simpa using h) (State.memWf_iff.1 hs).2.2.1]
  simp

end Sys2Proof.Machine
end

