-- ==== Sys2Proof/Laws/KvPool.lean ====
section
/-! SUPPORT. Page tables of the KV cache: what a table just written gives its first positions. -/

namespace Sys2Proof.Machine

variable {s t : State}

/-- Registers read the same in states whose registers are the same. -/
theorem State.rd_of_regs (h : t.regs = s.regs) (f : Fld) (i k j : Nat) : t.rd f i k j = s.rd f i k j := by
  unfold State.rd
  rw [h]

theorem State.on_of_regs (h : t.regs = s.regs) (f : Fld) (i k j : Nat) : t.on f i k j = s.on f i k j := by
  unfold State.on
  rw [State.rd_of_regs h]

theorem State.devSetNat_regs (h : s.windowsOff = true) (a n v : Nat) : (s.devSetNat a n v).regs = s.regs :=
  State.devSet_regs h a _

theorem State.clearTags_regs (h : s.windowsOff = true) (p f : Nat) : (s.clearTags p f).regs = s.regs :=
  State.devSet_regs h _ _

/-- Giving a sequence frames and a page table moves no register. -/
theorem State.newTable_regs (h : s.windowsOff = true) (p root n : Nat) : (s.newTable p root n).regs = s.regs := by
  have fold : ∀ (l : List Nat) (u : State), u.windowsOff = true → (l.foldl (fun t f => t.clearTags p f) u).regs = u.regs := by
    intro l
    induction l with
    | nil => intro u _; rfl
    | cons f r ih =>
      intro u hu
      have e := State.clearTags_regs hu p f
      rw [List.foldl_cons, ih _ ((State.windowsOff_of_regs e).trans hu), e]
  have h1 : (s.popFrames p n).1.regs = s.regs := State.devSetNat_regs h _ _ _
  have h2 := fold (s.popFrames p n).2 _ ((State.windowsOff_of_regs h1).trans h)
  unfold State.newTable
  simp only
  rw [State.devSet_regs ((State.windowsOff_of_regs (h2.trans h1)).trans h), h2, h1]

/-- A byte of memory after a write of bytes. -/
theorem State.devByte_devSet (hs : s.memWf = true) (hw : s.windowsOff = true) (a b : Nat) (bs : List Byte) :
    (s.devSet a bs).devByte b = if a ≤ b ∧ b < a + bs.length then bs.getD (b - a) 0 else s.devByte b := by
  unfold State.devSet
  rw [State.devWrite_off hw]
  split
  · rename_i h
    obtain ⟨i, rfl⟩ := Nat.exists_eq_add_of_le h.1
    have hi : i < (clean bs).length := by simp [clean]; omega
    have hj : i < bs.length := by omega
    rw [State.devByte_devPut_in hs hi]
    simp [clean, hj]
  · rename_i h
    apply State.devByte_devPut_out
    simp [clean]; omega

theorem length_toLE : ∀ k v, (toLE k v).length = k := by
  intro k
  induction k with
  | zero => intro v; rfl
  | succ k ih => intro v; simp [toLE, ih]

theorem State.devByte_devSetNat (hs : s.memWf = true) (hw : s.windowsOff = true) (a n v b : Nat) :
    (s.devSetNat a n v).devByte b = if a ≤ b ∧ b < a + n then (toLE n v).getD (b - a) 0 else s.devByte b := by
  unfold State.devSetNat
  rw [State.devByte_devSet hs hw, length_toLE]

/-- Numbers read from bytes that agree are equal. -/
theorem State.devNat_congr {a : Nat} : ∀ {n : Nat}, (∀ b, a ≤ b → b < a + n → t.devByte b = s.devByte b) →
    t.devNat a n = s.devNat a n := by
  have key : ∀ (n a : Nat), (∀ b, a ≤ b → b < a + n → t.devByte b = s.devByte b) →
      mgetList 0 t.mem a n = mgetList 0 s.mem a n := by
    intro n
    induction n with
    | zero => intro a _; rfl
    | succ n ih =>
      intro a h
      have h0 : mget 0 t.mem a = mget 0 s.mem a := h a (by omega) (by omega)
      simp only [mgetList, h0]
      rw [ih (a + 1) (fun b h1 h2 => h b (by omega) (by omega))]
  intro n h
  unfold State.devNat State.devBytes
  rw [key n a h]

/-- The descriptor of a partition reads the same where its registers and its seven words do. -/
theorem State.kvDesc_congr {p : Nat} (hr : t.regs = s.regs)
    (h : ∀ b, s.rd R.PART_KVDESC_BASE p ≤ b → b < s.rd R.PART_KVDESC_BASE p + 56 → t.devByte b = s.devByte b) :
    t.kvDesc p = s.kvDesc p := by
  have hb : t.rd R.PART_KVDESC_BASE p = s.rd R.PART_KVDESC_BASE p := by unfold State.rd; rw [hr]
  have hw : ∀ i < 7, t.devWord (s.rd R.PART_KVDESC_BASE p + 8 * i) = s.devWord (s.rd R.PART_KVDESC_BASE p + 8 * i) :=
    fun i hi => State.devNat_congr (fun b h1 h2 => h b (by omega) (by omega))
  unfold State.kvDesc
  simp only [hb, hw 0 (by omega), hw 1 (by omega), hw 2 (by omega), hw 3 (by omega), hw 4 (by omega), hw 5 (by omega),
    hw 6 (by omega)]

/-- Clearing a frame's tags leaves every byte outside them alone. -/
theorem State.devByte_clearTags_out {p f b : Nat} (hw : s.windowsOff = true) (h : b < (s.kvDesc p).tagAt f 0 ∨ (s.kvDesc p).tagAt f 0 + 2048 ≤ b) :
    (s.clearTags p f).devByte b = s.devByte b := by
  unfold State.clearTags State.devSet
  rw [State.devWrite_off hw]
  apply State.devByte_devPut_out
  have : frameTags.length = 2048 := by decide +kernel
  simp only [clean, List.length_map, this]
  exact h

/-- Two positions find slots in a table of one frame whose first eight slots are free, apart from the descriptor. -/
theorem State.mapTo_two {p root c n : Nat} (hs : s.memWf = true) (hw : s.windowsOff = true) (hf : s.ptNf root = 1) (hm : s.ptMapped root = 0)
    (hb : s.devByte ((s.kvDesc p).bitmapAt root) = 0xFF)
    (hd : (s.kvDesc p).base + 56 ≤ root ∨ root + 64 + 12 * (s.kvDesc p).fmax + 2 * max 1 (s.kvDesc p).mapn ≤ (s.kvDesc p).base)
    (hx : 1 ≤ (s.kvDesc p).fmax) : (s.mapTo p root c n 2).2 = true := by
  have hr : List.range 64 = 0 :: 1 :: (List.range 62).map (· + 2) := by decide
  have f0 : s.freeSlot (s.kvDesc p) root = some 0 := by
    unfold State.freeSlot
    rw [hf, Nat.mul_one, hr]
    simp [hb]
  generalize hD : s.kvDesc p = d at *
  obtain ⟨s1, e1⟩ : ∃ x, x = s.devSetNat (d.bitmapAt root) 1 254 := ⟨_, rfl⟩
  obtain ⟨s2, e2⟩ : ∃ x, x = s1.devSetNat (d.mapAt root) 2 0 := ⟨_, rfl⟩
  have h1 : s1.memWf = true := e1 ▸ State.memWf_devSetNat hs _ _ _
  have w1 : s1.windowsOff = true := e1 ▸ State.windowsOff_devSet hw _ _
  have b1 : ∀ b, b ≠ d.bitmapAt root → s1.devByte b = s.devByte b := by
    intro b hne
    rw [e1, State.devByte_devSetNat hs hw, if_neg (by omega)]
  have b2 : ∀ b, (b < d.mapAt root ∨ d.mapAt root + 2 ≤ b) → s2.devByte b = s1.devByte b := by
    intro b hb
    rw [e2, State.devByte_devSetNat h1 w1, if_neg (by omega)]
  have r2 : s2.regs = s.regs := by rw [e2, State.devSetNat_regs w1, e1, State.devSetNat_regs hw]
  have hbm : d.bitmapAt root = root + 64 + 4 * d.fmax := rfl
  have hma : d.mapAt root = root + 64 + 12 * d.fmax := rfl
  have hbase : d.base = s.rd R.PART_KVDESC_BASE p := by rw [← hD]; rfl
  have k2 : s2.kvDesc p = d := by
    rw [← hD]
    refine State.kvDesc_congr r2 (fun b h1 h2 => ?_)
    rw [← hbase] at h1 h2
    have hq : 2 ≤ 2 * max 1 d.mapn := by omega
    rw [b2 b (by omega), b1 b (by omega)]
  have nf2 : s2.ptNf root = 1 := by
    have w : s2.devNat root 8 = s.devNat root 8 :=
      State.devNat_congr (fun b h1 h2 => by rw [b2 b (by omega), b1 b (by omega)])
    unfold State.ptNf State.devWord at hf ⊢
    rw [w]
    exact hf
  have by2 : s2.devByte (d.bitmapAt root) = 0xFE := by
    rw [b2 _ (by omega), e1, State.devByte_devSetNat hs hw, if_pos (by omega), Nat.sub_self]
    decide
  have f1 : s2.freeSlot d root = some 1 := by
    unfold State.freeSlot
    rw [nf2, Nat.mul_one, hr]
    have h0 : (BitVec.toNat (254 : Byte)).testBit 0 = false := by decide
    have h1 : (BitVec.toNat (254 : Byte)).testBit 1 = true := by decide
    simp only [List.find?_cons, Nat.zero_mod, Nat.add_zero, by2, show (1 : Nat) / 8 = 0 from rfl,
      show (1 : Nat) % 8 = 1 from rfl, h0, h1]
  have m0 : s.mapOne p root c n 0 = some s2 := by
    unfold State.mapOne
    simp only [hD, f0]
    simp [hb, e1, e2]
  unfold State.mapTo
  simp only [hm]
  have m1 : ∃ u, s2.mapOne p root c n 1 = some u := by
    unfold State.mapOne
    simp only [k2, f1]
    exact ⟨_, rfl⟩
  obtain ⟨u, hu⟩ := m1
  simp [State.mapMany, m0, hu]

/-- A page table just written for one frame: one frame, nothing mapped, its first eight slots free; the descriptor as before. -/
theorem State.newTable_one {p root f : Nat} {d : KvDesc} (hs : (s.popFrames p 1).1.memWf = true)
    (hv : (s.popFrames p 1).1.windowsOff = true)
    (hp : (s.popFrames p 1).2 = [f]) (hk : (s.popFrames p 1).1.kvDesc p = d)
    (ht : d.base + 56 ≤ d.tagAt f 0 ∨ d.tagAt f 0 + 2048 ≤ d.base)
    (hd : d.base + 56 ≤ root ∨ root + (tableBytes d [f]).length ≤ d.base)
    (hw : ofLE ((tableBytes d [f]).take 8) = 1) (hm : ofLE (((tableBytes d [f]).drop 8).take 8) = 0)
    (hl : 16 ≤ (tableBytes d [f]).length) (hx : 64 + 4 * d.fmax < (tableBytes d [f]).length)
    (hb : (tableBytes d [f]).getD (64 + 4 * d.fmax) 0 = 0xFF) :
    (s.newTable p root 1).memWf = true ∧ (s.newTable p root 1).kvDesc p = d ∧ (s.newTable p root 1).ptNf root = 1 ∧
    (s.newTable p root 1).ptMapped root = 0 ∧ (s.newTable p root 1).devByte (d.bitmapAt root) = 0xFF := by
  obtain ⟨s1, e1⟩ : ∃ x, x = (s.popFrames p 1).1 := ⟨_, rfl⟩
  obtain ⟨s2, e2⟩ : ∃ x, x = s1.clearTags p f := ⟨_, rfl⟩
  rw [← e1] at hs hk hv
  have k2 : s2.kvDesc p = d := by
    rw [← hk, e2]
    refine State.kvDesc_congr (State.clearTags_regs hv p f) (fun b h1 h2 => State.devByte_clearTags_out hv ?_)
    have hbase : d.base = s1.rd R.PART_KVDESC_BASE p := by rw [← hk]; rfl
    rw [hk]
    omega
  have v2 : s2.windowsOff = true := by
    rw [e2]
    exact (State.windowsOff_of_regs (State.clearTags_regs hv p f)).trans hv
  have m2 : s2.memWf = true := by
    rw [e2]
    unfold State.clearTags
    exact State.memWf_devSet hs _ _
  have e : s.newTable p root 1 = s2.devSet root (tableBytes d [f]) := by
    unfold State.newTable
    have : s.popFrames p 1 = (s1, [f]) := Prod.ext e1.symm hp
    rw [this]
    simp only [List.foldl_cons, List.foldl_nil, ← e2, k2]
  generalize tableBytes d [f] = bs at *
  rw [e]
  have word : ∀ o, o + 8 ≤ bs.length → (s2.devSet root bs).devWord (root + o) = ofLE ((bs.drop o).take 8) := by
    intro o ho
    have key : ∀ (n a : Nat), a + n ≤ bs.length → mgetList 0 (s2.devSet root bs).mem (root + a) n = (bs.drop a).take n := by
      intro n
      induction n with
      | zero => intro a _; simp [mgetList]
      | succ n ih =>
        intro a h
        have h0 : (s2.devSet root bs).devByte (root + a) = bs.getD a 0 := by
          rw [State.devByte_devSet m2 v2, if_pos (by omega)]
          congr 1
          omega
        simp only [State.devByte] at h0
        simp only [mgetList, h0, Nat.add_assoc]
        rw [ih (a + 1) (by omega)]
        have : a < bs.length := by omega
        rw [List.drop_eq_getElem_cons (i := a) this, List.take_succ_cons]
        simp [this]
    unfold State.devWord State.devNat State.devBytes
    rw [key 8 o ho]
  refine ⟨State.memWf_devSet m2 _ _, ?_, ?_, ?_, ?_⟩
  · rw [← k2]
    refine State.kvDesc_congr (State.devSet_regs v2 _ _) (fun b h1 h2 => ?_)
    have hbase : d.base = s2.rd R.PART_KVDESC_BASE p := by rw [← k2]; rfl
    rw [State.devByte_devSet m2 v2, if_neg (by omega)]
  · unfold State.ptNf
    have := word 0 (by omega)
    rw [Nat.add_zero, List.drop_zero] at this
    rw [this, hw]
    rfl
  · unfold State.ptMapped
    rw [word 8 (by omega), hm]
    rfl
  · have hbm : d.bitmapAt root = root + 64 + 4 * d.fmax := rfl
    rw [State.devByte_devSet m2 v2, if_pos (by omega), hbm, show root + 64 + 4 * d.fmax - root = 64 + 4 * d.fmax by omega, hb]

/-- Marking an entry as used changes the Caller only. -/
theorem State.useEntry_frame (i : Nat) : (s.useEntry i).mem = s.mem ∧ (s.useEntry i).memMark = s.memMark ∧
    (s.useEntry i).tileMem = s.tileMem ∧ (s.useEntry i).tileMark = s.tileMark ∧ (s.useEntry i).tags = s.tags ∧
    (s.useEntry i).regs = s.regs := ⟨rfl, rfl, rfl, rfl, rfl, rfl⟩

/-- A write of bytes does not look at the Caller. -/
theorem State.devSet_caller (h : s.windowsOff = true) (m : Caller) (a : Nat) (bs : List Byte) :
    (State.devSet { s with caller := m } a bs).mem = (s.devSet a bs).mem ∧
    (State.devSet { s with caller := m } a bs).memMark = (s.devSet a bs).memMark ∧
    (State.devSet { s with caller := m } a bs).tileMem = s.tileMem ∧
    (State.devSet { s with caller := m } a bs).tileMark = s.tileMark ∧
    (State.devSet { s with caller := m } a bs).tags = s.tags ∧
    (State.devSet { s with caller := m } a bs).regs = s.regs ∧
    (State.devSet { s with caller := m } a bs).parked = s.parked ∧
    (State.devSet { s with caller := m } a bs).parkedMark = s.parkedMark := by
  unfold State.devSet
  rw [State.devWrite_off (s := { s with caller := m }) h, State.devWrite_off h]
  exact ⟨rfl, rfl, rfl, rfl, rfl, rfl, rfl, rfl⟩

/-- With the mirror off, no write of it is queued. -/
theorem State.mirrorWrite_off (i o : Nat) (d : List Byte) (h : s.on R.CALLER_JOURNAL_EN = false) : s.mirrorWrite i o d = s := by
  have hq : ∀ x, s.queueMirror x i o d = s := by
    intro x
    unfold State.queueMirror
    rw [h]
    rfl
  unfold State.mirrorWrite
  simp only [hq]
  cases s.nextBuddy <;> rfl

/-- Without the mirror, changing an entry writes its image into the table. -/
theorem State.putSeq_off (hw : s.windowsOff = true) (i : Nat) (e : Entry) (hj : s.on R.CALLER_JOURNAL_EN = false) :
    s.putSeq i e = State.devSet { s with caller := { s.caller with seqs := mset Entry.init i e s.caller.seqs } } (s.seqAt i)
      e.image := by
  have hr := State.devSet_regs (s := { s with caller := { s.caller with seqs := mset Entry.init i e s.caller.seqs } }) hw
    (s.seqAt i) e.image
  exact State.mirrorWrite_off i _ _ ((State.on_of_regs (t := _) hr _ _ _ _).trans hj)

/-- Then nothing else of memory or registers moves. -/
theorem State.putSeq_useEntry (hw : s.windowsOff = true) (i : Nat) (e : Entry) (hj : s.on R.CALLER_JOURNAL_EN = false) :
    ((s.putSeq i e).useEntry i).mem = (s.devSet (s.seqAt i) e.image).mem ∧
    ((s.putSeq i e).useEntry i).memMark = (s.devSet (s.seqAt i) e.image).memMark ∧
    ((s.putSeq i e).useEntry i).tileMem = s.tileMem ∧ ((s.putSeq i e).useEntry i).tileMark = s.tileMark ∧
    ((s.putSeq i e).useEntry i).tags = s.tags ∧ ((s.putSeq i e).useEntry i).regs = s.regs ∧
    ((s.putSeq i e).useEntry i).parked = s.parked ∧ ((s.putSeq i e).useEntry i).parkedMark = s.parkedMark := by
  have h := State.devSet_caller hw { s.caller with seqs := mset Entry.init i e s.caller.seqs } (s.seqAt i) e.image
  rw [← State.putSeq_off hw i e hj] at h
  exact h

/-- A state with the memory of another after a write of bytes, and its tile SRAM, keeps the form. -/
theorem State.memWf_of_devSet {a : Nat} {bs : List Byte} (hs : s.memWf = true) (hw : s.windowsOff = true)
    (h1 : t.mem = (s.devSet a bs).mem) (h2 : t.memMark = (s.devSet a bs).memMark) (h3 : t.tileMem = s.tileMem)
    (h4 : t.tileMark = s.tileMark) (h5 : t.tags = s.tags) (h6 : t.parked = s.parked) (h7 : t.parkedMark = s.parkedMark) :
    t.memWf = true := by
  have hm := State.memWf_devSet hs a bs
  unfold State.devSet at hm h1 h2
  rw [State.devWrite_off hw] at hm h1 h2
  exact State.memWf_of_eq hm h1 h2 h3 h4 h5 h6 h7

end Sys2Proof.Machine
end

