-- ==== Sys2Proof/Laws/Flits.lean ====
section
/-! SUPPORT. Little-endian fields, CRC-32C, and flits: what one port sends, another one's check accepts (R5, R170, R320). -/

namespace Sys2Proof.Machine

/-- Reading back a number stored little-endian. -/
theorem ofLE_toLE : ∀ k v, v < 256 ^ k → ofLE (toLE k v) = v := by
  intro k
  induction k with
  | zero => intro v h; simp [toLE, ofLE] at *; omega
  | succ k ih =>
    intro v h
    have : v / 256 < 256 ^ k := by rw [Nat.pow_succ] at h; omega
    simp [toLE, ofLE, ih _ this]
    omega

theorem crc32cBit_lt {c : Nat} (h : c < 2 ^ 32) : crc32cBit c < 2 ^ 32 := by
  unfold crc32cBit
  split
  · exact Nat.xor_lt_two_pow (by omega) (by decide)
  · omega

theorem crc32cByte_lt {c : Nat} (b : Byte) (h : c < 2 ^ 32) : crc32cByte c b < 2 ^ 32 := by
  unfold crc32cByte
  repeat apply crc32cBit_lt
  exact Nat.xor_lt_two_pow h (Nat.lt_trans b.isLt (by decide))

theorem crc32c_foldl_lt : ∀ (l : List Byte) {c : Nat}, c < 2 ^ 32 → l.foldl crc32cByte c < 2 ^ 32
  | [], _, h => h
  | b :: r, _, h => crc32c_foldl_lt r (crc32cByte_lt b h)

/-- A CRC-32C has 32 bits. -/
theorem crc32c_lt (l : List Byte) : crc32c l < 2 ^ 32 :=
  Nat.xor_lt_two_pow (crc32c_foldl_lt l (by decide)) (by decide)

/-- A flit has 512 bytes, and its CRC verifies where it arrives as it was sent. -/
theorem flitImage_good {payload : List Byte} (h : payload.length = 504) (seq ack : Nat) (nak : Bool) (cs : List Codeword) :
    (⟨flitImage payload seq ack nak, cs⟩ : FlitIn).crcGood = true := by
  have hb : (payload ++ toLE 2 seq ++ toLE 2 (ack % 2 ^ 15 + b2n nak * 2 ^ 15)).length = 508 := by
    simp [length_toLE, h]
  have hl : (flitImage payload seq ack nak).length = 512 := by
    unfold flitImage
    rw [List.length_append, hb, length_toLE]
  have hc : ofLE ((flitImage payload seq ack nak).drop 508) = crc32c ((flitImage payload seq ack nak).take 508) := by
    unfold flitImage
    rw [List.drop_append_of_le_length (by omega), List.take_append_of_le_length (by omega), List.drop_of_length_le (by omega),
      List.take_of_length_le (by omega), List.nil_append, ofLE_toLE 4 _ (crc32c_lt _)]
  unfold FlitIn.crcGood
  rw [decide_eq_true hl, decide_eq_true hc]
  rfl

end Sys2Proof.Machine
end

