-- ==== Sys2Proof/Laws/Registers.lean ====
section
/-! SUPPORT. Registers: what a write, a count, a flag and a fault-log record do. -/

namespace Sys2Proof.Machine

variable (s : State)

theorem State.rd_eq_of_regs {s t : State} (h : s.regs = t.regs) (f : Fld) (i k j : Nat) : s.rd f i k j = t.rd f i k j := by
  unfold State.rd; rw [h]

/-- A field reads what was written to it, modulo its width. -/
theorem State.rd_wr_self {s : State} (h : mrising s.regs = true) (f : Fld) (v i k j : Nat) :
    (s.wr f v i k j).rd f i k j = v % 2 ^ f.wid := by
  simp [State.rd, State.wr, mget_mset_self _ _ _ h]

/-- A field never reads a value beyond its width. -/
theorem State.rd_lt (s : State) (f : Fld) (i k j : Nat) : s.rd f i k j < 2 ^ f.wid :=
  Nat.mod_lt _ (Nat.two_pow_pos _)

/-- A write leaves every other field alone. -/
theorem State.rd_wr_ne (f g : Fld) {v i k j i' k' j' : Nat} (h : fkey f i k j ≠ fkey g i' k' j') :
    (s.wr f v i k j).rd g i' k' j' = s.rd g i' k' j' := by
  simp [State.rd, State.wr, mget_mset_ne _ _ h]

theorem State.mrising_wr {s : State} (h : mrising s.regs = true) (f : Fld) (v i k j : Nat) :
    mrising (s.wr f v i k j).regs = true := by
  simp only [State.wr, mset]; split
  · exact mrising_mdel h
  · exact mrising_mins h

@[simp] theorem State.rd_logAs (u : Nat) (w : LogWhat) (a : List Nat) (f : Fld) (i k j : Nat) :
    (s.logAs u w a).rd f i k j = s.rd f i k j := rfl
@[simp] theorem State.rd_note (u : Nat) (n : Note) (f : Fld) (i k j : Nat) : (s.note u n).rd f i k j = s.rd f i k j := rfl
@[simp] theorem State.rd_emit (x : Out) (f : Fld) (i k j : Nat) : (s.emit x).rd f i k j = s.rd f i k j := rfl
@[simp] theorem State.rd_setSt (n : Nat) (x : SetSt) (f : Fld) (i k j : Nat) : (s.setSt n x).rd f i k j = s.rd f i k j := rfl
@[simp] theorem State.rd_devPut (a : Nat) (d : List MarkByte) (f : Fld) (i k j : Nat) :
    (s.devPut a d).rd f i k j = s.rd f i k j := rfl
@[simp] theorem State.rd_sramPut (a : Nat) (d : List MarkByte) (f : Fld) (i k j : Nat) :
    (s.sramPut a d).rd f i k j = s.rd f i k j := rfl
@[simp] theorem State.rd_setTag (a v : Nat) (f : Fld) (i k j : Nat) : (s.setTag a v).rd f i k j = s.rd f i k j := rfl

/-- A flag raised changes registers and the log only: one record more, stamped now (R11, R66). -/
theorem State.raise_log (e : EvFlag) (i : Nat) (args : List Nat) (k : Nat) :
    ∃ r : LogRec, (s.raise e i args k).log = s.log ++ [r] ∧ r.unit = srcUnit e.flag.cls i ∧ r.what = .flag e.flag i ∧
      r.args = args := by
  unfold State.raise State.raiseAs State.logAs
  split <;> exact ⟨_, rfl, rfl, rfl, rfl⟩

@[simp] theorem State.raise_pending (e : EvFlag) (i : Nat) (args : List Nat) (k : Nat) : (s.raise e i args k).pending = s.pending := by
  unfold State.raise State.raiseAs; split <;> rfl
@[simp] theorem State.raise_tempo (e : EvFlag) (i : Nat) (args : List Nat) (k : Nat) : (s.raise e i args k).tempo = s.tempo := by
  unfold State.raise State.raiseAs; split <;> rfl
@[simp] theorem State.raise_layout (e : EvFlag) (i : Nat) (args : List Nat) (k : Nat) : (s.raise e i args k).layout = s.layout := by
  unfold State.raise State.raiseAs; split <;> rfl
@[simp] theorem State.raise_card (e : EvFlag) (i : Nat) (args : List Nat) (k : Nat) : (s.raise e i args k).card = s.card := by
  unfold State.raise State.raiseAs; split <;> rfl
@[simp] theorem State.raise_pkgId (e : EvFlag) (i : Nat) (args : List Nat) (k : Nat) : (s.raise e i args k).pkgId = s.pkgId := by
  unfold State.raise State.raiseAs; split <;> rfl
@[simp] theorem State.raise_mem (e : EvFlag) (i : Nat) (args : List Nat) (k : Nat) : (s.raise e i args k).mem = s.mem := by
  unfold State.raise State.raiseAs; split <;> rfl
@[simp] theorem State.raise_memMark (e : EvFlag) (i : Nat) (args : List Nat) (k : Nat) : (s.raise e i args k).memMark = s.memMark := by
  unfold State.raise State.raiseAs; split <;> rfl
@[simp] theorem State.raise_parked (e : EvFlag) (i : Nat) (args : List Nat) (k : Nat) : (s.raise e i args k).parked = s.parked := by
  unfold State.raise State.raiseAs; split <;> rfl
@[simp] theorem State.raise_parkedMark (e : EvFlag) (i : Nat) (args : List Nat) (k : Nat) : (s.raise e i args k).parkedMark = s.parkedMark := by
  unfold State.raise State.raiseAs; split <;> rfl
@[simp] theorem State.raise_tileMem (e : EvFlag) (i : Nat) (args : List Nat) (k : Nat) : (s.raise e i args k).tileMem = s.tileMem := by
  unfold State.raise State.raiseAs; split <;> rfl
@[simp] theorem State.raise_tileMark (e : EvFlag) (i : Nat) (args : List Nat) (k : Nat) : (s.raise e i args k).tileMark = s.tileMark := by
  unfold State.raise State.raiseAs; split <;> rfl
@[simp] theorem State.raise_tags (e : EvFlag) (i : Nat) (args : List Nat) (k : Nat) : (s.raise e i args k).tags = s.tags := by
  unfold State.raise State.raiseAs; split <;> rfl
@[simp] theorem State.raise_sets (e : EvFlag) (i : Nat) (args : List Nat) (k : Nat) : (s.raise e i args k).sets = s.sets := by
  unfold State.raise State.raiseAs; split <;> rfl
@[simp] theorem State.raise_gate (e : EvFlag) (i : Nat) (args : List Nat) (k : Nat) : (s.raise e i args k).gate = s.gate := by
  unfold State.raise State.raiseAs; split <;> rfl
@[simp] theorem State.raise_fab (e : EvFlag) (i : Nat) (args : List Nat) (k : Nat) : (s.raise e i args k).fab = s.fab := by
  unfold State.raise State.raiseAs; split <;> rfl
@[simp] theorem State.raise_roles (e : EvFlag) (i : Nat) (args : List Nat) (k : Nat) : (s.raise e i args k).roles = s.roles := by
  unfold State.raise State.raiseAs; split <;> rfl
@[simp] theorem State.raise_rolePend (e : EvFlag) (i : Nat) (args : List Nat) (k : Nat) : (s.raise e i args k).rolePend = s.rolePend := by
  unfold State.raise State.raiseAs; split <;> rfl
@[simp] theorem State.raise_host (e : EvFlag) (i : Nat) (args : List Nat) (k : Nat) : (s.raise e i args k).host = s.host := by
  unfold State.raise State.raiseAs; split <;> rfl
@[simp] theorem State.raise_caller (e : EvFlag) (i : Nat) (args : List Nat) (k : Nat) : (s.raise e i args k).caller = s.caller := by
  unfold State.raise State.raiseAs; split <;> rfl
@[simp] theorem State.raise_figs (e : EvFlag) (i : Nat) (args : List Nat) (k : Nat) : (s.raise e i args k).figs = s.figs := by
  unfold State.raise State.raiseAs; split <;> rfl
@[simp] theorem State.raise_runs (e : EvFlag) (i : Nat) (args : List Nat) (k : Nat) : (s.raise e i args k).runs = s.runs := by
  unfold State.raise State.raiseAs; split <;> rfl
@[simp] theorem State.raise_notReady (e : EvFlag) (i : Nat) (args : List Nat) (k : Nat) : (s.raise e i args k).notReady = s.notReady := by
  unfold State.raise State.raiseAs; split <;> rfl
@[simp] theorem State.raise_stranded (e : EvFlag) (i : Nat) (args : List Nat) (k : Nat) : (s.raise e i args k).stranded = s.stranded := by
  unfold State.raise State.raiseAs; split <;> rfl
@[simp] theorem State.raise_moves (e : EvFlag) (i : Nat) (args : List Nat) (k : Nat) : (s.raise e i args k).moves = s.moves := by
  unfold State.raise State.raiseAs; split <;> rfl
@[simp] theorem State.raise_swap (e : EvFlag) (i : Nat) (args : List Nat) (k : Nat) : (s.raise e i args k).swap = s.swap := by
  unfold State.raise State.raiseAs; split <;> rfl
@[simp] theorem State.raise_reel (e : EvFlag) (i : Nat) (args : List Nat) (k : Nat) : (s.raise e i args k).reel = s.reel := by
  unfold State.raise State.raiseAs; split <;> rfl
@[simp] theorem State.raise_reelPeriod (e : EvFlag) (i : Nat) (args : List Nat) (k : Nat) : (s.raise e i args k).reelPeriod = s.reelPeriod := by
  unfold State.raise State.raiseAs; split <;> rfl
@[simp] theorem State.raise_places (e : EvFlag) (i : Nat) (args : List Nat) (k : Nat) : (s.raise e i args k).places = s.places := by
  unfold State.raise State.raiseAs; split <;> rfl
@[simp] theorem State.raise_nv (e : EvFlag) (i : Nat) (args : List Nat) (k : Nat) : (s.raise e i args k).nv = s.nv := by
  unfold State.raise State.raiseAs; split <;> rfl
@[simp] theorem State.raise_weights (e : EvFlag) (i : Nat) (args : List Nat) (k : Nat) : (s.raise e i args k).weights = s.weights := by
  unfold State.raise State.raiseAs; split <;> rfl
@[simp] theorem State.raise_fuses (e : EvFlag) (i : Nat) (args : List Nat) (k : Nat) : (s.raise e i args k).fuses = s.fuses := by
  unfold State.raise State.raiseAs; split <;> rfl
@[simp] theorem State.raise_boot (e : EvFlag) (i : Nat) (args : List Nat) (k : Nat) : (s.raise e i args k).boot = s.boot := by
  unfold State.raise State.raiseAs; split <;> rfl
@[simp] theorem State.raise_power (e : EvFlag) (i : Nat) (args : List Nat) (k : Nat) : (s.raise e i args k).power = s.power := by
  unfold State.raise State.raiseAs; split <;> rfl
@[simp] theorem State.raise_health (e : EvFlag) (i : Nat) (args : List Nat) (k : Nat) : (s.raise e i args k).health = s.health := by
  unfold State.raise State.raiseAs; split <;> rfl
@[simp] theorem State.raise_resets (e : EvFlag) (i : Nat) (args : List Nat) (k : Nat) : (s.raise e i args k).resets = s.resets := by
  unfold State.raise State.raiseAs; split <;> rfl
@[simp] theorem State.raise_saved (e : EvFlag) (i : Nat) (args : List Nat) (k : Nat) : (s.raise e i args k).saved = s.saved := by
  unfold State.raise State.raiseAs; split <;> rfl
@[simp] theorem State.raise_resetHeld (e : EvFlag) (i : Nat) (args : List Nat) (k : Nat) : (s.raise e i args k).resetHeld = s.resetHeld := by
  unfold State.raise State.raiseAs; split <;> rfl
@[simp] theorem State.raise_tileResets (e : EvFlag) (i : Nat) (args : List Nat) (k : Nat) : (s.raise e i args k).tileResets = s.tileResets := by
  unfold State.raise State.raiseAs; split <;> rfl
@[simp] theorem State.raise_threads (e : EvFlag) (i : Nat) (args : List Nat) (k : Nat) : (s.raise e i args k).threads = s.threads := by
  unfold State.raise State.raiseAs; split <;> rfl
@[simp] theorem State.raise_turns (e : EvFlag) (i : Nat) (args : List Nat) (k : Nat) : (s.raise e i args k).turns = s.turns := by
  unfold State.raise State.raiseAs; split <;> rfl
@[simp] theorem State.raise_windows (e : EvFlag) (i : Nat) (args : List Nat) (k : Nat) : (s.raise e i args k).windows = s.windows := by
  unfold State.raise State.raiseAs; split <;> rfl
@[simp] theorem State.raise_nvLog (e : EvFlag) (i : Nat) (args : List Nat) (k : Nat) : (s.raise e i args k).nvLog = s.nvLog := by
  unfold State.raise State.raiseAs; split <;> rfl
@[simp] theorem State.raise_logged (e : EvFlag) (i : Nat) (args : List Nat) (k : Nat) : (s.raise e i args k).logged = s.logged := by
  unfold State.raise State.raiseAs; split <;> rfl
@[simp] theorem State.raise_out (e : EvFlag) (i : Nat) (args : List Nat) (k : Nat) : (s.raise e i args k).out = s.out := by
  unfold State.raise State.raiseAs; split <;> rfl

/-- A fold of register writes keeps the keys rising. -/
theorem State.mrising_clearFields {s : State} (h : mrising s.regs = true) (fs : List Fld) (i : Nat) :
    mrising (s.clearFields fs i).regs = true :=
  foldl_keeps (P := fun t : State => mrising t.regs = true) (fun _ f ht => State.mrising_wr ht f f.rst i 0 0) fs s h

theorem State.mrising_bump {s : State} (h : mrising s.regs = true) (f : Fld) (n i k j : Nat) :
    mrising (s.bump f n i k j).regs = true := State.mrising_wr h _ _ _ _ _

theorem State.mrising_raise {s : State} (h : mrising s.regs = true) (e : EvFlag) (i : Nat) (args : List Nat) (k : Nat) :
    mrising (s.raise e i args k).regs = true := by
  have h₁ := State.mrising_bump (State.mrising_wr h e.flag 1 i k 0) e.cnt 1 i k 0
  unfold State.raise State.raiseAs
  cases e.last with
  | none => simpa only [State.logAs_regs] using h₁
  | some f => simpa only [State.logAs_regs] using State.mrising_wr h₁ f _ _ _ _

/-- Raising a flag leaves every field alone but the flag, its count and its stamp (R11). -/
theorem State.rd_raise_ne (e : EvFlag) {i k i' k' j' : Nat} (args : List Nat) (g : Fld)
    (h₁ : fkey e.flag i k 0 ≠ fkey g i' k' j') (h₂ : fkey e.cnt i k 0 ≠ fkey g i' k' j')
    (h₃ : ∀ f, e.last = some f → fkey f i k 0 ≠ fkey g i' k' j') :
    (s.raise e i args k).rd g i' k' j' = s.rd g i' k' j' := by
  unfold State.raise State.raiseAs State.bump
  simp only [State.rd_logAs]
  split
  · rename_i f hf
    rw [State.rd_wr_ne _ _ _ (h₃ f hf), State.rd_wr_ne _ _ _ h₂, State.rd_wr_ne _ _ _ h₁]
  · rw [State.rd_wr_ne _ _ _ h₂, State.rd_wr_ne _ _ _ h₁]

end Sys2Proof.Machine
end

