-- ==== Sys2Proof/Laws/Tables.lean ====
section
/-! SUPPORT. Reads of the tables of Sets, ports, rings, threads and partitions after an update of one entry. -/

namespace Sys2Proof.Machine

variable {s : State}

theorem State.st_setSt (h : mrising s.sets = true) (n : Nat) (x : SetSt) : (s.setSt n x).st n = x := mget_mset_self _ _ _ h

theorem State.st_setSt_ne {n m : Nat} (h : n ≠ m) (x : SetSt) : (s.setSt n x).st m = s.st m := mget_mset_ne _ _ h _

theorem State.port_setPort (h : mrising s.fab.ports = true) (p : Nat) (x : PortSt) : (s.setPort p x).port p = x :=
  mget_mset_self _ _ _ h

theorem State.port_setPort_ne {p q : Nat} (h : p ≠ q) (x : PortSt) : (s.setPort p x).port q = s.port q := mget_mset_ne _ _ h _

theorem State.cq_setCq (h : mrising s.host.cqs = true) (g c : Nat) (x : CqSt) : (s.setCq g c x).cq g c = x :=
  mget_mset_self _ _ _ h

/-- Another ring of the same or another group, its number below 16. -/
theorem State.cq_setCq_ne {g c g' c' : Nat} (hc : c < 16) (hc' : c' < 16) (h : (g, c) ≠ (g', c')) (x : CqSt) :
    (s.setCq g c x).cq g' c' = s.cq g' c' :=
  mget_mset_ne _ _ (fun e => h (by rw [Prod.mk.injEq]; omega)) _

theorem State.thread_setThread (h : mrising s.threads = true) (tile th : Nat) (x : Thread) :
    (s.setThread tile th x).thread tile th = x := mget_mset_self _ _ _ h

/-- Another context of the same or another tile, its number below 16. -/
theorem State.thread_setThread_ne {tile th tile' th' : Nat} (ht : th < 16) (ht' : th' < 16) (h : (tile, th) ≠ (tile', th'))
    (x : Thread) : (s.setThread tile th x).thread tile' th' = s.thread tile' th' :=
  mget_mset_ne _ _ (fun e => h (by rw [Prod.mk.injEq]; omega)) _

theorem State.reelOf_setReel (h : mrising s.reel = true) (p : Nat) (x : ReelPart) : (s.setReel p x).reelOf p = x :=
  mget_mset_self _ _ _ h

theorem State.reelOf_setReel_ne {p q : Nat} (h : p ≠ q) (x : ReelPart) : (s.setReel p x).reelOf q = s.reelOf q :=
  mget_mset_ne _ _ h _

end Sys2Proof.Machine
end

