-- ==== Sys2Proof/Tests/Slice0.lean ====
section
/-! SUPPORT. Tests on small states: ill-formed commands refused, values worked out from the manual, and a witness for the
hypotheses of each statement. -/

open Sys2Proof Sys2Proof.Machine

set_option Elab.async false

/-- Reset with some register fields set: field, value, instance, first and second array index. -/
def tst (l : List (Fld × Nat × Nat × Nat × Nat)) : State :=
  l.foldl (fun s e => s.wr e.1 e.2.1 e.2.2.1 e.2.2.2.1 e.2.2.2.2) State.reset

/-! ### Words worked out from the manual -/

/-- CRC-32C of "123456789" is 0xE3069283, the check value of the polynomial of R170. -/
theorem test_crc32c : crc32c ((List.range 9).map (fun i => BitVec.ofNat 8 (0x31 + i))) = 0xE3069283 := by decide +kernel

/-- The stamp 40960.512 of R6 is 0x0280_0200, 41,943,552. -/
theorem test_stamp : (40960 * 1024 + 512 : Nat) = 41943552 ∧
    ({ tst [(R.TEMPO_STATUS_COUNT_VALID, 1, 0, 0, 0)] with tempo := { Tempo.init with now := 0x2800200 } } : State).beat = 40960 := by
  decide

/-- High times of 15 % and 85 % are symbols, 36 % is none (R46). -/
theorem test_symbols : beatSymbol 150 = some (some false) ∧ beatSymbol 350 = some (some false) ∧ beatSymbol 360 = none ∧
    beatSymbol 400 = some none ∧ beatSymbol 850 = some (some true) ∧ beatSymbol 851 = none := by decide

/-- The table gives no row any bits, so no word spells a command. -/
theorem test_no_words : decodeTableWord 16 0x1234 = none ∧ State.reset.withFetchWord 16 0x1234 = State.reset := by decide

/-! ### Ill-formed commands -/

/-- A packet that carries nothing. -/
def tPktA : Pkt := ⟨0, 0, false, 1, 2, 0, 0, 0, 0, 0, 0, false, false, 0, 0, 0, 0, 0, false, 0, 0, [], none⟩

/-- A request with no body. -/
def tReqA : Req := ⟨0, 0, 0, 0, 0, []⟩

theorem test_wf_class : Instr.wf (.registerWrite 65536 0 0 8 0) = false := by decide
theorem test_wf_inst : Instr.wf (.registerWrite 3 65536 0 8 0) = false := by decide
theorem test_wf_off : Instr.wf (.registerWrite 3 0 (2 ^ 32) 8 0) = false := by decide
theorem test_wf_size : Instr.wf (.registerWrite 3 0 0 2 0) = false := by decide
theorem test_wf_align : Instr.wf (.registerWrite 3 0 4 8 0) = false ∧ Instr.wf (.registerWrite 3 0 4 4 0) = true := by decide
theorem test_wf_card : Instr.wf (.readDanceCard (2 ^ 32) 8) = false ∧ Instr.wf (.readDanceCard 0 (2 ^ 32)) = false := by decide
theorem test_wf_beat : Instr.wf (.tempoBeat false ⟨0, 0, 1001⟩) = false := by decide
theorem test_wf_idx : Instr.wf (.commandComplete 0 131072) = false ∧ Instr.wf (.arrTimeout 0 131072) = false ∧
    Instr.wf (.commandTimeout 0 131072) = false := by decide
theorem test_wf_body : let r : Req := { tReqA with body := List.replicate 14 0 }
    ∀ c ∈ [Instr.admitSeq r 0, .cancel r, .pause r, .resume r, .extend r, .placementChange r, .install r ⟨.failed, .failed⟩,
      .cancelInstall r, .stageEpoch r, .stageHostSlot r .failed, .fill r .failed .failed false, .swapEpoch r, .qlaunch r,
      .toDevice r, .toHost r, .loadFigure r, .runFigure r, .roleChange r], Instr.wf c = false := by decide
theorem test_wf_data : let p : Pkt := { tPktA with data := List.replicate 4097 0 }
    ∀ c ∈ [Instr.reel p, .reelRel p, .portState p, .sdata p, .scommit p, .udata p, .ucommit p, .fabricLoad p,
      .fabricStore p, .fabricAtomic p, .ack p, .ldata p, .aresp p], Instr.wf c = false := by decide +kernel
/-- One slack for each of the codes 0 to 22 (R443); four dies, 192 lanes. -/
theorem test_wf_sweep : Instr.wf (.replanSweepEnd (List.replicate 22 5) false) = false ∧
    Instr.wf (.monitorSample ⟨List.replicate 5 0, []⟩) = false ∧ Instr.wf (.monitorSample ⟨[], List.replicate 193 0⟩) = false := by
  decide +kernel
theorem test_wf_entry : Instr.wf (.requestTake 0 (.data (List.replicate 129 0))) = false := by decide +kernel
theorem test_wf_bell : Instr.wf (.sqTail 0 false 9 0) = false ∧ Instr.wf (.copyTail 0 0 false 9 0) = false ∧
    Instr.wf (.cqHead 0 0 false 9 0) = false := by decide
theorem test_wf_copy : Instr.wf (.copyComplete 0 65536) = false := by decide

/-! ### Time and registers -/

/-- Tempo on. -/
def tOn : State := tst [(R.TEMPO_CTL_EN, 1, 0, 0, 0)]

theorem test_wit_step : ({ tOn with pending := [.swap] } : State).pending = .swap :: [] ∧ tOn.pending = [] ∧
    tOn.fab.loop = [] ∧ tOn.log.length ≤ tOn.logged ∧ tOn.health.rebuild = false ∧ tOn.on R.TEMPO_CTL_EN = true ∧
    tOn.tempo.now % 1024 < 1023 ∧ tOn.wf = true := by decide

/-- A step keeps the queue's rest. -/
theorem test_step_next : ∃ t, step { tOn with pending := [.logCommit, .swap] } = .next t ∧ t.pending = [.swap] :=
  ⟨_, rfl, by decide +kernel⟩

theorem test_wit_write_nowhere : instances 0x03 ≤ 1 ∧ ¬((2 : Nat) = 8 ∧ 0 % 8 = 0 ∨ (2 : Nat) = 4 ∧ 0 % 4 = 0) ∧
    ({ State.reset with layout := { Layout.default with tiles := [(3, 0xFFFF)] } } : State).avail 0x11 3 = false := by decide

theorem test_wit_write_locked : let s := tst [(R.PART_STATUS_LOCKED, 1, 5, 0, 0)]
    s.wf = true ∧ s.locked 5 = true ∧ s.avail 0x41 5 = true := by decide

/-- GUARD is TEMPO_BAR_CFG bits 25 to 16: a write of 64 there takes effect, one of 63 does not (R67). -/
theorem test_guard : ∀ e ∈ [(64, 64), (63, 0x180)], ∃ t, exec (.registerWrite 3 0 0x40 8 (BitVec.ofNat 64 (e.1 * 65536))) tOn = .next t ∧
    t.rd R.TEMPO_BAR_CFG_GUARD = e.2 := by
  intro e he
  fin_cases he
  · exact ⟨_, rfl, by decide +kernel⟩
  · exact ⟨_, rfl, by decide +kernel⟩

theorem test_wit_card_regen :
    let s : State := { State.reset with card := { Card.init with gen := 2, waiting := [⟨2, 0x11, 7⟩] } }
    let t : State := { State.reset with card := { Card.init with gen := 3, batch := [⟨2, 0x11, 7⟩] } }
    s.card.gen % 2 = 0 ∧ s.card.gen ≠ 0 ∧ s.card.waiting ≠ [] ∧ t.card.gen % 2 = 1 ∧ t.card.batch = [⟨2, 0x11, 7⟩] ∧
    State.reset.card.gen = 0 ∧ State.reset.cardDue = false ∧ (tst [(R.SEC_STATUS_STAGE, 6, 0, 0, 0)]).cardDue = true := by decide

theorem test_wit_bad_symbol : tOn.on R.TEMPO_CTL_EN = true ∧ beatSymbol (Edge.high ⟨0, 0, 851⟩) = none := by decide

theorem test_wit_tempo_off : State.reset.wf = true ∧ State.reset.on R.TEMPO_CTL_EN = false := by decide

theorem test_wit_eighth : let s := { tOn with tempo := { tOn.tempo with inA := { TempoIn.init with started := true, good := 7 } } }
    s.wf = true ∧ s.on R.TEMPO_CTL_EN = true ∧ s.on R.TEMPO_STATUS_LOCKED = false ∧
    s.rd R.TEMPO_STATUS_SEL = 0 ∧ (s.tempo.inp false).started = true ∧ (s.tempo.inp false).good = 7 ∧
    (s.tempo.inp false).frame = none ∧ s.qual false = false ∧ beatSymbol 200 = some (some false) ∧
    (1000 : Int).natAbs ≤ 1000 := by decide

/-- Locked on input A, both qualified or A alone, both edges in. -/
def tLocked (b : Bool) : State :=
  let s := tst [(R.TEMPO_CTL_EN, 1, 0, 0, 0), (R.TEMPO_STATUS_LOCKED, 1, 0, 0, 0), (R.TEMPO_STATUS_SEL, 1, 0, 0, 0),
    (R.TEMPO_STATUS_A_QUAL, 1, 0, 0, 0), (R.TEMPO_STATUS_B_QUAL, if b then 1 else 0, 0, 0, 0),
    (R.TEMPO_STATUS_COUNT_VALID, 1, 0, 0, 0)]
  { s with tempo := { s.tempo with inA := { TempoIn.init with seen := true }, inB := { TempoIn.init with seen := true } } }

theorem test_wit_bad_beat : let s := tLocked true
    s.wf = true ∧ s.on R.TEMPO_CTL_EN = true ∧ s.qual false = true ∧ s.rd R.TEMPO_STATUS_SEL = selCode false ∧
    beatSymbol 380 = none := by decide

theorem test_wit_loss : ∀ b ∈ [true, false], let s : State := { tLocked b with tempo := { (tLocked b).tempo with lost := true } }
    s.wf = true ∧ s.on R.TEMPO_CTL_EN = true ∧ s.on R.TEMPO_STATUS_LOCKED = true ∧ s.rd R.TEMPO_STATUS_SEL = selCode false ∧
    s.tempo.lost = true ∧ s.qual (!false) = b ∧
    (let t : State := { s with tempo := { s.tempo with now := 1023 } }
     t.wf = true ∧ t.tempo.lost = true ∧ t.qual (!false) = b ∧ t.tempo.now % 1024 = 1023) := by decide

theorem test_wit_swap : ∀ b ∈ [true, false], let s : State := { tLocked true with tempo := { (tLocked true).tempo with lost := b } }
    s.wf = true ∧ s.on R.TEMPO_CTL_EN = true ∧ s.on R.TEMPO_STATUS_LOCKED = true ∧ s.rd R.TEMPO_STATUS_SEL = selCode false ∧
    s.qual false = true ∧ s.qual true = true ∧ s.tempo.lost = b ∧
    ({ s with tempo := { s.tempo with now := 1023 } } : State).tempo.lost = b := by decide

/-- The last tick of a beat. -/
def tAtEnd (s : State) : State := { s with tempo := { s.tempo with now := 1023 } }

/-- Holdover with input A back: PREF aside, the boundary selects it (R57). -/
theorem test_holdover_ends : ∃ t, exec .beatBoundary ((tAtEnd (tLocked false)).wr R.TEMPO_STATUS_SEL 3) = .next t ∧
    t.rd R.TEMPO_STATUS_SEL = 1 := ⟨_, rfl, by decide +kernel⟩

theorem test_wit_expiry : let s := tst [(R.TEMPO_STATUS_SEL, 3, 0, 0, 0), (R.TEMPO_STATUS_HOLD_BEATS, 256, 0, 0, 0)]
    s.wf = true ∧ s.rd R.TEMPO_STATUS_SEL = 3 ∧ s.rd R.TEMPO_STATUS_HOLD_BEATS = 256 ∧
    s.on R.TEMPO_STATUS_EXPIRED = false ∧ s.qual false = false ∧ s.qual true = false := by decide

/-- Bar 9 of 16 beats in progress since beat 10, no role table, the stamp at beat 60. -/
def tBarA : State :=
  let s := tst [(R.TEMPO_CTL_EN, 1, 0, 0, 0), (R.TEMPO_STATUS_LOCKED, 1, 0, 0, 0), (R.TEMPO_STATUS_SEL, 1, 0, 0, 0),
    (R.TEMPO_STATUS_COUNT_VALID, 1, 0, 0, 0), (R.TEMPO_BAR_NUM_BAR, 9, 0, 0, 0), (R.TEMPO_BAR_CFG_BAR_LEN, 16, 0, 0, 0)]
  { s with tempo := { s.tempo with now := 60 * 1024, barOn := true, base := 10 } }

/-- The same with packages 1 and 2 as members, the package itself being 0xFFF. -/
def tBarOf (ms : List Mark) : State :=
  { tBarA with roles := ⟨1, 0, 2, [(0, 2), (1, 3)]⟩, tempo := { tBarA.tempo with marks := ms } }

theorem test_wit_bar_start : ∀ ms ∈ [[⟨1, 5⟩, ⟨2, 6⟩], [⟨1, 5⟩]], let s := tBarOf ms
    s.wf = true ∧ s.on R.TEMPO_CTL_EN = true ∧ s.on R.TEMPO_STATUS_COUNT_VALID = true ∧ s.tempo.now % 1024 = 0 ∧
    s.tempo.barOn = true ∧ s.tempo.base < s.beat ∧ s.heldByTakeover = false ∧ s.barLen ≠ 0 ∧
    ((ms.length = 2) ↔ (s.tempo.base + s.barLen ≤ s.beat ∧
      ∀ q ∈ s.members, ∃ m ∈ s.tempo.marks, m.pkg = q ∧ m.stamp + s.tempo.guardEff ≤ s.tempo.now)) := by decide +kernel

/-- After the timeout a pending table that keeps package 1 alone frees the bar of package 2's marker. -/
theorem test_wit_bar_freed :
    let t := tBarOf [⟨1, 5⟩]
    let s : State := { t with
      tempo := { t.tempo with tmoDone := true }
      rolePend := some ⟨⟨2, 10, 1, [(0, 2)]⟩, none⟩ }
    s.wf = true ∧ s.tempo.tmoDone = true ∧ (∀ x, s.rolePend = some x → x.tab.eff ≤ s.bar + 1) ∧ s.members = [1, 2] ∧
    (∀ x, s.rolePend = some x → (∃ e ∈ x.tab.ranks, e.2 = 1 + 1) ∧ ¬∃ e ∈ x.tab.ranks, e.2 = 2 + 1) ∧
    s.tempo.base + s.barLen ≤ s.beat := by
  refine ⟨by decide +kernel, by decide +kernel, ?_, by decide +kernel, ?_, by decide +kernel⟩ <;>
    (intro x h; cases h; decide +kernel)

theorem test_wit_marker : let s := tBarOf []
    s.wf = true ∧ s.on R.TEMPO_CTL_EN = true ∧ s.tempo.barOn = true ∧ (1 : Nat) ≠ s.pkgId ∧
    mget 0 s.tempo.seenMarks (1 * 2 ^ 64 + 9) ≠ 1 ∧ s.bar = 9 ∧ s.members.contains 1 = true ∧ (10 : Nat) ≠ s.bar ∧
    mget 0 s.tempo.seenMarks (1 * 2 ^ 64 + 8) ≠ 1 ∧ 8 < s.bar ∧ ({ s with roles := ⟨1, 0, 1, [(0, s.pkgId + 1)]⟩ } : State).rank ≠ none ∧
    mget 0 ({ s with tempo := { s.tempo with seenMarks := [(2 ^ 64 + 9, 1)] } } : State).tempo.seenMarks (1 * 2 ^ 64 + 9) = 1 := by decide +kernel

theorem test_wit_barrier : ∀ b ∈ [true, false], let s : State := { tBarOf [⟨1, 5⟩] with
      tempo := { (tBarOf [⟨1, 5⟩]).tempo with tmoDone := b } }
    s.wf = true ∧ s.tempo.barOn = true ∧ s.missing ≠ [] ∧ s.tempo.base + s.barLen + s.tempo.tmoEff ≤ s.beat ∧
    s.tempo.tmoDone = b ∧ s.barLen ≠ 0 := by decide +kernel

/-- A bar of no length, and one whose next start a coordinator with orders decides. -/
theorem test_wit_held : ((tBarOf []).wr R.TEMPO_BAR_CFG_BAR_LEN 0).barLen = 0 ∧
    (let s := tBarOf []
     ({ s with health := { s.health with coord := some ⟨10, 2, [1], [⟨3, 0, none⟩], [], false⟩ } } : State).heldByTakeover = true) := by decide +kernel
/-! ### Set commands -/

/-- A locked partition 0 that owns Sets 0 and 1 and 2 GiB of HBM from address 0; Set 0 runs a stream of two commands at
0x1000, of which the first holds these words. -/
def tSet (w0 w1 w2 w3 : Nat) : State :=
  (tst [(R.PART_STATUS_LOCKED, 1, 0, 0, 0), (R.PART_SETS_SETS, 3, 0, 0, 0), (R.PART_CHAN_CHAN, 1, 0, 0, 0),
    (R.SCHED_STREAM_ADDR, 0x1000, 0, 0, 0), (R.SCHED_STREAM_LEN_LEN, 2, 0, 0, 0), (R.SCHED_STATUS_STATE, 2, 0, 0, 0),
    (R.SCHED_CTL_EN, 1, 0, 0, 0)]).devSet 0x1000 ([w0, w1, w2, w3].flatMap (toLE 8))

/-- An ECC report of nothing. -/
def tEcc : Ecc := ⟨0, 0⟩

/-- Whether the next command of Set 0 issues, being one that the event names and that meets a test. -/
def tIssues (s : State) (is : Cmd → Bool) (p : Go → Bool) : Bool :=
  match s.ready 0 is with
  | some g => !g.bad && !g.second && (g.idle || (!s.gate.closed && (decide ((s.charge 0 g.c g.n).2 = 0) ||
      s.gate.opens 0 (s.sharesOf 0 (s.charge 0 g.c g.n).1 (s.charge 0 g.c g.n).2)))) && p g
  | none => false

/-- What `tIssues` finds is what the statements assume. -/
theorem test_issues {s : State} {is : Cmd → Bool} {p : Go → Bool} (h : tIssues s is p = true) :
    ∃ g, s.issues 0 is g ∧ p g = true := by
  unfold tIssues at h
  split at h
  · rename_i g hg
    simp only [Bool.and_eq_true, Bool.or_eq_true, Bool.not_eq_true', decide_eq_true_eq] at h
    exact ⟨g, ⟨hg, h.1.1.1, h.1.1.2, h.1.2.imp_right (fun k => ⟨k.1, k.2⟩)⟩, h.2⟩
  · exact absurd h (by simp)

theorem test_wit_waits :
    State.reset.setState 0 ≠ 2 ∧
    ((tSet 0 0 0 0).setSt 0 { SetSt.init with repair := [⟨0, 0, 0, 64, 0⟩] }).st 0 ≠ SetSt.init ∧
    (let s := (tSet (0x3F + 0x40 + 100 * 65536) 0 0 0).wr R.SCHED_IMG_TIMED 1
     s.timed 0 = true ∧ s.tempo.now < (s.st 0).start + (s.cmdAt (s.rd R.SCHED_STREAM_ADDR)).pos) ∧
    (let s := tSet (0x3F + 0x40 + 2 ^ 48 + 5 * 2 ^ 42) 0 0 0
     (s.cmdAt 0x1000).wsb = some 5 ∧ (s.rd R.SCHED_SB_SB 0).testBit 5 = false) ∧
    (let s := tSet (0x101 + 2 ^ 59 + 3 * 2 ^ 56) 0 0 64
     (s.cmdAt 0x1000).sh = some 3 ∧ (s.st 0).loaded.testBit 3 = false) := by decide +kernel

/-- A pass of one row: the headers of its weight tile and of its activation object carry the poison mark (R173). -/
def tPass : State :=
  let s := tSet 0x102 (0x8000 * 2 ^ 32) (1 * 2 ^ 32) 1
  (s.sramPut (tileKey 0 false 0) (List.replicate 32 (0, true))).sramPut (tileKey 0 false 0x8000) (List.replicate 32 (0, true))

theorem test_wit_gate : let s : State := { tPass with gate := { Gate.init with closed := true } }
    (match s.ready 0 (isOp 2) with
      | some g => !g.bad && !g.idle && decide ((s.charge 0 g.c g.n).2 ≠ 0)
      | none => false) = true ∧ s.gate.closed = true ∧
    (let t := tSet 0x7F 0 0 0
     match t.ready 0 (isOp 0x3F) with
     | some g => !g.bad && !g.idle
     | none => false) = true := by decide +kernel

/-- An open gate whose budget of 0 the pass does not fit. -/
theorem test_wit_gate_full : (match tPass.ready 0 (isOp 2) with
    | some g => let c := tPass.charge 0 g.c g.n
      let sh := tPass.sharesOf 0 c.1 c.2
      let u : Gate := { tPass.gate with budget := List.replicate 4 [0, 0, 0, 0] }
      decide (c.2 ≠ 0) && !u.closed && !u.opens 0 sh
    | none => false) = true := by decide +kernel

/-- Every command with the reserved bit 7 of word 0 set is malformed (R13, R73). -/
theorem test_wit_malformed : ∀ op ∈ [1, 2, 4, 5, 6, 7, 8, 9, 10, 0x3F], let s := tSet (op + 0x180) 0 0 0
    s.wf = true ∧ (match s.ready 0 (isOp op) with | some g => g.bad && !g.second | none => false) = true := by decide +kernel

/-- Counts from shape register 0, loaded with 0. -/
def tZero (op w1 w2 w3 : Nat) : State :=
  (tSet (op + 0x100 + 2 ^ 59) w1 w2 w3).setSt 0 { SetSt.init with loaded := 1 }

theorem test_wit_zero :
    (∀ e ∈ [(1, 0, 0, 64), (2, 0x8000 * 2 ^ 32, 0, 1), (5, 0, 0, 64), (6, 1, 0, 128)],
      tIssues (tZero e.1 e.2.1 e.2.2.1 e.2.2.2) (isOp e.1) (fun g => g.n = 0) = true) ∧
    (∀ e ∈ [(0x00, 0x00), (0x01, 0x01), (0x20, 0x29), (0x30, 0x32), (0x3A, 0x3A)],
      tIssues (tZero 3 e.1 (0x1000 + 0x2000 * 2 ^ 32) 0) (isVop e.1 e.2) (fun g => g.n = 0) = true) := by decide +kernel

theorem test_wit_fetch : let s := tSet 0x101 0x8000 0x40 (64 + 2 * 2 ^ 32)
    tIssues s (isOp 1) (fun g => g.n ≠ 0 && bits g.c.w3 39 32 = 2 &&
      (List.range ((g.c.tiles 0).length * g.n)).all (fun i => let a := bits g.c.w1 47 0 + i * bits g.c.w3 31 0
        !inView a && s.mayRead (s.partOf 0) a (bits g.c.w3 31 0))) = true ∧ (s.ownerOf 0).isSome = true := by decide +kernel

/-- FETCH reads the bytes at its address: 0x5A at 0x8000 stands in the write of working state. -/
theorem test_fetch : ∃ t, exec (.fetch 0) ((tSet 0x101 0x8000 0x40 (64 + 2 * 2 ^ 32)).devSet 0x8000 [0x5A]) = .next t ∧
    ((t.st 0).flights.map (fun f => f.work.map (fun w => match w with
      | .sram k d => (k, d.length, (d.headD (0, true)).1)
      | _ => (0, 0, 0)))) = [[(0x40, 64, 0x5A)]] := ⟨_, rfl, by decide +kernel⟩

theorem test_wit_store : let s := tSet 0x105 0x8000 0x40 64
    tIssues s (isOp 5) (fun g => g.n ≠ 0 && (List.range ((g.c.tiles 0).length * g.n)).all (fun i =>
      let a := bits g.c.w1 47 0 + i * bits g.c.w3 31 0
      !inView a && s.inPart (s.partOf 0) a (bits g.c.w3 31 0))) = true ∧ (s.ownerOf 0).isSome = true ∧
    tEcc.uncorr = 0 := by decide +kernel

theorem test_wit_handoff : let s := tSet 0x106 9 (2048 * 2 ^ 32) (128 + 65536)
    tIssues s (isOp 6) (fun g => g.n ≠ 0 && (s.rd R.PART_SETS_SETS).testBit (bits g.c.w1 8 0 / 8)) = true ∧
    s.ownerOf 0 = some 0 := by decide +kernel

theorem test_wit_fcopy :
    (let s := tSet 0x107 (7 + 64 * 2 ^ 33) 0 (0x100 + 2 ^ 63)
     s.wf = true ∧ tIssues s (isOp 7) (fun g => s.fcopyDst g.c = some 7 && g.n ≠ 0 && g.c.w3.testBit 63) = true) ∧
    (let s := tSet 0x107 (7 + 2 ^ 12 + 64 * 2 ^ 33) 0 (0x100 + 2 ^ 63)
     s.wf = true ∧ tIssues s (isOp 7) (fun g => s.fcopyDst g.c = none) = true) := by decide +kernel

/-- An object of one QB4 block of zeros, DECL_LEN 64 and its CRC (R160, R170). -/
def tObj : List Byte :=
  let b := hdrBytes ⟨0, 1, 2, false, false, 0, false, 1, 0, 64, 64, 0⟩ ++ List.replicate 32 0
  toLE 4 (objCrc b) ++ b.drop 4

theorem test_wit_check : ∀ e ∈ [(tObj, true), (List.replicate 64 1, false)],
    let s := (tSet 0x104 0x40 64 0).sramPut (tileKey 0 false 0x40) (clean e.1)
    s.wf = true ∧ tIssues s (isOp 4) (fun g =>
      (g.c.tiles 0).all (fun tile => (viewObj (s.sram tile false (bits g.c.w1 31 0) (bits g.c.w2 31 0))
        ⟨none, none, none, false, some (bits g.c.w2 31 0), true, bits g.c.w3 31 0⟩).faults = []) = e.2) = true := by decide +kernel

theorem test_wit_wait : tIssues (tSet 0x8 (5 + 3 * 2 ^ 32) 7 0) (isOp 8) (fun _ => true) = true := by decide +kernel

theorem test_wit_sread : let s := tSet 0x9 0x8000 7 0
    tIssues s (isOp 9) (fun g => !inView (bits g.c.w1 47 0) && s.mayRead (s.partOf 0) (bits g.c.w1 47 0) 64) = true ∧
    (s.ownerOf 0).isSome = true := by decide +kernel

theorem test_wit_swrite : ∀ e ∈ [(2, true), (3, false)], let s := (tSet 0xA 0x8000 e.1 0).devSet 0x8000 (toLE 8 (2 * 2 ^ 32))
    tIssues s (isOp 10) (fun g => !g.c.w2.testBit 63 && !inView (bits g.c.w1 47 0) &&
      s.inPart (s.partOf 0) (bits g.c.w1 47 0) 64 &&
      decide (bits g.c.w2 31 0 ≤ s.devNat (bits g.c.w1 47 0 + 4) 4) = e.2) = true ∧ (s.ownerOf 0).isSome = true := by decide +kernel

theorem test_wit_end : tIssues (tSet 0x7F 0 0 0) (isOp 0x3F) (fun _ => true) = true := by decide +kernel

theorem test_wit_mpass : tIssues tPass (isOp 2) (fun g => g.n ≠ 0 && g.c.accMode = 0 &&
    (g.c.tiles 0).all (fun tile => (tPass.passEff tile g.c g.n false false).causes = [])) = true := by decide +kernel

/-- A VOP on tile 0: SRC0 at 0, SRC1 at 0x1000, DST at 0x2000. -/
def tVop (vfn n : Nat) : State := tSet 0x103 vfn (0x1000 + 0x2000 * 2 ^ 32) n

theorem test_wit_vop : ∀ v ∈ [0x00, 0x01, 0x02, 0x03, 0x04, 0x05, 0x06, 0x08, 0x09, 0x0A, 0x0B, 0x0C, 0x10, 0x11, 0x18, 0x19],
    tIssues (tVop v 1) (isVop v v) (fun g => g.n ≠ 0) = true := by decide +kernel

theorem test_wit_rot : ∀ e ∈ [(0x30, 128), (0x31, 256), (0x32, 512)], tIssues (tVop e.1 e.2) (isVop 0x30 0x32) (fun g => g.n ≠ 0) = true ∧
    tIssues (tVop (e.1 + 4) e.2) (isVop 0x34 0x36) (fun g => g.n ≠ 0) = true := by decide +kernel

/-- Rows 0 and 1 of tile 0's accumulator store hold VALID long-sums of anchor 0. -/
def tRows (vfn src0 src1 dst : Nat) : State :=
  ((tSet 0x103 (vfn + src0 * 2 ^ 8) (src1 + dst * 2 ^ 32) 1).setTag (tagKey 0 0) (2 ^ 11)).setTag (tagKey 0 1) (2 ^ 11)

theorem test_wit_ls : ∀ e ∈ [(0x3A, 0x80000000, 0x80000800, 0x80001000), (0x3B, 0x80000000, 0x80000800, 0x2000),
      (0x38, 0x80000000, 0, 0x2000), (0x39, 0x80000000, 0, 0x2000), (0x3C, 0, 0, 0x80001000)],
    let s := tRows e.1 e.2.1 e.2.2.1 e.2.2.2
    tIssues s (isVop e.1 e.1) (fun g => g.n ≠ 0 && (e.1 = 0x39 || e.1 = 0x3C || tagValid (s.lsRow 0 g.c.src0 0 false).tag) &&
      (e.1 < 0x3A || e.1 = 0x3C || (tagValid (s.lsRow 0 g.c.src1 0 false).tag &&
        decide (tagAnchor (s.lsRow 0 g.c.src0 0 false).tag = tagAnchor (s.lsRow 0 g.c.src1 0 false).tag))) &&
      (e.1 ≠ 0x3C || g.c.dst.acc)) = true := by decide +kernel

theorem test_wit_quant :
    tIssues (tVop 0x20 32) (isVop 0x20 0x29) (fun g => g.n ≠ 0 &&
      (g.c.tiles 0).all (fun tile => ((tVop 0x20 32).quantEff 0 tile g.c g.n false).causes = [])) = true ∧
    (let s := (tVop 0x2A 32).sramPut (tileKey 0 false 0) (List.replicate 32 (0, true))
     tIssues s (isVop 0x2A 0x2A) (fun g => g.n ≠ 0 &&
      (g.c.tiles 0).all (fun tile => (s.dequantEff tile g.c g.n false).causes = [])) = true) ∧
    tIssues (tVop 0x2B 32) (isVop 0x2B 0x2B) (fun g => g.n ≠ 0) = true ∧
    tIssues (tVop 0x2F 32) (isVop 0x2F 0x2F) (fun g => g.n ≠ 0) = true := by decide +kernel

/-- 1.0 + 2.0 = 3.0, 3.0 × 0.5 = 1.5, and the greater of −1 and 1 (R123). -/
theorem test_floats : fAdd 0x3F800000 0x40000000 = 0x40400000 ∧ fMul 0x40400000 0x3F000000 = 0x3FC00000 ∧
    fMax 0xBF800000 0x3F800000 = 0x3F800000 ∧ toBf16 0x3F808000 = 0x3F80 ∧ toBf16 0x3F818000 = 0x3F82 := by decide +kernel

/-- A command of Set 0 in flight. -/
def tFlight (kind : FlightKind) (work : List Wk) (held : List Held) (done : Bool) : Flight :=
  ⟨0, 0, true, none, none, none, .none, [], [], [], [], kind, work, held, 0, false, done⟩

/-- Set 0 with it. -/
def tFly (kind : FlightKind) (work : List Wk) (held : List Held) (done : Bool) : State :=
  (tSet 0 0 0 0).setSt 0 { SetSt.init with flights := [tFlight kind work held done] }

theorem test_wit_complete :
    (let s := tFly .plain [.sram 8 [(1, false)]] [] false
     s.wf = true ∧ s.flightAt 0 0 = some (tFlight .plain [.sram 8 [(1, false)]] [] false)) ∧
    (let s := tFly .plain [.shape 2 3 4] [] false
     s.wf = true ∧ s.flightAt 0 0 = some (tFlight .plain [.shape 2 3 4] [] false)) ∧
    (let s := tFly (.wait 3 1 (some 5)) [] [] false
     s.wf = true ∧ s.flightAt 0 0 = some (tFlight (.wait 3 1 (some 5)) [] [] false) ∧ s.rd R.SCHED_ARR_COUNT 0 3 < 1 ∧
     s.tempo.now < 5 ∧ 5 ≤ ({ s with tempo := { s.tempo with now := 5 } } : State).tempo.now) ∧
    (let k : FcopySt := ⟨7, 0, 0, 0, 0, 0, [4], false, []⟩
     let s := tFly (.fcopy k) [] [] false
     s.wf = true ∧ s.flightAt 0 0 = some (tFlight (.fcopy k) [] [] false) ∧ k.left ≠ []) := by decide +kernel

theorem test_wit_commit :
    State.reset.readyGroup 0 = none ∧
    (let s := (tFly .plain [] [.mem 0x8000 [(1, false)]] true).wr R.SCHED_STATUS_POISON 1
     s.wf = true ∧ s.readyGroup 0 = some [tFlight .plain [] [.mem 0x8000 [(1, false)]] true] ∧
     (s.st 0).failed.contains 0 = false ∧ (∀ w < 16, s.on R.CHECK_WIN_BASE_EN 0 w = false) ∧
     s.on R.SCHED_STATUS_POISON 0 = true) ∧
    (let s := (tSet 0 0 0 0).setSt 0 { SetSt.init with flights := [tFlight .plain [] [] true], failed := [0] }
     s.readyGroup 0 = some [tFlight .plain [] [] true] ∧ (s.st 0).failed.contains 0 = true) ∧
    (let s := (tFly .endOfBar [] [] true).wr R.SCHED_IMG_TIMED 1
     s.readyGroup 0 = some [tFlight .endOfBar [] [] true] ∧ s.timed 0 = true ∧ (s.st 0).failed.contains 0 = false) := by decide +kernel

theorem test_wit_control :
    (let s := (tSet 0 0 0 0).wr R.SCHED_STATUS_STATE 0
     s.wf = true ∧ (s.ownerOf 0).isSome = true ∧ s.setState 0 = 0 ∧ s.rd R.SCHED_STREAM_LEN_LEN 0 ≠ 0) ∧
    State.reset.ownerOf 0 = none ∧ (∀ v ∈ [1, 2, 3, 4, 5], ((tSet 0 0 0 0).wr R.SCHED_STATUS_STATE v).setState 0 = v) := by
  decide +kernel

/-! ### The Caller -/

/-- A request of group 0 on CQ 0. -/
def tReq (handle : Nat) (body : List Nat) : Req := ⟨0, 0, 5, 9, BitVec.ofNat 64 handle, body.map (BitVec.ofNat 64)⟩

/-- The Caller runs, group 0 and its CQ 0 are open, and the request is open as a TYPE; `l` more fields. -/
def tCall (typ : Nat) (r : Req) (l : List (Fld × Nat × Nat × Nat × Nat)) : State :=
  let s := tst ([(R.CALLER_CTL_EN, 1, 0, 0, 0), (R.PCIE_GRP_CTL_EN, 1, 0, 0, 0), (R.PCIE_CQ_CFG_EN, 1, 0, 0, 0)] ++ l)
  { s with host := { s.host with bme := 1, reqs := [⟨r, typ, 0⟩] } }

/-- With a sequence at index 3 in the cache. -/
def tSeq (typ : Nat) (r : Req) (l : List (Fld × Nat × Nat × Nat × Nat)) (e : Entry) : State :=
  let s := (tCall typ r l).putSeq 3 e
  { s with caller := { s.caller with cached := [3], fresh := 4, mirror := [] } }

/-- The fields that open partition 0 to sequences, its KV descriptor at 0x10000. -/
def tKv : List (Fld × Nat × Nat × Nat × Nat) :=
  [(R.CALLER_ADMIT_CTL_OPEN, 1, 0, 0, 0), (R.CALLER_ADMIT_CTL_SEQ_CAP, 4, 0, 0, 0), (R.CALLER_ADMIT_CTL_TOK_CAP, 64, 0, 0, 0),
   (R.CALLER_ADMIT_CTL_PF_CHUNK, 1, 0, 0, 0), (R.CALLER_PART_DRES_ENTRY_CAP, 4, 0, 0, 0), (R.CALLER_PART_KV_KV_CAP, 640, 0, 0, 0),
   (R.PART_CHAN_CHAN, 1, 0, 0, 0), (R.PART_KVDESC_BASE, 0x10000, 0, 0, 0), (R.PART_HBM_BASE, 0, 0, 0, 0)]

/-- ADMIT of a prompt of one token and at most `g` more. -/
def tAdmit (g : Nat) : Req := tReq 0 [1 + g * 2 ^ 24, 0, 0, 0x4000, 32, 0x6000]

/-- Its state: one free frame, at frame 0. -/
def tAdm (g : Nat) : State :=
  (((tCall 1 (tAdmit g) tKv).devSetNat 0x10000 8 (2 ^ 32)).devSetNat 0x10010 8 (64 * 2 ^ 32)).devSet 0x10028
    (toLE 8 0x20000 ++ toLE 8 1 ++ toLE 8 0x30000 ++ toLE 8 1)

theorem test_wit_admit_refused : let s := tAdm 0
    s.wf = true ∧ s.seqTurn 1 (tAdmit 0) = true ∧ s.callerOn = true ∧ s.preempted 0 = false ∧ s.admitMemory (tAdmit 0) = true ∧
    s.decideAsk (s.admitAsk (tAdmit 0) 0 (s.takenAt (tAdmit 0))) = .error stBadArg := by decide +kernel

theorem test_wit_ring : (tAdm 0).ringOpen 0 0 := by unfold State.ringOpen; decide +kernel


/-- A handle of index 3, generation 2, of the package at reset. -/
def tHandle : Nat := 3 + 2 * 2 ^ 18 + State.reset.pkgId * 2 ^ 34

/-- An entry of partition 0 in a state, as the Caller of package 0 keeps it. -/
def tEntry (state : Nat) : Entry := { Entry.init with state := state, gen := 2, promptLen := 4, pfDone := 4, maxNew := 8, endBar := 20, kvRoot := 0x6000 }

theorem test_wit_lookup : ∀ e ∈ [(tEntry 3, tHandle, (3, 0)), (tEntry 3, tHandle + 2 ^ 34, (0, stNotFound)),
      (tEntry 0, tHandle, (0, stNotFound)), (tEntry 3, tHandle + 2 ^ 18, (0, stStale))], ∀ typ ∈ [2, 3, 4, 5],
    let r := tReq e.2.1 [7]
    let s := tSeq typ r tKv e.1
    s.wf = true ∧ s.callerOn = true ∧ s.on R.CALLER_JOURNAL_EN = false ∧ s.seqTurn typ r = true ∧
    (match s.lookup 0 r.handle.toNat with
      | .ok i => (i, 0)
      | .error st => (0, st)) = e.2.2 ∧ s.caller.cached.contains 3 = true ∧ s.moving 3 = false ∧ s.caller.waits = [] := by decide +kernel

theorem test_wit_seq_ring : ∀ typ ∈ [2, 3, 4, 5], (tSeq typ (tReq tHandle [7]) tKv (tEntry 3)).ringOpen 0 0 := by
  unfold State.ringOpen; decide +kernel

theorem test_wit_handle : let s := tSeq 2 (tReq tHandle []) tKv (tEntry 3)
    (s.seq 3).gen < 2 ^ 16 ∧ s.pkgId < 2 ^ 12 ∧ s.handle 3 = tHandle := by decide +kernel

theorem test_wit_pause : let r := tReq tHandle [7]
    let s := tSeq 3 r (tKv ++ [(R.PART_SHELF_BASE, 0x50000, 0, 0, 0), (R.PART_SHELF_LEN_LEN, 0x10000, 0, 0, 0)]) (tEntry 3)
    s.seqTurn 3 r = true ∧ (s.seq 3).state = 3 ∧ r.f 3 31 0 ≠ 0 ∧
    (s.shelfRoom (s.seq 3).part ((s.kvDesc (s.seq 3).part).setLen (s.ptNf (s.seq 3).kvRoot))).isSome = true := by decide +kernel

/-- A paused sequence on the shelf; bars of 16 beats. -/
def tPaused (typ : Nat) (r : Req) : State :=
  let s := tSeq typ r (tKv ++ [(R.TEMPO_BAR_CFG_BAR_LEN, 16, 0, 0, 0)]) (tEntry 5)
  { s with caller := { s.caller with shelf := [⟨3, 0x50000, 64⟩] } }

/-- The same, kept until beat 16. -/
def tPausedLong (typ : Nat) (r : Req) : State := (tPaused typ r).putSeq 3 { tEntry 5 with expiry := 16 * 1024 }

theorem test_wit_resume : let r := tReq tHandle []
    let s := tPausedLong 4 r
    let e := s.seq 3
    s.seqTurn 4 r = true ∧ s.expiredBy 3 (s.takenAt r) = false ∧ e.state = 5 ∧ s.preempted e.part = false ∧
    s.caller.shelf.find? (fun x => x.index = 3) = some ⟨3, 0x50000, 64⟩ ∧
    (match s.decideAsk ⟨e.part, e.cls, e.promptLen - e.pfDone, e.maxNew - e.generated, r.f 3 31 0, s.takenAt r,
      s.barAfter (s.takenAt r + s.moveTicks 64), some e.kvRes, false⟩ with
    | .ok _ => true
    | .error _ => false) = true := by decide +kernel

theorem test_wit_extend : let r := tReq tHandle [7]
    let s := tSeq 5 r tKv (tEntry 3)
    s.seqTurn 5 r = true ∧ (s.seq 3).state = 3 ∧ r.f 3 13 0 = 7 ∧ (s.seq 3).maxNew + r.f 3 13 0 ≤ 8192 ∧
    (s.seq 3).endBar + r.f 3 13 0 ≤ s.bar + 16384 ∧ s.extendFits (s.seq 3) (r.f 3 13 0) = true ∧
    s.kvUsed (s.seq 3).part + (s.kvFor (s.seq 3).part ((s.seq 3).promptLen + (s.seq 3).maxNew + r.f 3 13 0) -
      (s.seq 3).kvRes) ≤ s.rd R.CALLER_PART_KV_KV_CAP 0 (s.seq 3).part := by decide +kernel

/-- A sequence on the move. -/
def tMove (state : Nat) (out : Bool) : State :=
  let s := tSeq 0 (tReq 0 []) tKv (tEntry state)
  { s with caller := { s.caller with moves := [⟨3, out, 0x50000, []⟩] } }

theorem test_wit_moves :
    (let s := tMove 4 true
     s.wf = true ∧ s.on R.CALLER_JOURNAL_EN = false ∧ s.caller.waits = [] ∧
     s.caller.moves.find? (fun m => m.index = 3 && m.toShelf) = some ⟨3, true, 0x50000, []⟩) ∧
    (let s := tMove 6 false
     s.wf = true ∧ s.on R.CALLER_JOURNAL_EN = false ∧ s.caller.waits = [] ∧
     s.caller.moves.find? (fun m => m.index = 3 && !m.toShelf) = some ⟨3, false, 0x50000, []⟩) ∧
    (let s := tPaused 0 (tReq 0 [])
     s.wf = true ∧ (s.seq 3).state = 5 ∧ (s.seq 3).expiry / 1024 ≤ s.beat ∧ (s.seq 3).cancelled = false) ∧
    (let s := tSeq 0 (tReq 0 []) tKv { tEntry 5 with expiry := 2 ^ 20 }
     s.beat < (s.seq 3).expiry / 1024) := by decide +kernel

/-- A running bar of 16 beats, `l` more fields, at a tick. -/
def tBar (tick : Nat) (l : List (Fld × Nat × Nat × Nat × Nat)) : State :=
  let s := tst ([(R.CALLER_CTL_EN, 1, 0, 0, 0), (R.TEMPO_BAR_CFG_BAR_LEN, 16, 0, 0, 0), (R.CALLER_WL_CFG_CUT, 4, 0, 0, 0)] ++ l)
  { s with tempo := { s.tempo with barOn := true, now := tick } }

theorem test_wit_plan :
    (let s := tBar (12 * 1024 - 1) tKv
     s.wf = true ∧ s.planDue = false) ∧
    (let s := tBar (12 * 1024) ([(R.CALLER_ADMIT_CTL_OPEN, 1, 0, 0, 0), (R.CALLER_ADMIT_CTL_SEQ_CAP, 1, 0, 0, 0),
       (R.PART_KVDESC_BASE, 0x10000, 0, 0, 0)])
     s.wf = true ∧ s.planDue = true ∧ s.planned = [0] ∧ s.swap = none ∧ s.on R.CALLER_JOURNAL_EN = false) := by decide +kernel

theorem test_wit_caller_upkeep :
    (let s : State := { tBar 8192 [] with caller := { Caller.init with mirror := [⟨0, 3, 0, [], some 0, none⟩] } }
     s.wf = true ∧ s.rd R.CALLER_JOURNAL_TMO * 1024 ≤ s.tempo.now) ∧
    (let s := tCall 1 (tReq 0 []) []
     let t : State := { s with tempo := { s.tempo with now := 2 ^ 20 } }
     t.wf = true ∧ t.host.reqs = [⟨tReq 0 [], 1, 0⟩] ∧ t.pastBound ⟨tReq 0 [], 1, 0⟩ = true) ∧
    ((tst [(R.PART_STATUS_LOCKED, 1, 0, 0, 0)]).mayOpen 0 = false) := by decide +kernel

/-- The state of the accepted ADMIT once its bars and its index are taken. -/
def tTaken : State :=
  let s := tAdm 1
  match s.decideAsk (s.admitAsk (tAdmit 1) 0 (s.takenAt (tAdmit 1))) with
  | .ok d => ((s.reserve (s.admitAsk (tAdmit 1) 0 (s.takenAt (tAdmit 1))) 0 d).bump R.CALLER_PART_ADMIT_N_ACCEPTED 1 0 0).takeIndex 0
  | .error _ => s

/-- Its KV descriptor. -/
def tDesc : KvDesc := tTaken.kvDesc 0

theorem test_admit_table : let t := tTaken.newTable 0 0x6000 1
    t.memWf = true ∧ t.kvDesc 0 = tDesc ∧ t.ptNf 0x6000 = 1 ∧ t.ptMapped 0x6000 = 0 ∧
    t.devByte (tDesc.bitmapAt 0x6000) = 0xFF := by
  have hp : (tTaken.popFrames 0 1).2 = [0] := by decide +kernel
  have hk : (tTaken.popFrames 0 1).1.kvDesc 0 = tDesc := by decide +kernel
  exact State.newTable_one (by decide +kernel) (by decide +kernel) hp hk (by decide +kernel) (by decide +kernel) (by decide +kernel)
    (by decide +kernel) (by decide +kernel) (by decide +kernel) (by decide +kernel)

theorem test_admit_map (e : Entry) (c n : Nat) (s : State) (hs : s.memWf = true) (hv : s.windowsOff = true) (hk : s.kvDesc 0 = tDesc)
    (hf : s.ptNf 0x6000 = 1) (hm : s.ptMapped 0x6000 = 0) (hb : s.devByte (tDesc.bitmapAt 0x6000) = 0xFF)
    (hj : s.on R.CALLER_JOURNAL_EN = false) (ha : s.seqAt 0 = 0) :
    (((s.putSeq 0 e).useEntry 0).mapTo 0 0x6000 c n 2).2 = true := by
  have hl : e.image.length = 256 := by
    have h31 : e.words.length = 31 := rfl
    have h248 : (e.words.flatMap (toLE 8)).length = 248 := by
      rw [List.length_flatMap]
      simp only [length_toLE, List.map_const', List.sum_replicate, h31]
      rfl
    unfold Entry.image
    simp only [List.length_append, h248, length_toLE]
  obtain ⟨t, et⟩ : ∃ x, x = (s.putSeq 0 e).useEntry 0 := ⟨_, rfl⟩
  rw [← et]
  have mem : t.mem = (s.devSet 0 e.image).mem ∧ t.memMark = (s.devSet 0 e.image).memMark ∧ t.tileMem = s.tileMem ∧
      t.tileMark = s.tileMark ∧ t.tags = s.tags ∧ t.regs = s.regs ∧ t.parked = s.parked ∧ t.parkedMark = s.parkedMark := by
    have h := State.putSeq_useEntry hv 0 e hj
    rw [ha, ← et] at h
    exact h
  have hw : t.memWf = true := State.memWf_of_devSet hs hv mem.1 mem.2.1 mem.2.2.1 mem.2.2.2.1 mem.2.2.2.2.1
    mem.2.2.2.2.2.2.1 mem.2.2.2.2.2.2.2
  have out : ∀ b, 256 ≤ b → t.devByte b = s.devByte b := by
    intro b hb
    have : t.devByte b = (s.devSet 0 e.image).devByte b := by unfold State.devByte; rw [mem.1]
    rw [this, State.devByte_devSet hs hv, hl, if_neg (by omega)]
  have hd : tDesc.base = 0x10000 ∧ tDesc.fmax = 1 ∧ tDesc.mapn = 64 := by decide +kernel
  have base : s.rd R.PART_KVDESC_BASE 0 = 0x10000 := by
    have : tDesc.base = s.rd R.PART_KVDESC_BASE 0 := by rw [← hk]; rfl
    omega
  have k : t.kvDesc 0 = tDesc := by
    rw [← hk]
    exact State.kvDesc_congr mem.2.2.2.2.2.1 (fun b h1 _ => out b (by omega))
  have w : ∀ a, 256 ≤ a → t.devNat a 8 = s.devNat a 8 := fun a h => State.devNat_congr (fun b h1 _ => out b (by omega))
  refine State.mapTo_two hw ((State.windowsOff_of_regs mem.2.2.2.2.2.1).trans hv) ?_ ?_ ?_ ?_ ?_
  · unfold State.ptNf State.devWord at hf ⊢
    rw [w _ (by decide), hf]
  · unfold State.ptMapped State.devWord at hm ⊢
    rw [w _ (by decide), hm]
  · rw [k, out _ (by decide +kernel), hb]
  · rw [k]; omega
  · rw [k]; omega

theorem test_wit_admit_accepted : let s := tAdm 1
    let r := tAdmit 1
    let a := s.admitAsk r 0 (s.takenAt r)
    s.wf = true ∧ s.seqTurn 1 r = true ∧ s.callerOn = true ∧ s.preempted 0 = false ∧ s.admitMemory r = true ∧
    s.on R.CALLER_JOURNAL_EN = false ∧ ∃ d, s.decideAsk a = .ok d ∧ s.nextIndex = some 0 ∧
      (let e := s.admitEntry r 0 d
       let u := (((s.reserve a 0 d).bump R.CALLER_PART_ADMIT_N_ACCEPTED 1 0 0).takeIndex 0).newTable e.part e.kvRoot (e.kvRes / 64)
       let v := (u.putSeq 0 e').useEntry 0
       (v.mapTo e.part e.kvRoot (e.pos - 1) v.bar (min (e.pos + 2 * v.chunkOf e.part) (e.promptLen + 9))).2 = true) := by
  refine ⟨by decide +kernel, by decide +kernel, by decide +kernel, by decide +kernel, by decide +kernel, by decide +kernel,
    ⟨1, 1, 2, 32, 64⟩, ?_⟩
  obtain ⟨hm, hk, hf, h0, hb⟩ := test_admit_table
  refine ⟨by decide +kernel, by decide +kernel, ?_⟩
  have e1 : ((tAdm 1).admitEntry (tAdmit 1) 0 ⟨1, 1, 2, 32, 64⟩).part = 0 ∧
    ((tAdm 1).admitEntry (tAdmit 1) 0 ⟨1, 1, 2, 32, 64⟩).kvRoot = 0x6000 ∧
    ((tAdm 1).admitEntry (tAdmit 1) 0 ⟨1, 1, 2, 32, 64⟩).kvRes / 64 = 1 ∧
    ((tAdm 1).admitEntry (tAdmit 1) 0 ⟨1, 1, 2, 32, 64⟩).pos = 0 ∧
    ((tAdm 1).admitEntry (tAdmit 1) 0 ⟨1, 1, 2, 32, 64⟩).promptLen = 1 := by decide +kernel
  have et : (((tAdm 1).reserve ((tAdm 1).admitAsk (tAdmit 1) 0 ((tAdm 1).takenAt (tAdmit 1))) 0 ⟨1, 1, 2, 32, 64⟩).bump
    R.CALLER_PART_ADMIT_N_ACCEPTED 1 0 0).takeIndex 0 = tTaken := by decide +kernel
  have hr : (tTaken.newTable 0 0x6000 1).regs = tTaken.regs := State.newTable_regs (by decide +kernel) _ _ _
  have hj : (tTaken.newTable 0 0x6000 1).on R.CALLER_JOURNAL_EN = false := by
    have h : tTaken.on R.CALLER_JOURNAL_EN = false := by decide +kernel
    rw [State.on_of_regs hr]; exact h
  have hv : (tTaken.newTable 0 0x6000 1).windowsOff = true := by
    have h : tTaken.windowsOff = true := by decide +kernel
    exact (State.windowsOff_of_regs hr).trans h
  have ha : (tTaken.newTable 0 0x6000 1).seqAt 0 = 0 := by
    have h : tTaken.seqAt 0 = 0 := by decide +kernel
    unfold State.seqAt at h ⊢
    rw [State.rd_of_regs hr]; exact h
  have go : ∀ e e' : Entry, e.part = 0 → e.kvRoot = 0x6000 → e.kvRes / 64 = 1 → e.pos = 0 → e.promptLen = 1 →
      ((((tTaken.newTable e.part e.kvRoot (e.kvRes / 64)).putSeq 0 e').useEntry 0).mapTo e.part e.kvRoot
        (e.pos - 1) (((tTaken.newTable e.part e.kvRoot (e.kvRes / 64)).putSeq 0 e').useEntry 0).bar
        (min (e.pos + 2 * (((tTaken.newTable e.part e.kvRoot (e.kvRes / 64)).putSeq 0 e').useEntry 0).chunkOf e.part) (e.promptLen + 9))).2 = true := by
    intro e0 e h1 h2 h3 h4 h5
    rw [h1, h2, h3, h4, h5]
    have hc : (((tTaken.newTable 0 0x6000 1).putSeq 0 e).useEntry 0).chunkOf 0 = 1 := by
      have h : tTaken.chunkOf 0 = 1 := by decide +kernel
      unfold State.chunkOf at h ⊢
      rw [State.rd_of_regs ((State.putSeq_useEntry hv 0 e hj).2.2.2.2.2.1.trans hr)]; exact h
    rw [hc]
    exact test_admit_map e _ _ _ hm hv hk hf h0 hb hj ha
  rw [← et] at go
  exact go _ _ e1.1 e1.2.1 e1.2.2.1 e1.2.2.2.1 e1.2.2.2.2

/-- The package alone holds rank 0. -/
def tRank (s : State) : State := { s with roles := ⟨1, 0, 1, [(0, s.pkgId + 1)]⟩ }

theorem test_wit_figure_done :
    let s : State := { tRank (tBar 0 []) with figs := [⟨0, 0, 0, 0, true, 16, 0, 0, [], [], 0, true, 0, 0, 0, 0, []⟩] }
    s.wf = true ∧ s.figureDone = true ∧ s.caller.harvested ≤ s.bar ∧ s.mayMark = true := by decide +kernel

theorem test_wit_harvest_late :
    let t := tBar (3 * 1024 + 1) [(R.CALLER_WL_CFG_HARVEST, 2, 0, 0, 0), (R.TEMPO_BAR_NUM_BAR, 4, 0, 0, 0)]
    let s : State := { t with caller := { t.caller with waiting := [⟨0, 0, [], 3, []⟩] } }
    s.wf = true ∧ s.tempo.barOn = true ∧ s.caller.harvestLate = false ∧
    s.caller.waiting.any (fun w => w.bar + 1 = s.bar) = true ∧
    s.rd R.TEMPO_BAR_START_START + s.rd R.CALLER_WL_CFG_HARVEST * 1024 < s.tempo.now := by decide +kernel

theorem test_wit_open : (tst [(R.PART_STATUS_LOCKED, 1, 0, 0, 0)]).mayOpen 0 = false ∧
    (tst [(R.PART_STATUS_LOCKED, 1, 0, 0, 0), (R.CALLER_ADMIT_CTL_PF_CHUNK, 0, 0, 0, 0)]).mayOpen 0 = true := by decide +kernel

/-! ### The Reel -/

/-- Partition 0 on the Reel at a tick of bar 0: area at 0x100000, one layer, one token slot, one nomination, one wave; layer 0's
nominations at 0x200000, its GO cell at 0x300000 with a value, K_POS, N_POS, D_POS and C_POS 1,024 ticks. -/
def tReel (tick go : Nat) : State :=
  let s := tRank (tst [(R.REEL_CTL_EN, 1, 0, 0, 0), (R.REEL_AREA_BASE, 0x100000, 0, 0, 0), (R.PART_CHAN_CHAN, 1, 0, 0, 0)])
  let s : State := { s with tempo := { s.tempo with barOn := true, now := tick }, caller := { s.caller with planned := 1 } }
  let s := s.devSet 0x100000 (toLE 8 (1 + 2 ^ 9 + 2 ^ 13 + 2 ^ 27 + 2 ^ 31 + 2 ^ 46) ++ toLE 8 (1 + 32 * 2 ^ 16 + 1024 * 2 ^ 32) ++
    toLE 8 0x500000 ++ toLE 8 0x600000)
  let s := s.devSet 0x101000 (toLE 8 0x200000)
  let s := s.devSet 0x101010 (toLE 8 0x700000)
  let s := s.devSet 0x101020 (toLE 8 0x710000)
  let s := s.devSet 0x101038 (toLE 8 0x300000)
  let s := s.devSet 0x101048 (toLE 8 (1024 + 1024 * 2 ^ 32) ++ toLE 8 1024)
  s.cellWrite 0x300000 go 0 0 false

theorem test_wit_reel_sent : ∀ e ∈ [(1023, false), (1024, true)], let s := tReel e.1 1
    s.wf = true ∧ s.rank = some 0 ∧ s.reelOn 0 = true ∧ (s.reelOf 0).keysSent = false ∧ s.bar < s.caller.planned ∧
    s.reached (s.reelHdr 0).kPos = e.2 ∧ 0 < (s.reelHdr 0).nl ∧ (s.layerOf 0 0).begun = false ∧
    1 ≤ s.cellNow (s.reelPtr 0 0 7) ∧ s.reached (bits (s.reelDesc 0 0 9) 25 0) = e.2 := by decide +kernel

/-- The second of two members. -/
def tTwo (s : State) : State := { s with roles := ⟨1, 0, 2, [(0, s.pkgId + 1), (1, 6)]⟩ }

/-- A nominee of the own token slot 0 that goes to package 5. -/
def tPick (s : State) : Pick := ⟨s.pkgId, 0, 0, 3, 5, 0, 0, false⟩

theorem test_wit_reel_phases :
    (let s := (tReel 1024 1).setLayer 0 0 { ReelLayer.init with begun := true }
     s.wf = true ∧ (s.layerOf 0 0).begun = true ∧ (s.layerOf 0 0).picks = none ∧ s.allHere 0 0 = true ∧
     (tTwo s).allHere 0 0 = false ∧ (tTwo s).rank = some 0 ∧ (tTwo s).reelOn 0 = true ∧
     0 < (s.reelHdr 0).nl ∧ (s.layerOf 0 0).sent = false ∧ s.reached (bits (s.reelDesc 0 0 9) 57 32) = true) ∧
    (let t := tReel 1024 2
     let s := t.setLayer 0 0 { ReelLayer.init with begun := true, picks := some [tPick t] }
     s.wf = true ∧ (s.layerOf 0 0).picks = some [tPick s] ∧ (tPick s).pkg ≠ s.pkgId ∧ 0 < (s.reelHdr 0).nw ∧
     s.reached (wavePos (s.reelDesc 0 0 10) 0) = true ∧ 2 ≤ s.cellNow (s.reelPtr 0 0 7)) ∧
    (let s := tReel 1023 2
     s.reached (wavePos (s.reelDesc 0 0 10) 0) = false) := by decide +kernel

/-- A packet from package 5 to an offset. -/
def tPkt (cls typ off len : Nat) (data : List Byte) : Pkt where
  cls := BitVec.ofNat 3 cls
  typ := BitVec.ofNat 5 typ
  bcast := false
  dst := 0
  src := 5
  part := 0
  key := 0
  unit := 0x88
  off := BitVec.ofNat 40 off
  len := BitVec.ofNat 13 len
  aop := 0
  wide := false
  uns := false
  reqid := 7
  bar := 0
  status := 0
  arr := 0
  dset := 0
  arrEn := false
  srcPart := 0
  poison := 0
  data := data

/-- What REEL packets of 4 bytes reach: the keys, the nominations, a row's landing area, and nothing. -/
theorem test_wit_reel_hits :
    (tReel 0 0).reelHit 0 0x600000 4 = some .keys ∧ (tReel 0 0).reelHit 0 0x700000 4 = some (.noms 0) ∧
    (tReel 0 0).reelHit 0 0x900000 4 = none := by decide +kernel

theorem test_wit_reel_arrivals : let s := (tReel 0 0).setReel 0 { ReelPart.init with cur := some 0 }
    s.wf = true ∧ s.reelOn 0 = true ∧ s.earlyStatus 0x0A (tPkt 0 0x0A 0x600000 4 []) = 8 ∧
    s.earlyStatus 0x0A (tPkt 1 0x0A 0x600000 4 (toLE 4 1)) = 0 ∧ reelAddr (tPkt 1 0x0A 0x600000 4 []) = 0x600000 ∧
    s.reelHit 0 0x700000 64 = some (.row 0) ∧ s.rowAt 0 0 0x700000 64 = some (0x700000, 97, false) ∧
    s.reelHit 0 0x710000 64 = some (.row 0) ∧ s.rowAt 0 0 0x710000 64 = some (0x710000, 128, true) ∧
    s.rowLive 0 0 0x710000 0x710000 (clean (toLE 8 0)) = true ∧
    s.rowLive 0 0 0x710000 0x710000 (clean (toLE 8 (2 ^ 18))) = false ∧
    s.earlyStatus 0x0B (tPkt 0 0x0B 0 0 []) = 8 ∧ s.earlyStatus 0x0B (tPkt 1 0x0B 0 0 (toLE 8 0)) = 0 := by decide +kernel

/-- PLACEMENT_CHANGE of partition 0 to a table at 0x800000, in an area without layers. -/
def tPlace (gen eff : Nat) : Req × State :=
  let r := tReq 0 [0, 0x8000000]
  (r, (tCall 0x21 r [(R.REEL_AREA_BASE, 0x100000, 0, 0, 0)]).devSet 0x8000000 (toLE 8 gen ++ toLE 8 eff))

theorem test_wit_place : ∀ e ∈ [((1, 9), false), ((1, 0), true), ((0, 9), false)],
    let r := (tPlace e.1.1 e.1.2).1
    let s : State := { (tPlace e.1.1 e.1.2).2 with tempo := { Tempo.init with barOn := true } }
    s.wf = true ∧ s.openAs 0x21 r = true ∧ s.places.all (fun x => x.req ≠ r) = true ∧ r.f 4 47 0 = 0x8000000 ∧
    s.placeGood 0 0x8000000 = true ∧ s.barBegun (s.devWord 0x8000008) = e.2 ∧
    (s.devWord (s.placeTab 0 false) < s.devWord 0x8000000 ↔ e.1.1 = 1) ∧ s.places.all (fun y => y.part ≠ 0) = true ∧
    (s.devSet 0x100000 [1]).placeGood 0 0x8000000 = false := by decide +kernel

theorem test_wit_place_ring : (tPlace 1 9).2.ringOpen 0 0 := by unfold State.ringOpen; decide +kernel

/-! ### Weights -/

/-- A 97-byte public point: the base point, whose scalar is 1. -/
def tPoint : List Byte := 4 :: (toBE 48 bpG.x ++ toBE 48 bpG.y)

/-- A manifest of EPOCH 1, RANK 0 of 1, with one shard and one HOST object of no bytes and one expert, signed with scalar 1 and
nonce 1: r is the base point's x, s is the digest plus r. -/
def tMan : List Byte :=
  let b := toLE 8 (0x4D574853 + 2 ^ 32) ++ toLE 8 (1 + 2 ^ 44) ++ List.replicate 16 0 ++ toLE 8 (1 + 2 ^ 16) ++
    toLE 8 (96 + 160 * 2 ^ 32) ++ toLE 8 0 ++ toLE 8 (192 + 2 ^ 32) ++ toLE 8 0 ++ toLE 8 256 ++ (sha384 tPoint).take 16 ++
    (toLE 8 0 ++ toLE 8 1 ++ sha384 []) ++ (toLE 8 (2 ^ 51) ++ List.replicate 24 0) ++ (toLE 8 0 ++ toLE 8 0 ++ sha384 [])
  b ++ toBE 48 bpG.x ++ toBE 48 ((ofBE (sha384 b) + bpG.x) % bpN)

/-- The owner's key stands in slot 0. -/
def tOwner (s : State) : State :=
  { s with
    nv := { s.nv with keyPages := [(0, tPoint)] }
    fuses := { s.fuses with owners := [⟨some (sha384 tPoint), true, false⟩] } }

theorem test_manifest : (tOwner State.reset).manStatus tMan = 0 ∧ tMan.length = 352 ∧ manShards tMan = 1 ∧ manEpoch tMan = 1 := by
  decide +kernel

/-- INSTALL into slot A. -/
def tInst : Req := tReq 0 [0, 0, 352]

theorem test_wit_install :
    (let s := tOwner (tCall 0x22 tInst [])
     s.wf = true ∧ s.openAs 0x22 tInst = true ∧ s.weights.install = none ∧ tInst.f 5 31 0 = 352 ∧
     fetched (.data tMan) 352 = some tMan ∧ s.installStatus 0 tMan = 0 ∧ (tCall 0x22 tInst []).installStatus 0 tMan = stSigBad ∧
     fetched .failed 352 = none) ∧
    (let s := tCall 0x23 tInst []
     let t : State := { s with weights := { s.weights with install := some ⟨none, 0, tMan, 0, [], []⟩ } }
     s.openAs 0x23 tInst = true ∧ s.weights.install = none ∧ t.openAs 0x23 tInst = true ∧ t.wf = true) := by decide +kernel

/-- An Install whose one shard comes next. -/
def tProg (tries : Nat) (req : Option Req) : State :=
  let s := tst []
  { s with
    weights := { s.weights with install := some ⟨req, 0, tMan, tries, [], []⟩ }
    nv := { s.nv with recA := ⟨1, 1, 1, 0, 0, 1, []⟩ } }

theorem test_wit_shards : ∀ tries ∈ [0, 1], ∀ req ∈ [none, some tInst],
    let s := tProg tries req
    let i : Install := ⟨req, 0, tMan, tries, [], []⟩
    s.wf = true ∧ s.weights.install = some i ∧ i.next (s.slotRec i.slot) = some 0 ∧ s.on R.NVC_PROG_SAG_HOLD = false ∧
    (manShard tMan 0).len = 0 ∧ fetched (.data []) 0 = some [] ∧ sha384 [] = (manShard tMan 0).digest := by decide +kernel

/-- The same with a digest that no bytes have. -/
theorem test_wit_shard_bad :
    let m := tMan.set 120 0
    (manShard m 0).len = 0 ∧ ¬(sha384 [] = (manShard m 0).digest) ∧ fetched (.data [1]) 1 = some [1] := by decide +kernel

theorem test_wit_nv : (tst []).wf = true ∧ (tst []).nv.holes.contains (2, 7) = false := by decide +kernel

/-- Bytes from key 0 on. -/
def tBytes (bs : List Byte) : SMap Byte := (bs.zipIdx.map (fun e => (e.2, e.1))).filter (fun e => e.2 ≠ 0)

/-- A COMPLETE slot A that holds the manifest, on a package of rank 0. -/
def tStage : State :=
  let s := tOwner (tRank (tCall 0x24 (tReq 0 [0]) []))
  { s with nv := { s.nv with recA := ⟨2, 1, 1, 0, 1, 1, manDigest tMan⟩, data := tBytes tMan } }

theorem test_wit_stage :
    (let s := tStage
     s.wf = true ∧ s.openAs 0x24 (tReq 0 [0]) = true ∧ s.weights.staging = none ∧ s.stageStatus 0 = 0 ∧
     s.stageStatus 1 = stBadState ∧ s.nvManifest 0 = tMan ∧ s.shardsGood 0 tMan [] = true ∧ 1 < s.weights.staged.length) ∧
    (let m := (tMan.set 120 0).set 166 0
     tStage.shardsGood 0 m [] = false) := by decide +kernel

/-- STAGE_HOST_SLOT of expert 0 of layer 0, with the bytes as its data. -/
theorem test_wit_host_slot :
    let r := tReq 0 [0]
    let s := tCall 0x25 r []
    let t : State := { s with weights := { s.weights with manifests := [tMan, []] } }
    t.wf = true ∧ t.openAs 0x25 r = true ∧ t.nvShut = false ∧ (r.w 3).testBit 37 = false ∧
    t.hostManifest = tMan ∧ expertGood tMan 0 0 (wholeData (.data [])) = true ∧ expertGood tMan 0 0 (wholeData (.data [1])) = false := by
  decide +kernel

/-- FILL with the one shard from rank 0. -/
theorem test_wit_fill :
    let r := tReq 0 [0, 352, 0, 0]
    let s := tOwner (tCall 0x26 r [])
    let t : State := { s with weights := { s.weights with staging := some ⟨none, 0, 1⟩ } }
    s.wf = true ∧ t.wf = true ∧ s.openAs 0x26 r = true ∧ s.weights.fill = none ∧ fetched (.data tMan) (r.f 4 31 0) = some tMan ∧
    fetched (.data [0, 0]) (2 * manShards tMan + 8 * r.f 6 31 0) = some [0, 0] ∧ s.manStatus tMan = 0 ∧
    (tCall 0x26 r []).manStatus tMan ≠ 0 ∧ t.weights.staging.isSome = true := by decide +kernel

/-- The move for something waits in Q2 with 64 lines of die 0 left to write, and the bar's allowance is used up or not. -/
def tJob (why : MoveFor) (s : State) (used : Nat) : State :=
  let s := s.wr R.PROM_ALLOW_ALLOW 1
  { s with
    moves := [{ jobMove 2 0 false true why with todo := [64, 0, 0, 0] }]
    tempo := { s.tempo with barOn := true }
    weights := { s.weights with used := [used, 0, 0, 0] } }

theorem test_wit_fill_done : ∀ again ∈ [[], [0]],
    let f : Fill := ⟨none, tMan, [0], [], [], again⟩
    let s := tRank (tst [])
    let t : State := { s with weights := { s.weights with fill := some f } }
    t.wf = true ∧ t.rank.isSome = true ∧ (t.takeFill f [.data []]).wants = [] ∧ (t.runJob .fill).2 = true ∧
    (t.takeFill f [.data [1]]).wants = [0] ∧ (f.again.any (fun i => (t.takeFill f [.data [1]]).wants.contains i) = true ↔ again = [0]) ∧
    (tJob .fill t 0).wf = true ∧ ((tJob .fill t 0).runJob .fill).2 = true ∧ ((tJob .fill t 1000000).runJob .fill).2 = false := by
  decide +kernel

theorem test_wit_stage_moves :
    (let s : State := { tStage with weights := { tStage.weights with staging := some ⟨none, 0, 1⟩ } }
     s.nvManifest 0 = tMan ∧ (s.runJob .staging).2 = true ∧ ((tJob .staging s 0).runJob .staging).2 = true ∧
     ((tJob .staging s 1000000).runJob .staging).2 = false) ∧
    (let r := tReq 0 [0]
     let key := hostKey 0 0 0
     ∀ e ∈ [(0, true), (1000000, false)], let s := tJob (.hostSlot key) (tCall 0x25 r []) e.1
      s.wf = true ∧ s.openAs 0x25 r = true ∧ ((s.askHostSlot s.hostManifest 0 0 0 0).runJob (.hostSlot key)).2 = e.2) ∧
    (tCall 0x25 (tReq 0 [2 ^ 37]) [(R.SEC_STATUS_DEBUG, 1, 0, 0, 0)]).wf = true := by decide +kernel

theorem test_wit_swap_epoch : ∀ e ∈ [(1, true), (9, false)],
    let r := tReq 0 [2, e.1, 0]
    let s : State := { tCall 0x27 r [] with caller := { Caller.init with planned := 2 } }
    s.wf = true ∧ s.openAs 0x27 r = true ∧ s.swap = none ∧ s.swapLate (r.w 4) = e.2 := by decide +kernel

/-- A prefetch of two lines from NV to the shelf of die 0. -/
def tMove1 : Move := ⟨0, 1, 0, 0, 0x40, 0x010000000000, 128, 0, [2, 0, 0, 0], .prefetch (some (3, 5))⟩
/-- A prefetch of two lines from NV to HBM, whose lines count against the allowance. -/
def tMove2 : Move := { tMove1 with dst := 0x8000 }

theorem test_wit_promenade :
    (let s : State := { tst [] with moves := [tMove1] }
     s.wf = true ∧ s.frontOf 2 = none ∧ s.frontOf 0 = some 0 ∧ s.moves[0]? = some tMove1 ∧ tMove1.byLine = true ∧
     s.moves.any (fun m => m.endsHere && m.written) = false ∧ s.allowed tMove1 0 = 2) ∧
    (∀ e ∈ [(1000000, 0), (999900, 1), (0, 2)],
      let s := tst [(R.PROM_ALLOW_ALLOW, 1, 0, 0, 0)]
      let t : State := { s with
        moves := [tMove2], tempo := { s.tempo with barOn := true }, weights := { s.weights with used := [e.1, 0, 0, 0] } }
      t.wf = true ∧ t.frontOf 0 = some 0 ∧ t.allowed tMove2 0 = e.2 ∧ t.ownLines tMove2.dst tMove2.size 0 = [0, 1]) ∧
    (tJob .staging (tst []) 0).frontOf 0 = some 0 ∧ (jobMove 2 0 false true .staging).endsHere = false ∧
    (jobMove 2 0 false true .none).endsHere = true := by decide +kernel

/-- An active timed image with one prefetch entry at POS 1,024. -/
theorem test_wit_prefetch : ∀ e ∈ [(1023, false), (1024, true)],
    let im : Image := ⟨0, 0, 0, 0, true, 16, 0, 0, [], [], 0, true, 0x9000, 1, 0, 0, []⟩
    let s := (tst []).devSet 0x9020 (toLE 8 (1024 * 2 ^ 38))
    let t : State := { s with figs := [im], tempo := { s.tempo with barOn := true, now := e.1 } }
    t.wf = true ∧ t.timedFigs.find? (fun im => decide (im.part = (0 : PartId).val) && decide (im.nextPf < im.npf)) = some im ∧
    t.tempo.barOn = true ∧ t.notReady = false ∧ t.on R.HEALTH_STATUS_FAILED = false ∧
    t.reached (bits (t.devWord (im.pref + 32 + 32 * im.nextPf)) 63 38) = e.2 := by decide +kernel

/-- A Format Area at 0x20000 with one layer: sampled or not, evaluated in bar 2. -/
def tFmt (sampled : Bool) : State :=
  let s := tst [(R.PART_STATUS_LOCKED, 1, 0, 0, 0), (R.PART_FORMAT_BASE, 0x20000, 0, 0, 0), (R.TEMPO_BAR_NUM_BAR, 2, 0, 0, 0),
    (R.PCIE_GRP_CTL_EN, 1, 0, 0, 0), (R.PCIE_CQ_CFG_EN, 1, 0, 0, 0)]
  let s := (s.devSet 0x20008 [1]).devSet 0x20148 (toLE 8 (65535 + 2 ^ 16 + (if sampled then 2 ^ 17 else 0)))
  { s with tempo := { s.tempo with barOn := true }, host := { s.host with bme := 1 } }

theorem test_wit_recipe : ∀ b ∈ [false, true], let s := tFmt b
    s.wf = true ∧ s.locked 0 = true ∧ s.fmtArea 0 ≠ 0 ∧ s.fmtLayers 0 = [0] ∧
    (s.devWord (s.fmtEntry 0 0 + 72)).testBit 17 = b ∧ s.tempo.barOn = true ∧ 0 < s.bar ∧
    s.devWord (s.fmtArea 0 + 16) ≠ s.bar - 1 ∧ s.rd R.PCIE_GRP_CTL_MGMT_CQ 0 0 = 0 := by decide +kernel

theorem test_wit_recipe_ring : (tFmt true).ringOpen 0 0 := by unfold State.ringOpen; decide +kernel

/-! ### The fabric -/

/-- Port 0 in a state, its lanes in a state. -/
def tPort (port lane : Nat) : State :=
  tst ((R.FAB_STATUS_STATE, port, 0, 0, 0) :: (List.range 8).map (fun l => (R.LANE_STATUS_STATE, lane, l, 0, 0)))

theorem test_wit_ports :
    (∀ v ∈ [0, 1, 2, 3, 4, 5], (tPort v 2).wf = true ∧ (tPort v 2).portState 0 = v) ∧
    (tPort 3 2).inService 0 = true ∧ (tPort 0 0).inService 0 = false ∧ (tPort 3 2).ports = [0] ∧ (tPort 0 0).ports = [] ∧
    (tst [(R.FAB_EXPECT_CHECK_EN, 0, 0, 0, 0)]).on R.FAB_EXPECT_CHECK_EN 0 = false ∧
    (tst [(R.FAB_EXPECT_CHECK_EN, 1, 0, 0, 0), (R.FAB_EXPECT_TRAY, 4, 0, 0, 0)]).wantId 0 ≠ (3, 0, 0) ∧
    (∀ l ∈ lanesOf 0, (tPort 2 2).laneWorks l = true) ∧
    ((tPort 2 2).port 0).since = 0 ∧ (tPort 2 2).tempo.now / 1024 < 16 := by decide +kernel

/-- A packet on port 0, by the state of the port; PORT_STATE is due after 64 beats. -/
theorem test_wit_hears : let k : Pkt := { tPkt 0 4 0 8 (toLE 8 5) with via := some 0 }
    (tPort 3 2).hears k = true ∧ (tPort 2 2).hears k = true ∧ (tPort 1 2).hears k = false ∧
    (∀ e ∈ [(64 * 1024 - 1, false), (64 * 1024, true)],
      let t := tPort 3 2
      let s : State := { t with tempo := { t.tempo with now := e.1 } }
      s.passed (1024 * s.fab.cast) (64 * 1024) = e.2) := by decide +kernel

/-- Sixteen bad codewords of a beat, and seventeen. -/
theorem test_wit_lane_cause : let t := tPort 3 2
    let s : State := { t with fab := { t.fab with bad := [(1, 0, 16), (2, 0, 17)] } }
    s.wf = true ∧ s.laneFails 1 .uncorrectable = false ∧ s.laneFails 2 .uncorrectable = true ∧ s.laneFails 2 .corrHigh = false ∧
    s.laneFails 2 .lock = true := by decide +kernel

/-- Without spares on die X0. -/
def tNoSpare : State :=
  let s := tPort 3 2
  { s with layout := { s.layout with fused := [(0x31, 96), (0x31, 97), (0x31, 98), (0x31, 99)] } }

theorem test_wit_lanes :
    (∀ s ∈ [tPort 3 2, tNoSpare], s.wf = true ∧ s.portState 0 = 3 ∧ s.laneWorks 2 = true ∧ s.fab.tests = [] ∧
      s.layout.retired.contains (0x31, s.layout.lane 2) = false ∧ s.testable 2 = true ∧
      ∀ m ∈ lanesOf 0, m ≠ 2 → s.laneWorks m = true) ∧
    (tPort 3 2).freeLanes (laneDie 2) = [96, 97, 98, 99] ∧ tNoSpare.freeLanes (laneDie 2) = [] ∧
    (tPort 0 0).testable 2 = false ∧ State.reset.on R.FAB_BERT_CFG_EN = false ∧
    (let s := (tPort 3 2).wr R.FAB_BERT_CFG_EN 1
     s.on R.FAB_BERT_CFG_EN = true ∧ s.nextTest = some 0) ∧
    (tPort 0 0).inService 0 = false ∧ ((tPort 0 0).port 0).bert = false ∧ (lanesOf 0).filter ((tPort 0 0).avail 0x31) ≠ [] := by
  decide +kernel

/-- A flit of idle with its SEQ, ACK and NAK, and the wrong symbols of one codeword on lane 3 that ends with it. -/
def tFlit (seq ack : Nat) (nak : Bool) (wrong : Nat) : FlitIn :=
  ⟨flitImage (List.replicate 504 0) seq ack nak, [⟨3, wrong, true⟩]⟩

theorem test_wit_flit_crc (seq ack wrong : Nat) (nak : Bool) : (tFlit seq ack nak wrong).crcGood = true :=
  flitImage_good (List.length_replicate ..) seq ack nak _

/-- Good flits with and without NAK, a replay that is one too many, and flits that are not taken: out of sequence, with a
codeword lost, too short. -/
theorem test_wit_flit :
    let s := tPort 3 2
    let x := s.port 0
    s.wf = true ∧ 2 ≤ s.portState 0 ∧ x.rxNext = 0 ∧ x.acked = 0 ∧ x.replays = 0 ∧
    (∀ nak ∈ [false, true], ∀ ack ∈ [0, 5], let f := tFlit 0 ack nak 15
      f.uncorr = false ∧ f.seq = x.rxNext ∧ f.nak = nak ∧ f.ack = ack) ∧
    (tFlit 1 0 false 0).seq ≠ x.rxNext ∧ (tFlit 0 0 false 16).uncorr = true ∧
    ({ tFlit 0 0 false 0 with bytes := [1] } : FlitIn).crcGood = false ∧
    ((s.setPort 0 { x with replays := 8 }).port 0).replays = 8 := by decide +kernel

theorem test_wit_bert_end : ∀ install ∈ [false, true],
    let t := tPort 3 2
    let x : LaneTest := ⟨2, 2, 96, install⟩
    let s : State := { t with fab := { t.fab with tests := [x] } }
    s.wf = true ∧ s.fab.tests = [x] ∧ x.lane = (2 : LaneId).val ∧ x.install = install := by decide +kernel

/-- Key 1 of partition 0 opens 4 KiB at 0x40000 to every operation. -/
def tKey : State :=
  let s := tst [(R.PART_CHAN_CHAN, 1, 0, 0, 0)]
  { s with fab := { s.fab with
    keys := [(0, 2 ^ 48)], cache := [(1, some ⟨0x40000, true, true, true, true, true, false, 0, 4096, 0, true⟩)] } }

/-- The same with its entry fenced, of another partition, read-only, or not there. -/
def tKeyBut (r : Region) : State := { tKey with fab := { tKey.fab with cache := [(1, some r)] } }

theorem test_wit_packets : ∀ e ∈ [(3, 0x19), (1, 0x08), (3, 0x1B), (3, 0x18)],
    let k := { tPkt e.1 e.2 64 64 (List.replicate 64 7) with key := 1 }
    tKey.wf = true ∧ (tKey.checkPkt e.2 k).2 = (0, 0x40040) ∧ (tKey.checkPkt e.2 { k with cls := 0 }).2.1 = 8 ∧
    tKey.keptFor k = none ∧ tKey.fab.invs = [] := by decide +kernel

theorem test_wit_commits : ∀ e ∈ [(1, 0x09), (3, 0x1C), (3, 0x1A)], ∀ aop ∈ [0, 1, 2, 3],
    let k := { tPkt e.1 e.2 64 0 (toLE 8 0 ++ toLE 8 0) with key := 1, arrEn := true, arr := 4, dset := 9, aop := BitVec.ofNat 4 aop }
    let o : Kept := ⟨5, 0x88, 7, 100, k⟩
    let s : State := { tKey with fab := { tKey.fab with kept := [o] } }
    (tKey.checkPkt e.2 k).2.1 = 0 ∧ tKey.keptFor k = none ∧ s.wf = true ∧ s.keptFor k = some o ∧
    (e.2 ≠ 0x1A → (tKey.checkPkt e.2 { k with bar := 1 }).2.1 = if e.2 = 0x09 ∨ e.2 = 0x1C then 7 else 0) ∧
    tKey.devNat 0x40040 4 = ofLE ((k.data.drop 8).take 8) % 2 ^ 32 ∧
    tKey.devNat 0x40040 4 ≠ ofLE (((toLE 8 0 ++ toLE 8 3).drop 8).take 8) % 2 ^ 32 := by decide +kernel

theorem test_wit_checks :
    let k := { tPkt 3 0x19 64 64 [] with key := 1 }
    (State.reset.checkPkt 0x19 k).2.1 = 1 ∧
    ((tst [(R.PART_STATUS_STATE, 2, 0, 0, 0)]).checkPkt 0x19 k).2.1 = 6 ∧
    ∀ e ∈ [((⟨0x40000, false, true, true, true, true, false, 0, 4096, 0, true⟩ : Region), 1),
        (⟨0x40000, true, true, true, true, true, true, 0, 4096, 0, true⟩, 4),
        (⟨0x40000, true, true, true, true, true, false, 0, 4096, 3, false⟩, 5),
        (⟨0x40000, true, true, false, true, true, false, 0, 4096, 0, false⟩, 2),
        (⟨0x40000, true, true, true, true, true, false, 0, 64, 0, true⟩, 3)], ((tKeyBut e.1).checkPkt 0x19 k).2.1 = e.2 := by
  decide +kernel

/-- An operation of a unit, sent at tick 0. -/
def tOp (typ : Nat) (owner : Owner) (absorb : Option Nat) : Op :=
  ⟨0x88, 7, 5, typ, tPkt 3 typ 0 0 [], 0, none, owner, none, false, absorb, false⟩

/-- It is the only one open. -/
def tOpen (o : Op) : State := { tst [] with fab := { Fab.init with ops := [o] } }

/-- A descriptor of engine 2 in flight. -/
def tFlyDesc (op : Nat) (left : List Nat) (cpl : Nat) : Desc :=
  ⟨2, 0, 6, op, 5, 0, 0, 0, 0x8000, some (3, 4), false, cpl, 0, 0, 0, left, false⟩

theorem test_wit_answers :
    (∀ o ∈ (tst []).fab.ops, ¬(o.dst = (5 : Nat) ∧ o.unit = 0x88 ∧ o.reqid = 7)) ∧ (tst []).openOp (tPkt 2 0x10 0 0 []) = none ∧
    (∀ o ∈ [tOp 0x09 .core (some 3), tOp 0x18 .core (some 3), tOp 0x1A .core (some 3), tOp 0x09 (.scommit 4 0) none,
        tOp 0x18 (.copyPart 2 0 0) none, tOp 0x1A (.copyPart 2 0 0) none],
      (tOpen o).wf = true ∧ (tOpen o).openOp (tPkt 2 0x10 0 0 []) = some o) ∧
    ∀ d ∈ [tFlyDesc 1 [7] 0, tFlyDesc 2 [7] 0],
      let s := tOpen (tOp 0x18 (.copyPart 2 0 0) none)
      let t : State := { s with fab := { s.fab with descs := [d], nextDesc := 1 } }
      t.wf = true ∧ t.fab.descs.find? (fun x => x.num = 0) = some d ∧ (d.op = 1 ∨ d.op = 2) := by decide +kernel

theorem test_wit_deadlines : ∀ o ∈ [tOp 0x19 .core none, tOp 0x18 (.copyPart 2 0 0) none],
    let s := tOpen o
    let t : State := { s with tempo := { s.tempo with now := 2 ^ 24 } }
    s.wf = true ∧ s.fab.ops.find? (fun o => o.unit = 0x88 && o.reqid = 7) = some o ∧
    s.passed o.stamp (s.rd R.FAB_DEAD_BEATS * 1024) = false ∧ t.passed o.stamp (t.rd R.FAB_DEAD_BEATS * 1024) = true := by
  decide +kernel

/-- Engine 2 enabled with one descriptor at 0x9000 waiting, to package 5. -/
def tCopy (w0 len : Nat) : State :=
  let s := tst [(R.COPY_CTL_EN, 1, 2, 0, 0), (R.COPY_RING_BASE, 0x9000, 2, 0, 0), (R.COPY_RING_LOG2N, 4, 2, 0, 0),
    (R.COPY_TAIL_TAIL, 1, 2, 0, 0), (R.PART_CHAN_CHAN, 1, 0, 0, 0)]
  s.devSet 0x9000 (toLE 8 (w0 + 5 * 2 ^ 8) ++ toLE 8 0 ++ toLE 8 0x8000 ++ toLE 8 len)

theorem test_wit_copy :
    State.reset.nextDescOf 2 = none ∧
    (∀ e ∈ [(0, 64), (1, 64), (2, 0), (3, 0)], let s := tCopy e.1 e.2
      s.wf = true ∧ ∃ d, s.nextDescOf 2 = some d ∧ bits d.w0 3 0 = e.1 ∧ s.descBad (s.rd R.COPY_CTL_PART 2) d = false ∧
        (tCopy (e.1 + 2 ^ 60) e.2).wf = true ∧ ∃ c, (tCopy (e.1 + 2 ^ 60) e.2).nextDescOf 2 = some c ∧ bits c.w0 3 0 = e.1 ∧
          s.descBad (s.rd R.COPY_CTL_PART 2) c = true) := by
  refine ⟨by decide +kernel, ?_⟩
  intro e he
  simp only [List.mem_cons, List.not_mem_nil, or_false] at he
  rcases he with rfl | rfl | rfl | rfl <;>
    exact ⟨by decide +kernel, _, rfl, by decide +kernel, by decide +kernel, by decide +kernel, _, rfl, by decide +kernel,
      by decide +kernel⟩

theorem test_wit_copy_over :
    let s : State := { tst [] with fab := { Fab.init with descs := [tFlyDesc 1 [] 0xA000], nextDesc := 1 } }
    s.wf = true ∧ s.fab.descs.find? (fun d => d.eng = (2 : CopyId).val && d.index = 6 && d.over) = some (tFlyDesc 1 [] 0xA000) ∧
    (tFlyDesc 1 [] 0xA000).cpl ≠ 0 ∧ (tFlyDesc 1 [] 0xA000).bar = s.bar ∧
    (tst []).fab.descs.find? (fun d => d.eng = (2 : CopyId).val && d.index = 6 && d.over) = none := by decide +kernel

/-! ### The host interface -/

/-- Group 0 open, with `l` more fields. -/
def tGrp (l : List (Fld × Nat × Nat × Nat × Nat)) : State :=
  let s := tst ([(R.PCIE_GRP_CTL_EN, 1, 0, 0, 0), (R.PCIE_CQ_CFG_EN, 1, 0, 0, 0), (R.PCIE_CQ_CFG_TAIL, 3, 0, 0, 0),
    (R.PCIE_GRP_SQ_CFG_LOG2N, 4, 0, 0, 0), (R.PCIE_GRP_SQ_CFG_TAIL, 3, 0, 0, 0), (R.COPY_RING_LOG2N, 4, 2, 0, 0)] ++ l)
  { s with host := { s.host with bme := 1 } }

theorem test_wit_doorbells :
    (let s := tGrp []
     s.wf = true ∧ s.on R.PCIE_GRP_CTL_VF 0 0 = false ∧ s.on R.PCIE_GRP_CTL_EN 0 0 = true ∧ s.rd R.PART_STATUS_STATE 0 ≠ 2 ∧
     s.sqTailOk 0 5 = true ∧ s.sqTailOk 0 16 = false ∧ s.copyTailOk 0 2 5 = true ∧ s.copyTailOk 0 2 16 = false ∧
     s.cqHeadOk 0 0 2 = true ∧ s.cqHeadOk 0 0 4 = false ∧ (s.cq 0 0).blCount = 0 ∧ (s.cq 0 0).waiting = []) ∧
    (tGrp [(R.PCIE_GRP_CTL_VF, 1, 0, 0, 0)]).on R.PCIE_GRP_CTL_VF 0 0 = true ∧
    (tGrp [(R.PART_STATUS_STATE, 2, 0, 0, 0)]).rd R.PART_STATUS_STATE 0 = 2 ∧
    State.reset.on R.PCIE_GRP_CTL_EN 0 0 = false := by decide +kernel

/-- An entry of 128 bytes with its first words. -/
def tEntryOf (w : List Nat) : List Byte := (List.range 16).flatMap (fun i => toLE 8 (w.getD i 0))

theorem test_wit_requests :
    (tGrp []).wf = true ∧ (tGrp []).mayTake 0 = true ∧ (tGrp []).rd R.PART_STATUS_STATE 0 ≠ 2 ∧
    ∀ e ∈ [([0x12 + 7 * 2 ^ 16, 9, 0, 0, 0x8000, 64], true, false), ([0x20, 9], false, false), ([0x02, 9, 2 ^ 63], true, true)],
      let w := entryOf (tEntryOf e.1)
      typeAllowed 0 (bits (w.getD 0 0) 7 0) = e.2.1 ∧
      (e.2.1 = true → entryBad (bits (w.getD 0 0) 7 0) (w.getD 0 0) (w.getD 2 0) (w.drop 3) = e.2.2) := by decide +kernel

theorem test_wit_requests_ring : (tGrp []).ringOpen 0 0 := by unfold State.ringOpen; decide +kernel

/-- A copy of 64 bytes between host address 0x4000 and device address 0x8000. -/
def tXfer : Req := tReq 0 [0x4000, 0x8000, 64]

theorem test_wit_transfers :
    (∀ typ ∈ [0x12, 0x13], let s := tCall typ tXfer [(R.PART_CHAN_CHAN, 1, 0, 0, 0)]
      s.wf = true ∧ s.openAs typ tXfer = true ∧ s.host.xfers = [] ∧ s.copyStatus tXfer = 0 ∧
      (tCall typ (tReq 0 [0x4001, 0x8000, 64]) []).copyStatus (tReq 0 [0x4001, 0x8000, 64]) = stBadArg ∧
      (s.markRange 0x8000 64).rangeMarked (tXfer.f 4 47 0) (tXfer.f 5 31 0) = true ∧ s.xferOf 0 = none) ∧
    (let x : Xfer := ⟨.toDevice tXfer, 0, 0x4000, 0x8000, 64, [], some 3, 64⟩
     let s := tCall 0x12 tXfer []
     let t : State := { s with host := { s.host with xfers := [x] } }
     t.wf = true ∧ t.isOpen tXfer = true ∧ t.host.xfers = [x] ∧ x.left = x.ask) := by decide +kernel

theorem test_wit_no_bus : State.reset.busOk 0 = false := by decide +kernel

/-- An untimed image at 0x8000 whose Set 0 runs END alone. -/
def tFig : List Byte :=
  toLE 8 (0x47464853 + 2 ^ 32) ++ toLE 8 (600 * 2 ^ 16) ++ toLE 8 1 ++ toLE 8 0 ++ toLE 8 (64 + 480 * 2 ^ 32) ++
    List.replicate 24 0 ++ toLE 8 (448 + 2 ^ 32) ++ List.replicate 376 0 ++ toLE 8 0x7F ++ List.replicate 24 0

/-- LOAD_FIGURE of it. -/
def tLoad : Req := tReq 0 ([0x8000, 480, 0] ++ (List.range 6).map (fun i => ofLE (((sha384 tFig).drop (8 * i)).take 8)))

/-- The state of its partition. -/
def tFigState (typ : Nat) (r : Req) : State :=
  (tCall typ r [(R.PART_STATUS_LOCKED, 1, 0, 0, 0), (R.PART_CHAN_CHAN, 1, 0, 0, 0), (R.PART_SETS_SETS, 1, 0, 0, 0),
    (R.PART_CTL_KIND, 1, 0, 0, 0), (R.SCHED_CTL_EN, 1, 0, 0, 0), (R.SCHED_STATUS_STATE, 1, 0, 0, 0)]).devSet 0x8000 tFig

theorem test_wit_load_figure : let s := tFigState 0x10 tLoad
    s.wf = true ∧ s.openAs 0x10 tLoad = true ∧ s.locked 0 = true ∧ s.inPart 0 0x8000 480 = true ∧ tLoad.f 4 31 0 = 480 ∧
    s.figGood 0 0x8000 480 (Req.digest tLoad) = true ∧ s.barBegun (tLoad.w 5) = false ∧
    s.figIndex 0 (bits (s.figWord 0x8000 0) 59 48) = some 0 ∧ State.reset.locked 0 = false := by decide +kernel

theorem test_wit_run_figure :
    let r := tReq 0 [0, 1]
    let im : Image := ⟨0, 0, 0x8000, 0, false, 0, 600, 1, [⟨0, 448, 1⟩], [], 0, true, 0, 0, 0, 0, []⟩
    let s : State := { tFigState 0x11 r with figs := [im] }
    s.wf = true ∧ s.openAs 0x11 r = true ∧ s.runs.contains r = false ∧
    (s.figsOf 0).find? (fun x => x.idx = r.f 3 1 0) = some im ∧ onlyBits (r.f 4 47 0) im.sets = true ∧ r.f 4 47 0 = 1 ∧
    s.passReady 0 = true ∧ ((tFigState 0x11 r).figsOf 0).find? (fun x => x.idx = r.f 3 1 0) = none ∧
    onlyBits ((tReq 0 [0, 2]).f 4 47 0) im.sets = false := by decide +kernel

/-- ROLE_CHANGE to a table of one rank at 0x9000, its GEN and its bar. -/
def tRole (n gen eff : Nat) : State :=
  (tCall 0x20 (tReq 0 [0x9000]) []).devSet 0x9000 (toLE 8 n ++ toLE 8 gen ++ toLE 8 eff ++ toLE 8 0 ++ toLE 8 (2 ^ 12))

theorem test_wit_roles :
    (tRole 0 1 0).wf = true ∧ (tRole 0 1 0).openAs 0x20 (tReq 0 [0x9000]) = true ∧ (tRole 0 1 0).rolePend = none ∧
    (tRole 0 1 0).roleGood 0x9000 = false ∧
    ∀ e ∈ [(1, 0, true), (0, 9, false), (1, 9, false)],
      let s : State := { tRole 1 e.1 e.2.1 with tempo := { Tempo.init with barOn := true } }
      s.wf = true ∧ s.roleGood 0x9000 = true ∧ s.barBegun (s.devWord 0x9010) = e.2.2 ∧
      (s.devWord 0x9008 ≤ s.roles.gen ↔ e.1 = 0) := by decide +kernel

theorem test_wit_qlaunch :
    let r := tReq 0 [0x8000, 2, 0x8040]
    let s := tCall 0x14 r [(R.FAB_PART_CFG_QCOMPAT, 1, 0, 0, 0), (R.PART_CHAN_CHAN, 1, 0, 0, 0), (R.PART_SETS_SETS, 2, 0, 0, 0),
      (R.PART_STATUS_STATE, 1, 0, 0, 0)]
    s.wf = true ∧ s.openAs 0x14 r = true ∧ s.threads.all (fun e => e.2.run ≠ some r) = true ∧ s.qlaunchStatus r = 0 ∧
    (tCall 0x14 r []).qlaunchStatus r = stDenied := by decide +kernel

theorem test_wit_msix : ∀ e ∈ [(6, false), (7, true)],
    let t := tGrp [(R.PCIE_CQ_IRQ_IEN, 1, 0, 0, 0), (R.PCIE_CQ_IRQ_TIME, 7, 0, 0, 0)]
    let s := (t.setCq 0 0 { CqSt.init with unsig := 1 })
    let u : State := { s with tempo := { s.tempo with now := e.1 } }
    u.wf = true ∧ u.on R.PCIE_CQ_IRQ_IEN 0 0 0 = true ∧ u.hostOk 0 = true ∧ 0 < (u.cq 0 0).unsig ∧ u.busOk 0 = true ∧
    (((u.cq 0 0).oldest + u.rd R.PCIE_CQ_IRQ_TIME 0 0 0 ≤ u.tempo.now) ↔ e.2 = true) := by decide +kernel

theorem test_wit_failed_read : (tGrp []).wf = true ∧ (tGrp []).mayTake 0 = true := by decide +kernel

/-! ### Partitions, boot, security -/

theorem test_wit_lock :
    (tst [(R.PART_STATUS_LOCKED, 1, 3, 0, 0)]).locked 3 = true ∧
    (let s := tst [(R.PART_CHAN_CHAN, 1, 0, 0, 0), (R.PART_SETS_SETS, 1, 0, 0, 0)]
     s.wf = true ∧ s.locked 0 = false ∧ s.setupCode 0 = 0) ∧
    (tst [(R.PART_SETS_SETS, 1, 0, 0, 0)]).setupCode 0 = 3 ∧ (tst []).setupCode 3 = 1 ∧ (tst []).locked 0 = false := by decide +kernel

/-- A MPASS of Set 0 in flight since tick 0, at a tick. -/
def tSlow (now : Nat) (again : Bool) : State :=
  let s := (tSet 0x102 0 0 0).wr R.TEMPO_PERIOD_HALF_US 20
  let s := s.setSt 0 { SetSt.init with flights := [{ tFlight .plain [] [] false with unit := .array }] }
  { s with tempo := { s.tempo with now := now }, tileResets := if again then [0] else [] }

theorem test_wit_timeout : ∀ again ∈ [false, true], ∀ e ∈ [(0, false), (2 ^ 30, true)],
    let s := tSlow e.1 again
    s.wf = true ∧ s.saving 0 = false ∧ s.tileResets.contains 0 = again ∧
    ∃ f, s.flightAt 0 0 = some f ∧ f.unit ≠ .none ∧
      (s.duration 0 (s.cmdAt (s.rd R.SCHED_STREAM_ADDR 0 + 32 * 0)) + 65536 ≤ s.cyclesIn (0 / 12) (s.tempo.now - f.stamp) ↔
        e.2 = true) := by
  intro again ha e he
  simp only [List.mem_cons, List.not_mem_nil, or_false] at ha he
  rcases ha with rfl | rfl <;> rcases he with rfl | rfl <;>
    exact ⟨by decide +kernel, by decide +kernel, by decide +kernel, _, rfl, by decide +kernel, by decide +kernel⟩

theorem test_wit_saving : (tst [(R.PART_STATUS_STATE, 4, 0, 0, 0)]).saving 0 = true ∧ (tSet 0 0 0 0).timed 0 = false ∧
    ((tSet 0 0 0 0).wr R.SCHED_IMG_TIMED 1).timed 0 = true ∧ (tSet 0 0 0 0).setState 0 ≠ 0 := by decide +kernel

/-- Partition 1 in a STATE, standalone or not, with a save slot or not. -/
def tPartIn (st kind save : Nat) : State :=
  tst [(R.PART_STATUS_STATE, st, 1, 0, 0), (R.PART_CTL_KIND, kind, 1, 0, 0), (R.PART_SAVE_EN, save, 1, 0, 0),
    (R.PART_SETS_SETS, 4, 1, 0, 0)]

theorem test_wit_partitions :
    (∀ st ∈ [0, 1, 2, 3, 4, 5], ∀ kind ∈ [0, 1], ∀ save ∈ [0, 1], let s := tPartIn st kind save
      s.wf = true ∧ s.rd R.PART_STATUS_STATE 1 = st ∧ s.on R.PART_CTL_KIND 1 = (kind == 1) ∧
      s.on R.PART_SAVE_EN 1 = (save == 1) ∧ mget none s.resets 1 = none ∧ s.threadsWait 1 = false ∧ s.fab.descs = [] ∧
      ∀ x ∈ s.resetHeld, x.1 ∉ s.setsOf 1) ∧
    (tst [(R.PART_STATUS_LOCKED, 1, 3, 0, 0)]).lockedBut 0 = [3] := by decide +kernel

/-- A reset of partition 1 under way since tick 0. -/
theorem test_wit_reset_done : ∀ e ∈ [(0, false), (2 ^ 24, true)], ∀ clear ∈ [false, true], ∀ scrub ∈ [false, true], ∀ waits ∈ [false, true],
    let j : ResetJob := ⟨clear, scrub, 0, waits, 8⟩
    let t := tPartIn 2 1 0
    let s : State := { t with resets := [(1, some j)], tempo := { t.tempo with now := e.1 } }
    s.wf = true ∧ mget none s.resets 1 = some j ∧ s.resetOver 1 = (e.2 && !waits) ∧ (∀ b ∈ s.host.bells, b.grp ≠ 1) ∧
    s.rd R.PART_SCRATCH_SCRATCH 1 = 0 ∧ (waits = false → (s.advanceReset 1).resetOver 1 = e.2) := by decide +kernel

/-- A reset of partition 1 that still reads its ring, or whose moves are not complete. -/
theorem test_wit_reset_steps :
    (let j : ResetJob := ⟨false, false, 0, false, 2⟩
     let t := tst [(R.PART_STATUS_STATE, 2, 1, 0, 0), (R.PCIE_GRP_CTL_EN, 1, 0, 1, 0), (R.PCIE_GRP_SQ_CFG_LOG2N, 4, 0, 1, 0),
       (R.PCIE_GRP_SQ_CFG_TAIL, 3, 0, 1, 0)]
     let s : State := { t with resets := [(1, some j)], host := { t.host with bme := 3 } }
     s.wf = true ∧ mget none s.resets 1 = some j ∧ s.drained 1 = false ∧ (s.advanceReset 1).resetOver 1 = false) ∧
    (let j : ResetJob := ⟨false, false, 0, false, 5⟩
     let t := tPartIn 2 1 0
     let s : State := { t with resets := [(1, some j)], moves := [jobMove 2 1 false true .none] }
     s.wf = true ∧ mget none s.resets 1 = some j ∧ (∃ m ∈ s.moves, m.part = 1)) ∧
    (tPartIn 1 1 0).drained 1 = true := by decide +kernel

theorem test_wit_perst : State.reset.boot.perst = true ∧ State.reset.wf = true ∧
    (let s : State := { tst [] with boot := { Boot.init with perst := false } }
     s.wf = true ∧ s.boot.perst = false) := by decide +kernel

/-- A package in a boot stage. -/
def tBoot (stage : Nat) (retried waitFlow : Bool) : State :=
  { tst [(R.SEC_STATUS_STAGE, stage, 0, 0, 0)] with boot := { Boot.init with perst := false, retried := retried, waitFlow := waitFlow } }

/-- A bundle of one empty component under the key of scalar 1, signed as the manifest is. -/
def tBundle : List Byte :=
  let b := toLE 4 0x57464853 ++ [1, 0, 0, 0] ++ toLE 8 0 ++ [1] ++ List.replicate 7 0 ++ toLE 4 320 ++ toLE 4 417 ++
    List.replicate 224 0 ++ (List.replicate 16 0 ++ sha384 []) ++ tPoint
  b ++ toBE 48 bpG.x ++ toBE 48 ((ofBE (sha384 b) + bpG.x) % bpN)

/-- It stands in boot SRAM at stage VERIFY, and the fuses hold its key. -/
def tBundled (bs : List Byte) (retried : Bool) : State :=
  let s := tBoot 3 retried false
  { s with
    boot := { s.boot with sram := tBytes bs }
    fuses := { s.fuses with fwKeys := [(sha384 tPoint, false), ([], false)] } }

theorem test_wit_boot :
    (∀ n ∈ [0, 1, 2, 3, 4, 5, 6, 7, 8], ∀ retried ∈ [false, true], ∀ flow ∈ [false, true], let s := tBoot n retried flow
      s.wf = true ∧ s.rd R.SEC_STATUS_STAGE = n ∧ s.boot.perst = false ∧ s.boot.retried = retried ∧ s.boot.waitFlow = flow ∧
      s.fuses.noIdentity = false ∧ s.weights.staging = none) ∧
    ({ FuseBank.init with badWords := [(1, 0)] } : FuseBank).noIdentity = true ∧
    (tBundled tBundle false).wf = true ∧ (tBundled tBundle false).bundleGood = true ∧
    (tBundled (tBundle.set 0 0) true).bundleGood = false ∧ (tBundled (tBundle.set 0 0) true).rd R.SEC_STATUS_STAGE = 3 := by decide +kernel

/-- A signature of a message with scalar 1 and nonce 1. -/
def tSign (msg : List Byte) : List Byte := toBE 48 bpG.x ++ toBE 48 ((ofBE (sha384 msg) + bpG.x) % bpN)

theorem test_wit_management :
    (tst []).wf = true ∧ (tst []).on R.SEC_PKG_ASSIGNED = false ∧
    (tst [(R.SEC_PKG_ASSIGNED, 1, 0, 0, 0), (R.SEC_PKG_PKG_ID, 7, 0, 0, 0)]).rd R.SEC_PKG_PKG_ID ≠ 8 ∧
    (tst [(R.PWR_STATUS_SAG, 1, 0, 0, 0)]).noBurn = true ∧ (tst []).noBurn = false ∧
    (tst []).rd R.SEC_SVN_IMAGE ≤ (tst []).fuses.svn ∧
    (let s := tst [(R.SEC_SVN_IMAGE, 3, 0, 0, 0)]
     s.fuses.svn < s.rd R.SEC_SVN_IMAGE ∧ s.boot.revokeOther = false) ∧ (tst []).fuses.owners.length = 4 ∧
    (tst []).mayRegister 2 tPoint [] = true ∧ (tst []).mayRegister 2 [] [] = false ∧
    (let s : State := { tOwner (tst []) with fuses := { FuseBank.init with owners := [⟨some (sha384 tPoint), true, false⟩, ⟨none, false, false⟩,
        ⟨none, true, false⟩, ⟨none, false, false⟩] } }
     s.wf = true ∧ s.fuses.owners.length = 4 ∧ s.mayRevoke 0 (tSign (s.uidBytes ++ [0x52] ++ toLE 1 0)) = true ∧
     s.mayRevoke 0 [] = false) := by decide +kernel

/-- A debug token for the part, a nonce of zeros. -/
def tToken : DebugToken :=
  ⟨0, List.replicate 32 0, true, tSign (toLE 16 0 ++ List.replicate 32 0 ++ toLE 1 1)⟩

theorem test_wit_debug :
    (let t := tOwner (tst [])
     let s : State := { t with boot := { t.boot with nonce := some (List.replicate 32 0) } }
     s.wf = true ∧ s.fuses.noDebug = false ∧ s.boot.nonce = some tToken.nonce ∧ tToken.uid.toNat = s.fuses.uid ∧
     s.tokenSigned tToken = true ∧ s.fuses.lifecycle ≠ 0) ∧
    (tst []).boot.nonce ≠ some tToken.nonce ∧ (tst []).on R.SEC_STATUS_DEBUG = false ∧
    (tst [(R.SEC_STATUS_DEBUG, 1, 0, 0, 0)]).on R.SEC_STATUS_DEBUG = true ∧ (([0x11, 0xEE] : List Byte).drop 1).headD 0 = 0xEE := by
  decide +kernel

/-- Context 0 of tile 0 has its turn, in a QCOMPAT partition that runs. -/
theorem test_wit_threads :
    let s := tst [(R.FAB_PART_CFG_QCOMPAT, 1, 0, 0, 0), (R.PART_STATUS_STATE, 1, 0, 0, 0), (R.PART_SETS_SETS, 1, 0, 0, 0)]
    let t : State := { s with threads := [(0, ⟨some tInst, 0, 0, false, [], false⟩)], turns := [(0, 1)] }
    t.wf = true ∧ t.executes 0 0 = true ∧ s.executes 0 0 = false := by decide +kernel

/-! ### Power -/

theorem test_wit_caps :
    (∀ e ∈ [(0, false), (1, true)], ∀ d ∈ [0, 5],
      let s := tst [(R.PART_STATUS_LOCKED, e.1, 0, 0, 0), (R.PWR_FLOOR_DECL, d, 0, 0, 0)]
      s.wf = true ∧ s.power.thermal = none ∧ s.on R.PWR_STATUS_SAG = false ∧ s.locked 0 = e.2 ∧ s.rd R.PWR_FLOOR_DECL = d) ∧
    clampCap 399 = 400 ∧ clampCap 3601 = 3600 := by decide +kernel

/-- A cap at the floor holds nothing, one below it does, unless it is forced. -/
theorem test_cap : ∀ e ∈ [(2000, false, false), (1999, false, true), (1999, true, false)],
    ∃ t, exec (.setPowerCap (BitVec.ofNat 16 e.1) e.2.1) (tst [(R.PWR_FLOOR_EFF, 2000, 0, 0, 0)]) = .next t ∧ t.power.held = e.2.2 := by
  intro e he
  simp only [List.mem_cons, List.not_mem_nil, or_false] at he
  rcases he with rfl | rfl | rfl <;> exact ⟨_, rfl, by decide +kernel⟩

/-- A window in which nothing ran. -/
def tWindow : Activity := ⟨[], [], [], [], [], 0, []⟩

theorem test_wit_window : ∀ shut ∈ [true, false], let s : State := { tst [] with gate := { Gate.init with shut := shut } }
    s.wf = true ∧ s.gate.shut = shut ∧ s.power.thermal = none ∧ s.power.ramp = none := by decide +kernel

/-- A die whose rail rises, and rails that have been commanded. -/
def tRails (rising : Option Nat) : State :=
  let s := tst [(R.PWR_STATUS_ACTIVE, 1, 0, 0, 0)]
  { s with power := { s.power with dies := [⟨rising, none⟩, ⟨none, none⟩, ⟨none, none⟩, ⟨none, none⟩], rails := [700, 0, 0, 0] } }

theorem test_wit_rails : (∀ r ∈ [none, some 3], (tRails r).wf = true ∧ ((tRails r).dieClk 0).rising = r ∧
      (tRails r).on R.PWR_STATUS_ACTIVE 0 = true ∧ (tRails r).power.rails[0]? = some 700) ∧
    (tst [(R.PWR_STATUS_ACTIVE, 0, 0, 0, 0)]).on R.PWR_STATUS_ACTIVE 0 = false := by decide +kernel

/-- The management group has a completion ring. -/
def tMgmt : State :=
  let s := tst [(R.PCIE_GRP_CTL_EN, 1, 0, 16, 0), (R.PCIE_CQ_CFG_EN, 1, 0, 16, 0)]
  { s with host := { s.host with bme := 1 } }

theorem test_wit_mgmt_ring : tMgmt.ringOpen 16 (tMgmt.rd R.PCIE_GRP_CTL_MGMT_CQ 0 16) := by unfold State.ringOpen; decide +kernel

theorem test_wit_park : ∀ e ∈ [(0, false), (1, true)],
    let s := tst [(R.PWR_STATUS_FLOW_OK, e.1, 0, 0, 0), (R.PWR_STATUS_MODE, 4, 0, 0, 0), (R.SCHED_STATUS_STATE, 2, 0, 0, 0),
      (R.PWR_THERM_TRIP, 105, 0, 0, 0)]
    let b : State := { s with power := { s.power with flowBack := e.2 } }
    s.wf = true ∧ s.on R.PWR_STATUS_FLOW_OK = e.2 ∧ s.setState 0 ≠ 0 ∧ s.boot.trip = false ∧ s.rd R.PWR_THERM_TRIP = 105 ∧ b.wf = true ∧
    (b.rd R.PWR_STATUS_MODE = 4 ∧ b.on R.PWR_STATUS_FLOW_OK = true ∧ b.power.flowBack = true ↔ e.2 = true) := by decide +kernel

theorem test_wit_sag : ∀ e ∈ [(0, false), (1, true)],
    let s := tst [(R.PWR_STATUS_SAG, e.1, 0, 0, 0), (R.PWR_THERM_THROTTLE, 95, 0, 0, 0)]
    let b : State := { s with weights := (tProg 0 none).weights }
    s.wf = true ∧ s.on R.PWR_STATUS_SAG = e.2 ∧ s.rd R.PWR_THERM_THROTTLE = 95 ∧ s.power.thermal = none ∧
    b.weights.install.isSome = true := by decide +kernel

/-! ### Takeover, health, ageing -/

/-- A package without a rank that takes part in takeovers, and an order of a generation for rank 0 in its region; the mirror
of that rank is at a package or nowhere. -/
def tOrder (valid : Bool) (ranks : List (Nat × Nat)) : State :=
  let s := tst [(R.HEALTH_CTL_TAKEOVER_EN, 1, 0, 0, 0)]
  ({ s with roles := ⟨1, 0, 1, ranks⟩ } : State).devSet 0x40000 (toLE 8 (b2n valid * 2 ^ 12) ++ toLE 8 3)

theorem test_wit_order : ∀ e ∈ [(true, []), (true, [(0, 6)]), (false, [(0, 6)])], let s := tOrder e.1 e.2
    let w0 := s.devWord (s.tkAt 0x40000)
    s.wf = true ∧ (s.on R.HEALTH_CTL_TAKEOVER_EN = true ∧ s.rank.isNone = true ∧ w0.testBit 12 = true ∧
      s.health.orderGen < s.devWord (s.tkAt 0x40008) ↔ e.1 = true) ∧ s.health.kit = none ∧
    s.buddyOf (bits w0 11 0) = (e.2.head?.map (fun x => x.2 - 1)) := by decide +kernel

/-- Two members, the second this package; the barrier timed out at tick 0, and it is `now`; health records stand or not. -/
def tCoord (now : Nat) : State :=
  let s := tst [(R.HEALTH_CTL_TAKEOVER_EN, 1, 0, 0, 0)]
  { s with
    roles := ⟨1, 0, 2, [(0, 6), (1, s.pkgId + 1)]⟩
    tempo := { s.tempo with now := now, tmoEff := 1, marks := [⟨5, 1⟩, ⟨s.pkgId, 1⟩] }
    health := { s.health with tmoAt := some 0 } }

theorem test_wit_coordinator : ∀ e ∈ [(1023, false), (1024, true)], let s := tCoord e.1
    s.wf = true ∧ s.health.tmoAt = some 0 ∧ (0 + s.tempo.tmoEff * 1024 ≤ s.tempo.now ↔ e.2 = true) ∧ s.tableHere = false ∧
    s.on R.HEALTH_CTL_TAKEOVER_EN = true ∧ s.rank.isSome = true ∧
    (s.members.filter (fun q => !s.missing.contains q))[s.health.coordsOut + 1]? = some s.pkgId ∧
    (s.tableHere = true → False) := by decide +kernel

/-- A coordinator whose one order, of package 5 for rank 0, is answered by its ready record. -/
def tReady (sent : Bool) : State :=
  let s := tCoord 0
  ({ s with roles := ⟨1, 0, 2, [(0, 4), (1, s.pkgId + 1)]⟩
            health := { s.health with coord := some ⟨1, 2, [3], [⟨0, 5, none⟩], [], sent⟩ } } : State).devSet (0x40040 + 64 * 5)
    (toLE 8 (2 ^ 12) ++ toLE 8 2)

theorem test_wit_ready : ∀ b ∈ [false, true], let s := tReady b
    s.wf = true ∧ ∃ c, s.health.coord = some c ∧ c.sent = b ∧
      (let os := c.orders.map (s.readOrder c.gen)
       os.all (fun o => o.ok = some true) = true ∧ s.failedSet.all (fun q => c.failed.contains q) = true ∧
       (s.ranksOf c.failed).all (fun r => os.any (fun o => o.rank = r)) = true ∧ s.ranksOf c.failed = [0]) := by
  intro b hb
  simp only [List.mem_cons, List.not_mem_nil, or_false] at hb
  rcases hb with rfl | rfl <;> exact ⟨by decide +kernel, _, rfl, by decide +kernel⟩

/-- A pending table of generation 2 for bar 1, to start at beat 0. -/
def tDue (eff : Nat) : State :=
  let s := tst [(R.TEMPO_STATUS_COUNT_VALID, 1, 0, 0, 0)]
  ({ s with tempo := { s.tempo with barOn := true } } : State).devSet 0x80040
    (toLE 8 1 ++ toLE 8 2 ++ toLE 8 eff ++ toLE 8 0 ++ toLE 8 (5 + 2 ^ 12))

theorem test_wit_start : ∀ e ∈ [(1, true), (9, false)], (tDue e.1).wf = true ∧ (tDue e.1).takeoverDue = e.2 := by decide +kernel

/-- The same table once its bar has started without it; judged late before, or not. -/
theorem test_wit_late : let s := (tDue 1).wr R.TEMPO_BAR_NUM_BAR 7
    s.wf = true ∧ s.takeoverDue = false ∧ s.tableLate = true ∧
    ({ s with health := { s.health with judged := 2 } } : State).tableLate = false := by decide +kernel

theorem test_wit_health : ∀ e ∈ [(4096, true), (4095, false)],
    let s := tst [(R.HEALTH_CTL_EN, 1, 0, 0, 0), (R.TEMPO_BAR_NUM_BAR, e.1, 0, 0, 0)]
    let s : State := { s with
      tempo := { s.tempo with barOn := true }
      health := { s.health with record := (s.healthWords s.eligible).eraseIdx 1 } }
    s.wf = true ∧ s.healthDue = e.2 ∧ s.rackOf 0 7 ≠ 0xFF ∧
    ({ s with health := { s.health with causes := [2, 7] } } : State).standing ≠ [] ∧
    ({ s with health := { s.health with causes := [2] } } : State).standing = [] := by decide +kernel

/-- A control core with two resets behind it, 4,096 or 4,097 beats ago. -/
theorem test_wit_core : ∀ e ∈ [(4096, true), (4097, false)],
    let t := tst [(R.TEMPO_STATUS_COUNT_VALID, 1, 0, 0, 0)]
    let s : State := { t with
      tempo := { t.tempo with now := e.1 * 1024 }
      health := { t.health with resets := [(2, 0), (2, 0)] } }
    let near := (s.health.resets ++ [((2 : Fin 8).val, s.beat)]).filter (fun e => decide (s.beat ≤ e.2 + 4096))
    s.wf = true ∧ ((near.filter (fun e => e.1 = (2 : Fin 8).val)).length = 3 ↔ e.2 = true) := by decide +kernel

theorem test_wit_core_crc (core : Fin 8) (s : State) :
    let good := Config.coreCrc core (crc32c (mgetList 0 s.boot.bundleCopy 0 s.bundleLen))
    (∃ c : BitVec 32, c = good) ∧ ∃ c : BitVec 32, c ≠ good :=
  ⟨⟨_, rfl⟩, _, other _⟩
where
  /-- Another CRC than a given one. -/
  other (c : BitVec 32) : c + 1 ≠ c := by bv_omega

theorem test_wit_commit_log : ∀ e ∈ [(0, false), (1, true)], let s := tst [(R.PWR_STATUS_SAG, e.1, 0, 0, 0)]
    s.wf = true ∧ s.on R.PWR_STATUS_SAG = e.2 := by decide +kernel

/-- A package in service at a bar, its last re-plan at bar 0. -/
def tPlanned (bar : Nat) : State :=
  let s := tst [(R.HEALTH_CTL_EN, 1, 0, 0, 0), (R.TEMPO_BAR_NUM_BAR, bar, 0, 0, 0), (R.HEALTH_CFG_REPLAN_BARS, 64, 0, 0, 0),
    (R.HEALTH_CFG_SWEEP_BARS, 2, 0, 0, 0), (R.HEALTH_FLOOR_SLACK_PS, 20, 0, 0, 0), (R.HEALTH_FLOOR_OFFSET_MAX, 10, 0, 0, 0),
    (R.HEALTH_FLOOR_EYE_MV, 30, 0, 0, 0), (R.HEALTH_FLOOR_HBM_STEPS, 8, 0, 0, 0)]
  { s with tempo := { s.tempo with barOn := true } }

theorem test_wit_replan : (∀ e ∈ [(64, true), (63, false)], (tPlanned e.1).wf = true ∧ (tPlanned e.1).replanDue = e.2 ∧
      (tPlanned e.1).healthOn = true ∧ (tPlanned e.1).on R.HEALTH_STATUS_REPLAN = false) ∧
    (tst []).healthOn = false := by decide +kernel

/-- Drift brought the re-plan of dies 2 and 3 forward, before the whole one is due. -/
theorem test_wit_forward : let t := tPlanned 63
    let s : State := { t with health := { t.health with forward := [2, 3] } }
    s.wf = true ∧ s.replanDue = false ∧ s.mayReplan = true ∧ s.health.forward = [2, 3] ∧ (tst []).mayReplan = false := by decide +kernel

/-- Tile 0 of the re-plan in a stage since bar 1. -/
def tSwept (bar stage : Nat) : State :=
  let s := tPlanned bar
  { s with
    health := { s.health with replan := some ⟨0, 0, 96, stage, 1, false⟩ }
    fuses := { s.fuses with sens := [10, 10, 10, 10] } }

theorem test_wit_sweep : (∀ e ∈ [(2, 2), (3, 1), (3, 2)], let s := tSwept e.1 e.2
      s.wf = true ∧ ∃ r, s.health.replan = some r ∧ (r.stage = 2 ∧ r.since + s.rd R.HEALTH_CFG_SWEEP_BARS ≤ s.bar ↔ e = (3, 2))) ∧
    (let s := tSwept 3 2
     s.rd R.HEALTH_FLOOR_OFFSET_MAX < s.needed 9 ∧ ¬s.rd R.HEALTH_FLOOR_OFFSET_MAX < s.needed 10) := by
  refine ⟨?_, by decide +kernel⟩
  intro e he
  simp only [List.mem_cons, List.not_mem_nil, or_false] at he
  rcases he with rfl | rfl | rfl <;> exact ⟨by decide +kernel, _, rfl, by decide +kernel⟩

/-- Drift of half the floor, and just under it. -/
theorem test_wit_monitor : let s := tPlanned 0
    s.wf = true ∧ s.healthOn = true ∧
    (let m : Monitor := ⟨[9, 9, 9, 9], [30, 31]⟩
     m.drift.all (fun d => decide (2 * d < s.rd R.HEALTH_FLOOR_SLACK_PS)) = true ∧
     m.eyes.all (fun e => decide (s.rd R.HEALTH_FLOOR_EYE_MV ≤ e)) = true ∧ m.eyes[1]? = some 31) ∧
    (let m : Monitor := ⟨[9, 10, 9, 9], []⟩
     m.drift[1]? = some 10 ∧ s.rd R.HEALTH_FLOOR_SLACK_PS ≤ 2 * 10) := by decide +kernel

theorem test_wit_channel :
    (let s := tPlanned 0
     s.healthOn = true ∧ 7 < s.rd R.HEALTH_FLOOR_HBM_STEPS ∧ ¬8 < s.rd R.HEALTH_FLOOR_HBM_STEPS ∧ s.layout.channels.contains 4 = false) ∧
    (∀ e ∈ [([], true), ([⟨4, 0, 3, 0⟩, ⟨4, 6, 3, 63⟩], false)], let s : State := { tst [] with fuses := { FuseBank.init with d2dRepair := e.1 } }
     let used := (s.lanesOut.filter (fun x => x.1 = 3 && x.2 / 64 = 5 / 64)).eraseDups.length
     s.wf = true ∧ s.lanesOut.contains (3, 5) = false ∧ (used < 2 ↔ e.2 = true)) ∧
    ({ tst [] with fuses := { FuseBank.init with d2dRepair := [⟨4, 0, 3, 5⟩] } } : State).lanesOut.contains (3, 5) = true := by decide +kernel

/-- CHECK window 1 with a stride, beside window 0 when that is on. -/
def tWin (other lock stride : Nat) : State :=
  tst [(R.CHECK_WIN_BASE_EN, other, 0, 0, 0), (R.CHECK_WIN_LIMIT_LIMIT, 0x1000, 0, 0, 0), (R.CHECK_WIN_BASE_BASE, 0x800, 0, 1, 0),
    (R.CHECK_WIN_LIMIT_LIMIT, 0x1800, 0, 1, 0), (R.CHECK_WIN_SLOT_SLOT, stride, 0, 1, 0), (R.PART_STATUS_LOCKED, lock, 0, 0, 0)]

theorem test_wit_window_enable : ∀ e ∈ [(0, 0, 0x100, true), (1, 0, 0x100, false), (0, 1, 0x100, true), (0, 0, 0x300, false)],
    let s := tWin e.1 e.2.1 e.2.2.1
    s.wf = true ∧ s.on R.CHECK_WIN_BASE_EN 0 1 = false ∧ s.locked (s.rd R.CHECK_WIN_SLOT_PART 0 1) = (e.2.1 == 1) ∧
    s.windowGood 1 = e.2.2.2 ∧ s.on R.CHECK_WIN_BASE_EN 0 0 = (e.1 == 1) := by decide +kernel

/-- A Set whose repair step has one object, at a source its partition may read or not. -/
def tRepair (owned : Bool) : State :=
  let s := if owned then tSet 0 0 0 0 else tst []
  (s.setSt 0 { SetSt.init with repair := [⟨7, 0x40, 0x8000, 64, ofLE (tObj.take 4)⟩] }).devSet 0x8000 tObj

theorem test_wit_repair :
    (let s := tRepair true
     s.wf = true ∧ (s.st 0).repair = [⟨7, 0x40, 0x8000, 64, ofLE (tObj.take 4)⟩] ∧ s.originOf 0x8000 64 = none ∧
     ∃ bs, s.readFor 0 0x8000 64 = .ok bs ∧ bs.length = 64 ∧ verifies bs 64 (ofLE (tObj.take 4)) = true) ∧
    (∃ e, (tRepair false).readFor 0 0x8000 64 = .error e) ∧ (tRepair false).originOf 0x8000 64 = none :=
  ⟨⟨by decide +kernel, by decide +kernel, by decide +kernel, _, rfl, by decide +kernel⟩, ⟨_, rfl⟩, by decide +kernel⟩

/-- The IDCODEs of A1 and A0 (R487). -/
theorem test_idcode : State.reset.idcode = 0x17120B97 ∧
    ({ State.reset with fuses := { FuseBank.init with stepping := 0x10 } } : State).idcode = 0x07120B97 := by decide +kernel

/-! ### Turns, moves under way, and resets -/

/-- LSCLEAR of a scratchpad row, and QUANT whose context names a STAT address in the partition's memory or none. -/
theorem test_wit_quant_stat :
    tIssues (tRows 0x3C 0 0 0x2000) (isVop 0x3C 0x3C) (fun g => g.n ≠ 0 && !g.c.dst.acc) = true ∧
    (∀ a ∈ [0, 0x8000], let s := (tVop 0x20 32).sramPut (tileKey 0 false 0x1028) (clean (toLE 8 a))
      tIssues s (isVop 0x20 0x29) (fun g => g.n ≠ 0 && g.c.tiles 0 = [0] &&
        bits (ofLE (((s.sram 0 false g.c.src1.off 64).drop 40).take 8 |>.map (·.1))) 47 0 = a &&
        (a = 0 || s.inPart (s.partOf 0) a 64)) = true) ∧
    (tIssues (tVop 0x2A 32) (isVop 0x2A 0x2A) (fun g => g.n ≠ 0)) = true := by decide +kernel

/-- A Set halted by a kill in the bar, by a kill with nothing under way, and by an expired holdover. -/
theorem test_wit_halted : ∀ e ∈ [(HaltWhy.kill, some 2), (.kill, none), (.role, none), (.expiry, some 2)],
    let s := ((tSet 0 0 0 0).wr R.SCHED_STATUS_STATE 5).setSt 0 { SetSt.init with why := e.1, halted := e.2 }
    s.wf = true ∧ s.setState 0 = 5 ∧ (s.st 0).why = e.1 ∧ (s.st 0).halted = e.2 ∧ s.timed 0 = false := by decide +kernel

/-- A Cancel that waits for a move or for a record, and requests that it is not the turn of. -/
theorem test_wit_cancel_waits :
    (let s := tSeq 2 (tReq tHandle []) tKv (tEntry 4)
     let t : State := { s with caller := { s.caller with moves := [⟨3, true, 0x50000, []⟩] } }
     t.wf = true ∧ t.seqTurn 2 (tReq tHandle []) = true ∧ t.moving 3 = true ∧ t.recordWaits tHandle = false ∧ t.caller.waits = []) ∧
    (let s := tSeq 2 (tReq tHandle []) tKv (tEntry 3)
     let t : State := { s with caller := { s.caller with waiting := [⟨0, 0, [0, 0, 0, tHandle], 0, [1]⟩] } }
     t.wf = true ∧ t.seqTurn 2 (tReq tHandle []) = true ∧ t.moving 3 = false ∧ t.recordWaits tHandle = true) ∧
    (let s := tSeq 2 (tReq tHandle []) tKv (tEntry 3)
     let t : State := { s with caller := { s.caller with waits := [⟨3, true, tReq tHandle [], 0⟩] } }
     t.seqTurn 2 (tReq tHandle []) = false) := by decide +kernel

/-- A Resume of a sequence whose EXPIRY beat had come, and one taken before it that holds the expiry back. -/
theorem test_wit_resume_late :
    (let s := tPaused 4 (tReq tHandle [])
     s.wf = true ∧ s.seqTurn 4 (tReq tHandle []) = true ∧ (s.seq 3).state = 5 ∧ s.expiredBy 3 (s.takenAt (tReq tHandle [])) = true ∧
     (s.seq 3).cancelled = false ∧ s.resumeFirst 3 = false ∧ (s.seq 3).again = false) ∧
    (let t := tPausedLong 4 (tReq tHandle [])
     let s : State := { t with tempo := { t.tempo with now := 16 * 1024 } }
     s.wf = true ∧ s.expiredBy 3 s.tempo.now = true ∧ s.resumeFirst 3 = true) := by decide +kernel

/-- The moves of a Pause and of a Resume, written in one turn or stopped by the allowance. -/
theorem test_wit_shelf_jobs : ∀ e ∈ [(0, true), (1000000, false)],
    (let s := tJob (.pause 3) (tMove 4 true) e.1
     s.wf = true ∧ (s.runJob (.pause 3)).2 = e.2 ∧ s.caller.moves.any (fun m => m.index = 3 && m.toShelf) = true ∧
     s.caller.cached.contains 3 = true ∧ (s.seq 3).again = false) ∧
    (let s := tJob (.resume 3) (tMove 6 false) e.1
     s.wf = true ∧ (s.runJob (.resume 3)).2 = e.2 ∧ s.caller.moves.any (fun m => m.index = 3 && !m.toShelf) = true) := by
  decide +kernel

/-- A partition whose free stack the Caller has written before, and one that it has not. -/
theorem test_wit_stacked : ∀ e ∈ [([0], true), ([], false)],
    let t := tst [(R.PART_STATUS_LOCKED, 1, 0, 0, 0), (R.CALLER_ADMIT_CTL_PF_CHUNK, 0, 0, 0, 0)]
    let s : State := { t with caller := { t.caller with stacked := e.1 } }
    s.wf = true ∧ s.mayOpen 0 = true ∧ s.caller.stacked.contains 0 = e.2 ∧ s.windowsOff = true := by decide +kernel

/-- Nominations that were here at D_POS, and ones that came a tick later. -/
theorem test_wit_noms_missed : ∀ e ∈ [(1024, false), (1025, true)],
    let s := (tReel 1025 1).setLayer 0 0 { ReelLayer.init with begun := true, beganAt := e.1 }
    s.wf = true ∧ s.allHere 0 0 = true ∧ s.nomsMissed 0 0 = e.2 ∧ s.reached (s.dPos 0 0) = true := by decide +kernel

/-- A layer of which another member's blocks are missing at D_POS. -/
theorem test_wit_noms_absent :
    let s := tTwo ((tReel 1025 1).setLayer 0 0 { ReelLayer.init with begun := true })
    s.allHere 0 0 = false ∧ (s.layerOf 0 0).picks = none ∧ (s.layerOf 0 0).sent = false ∧ s.reached (s.dPos 0 0) = true := by
  decide +kernel

/-- INSTALL in supply sag, of the slot it resumes and of another; a shard whose read fails. -/
theorem test_wit_install_sag :
    (let s := tOwner (tCall 0x22 tInst [(R.PWR_STATUS_SAG, 1, 0, 0, 0)])
     let t : State := { s with nv := { s.nv with recA := ⟨1, 1, 1, 0, 0, 1, manDigest tMan⟩ } }
     s.wf = true ∧ t.wf = true ∧ s.installStatus 0 tMan = 0 ∧ s.resumes 0 tMan = false ∧ t.resumes 0 tMan = true ∧
     s.on R.PWR_STATUS_SAG = true) ∧
    (tProg 0 none).weights.redo = none ∧ (tProg 0 none).on R.PWR_STATUS_SAG = false ∧ fetched .failed 0 = none := by decide +kernel

/-- A port is trained once a package id is assigned. -/
theorem test_wit_assigned : ∀ e ∈ [(0, false), (1, true)], let s := tst [(R.SEC_PKG_ASSIGNED, e.1, 0, 0, 0)]
    s.wf = true ∧ s.portState 0 = 0 ∧ s.on R.SEC_PKG_ASSIGNED = e.2 := by decide +kernel

/-- Open operations that a reset absorbs, none of them waiting for a plane. -/
theorem test_wit_absorbed : ∀ o ∈ [tOp 0x09 .core (some 3), tOp 0x18 .core (some 3), tOp 0x1A .core (some 3)],
    let s := tOpen o
    let t : State := { s with tempo := { s.tempo with now := 2 ^ 24 } }
    s.openOp (tPkt 2 0x10 0 0 []) = some o ∧ o.absorb = some 3 ∧ (∀ x ∈ s.fab.ops, x.waiting = false) ∧
    s.fab.ops.find? (fun o => o.unit = 0x88 && o.reqid % 65536 = 7 && !o.waiting) = some o ∧
    t.passed o.stamp (t.rd R.FAB_DEAD_BEATS * 1024) = true ∧ s.fab.ops.all (fun o => !o.waiting) = true := by decide +kernel

/-- It is group 0's turn, and group 1's too early; a ring of a partition in reset. -/
theorem test_wit_turns :
    (tGrp []).ringTurn 0 = true ∧ (tGrp []).ringTurn 1 = false ∧ (tGrp []).ringTurn 16 = true ∧
    (let s := tGrp [(R.PART_STATUS_STATE, 2, 0, 0, 0)]
     s.wf = true ∧ s.mayTake 0 = true ∧ s.ringTurn 0 = true ∧ s.rd R.PART_STATUS_STATE 0 = 2) := by decide +kernel

theorem test_wit_turns_ring : (tGrp [(R.PART_STATUS_STATE, 2, 0, 0, 0)]).ringOpen 0 0 := by unfold State.ringOpen; decide +kernel

/-- What channel 0 keeps appears in partition 0's window once that is locked. -/
theorem test_wit_parked :
    let t := tst [(R.PART_CHAN_CHAN, 1, 0, 0, 0), (R.PART_SETS_SETS, 1, 0, 0, 0)]
    let s : State := { t with parked := [(5, 0x5A)] }
    s.wf = true ∧ s.locked 0 = false ∧ s.setupCode 0 = 0 ∧ s.chanAddr 0 5 = some 5 ∧ s.devByte 5 = 0 := by decide +kernel

/-- Units that fail at a boot stage. -/
theorem test_wit_boot_units :
    (∀ n ∈ [4, 5, 6], bootFailAt n (.die 0) = true) ∧ (∀ n ∈ [5, 6], bootFailAt n (.channel 9) = true) ∧
    bootFailAt 6 (.tile 3) = true ∧ bootFailAt 3 (.die 0) = false := by decide +kernel

/-- A burn of two more bits of SVN, and of one. -/
def tBurn (steps : List FuseBank) : State :=
  let s := tst [(R.SEC_SVN_IMAGE, 2, 0, 0, 0)]
  { s with boot := { s.boot with burn := some ⟨0x04, steps⟩ } }

theorem test_wit_burn :
    let f := fun (n : Nat) => ({ FuseBank.init with svn := n } : FuseBank)
    (tBurn [f 1, f 2]).wf = true ∧ (tBurn [f 1, f 2]).noBurn = false ∧ (tBurn [f 1, f 2]).boot.burn = some ⟨0x04, [f 1, f 2]⟩ ∧
    [f 1, f 2].getLast? = some (f 2) ∧ (tBurn [f 2]).rd R.SEC_SVN_IMAGE ≤ (f 2).svn ∧ (tst []).boot.burn = none := by decide +kernel

/-- Three resets of every core of X0 in 4,096 beats, with this one; two of core 2 alone. -/
theorem test_wit_cores_lost : ∀ e ∈ [((List.range 4).flatMap (fun k => if k = 2 then [(k, 0), (k, 0)] else [(k, 0), (k, 0), (k, 0)]), true),
      ([(2, 0), (2, 0)], false)],
    let t := tst [(R.TEMPO_STATUS_COUNT_VALID, 1, 0, 0, 0)]
    let s : State := { t with health := { t.health with resets := e.1 } }
    let near := (s.health.resets ++ [((2 : Fin 8).val, s.beat)]).filter (fun e => decide (s.beat ≤ e.2 + 4096))
    s.wf = true ∧ (List.range 4).all (fun k => decide (3 ≤ (near.filter (fun e => e.1 = k)).length)) = e.2 := by decide +kernel

/-- A coordinator that may still check itself, and cores that disagreed before. -/
theorem test_wit_disagree :
    let s := tReady false
    (s.health.resets.filter (fun e => e.1 = 1)).length < 3 ∧ s.health.coord.isSome = true ∧
    (tst []).health.coord = none := by decide +kernel

/-- A sag that holds a record and the log back, one noted under PERST_N, and one that ends. -/
theorem test_wit_sag_held :
    (let t := tst [(R.PWR_STATUS_SAG, 1, 0, 0, 0)]
     let s : State := { t with
       boot := { t.boot with perst := false }
       weights := { t.weights with held := [(0, ⟨1, 0, 1, 0, 0, 1, []⟩)] }
       power := { t.power with logHeld := true } }
     s.wf = true ∧ s.boot.perst = false ∧ s.on R.PWR_STATUS_SAG = true ∧ s.weights.held = [(0, ⟨1, 0, 1, 0, 0, 1, []⟩)] ∧
     s.power.logHeld = true) ∧
    (∀ e ∈ [(0, false), (1, true)], let s := tst [(R.PWR_STATUS_SAG, e.1, 0, 0, 0)]
      s.wf = true ∧ s.boot.perst = true ∧ s.on R.PWR_STATUS_SAG = e.2) := by decide +kernel

/-- A layer sampled for the next bar, with the reference copies of a manifest that names one, or none. -/
theorem test_wit_sample :
    (let m := tMan.set 166 4
     let s := tFmt true
     let t : State := { s with nv := { s.nv with recA := ⟨3, 1, 1, 0, 1, 1, []⟩ }, weights := { s.weights with manifests := [m, []] } }
     let h := mix64 ((t.devWord (t.fmtArea 0) + (t.bar + 1) * 0x100) % 2 ^ 64)
     t.wf = true ∧ t.activeSlot = some 0 ∧ t.hasReference 0 = true ∧ h % 65536 < bits (t.devWord (t.fmtEntry 0 0 + 72)) 16 0 ∧
     (∀ a n, t.inHole 0 a n = false) ∧ s.activeSlot = none ∧ s.hasReference 0 = false) := by
  refine ⟨by decide +kernel, by decide +kernel, by decide +kernel, by decide +kernel, ?_, by decide +kernel, by decide +kernel⟩
  intro a n
  rfl
end

section
/-! What every command keeps: the queue of waiting commands, and the canonical form of the sparse maps (`State.wf`).
`State.Keeps s t` says it between two states. It is a preorder, every operation of the model carries it from the state that the
operation starts from to the state that it ends in, and an operation's proof is written as its definition is: the proofs of
the operations that it is made of, one after the other. -/

namespace Sys2Proof.Machine

/-- `Fab.wf`, part by part. -/
structure Fab.Canonical (f : Fab) : Prop where
  ports : mwf PortSt.init f.ports = true
  cache : mwf none f.cache = true
  keys : mwf 0 f.keys = true
  peers : mwf 0 f.peers = true
  reqids : mwf 0 f.reqids = true
  rr : mwf 0 f.rr = true
  bad : mwf (0, 0) f.bad = true
  descs : ∀ d ∈ f.descs, d.num < f.nextDesc

/-- `Gate.wf`, part by part. -/
structure Gate.Canonical (g : Gate) : Prop where
  heldAt : mwf 0 g.heldAt = true
  byGate : mwf 0 g.byGate = true
  cycles : mwf 0 g.cycles = true

/-- `Health.wf`, part by part. -/
structure Health.Canonical (x : Health) : Prop where
  slack : mwf 0 x.slack = true
  drift : mwf 0 x.drift = true
  hbm : mwf 0 x.hbm = true
  mapped : mwf 0 x.mapped = true
  results : mwf [] x.results = true

/-- `Nv.wf`, part by part. -/
structure Nv.Canonical (n : Nv) : Prop where
  data : mwf 0 n.data = true
  logPages : mwf [] n.logPages = true
  slack : mwf 0 n.ageing.slack = true
  results : mwf [] n.ageing.results = true

/-- `State.wf`, part by part. -/
structure State.Canonical (s : State) : Prop where
  regs : mwf 0 s.regs = true
  mem : mwf 0 s.mem = true
  memMark : mwf false s.memMark = true
  tileMem : mwf 0 s.tileMem = true
  tileMark : mwf false s.tileMark = true
  tags : mwf 0 s.tags = true
  parked : mwf 0 s.parked = true
  parkedMark : mwf false s.parkedMark = true
  sets : mwf SetSt.init s.sets = true
  seqs : mwf Entry.init s.caller.seqs = true
  nvData : mwf 0 s.nv.data = true
  logPages : mwf [] s.nv.logPages = true
  nvSlack : mwf 0 s.nv.ageing.slack = true
  nvResults : mwf [] s.nv.ageing.results = true
  ports : mwf PortSt.init s.fab.ports = true
  cache : mwf none s.fab.cache = true
  keys : mwf 0 s.fab.keys = true
  peers : mwf 0 s.fab.peers = true
  reqids : mwf 0 s.fab.reqids = true
  rr : mwf 0 s.fab.rr = true
  bad : mwf (0, 0) s.fab.bad = true
  descs : ∀ d ∈ s.fab.descs, d.num < s.fab.nextDesc
  cqs : mwf CqSt.init s.host.cqs = true
  msixTab : mwf (0, 0) s.host.msixTab = true
  heldAt : mwf 0 s.gate.heldAt = true
  byGate : mwf 0 s.gate.byGate = true
  cycles : mwf 0 s.gate.cycles = true
  slack : mwf 0 s.health.slack = true
  drift : mwf 0 s.health.drift = true
  hbm : mwf 0 s.health.hbm = true
  tileSince : mwf 0 s.health.mapped = true
  results : mwf [] s.health.results = true
  bundleCopy : mwf 0 s.boot.bundleCopy = true
  threads : mwf Thread.init s.threads = true
  turns : mwf 0 s.turns = true
  windows : mwf (0, 0) s.windows = true
  resets : mwf none s.resets = true
  reel : mwf ReelPart.init s.reel = true
  hostSlots : mwf none s.weights.hostSlots = true
  sram : mwf 0 s.boot.sram = true
  seenMarks : mwf 0 s.tempo.seenMarks = true

theorem State.wf_iff (s : State) : s.wf = true ↔ s.Canonical := by
  simp only [State.wf, State.memWf, Nv.wf, Fab.wf, Gate.wf, Health.wf, Bool.and_eq_true, List.all_eq_true, decide_eq_true_eq]
  constructor
  · rintro ⟨⟨⟨⟨⟨⟨⟨⟨⟨⟨⟨⟨⟨⟨⟨⟨⟨⟨regs, ⟨⟨⟨⟨⟨⟨mem, memMark⟩, tileMem⟩, tileMark⟩, tags⟩, parked⟩, parkedMark⟩⟩, sets⟩, seqs⟩,
      ⟨⟨⟨nvData, logPages⟩, nvSlack⟩, nvResults⟩⟩, ⟨⟨⟨⟨⟨⟨⟨ports, cache⟩, keys⟩, peers⟩, reqids⟩, rr⟩, bad⟩, descs⟩⟩, cqs⟩,
      msixTab⟩, ⟨⟨heldAt, byGate⟩, cycles⟩⟩, ⟨⟨⟨⟨slack, drift⟩, hbm⟩, mapped⟩, results⟩⟩, bundleCopy⟩, threads⟩, turns⟩,
      windows⟩, resets⟩, reel⟩, hostSlots⟩, sram⟩, seenMarks⟩
    constructor <;> assumption
  · intro c
    simp only [c.regs, c.mem, c.memMark, c.tileMem, c.tileMark, c.tags, c.parked, c.parkedMark, c.sets, c.seqs, c.nvData,
      c.logPages, c.nvSlack, c.nvResults, c.ports, c.cache, c.keys, c.peers, c.reqids, c.rr, c.bad, c.cqs, c.msixTab, c.heldAt, c.byGate,
      c.cycles, c.slack, c.drift, c.hbm, c.tileSince, c.results, c.bundleCopy, c.threads, c.turns, c.windows, c.resets, c.reel,
      c.hostSlots, c.sram, c.seenMarks, and_self, true_and, and_true]
    exact c.descs

theorem State.Canonical.fab {s : State} (c : s.Canonical) : s.fab.Canonical := { c with }

theorem State.Canonical.gate {s : State} (c : s.Canonical) : s.gate.Canonical := { c with }

theorem State.Canonical.health {s : State} (c : s.Canonical) : s.health.Canonical := { c with mapped := c.tileSince }

theorem State.Canonical.nv {s : State} (c : s.Canonical) : s.nv.Canonical :=
  { data := c.nvData, logPages := c.logPages, slack := c.nvSlack, results := c.nvResults }

/-- Between two states the queue of waiting commands stays, and so does the canonical form. -/
def State.Keeps (s t : State) : Prop := t.pending = s.pending ∧ (s.wf = true → t.wf = true)

namespace State

variable {s₀ s t : State} {α β : Type}

theorem Keeps.refl (s : State) : s.Keeps s := ⟨rfl, id⟩

theorem Keeps.trans (h : s₀.Keeps s) (h' : s.Keeps t) : s₀.Keeps t := ⟨h'.1.trans h.1, h'.2 ∘ h.2⟩

/-- A change that leaves the queue alone and keeps each part in canonical form. -/
theorem Keeps.change (h : s₀.Keeps s) (hp : t.pending = s.pending) (hc : s.Canonical → t.Canonical) : s₀.Keeps t :=
  h.trans ⟨hp, fun w => (wf_iff t).2 (hc ((wf_iff s).1 w))⟩

/-- A change of what neither the queue nor a canonical form speaks of. -/
theorem Keeps.others (h : s₀.Keeps s) (hp : t.pending = s.pending := by rfl)
    (hc : s.Canonical → t.Canonical := by exact fun c => { c with }) : s₀.Keeps t :=
  h.change hp hc

/-! ### Choices and repetitions -/

theorem Keeps.ite {c : Prop} {_ : Decidable c} (hs : s₀.Keeps s) (ht : s₀.Keeps t) : s₀.Keeps (if c then s else t) := by
  split <;> assumption

theorem Keeps.foldl {f : State → β → State} {l : List β} (h : s₀.Keeps s) (hf : ∀ {t b}, s₀.Keeps t → s₀.Keeps (f t b)) :
    s₀.Keeps (l.foldl f s) :=
  foldl_keeps (P := s₀.Keeps) (fun _ _ => hf) l s h

/-- A repetition that carries something beside the state. -/
theorem Keeps.foldlFst {f : State × α → β → State × α} {l : List β} {x : State × α} (h : s₀.Keeps x.1)
    (hf : ∀ {x b}, s₀.Keeps x.1 → s₀.Keeps (f x b).1) : s₀.Keeps (l.foldl f x).1 :=
  foldl_keeps (P := fun x => s₀.Keeps x.1) (fun _ _ => hf) l x h

theorem Keeps.foldlSnd {f : α × State → β → α × State} {l : List β} {x : α × State} (h : s₀.Keeps x.2)
    (hf : ∀ {x b}, s₀.Keeps x.2 → s₀.Keeps (f x b).2) : s₀.Keeps (l.foldl f x).2 :=
  foldl_keeps (P := fun x => s₀.Keeps x.2) (fun _ _ => hf) l x h

/-- A choice between results that carry something beside the state. -/
theorem Keeps.iteFst {c : Prop} {_ : Decidable c} {x y : State × α} (hx : s₀.Keeps x.1) (hy : s₀.Keeps y.1) :
    s₀.Keeps (if c then x else y).1 := by
  split <;> assumption

/-! ### One field of the state -/

theorem Keeps.withRegs (h : s₀.Keeps s) {m} (hm : mwf 0 s.regs = true → mwf 0 m = true) : s₀.Keeps { s with regs := m } :=
  h.change rfl fun c => { c with regs := hm c.regs }

theorem Keeps.withLayout (h : s₀.Keeps s) {y} : s₀.Keeps { s with layout := y } := h.others

theorem Keeps.withMem (h : s₀.Keeps s) {m} (hm : mwf 0 s.mem = true → mwf 0 m = true) : s₀.Keeps { s with mem := m } :=
  h.change rfl fun c => { c with mem := hm c.mem }

theorem Keeps.withMemMark (h : s₀.Keeps s) {m} (hm : mwf false s.memMark = true → mwf false m = true) :
    s₀.Keeps { s with memMark := m } :=
  h.change rfl fun c => { c with memMark := hm c.memMark }

theorem Keeps.withTileMark (h : s₀.Keeps s) {m} (hm : mwf false s.tileMark = true → mwf false m = true) :
    s₀.Keeps { s with tileMark := m } :=
  h.change rfl fun c => { c with tileMark := hm c.tileMark }

theorem Keeps.withTags (h : s₀.Keeps s) {m} (hm : mwf 0 s.tags = true → mwf 0 m = true) : s₀.Keeps { s with tags := m } :=
  h.change rfl fun c => { c with tags := hm c.tags }

theorem Keeps.withSets (h : s₀.Keeps s) {m} (hm : mwf SetSt.init s.sets = true → mwf SetSt.init m = true) :
    s₀.Keeps { s with sets := m } :=
  h.change rfl fun c => { c with sets := hm c.sets }

theorem Keeps.withCaller (h : s₀.Keeps s) {x : Caller}
    (hx : mwf Entry.init s.caller.seqs = true → mwf Entry.init x.seqs = true := by exact id) : s₀.Keeps { s with caller := x } :=
  h.change rfl fun c => { c with seqs := hx c.seqs }

theorem Keeps.withNv (h : s₀.Keeps s) {x : Nv} (hx : s.nv.Canonical → x.Canonical := by exact fun c => { c with }) :
    s₀.Keeps { s with nv := x } :=
  h.change rfl fun c =>
    have ⟨data, logPages, slack, results⟩ := hx c.nv
    { c with nvData := data, logPages := logPages, nvSlack := slack, nvResults := results }

theorem Keeps.withFab (h : s₀.Keeps s) {x : Fab} (hx : s.fab.Canonical → x.Canonical := by exact fun c => { c with }) :
    s₀.Keeps { s with fab := x } :=
  h.change rfl fun c =>
    have ⟨ports, cache, keys, peers, reqids, rr, bad, descs⟩ := hx c.fab
    { c with
      ports := ports, cache := cache, keys := keys, peers := peers
      reqids := reqids, rr := rr, bad := bad, descs := descs }

theorem Keeps.withCqs (h : s₀.Keeps s) {x : Hostif}
    (hx : mwf CqSt.init s.host.cqs = true → mwf CqSt.init x.cqs = true := by exact id)
    (hm : x.msixTab = s.host.msixTab := by rfl) : s₀.Keeps { s with host := x } :=
  h.change rfl fun c => { c with cqs := hx c.cqs, msixTab := hm ▸ c.msixTab }

theorem Keeps.withMsixTab (h : s₀.Keeps s) {x : Hostif} (hx : mwf (0, 0) s.host.msixTab = true → mwf (0, 0) x.msixTab = true)
    (hm : x.cqs = s.host.cqs := by rfl) : s₀.Keeps { s with host := x } :=
  h.change rfl fun c => { c with cqs := hm ▸ c.cqs, msixTab := hx c.msixTab }

theorem Keeps.withGate (h : s₀.Keeps s) {x : Gate} (hx : s.gate.Canonical → x.Canonical) : s₀.Keeps { s with gate := x } :=
  h.change rfl fun c => { c with heldAt := (hx c.gate).heldAt, byGate := (hx c.gate).byGate, cycles := (hx c.gate).cycles }

theorem Keeps.withHealth (h : s₀.Keeps s) {x : Health}
    (hx : s.health.Canonical → x.Canonical := by exact fun c => { c with }) :
    s₀.Keeps { s with health := x } :=
  h.change rfl fun c =>
    have ⟨slack, drift, hbm, mapped, results⟩ := hx c.health
    { c with slack := slack, drift := drift, hbm := hbm, tileSince := mapped, results := results }

theorem Keeps.withBoot (h : s₀.Keeps s) {x : Boot} (hb : mwf 0 s.boot.bundleCopy = true → mwf 0 x.bundleCopy = true)
    (hs : mwf 0 s.boot.sram = true → mwf 0 x.sram = true) : s₀.Keeps { s with boot := x } :=
  h.change rfl fun c => { c with bundleCopy := hb c.bundleCopy, sram := hs c.sram }

theorem Keeps.withThreads (h : s₀.Keeps s) {m} (hm : mwf Thread.init s.threads = true → mwf Thread.init m = true) :
    s₀.Keeps { s with threads := m } :=
  h.change rfl fun c => { c with threads := hm c.threads }

theorem Keeps.withTurns (h : s₀.Keeps s) {m} (hm : mwf 0 s.turns = true → mwf 0 m = true) : s₀.Keeps { s with turns := m } :=
  h.change rfl fun c => { c with turns := hm c.turns }

theorem Keeps.withWindows (h : s₀.Keeps s) {m} (hm : mwf (0, 0) s.windows = true → mwf (0, 0) m = true) :
    s₀.Keeps { s with windows := m } :=
  h.change rfl fun c => { c with windows := hm c.windows }

theorem Keeps.withResets (h : s₀.Keeps s) {m} (hm : mwf none s.resets = true → mwf none m = true) :
    s₀.Keeps { s with resets := m } :=
  h.change rfl fun c => { c with resets := hm c.resets }

theorem Keeps.withReel (h : s₀.Keeps s) {m} (hm : mwf ReelPart.init s.reel = true → mwf ReelPart.init m = true) :
    s₀.Keeps { s with reel := m } :=
  h.change rfl fun c => { c with reel := hm c.reel }

theorem Keeps.withWeights (h : s₀.Keeps s) {x : Weights}
    (hx : mwf none s.weights.hostSlots = true → mwf none x.hostSlots = true := by exact id) : s₀.Keeps { s with weights := x } :=
  h.change rfl fun c => { c with hostSlots := hx c.hostSlots }

theorem Keeps.withTempo (h : s₀.Keeps s) {x : Tempo}
    (hx : mwf 0 s.tempo.seenMarks = true → mwf 0 x.seenMarks = true := by exact id) :
    s₀.Keeps { s with tempo := x } :=
  h.change rfl fun c => { c with seenMarks := hx c.seenMarks }

/-- A change of device memory, tile SRAM, row tags and what channels in no window hold. -/
theorem Keeps.withMemory (h : s₀.Keeps s) (hm : s.memWf = true → t.memWf = true)
    (ht : t = { s with
      mem := t.mem, memMark := t.memMark, tileMem := t.tileMem, tileMark := t.tileMark, tags := t.tags, parked := t.parked,
      parkedMark := t.parkedMark } := by rfl) : s₀.Keeps t := by
  have hp : t.pending = s.pending := by rw [ht]
  refine h.change hp fun c => ?_
  obtain ⟨h1, h2, h3, h4, h5, h6, h7⟩ :=
    memWf_iff.1 (hm (memWf_iff.2 ⟨c.mem, c.memMark, c.tileMem, c.tileMark, c.tags, c.parked, c.parkedMark⟩))
  rw [ht]
  exact { c with mem := h1, memMark := h2, tileMem := h3, tileMark := h4, tags := h5, parked := h6, parkedMark := h7 }

end State
end Sys2Proof.Machine
end

section
namespace Sys2Proof.Machine

/-! ### Records inside the state -/

section
variable {g : Gate} {f : Fab}

theorem Gate.Canonical.setBudget {i bs} (c : g.Canonical) : (g.setBudget i bs).Canonical := { c with }

theorem Fab.Canonical.invalidate {v} (c : f.Canonical) : (f.invalidate v).Canonical := by
  unfold Fab.invalidate
  split
  · exact { c with cache := mwf_mset c.cache _ none }
  · exact { c with cache := mwf_mkeep c.cache (fun k => k / 1024 ≠ v.part), keys := mwf_mset c.keys _ _ }

theorem Fab.Canonical.others {x} (c : f.Canonical) : Fab.Canonical { f with invs := x } := { c with }

/-- A log page written to the NV stacks at the next place of its ring. -/
theorem Nv.Canonical.addPage {v : Nv} (c : v.Canonical) (pg n) :
    Nv.Canonical { v with logPages := mset [] (v.logNext % 8192) pg v.logPages, logNext := n } :=
  { c with logPages := mwf_mset c.logPages _ _ }

theorem Tempo.setInp_seenMarks (t : Tempo) (b : Bool) (x : TempoIn) : (t.setInp b x).seenMarks = t.seenMarks := by
  unfold Tempo.setInp
  split <;> rfl

end

/-- Parked bytes put back at their addresses. -/
theorem mwf_placed {α : Type} [DecidableEq α] {d : α} (addr : Nat → Option Nat) (l : SMap α) {m : SMap α} (h : mwf d m = true) :
    mwf d (l.foldl (fun m e => match addr e.1 with
      | some a => if mget d m a = d then mset d a e.2 m else m
      | none => m) m) = true :=
  foldl_keeps (P := fun m => mwf d m = true) (fun m e h => by
    split
    · split
      · exact mwf_mset h _ _
      · exact h
    · exact h) l m h

/-- Parked marks put back at their lines. -/
theorem mwf_placedMarks {α : Type} [DecidableEq α] {d : α} (addr : Nat → Option Nat) (l : SMap α) {m : SMap α}
    (h : mwf d m = true) :
    mwf d (l.foldl (fun m e => match addr (64 * e.1) with
      | some a => mset d (a / 64) e.2 m
      | none => m) m) = true :=
  foldl_keeps (P := fun m => mwf d m = true) (fun m e h => by
    split
    · exact mwf_mset h _ _
    · exact h) l m h

/-- A change of the values of a map that takes no value to the default one. -/
theorem mwf_map {α : Type} [DecidableEq α] {d : α} {f : α → α} (hf : ∀ v, v ≠ d → f v ≠ d) {m : SMap α} (h : mwf d m = true) :
    mwf d (m.map fun e => (e.1, f e.2)) = true := by
  rw [mwf_iff] at h ⊢
  obtain ⟨hr, hd⟩ := h
  constructor
  · clear hd
    induction m with
    | nil => rfl
    | cons e r ih =>
      refine mrising_cons (ih (mrising_tail hr)) fun x hx => ?_
      obtain ⟨y, hy, rfl⟩ := List.mem_map.1 hx
      exact mrising_head hr y hy
  · intro x hx
    obtain ⟨y, hy, rfl⟩ := List.mem_map.1 hx
    exact hf _ (hd y hy)

/-- The Set's record with its flights changed one by one. -/
def SetSt.mapFlights (f : Flight → Flight) (x : SetSt) : SetSt := { x with flights := x.flights.map f }

/-- Such a change leaves a Set out of its reset state: in that state no command is in flight. -/
theorem SetSt.mapFlights_ne_init {f : Flight → Flight} {x : SetSt} (hx : x ≠ SetSt.init) : x.mapFlights f ≠ SetSt.init := by
  intro h
  have hnil : x.flights = [] := List.map_eq_nil_iff.1 (congrArg SetSt.flights h)
  have hsame : x.mapFlights f = x := by
    unfold SetSt.mapFlights
    rw [hnil, List.map_nil, ← hnil]
  exact hx (hsame.symm.trans h)

/-! ### One entry of a map -/

namespace State
variable {s₀ s t : State}

theorem Keeps.pending (h : s₀.Keeps s) : s.pending = s₀.pending := h.1

theorem Keeps.canonical (h : s₀.Keeps s) (c : s₀.Canonical) : s.Canonical := (wf_iff s).1 (h.2 ((wf_iff s₀).2 c))

theorem Keeps.hold (h : s₀.Keeps s) {set en now} : s₀.Keeps { s with gate := s.gate.hold set en now } :=
  h.withGate fun c => { c with
    heldAt := by
      unfold Gate.hold
      dsimp only
      split
      · exact mwf_mset c.heldAt _ _
      · exact c.heldAt }

theorem Keeps.release (h : s₀.Keeps s) {set now late} : s₀.Keeps { s with gate := s.gate.release set now late } :=
  h.withGate fun c => { c with heldAt := mwf_mset c.heldAt set 0, byGate := mwf_mset c.byGate _ _ }

theorem Keeps.afresh (h : s₀.Keeps s) {set} : s₀.Keeps { s with gate := s.gate.afresh set } :=
  h.withGate fun c => { c with heldAt := mwf_mset c.heldAt set 0, byGate := mwf_mset c.byGate set 0 }

theorem Keeps.countGate (h : s₀.Keeps s) {k n} : s₀.Keeps { s with gate := s.gate.count k n } :=
  h.withGate fun c => { c with cycles := mwf_mset c.cycles _ _ }

theorem Keeps.newWindow (h : s₀.Keeps s) : s₀.Keeps { s with gate := s.newWindow } :=
  h.withGate fun c => { c with cycles := mwf_nil 0 }

theorem Keeps.nextId (h : s₀.Keeps s) {unit n} : s₀.Keeps { s with fab := { s.fab with reqids := mset 0 unit n s.fab.reqids } } :=
  h.withFab fun c => { c with reqids := mwf_mset c.reqids _ _ }

theorem Keeps.cached (h : s₀.Keeps s) {k r} : s₀.Keeps { s with fab := { s.fab with cache := mset none k r s.fab.cache } } :=
  h.withFab fun c => { c with cache := mwf_mset c.cache _ _ }

theorem Keeps.badLane (h : s₀.Keeps s) {l x} : s₀.Keeps { s with fab := { s.fab with bad := mset (0, 0) l x s.fab.bad } } :=
  h.withFab fun c => { c with bad := mwf_mset c.bad _ _ }

/-- A descriptor in flight, with the next number. -/
theorem Keeps.addDesc (h : s₀.Keeps s) {x : Desc} (hx : x.num = s.fab.nextDesc) :
    s₀.Keeps { s with fab := { s.fab with descs := s.fab.descs ++ [x], nextDesc := s.fab.nextDesc + 1 } } :=
  h.withFab fun c => { c with
    descs := fun d hd => by
      rcases List.mem_append.1 hd with hd | hd
      · exact Nat.lt_succ_of_lt (c.descs d hd)
      · rw [List.mem_singleton.1 hd, hx]; exact Nat.lt_succ_self _ }

theorem Keeps.dropDesc (h : s₀.Keeps s) {p : Desc → Bool} :
    s₀.Keeps { s with fab := { s.fab with descs := s.fab.descs.filter p } } :=
  h.withFab fun c => { c with descs := fun d hd => c.descs d (List.mem_of_mem_filter hd) }

theorem Keeps.mapped (h : s₀.Keeps s) {k v} :
    s₀.Keeps { s with health := { s.health with mapped := mset 0 k v s.health.mapped } } :=
  h.withHealth fun c => { c with mapped := mwf_mset c.mapped _ _ }

theorem Keeps.drifted (h : s₀.Keeps s) {k v} :
    s₀.Keeps { s with health := { s.health with drift := mset 0 k v s.health.drift } } :=
  h.withHealth fun c => { c with drift := mwf_mset c.drift _ _ }

theorem Keeps.swept (h : s₀.Keeps s) {k v} : s₀.Keeps { s with health := { s.health with hbm := mset 0 k v s.health.hbm } } :=
  h.withHealth fun c => { c with hbm := mwf_mset c.hbm _ _ }

theorem Keeps.setInp (h : s₀.Keeps s) {b x} : s₀.Keeps { s with tempo := s.tempo.setInp b x } :=
  h.withTempo fun w => (Tempo.setInp_seenMarks s.tempo b x).symm ▸ w

theorem Keeps.seenMark (h : s₀.Keeps s) {k v} :
    s₀.Keeps { s with tempo := { s.tempo with seenMarks := mset 0 k v s.tempo.seenMarks } } :=
  h.withTempo fun w => mwf_mset w _ _

theorem Keeps.loadSram (h : s₀.Keeps s) {off bs} :
    s₀.Keeps { s with boot := { s.boot with sram := msetList 0 off bs s.boot.sram } } :=
  h.withBoot id fun w => mwf_msetList _ w _

theorem Keeps.setMsix (h : s₀.Keeps s) {k y} :
    s₀.Keeps { s with host := { s.host with msixTab := mset (0, 0) k y s.host.msixTab } } :=
  h.withMsixTab fun w => mwf_mset w _ _

theorem Keeps.setJob (h : s₀.Keeps s) {p j} : s₀.Keeps { s with resets := mset none p j s.resets } :=
  h.withResets fun w => mwf_mset w _ _

theorem Keeps.setWindow (h : s₀.Keeps s) {k x} : s₀.Keeps { s with windows := mset (0, 0) k x s.windows } :=
  h.withWindows fun w => mwf_mset w _ _

/-- The reset state is in canonical form. -/
theorem reset_wf : State.reset.wf = true := by decide +kernel

/-- What comes first of a pair that is known. -/
theorem Keeps.ofFst {α : Type} {x : State × α} {a : α} (h : s₀.Keeps x.1) (e : x = (t, a)) : s₀.Keeps t := by
  rw [e] at h
  exact h

/-- A package reset keeps the NV stacks, and a package reset's boot record has loaded nothing. -/
theorem Keeps.fromReset (h : s₀.Keeps s) {fuses nvLog out} {b : Boot} (hb : b.bundleCopy = []) (hs : b.sram = []) :
    s₀.Keeps { State.reset with pending := s.pending, nv := s.nv, fuses := fuses, boot := b, nvLog := nvLog, out := out } :=
  h.change rfl fun c => { (wf_iff State.reset).1 reset_wf with
    nvData := c.nvData, logPages := c.logPages, nvSlack := c.nvSlack, nvResults := c.nvResults
    bundleCopy := by rw [hb]; exact mwf_nil 0, sram := by rw [hs]; exact mwf_nil 0 }

end State
end Sys2Proof.Machine
end

section
/-! Each operation of the model keeps the queue and the canonical form, in the order of the model's files. The
proofs are elaborated one at a time: all at once they take more threads than the check's memory limit has room for. -/

set_option Elab.async false

namespace Sys2Proof.Machine.State

variable {s₀ s t : State} {α β : Type}

/-! ### Operations of Machine/Ops -/

theorem Keeps.wr (h : s₀.Keeps s) {f v i k j} : s₀.Keeps (s.wr f v i k j) := h.withRegs fun w => mwf_mset w _ _

theorem Keeps.bump (h : s₀.Keeps s) {f n i k j} : s₀.Keeps (s.bump f n i k j) := h.wr

theorem Keeps.measure (h : s₀.Keeps s) : s₀.Keeps s.measure := h.bump

theorem Keeps.clearFields (h : s₀.Keeps s) {fs i} : s₀.Keeps (s.clearFields fs i) := h.foldl fun h => h.wr

theorem Keeps.setNow (h : s₀.Keeps s) {t} : s₀.Keeps (s.setNow t) := h.others

theorem Keeps.logAs (h : s₀.Keeps s) {unit w args} : s₀.Keeps (s.logAs unit w args) := h.others

theorem Keeps.note (h : s₀.Keeps s) {unit n} : s₀.Keeps (s.note unit n) := h.logAs

theorem Keeps.emit (h : s₀.Keeps s) {o} : s₀.Keeps (s.emit o) := h.others

theorem Keeps.raiseAs (h : s₀.Keeps s) {unit e i args k} : s₀.Keeps (s.raiseAs unit e i args k) := by
  unfold State.raiseAs
  dsimp only
  refine .logAs ?_
  split
  · exact h.wr.bump.wr
  · exact h.wr.bump

theorem Keeps.raise (h : s₀.Keeps s) {e i args k} : s₀.Keeps (s.raise e i args k) := h.raiseAs

/-! ### Operations of Machine/Mem -/

theorem Keeps.devPut (h : s₀.Keeps s) {a data} : s₀.Keeps (s.devPut a data) := h.withMemory fun w => memWf_devPut w _ _

theorem Keeps.devLoad (h : s₀.Keeps s) {a bs} : s₀.Keeps (s.devLoad a bs) := h.devPut

theorem Keeps.markRange (h : s₀.Keeps s) {a n} : s₀.Keeps (s.markRange a n) := h.withMemory fun w => memWf_markRange w _ _

theorem Keeps.zeroRange (h : s₀.Keeps s) {a n} : s₀.Keeps (s.zeroRange a n) := h.withMemory fun w => memWf_zeroRange w _ _

theorem Keeps.sramPut (h : s₀.Keeps s) {key data} : s₀.Keeps (s.sramPut key data) :=
  h.withMemory fun w => memWf_sramPut w _ _

theorem Keeps.setTag (h : s₀.Keeps s) {key v} : s₀.Keeps (s.setTag key v) := h.withMemory fun w => memWf_setTag w _ _

theorem Keeps.clearValid (h : s₀.Keeps s) {tile} : s₀.Keeps (s.clearValid tile) :=
  h.withTags fun w => foldl_keeps (P := fun m => mwf 0 m = true) (fun _ _ w => mwf_mset w _ _) _ _ w

theorem Keeps.crcUpdate (h : s₀.Keeps t) {s o a n} : s₀.Keeps (State.crcUpdate s t o a n) :=
  have h1 := h.raise.markRange.ite h
  .ite (h.withMem fun w => mwf_msetList _ w _).bump (.ite (h1.withMem fun w => mwf_msetList _ w _).bump h1)

theorem Keeps.generatorCheck (h : s₀.Keeps s) {die o} : s₀.Keeps (s.generatorCheck die o) := .ite h.raise.markRange h

theorem Keeps.committed (h : s₀.Keeps t) {s a n} : s₀.Keeps (State.committed s t a n) :=
  h.foldl fun h => h.crcUpdate.generatorCheck

theorem Keeps.devWrite (h : s₀.Keeps s) {a data} : s₀.Keeps (s.devWrite a data) := h.devPut.committed

theorem Keeps.devZero (h : s₀.Keeps s) {a n} : s₀.Keeps (s.devZero a n) := h.zeroRange.committed

theorem Keeps.copyRange (h : s₀.Keeps s) {src dst n} : s₀.Keeps (s.copyRange src dst n) :=
  ((h.withMem fun w => mwf_foldl_mset _ _ _ (mwf_mkeep w _)).withMemMark fun w => mwf_foldl_mset _ _ _ (mwf_mkeep w _)).committed

theorem Keeps.devSet (h : s₀.Keeps s) {a bs} : s₀.Keeps (s.devSet a bs) := h.devWrite

theorem Keeps.devSetNat (h : s₀.Keeps s) {a n v} : s₀.Keeps (s.devSetNat a n v) := h.devSet

/-! ### Operations of Machine/Flags -/

theorem Keeps.raiseObject (h : s₀.Keeps s) {tile off faults} : s₀.Keeps (s.raiseObject tile off faults) :=
  h.foldl fun h => h.raise

theorem Keeps.latchFault (h : s₀.Keeps s) {recs tile os} : s₀.Keeps (s.latchFault recs tile os) := by
  unfold State.latchFault
  dsimp only
  split
  · exact h
  · split
    · exact h
    · exact h.wr.wr.wr.wr

theorem Keeps.raiseCause (h : s₀.Keeps s) {set c} : s₀.Keeps (s.raiseCause set c) := by
  unfold State.raiseCause
  dsimp only
  split
  · exact h.raise
  · exact h.raise
  · exact h.raiseObject
  · split
    · exact h.raise
    · exact h.logAs
  · exact h.devSetNat.note
  · exact h.raise
  · exact h.note

theorem Keeps.raiseCauses (h : s₀.Keeps s) {set recs cs} : s₀.Keeps (s.raiseCauses set recs cs) :=
  (h.foldl fun h => h.raiseCause).foldl fun h => h.latchFault

theorem Keeps.applyNotes (h : s₀.Keeps s) {e} : s₀.Keeps (s.applyNotes e) :=
  (h.foldl fun h => h.raise).foldl fun h => h.bump

/-! ### Operations of Machine/Sched -/

theorem Keeps.setSt (h : s₀.Keeps s) {n x} : s₀.Keeps (s.setSt n x) := h.withSets fun w => mwf_mset w _ _

theorem Keeps.discard (h : s₀.Keeps s) {n} : s₀.Keeps (s.discard n) := h.setSt.wr.wr

theorem Keeps.kill (h : s₀.Keeps s) {n} : s₀.Keeps (s.kill n) := h.discard.setSt.wr

theorem Keeps.haltFor (h : s₀.Keeps s) {n why} : s₀.Keeps (s.haltFor n why) := h.kill.setSt

theorem Keeps.noteLate (h : s₀.Keeps s) {set c} : s₀.Keeps (s.noteLate set c) :=
  have h1 := h.release.setSt.wr
  .ite (.ite h1.raise h1) h

theorem Keeps.countVec (h : s₀.Keeps s) {set tile cycles} : s₀.Keeps (s.countVec set tile cycles) :=
  h.countGate.bump.setSt

theorem Keeps.countCycles (h : s₀.Keeps s) {g} : s₀.Keeps (s.countCycles g) :=
  .ite h (.ite (h.foldl fun h => .ite h.bump.countGate h.bump.countGate.bump.countGate).setSt
    (.ite (h.foldl fun h => h.countVec) h))

theorem Keeps.launch (h : s₀.Keeps s) {g kind work held} : s₀.Keeps (s.launch g kind work held) :=
  have h2 := ((h.ite h.countCycles).setSt).wr
  .ite h2.wr h2

theorem Keeps.abortOnce (h : s₀.Keeps s) {g cs} : s₀.Keeps (s.abortOnce g cs) := h.raise.raiseCauses.discard.setSt.wr

theorem Keeps.abortTwice (h : s₀.Keeps s) {g cs} : s₀.Keeps (s.abortTwice g cs) := h.raise.raiseCauses.setSt

theorem Keeps.issue (h : s₀.Keeps s) {g kind e} : s₀.Keeps (s.issue g kind e) :=
  have h1 := h.noteLate.applyNotes
  .ite h1.launch (.ite h1.abortTwice.launch h1.abortOnce)

theorem Keeps.issueEvent (h : s₀.Keeps s) {set is} {eff : State → Go → State × FlightKind × Eff}
    (heff : ∀ {t g}, s₀.Keeps t → s₀.Keeps (eff t g).1) : s₀.Keeps (s.issueEvent set is eff) := by
  unfold State.issueEvent
  dsimp only
  split
  · exact h
  · exact .ite h.issue (.ite h.hold (heff h.others).issue)

/-! ### Operations of Machine/Commands -/

theorem Keeps.fetchEffect (h : s₀.Keeps s) {set} : s₀.Keeps (fetchEffect set s) :=
  h.issueEvent fun h => .iteFst h h.setSt

theorem Keeps.mpassEffect (h : s₀.Keeps s) {set x} : s₀.Keeps (mpassEffect set x s) := h.issueEvent fun h => .iteFst h h

theorem Keeps.checkEffect (h : s₀.Keeps s) {set x} : s₀.Keeps (checkEffect set x s) := h.issueEvent fun h => h

theorem Keeps.storeEffect (h : s₀.Keeps s) {set x} : s₀.Keeps (storeEffect set x s) := h.issueEvent fun h => .iteFst h h

theorem Keeps.handoffEffect (h : s₀.Keeps s) {set x} : s₀.Keeps (handoffEffect set x s) :=
  h.issueEvent fun h => .iteFst h h

theorem Keeps.waitEffect (h : s₀.Keeps s) {set} : s₀.Keeps (waitEffect set s) := h.issueEvent fun h => h

theorem Keeps.sreadEffect (h : s₀.Keeps s) {set} : s₀.Keeps (sreadEffect set s) := h.issueEvent fun h => h

theorem Keeps.cellWrite (h : s₀.Keeps s) {a value bar writer mark} : s₀.Keeps (s.cellWrite a value bar writer mark) :=
  h.devWrite

theorem Keeps.swriteEffect (h : s₀.Keeps s) {set x} : s₀.Keeps (swriteEffect set x s) := h.issueEvent fun h => h

theorem Keeps.endBarEffect (h : s₀.Keeps s) {set} : s₀.Keeps (endBarEffect set s) := h.issueEvent fun h => h

/-! ### Operations of Machine/Rings -/

theorem Keeps.fetch (h : s₀.Keeps s) {g addr n} : s₀.Keeps (s.fetch g addr n) := h.emit

theorem Keeps.setCq (h : s₀.Keeps s) {g c x} : s₀.Keeps (s.setCq g c x) := h.withCqs fun w => mwf_mset w _ _

theorem Keeps.logAer (h : s₀.Keeps s) {e} : s₀.Keeps (s.logAer e) := h.others

theorem Keeps.aerRead (h : s₀.Keeps s) {d} : s₀.Keeps (s.aerRead d) := by
  unfold State.aerRead
  split
  · exact h
  · exact h.logAer
  · exact h.logAer

theorem Keeps.message (h : s₀.Keeps s) {e} : s₀.Keeps (s.message e) := .ite h.emit h

theorem Keeps.signal (h : s₀.Keeps s) {g v} : s₀.Keeps (s.signal g v) := .ite h.message (.ite h h.others)

theorem Keeps.signalCq (h : s₀.Keeps s) {g c} : s₀.Keeps (s.signalCq g c) := h.setCq.signal

theorem Keeps.recount (h : s₀.Keeps s) {g c} : s₀.Keeps (s.recount g c) := .ite h.signalCq h

theorem Keeps.noteEntry (h : s₀.Keeps s) {g c} : s₀.Keeps (s.noteEntry g c) := .ite (.ite h.setCq.signalCq h.setCq) h

theorem Keeps.cqWrite (h : s₀.Keeps s) {g c w} : s₀.Keeps (s.cqWrite g c w) := h.emit.emit.wr.wr.noteEntry

theorem Keeps.cqDrop (h : s₀.Keeps s) {g} : s₀.Keeps (s.cqDrop g) := h.bump.raise

theorem Keeps.toBacklog (h : s₀.Keeps s) {g c w} : s₀.Keeps (s.toBacklog g c w) := h.setCq.devSet

theorem Keeps.cqDefer (h : s₀.Keeps s) {g c w} : s₀.Keeps (s.cqDefer g c w) :=
  .ite h.toBacklog.raise (.ite h.setCq h.cqDrop)

theorem Keeps.cqPost (h : s₀.Keeps s) {g c w} : s₀.Keeps (s.cqPost g c w) := .ite h.cqDrop (.ite h.cqDefer h.cqWrite)

theorem Keeps.cqDrainOne (h : s₀.Keeps s) {g c} : s₀.Keeps (s.cqDrainOne g c) := by
  unfold State.cqDrainOne
  dsimp only
  split
  · exact h
  · split
    · refine .cqWrite ?_
      split
      · exact h.setCq.setCq.toBacklog
      · exact h.setCq
    · split
      · exact h.setCq.cqWrite
      · exact h

theorem Keeps.cqDrain (h : s₀.Keeps s) {g c n} : s₀.Keeps (s.cqDrain g c n) := by
  induction n generalizing s with
  | zero => exact h
  | succ n ih => exact ih h.cqDrainOne

theorem Keeps.mgmt (h : s₀.Keeps s) {g code payload} : s₀.Keeps (s.mgmt g code payload) := h.cqPost

theorem Keeps.mgmtAll (h : s₀.Keeps s) {code payload} : s₀.Keeps (s.mgmtAll code payload) :=
  (h.foldl fun h => h.mgmt).mgmt

theorem Keeps.mgmtTray (h : s₀.Keeps s) {code payload} : s₀.Keeps (s.mgmtTray code payload) := h.mgmt.emit

theorem Keeps.complete (h : s₀.Keeps s) {r status handle rest poison} : s₀.Keeps (s.complete r status handle rest poison) :=
  .ite h.others.wr.cqPost h

theorem Keeps.finish (h : s₀.Keeps s) {r status} : s₀.Keeps (s.finish r status) := h.complete

/-! ### Operations of Machine/Link -/

theorem Keeps.setPort (h : s₀.Keeps s) {p x} : s₀.Keeps (s.setPort p x) :=
  h.withFab fun c => { c with ports := mwf_mset c.ports _ _ }

theorem Keeps.countFlits (h : s₀.Keeps s) {f q n} : s₀.Keeps (s.countFlits f q n) := h.bump.others

theorem Keeps.transmitOn (h : s₀.Keeps s) {q p} : s₀.Keeps (s.transmitOn q p) := h.setPort.countFlits

theorem Keeps.transmit (h : s₀.Keeps s) {ports p} : s₀.Keeps (s.transmit ports p) := h.foldl fun h => h.transmitOn

/-! ### Operations of Machine/Fabric -/

theorem Keeps.updatePlanes (h : s₀.Keeps s) : s₀.Keeps s.updatePlanes :=
  have h1 := h.wr.wr.wr
  (h1.raise.ite h1).others

theorem Keeps.sendOn (h : s₀.Keeps s) {ports typ bcast data} : s₀.Keeps (s.sendOn ports typ bcast data) :=
  .ite h h.transmit.emit

theorem Keeps.castPorts (h : s₀.Keeps s) : s₀.Keeps s.castPorts := h.others.sendOn

theorem Keeps.usedPort (h : s₀.Keeps s) {unit p q} : s₀.Keeps (s.usedPort unit p q) := by
  unfold State.usedPort
  split
  · exact .ite (h.withFab fun c => { c with rr := mwf_mset c.rr _ _ }) h
  · exact h

theorem Keeps.countSent (h : s₀.Keeps s) {o} : s₀.Keeps (s.countSent o) := by
  unfold State.countSent
  split
  · exact .ite h.bump h
  · exact h

theorem Keeps.launchOp (h : s₀.Keeps s) {o} : s₀.Keeps (s.launchOp o).2 := by
  unfold State.launchOp
  dsimp only
  split
  · exact h.others.countSent
  · split
    · exact h.countSent.usedPort.transmit.emit
    · exact h

theorem Keeps.issueOp (h : s₀.Keeps s) {unit p owner} : s₀.Keeps (s.issueOp unit p owner) := by
  unfold State.issueOp
  dsimp only
  refine .others (s := Prod.snd (if _ then _ else _)) ?_
  split
  · exact h.nextId
  · exact h.nextId.launchOp

theorem Keeps.putOp (h : s₀.Keeps s) {o} : s₀.Keeps (s.putOp o) := h.others

theorem Keeps.releaseIds (h : s₀.Keeps s) {n} : s₀.Keeps (s.releaseIds n) := by
  induction n generalizing s with
  | zero => exact h
  | succ n ih =>
    unfold State.releaseIds
    dsimp only
    split
    · exact h
    · exact ih h.launchOp.putOp

theorem Keeps.resendOp (h : s₀.Keeps s) {o} : s₀.Keeps (s.resendOp o) := by
  unfold State.resendOp
  extract_lets us bad pkt p q lost s1
  have h1 : s₀.Keeps s1 := h.putOp
  clear_value s1 q lost bad
  refine .ite h.putOp ?_
  split
  · exact ((h1.countSent.ite h1).usedPort.transmit).emit
  · exact h1

theorem Keeps.repath (h : s₀.Keeps s) : s₀.Keeps s.repath := h.foldl fun h => h.resendOp

theorem Keeps.releaseHeld (h : s₀.Keeps s) {unit dst} : s₀.Keeps (s.releaseHeld unit dst) :=
  .ite h (h.foldl fun h => h.resendOp)

theorem Keeps.releaseRow (h : s₀.Keeps s) {o} : s₀.Keeps (s.releaseRow o) := by
  unfold State.releaseRow
  split
  · exact h.resendOp
  · exact h

theorem Keeps.closeOp (h : s₀.Keeps s) {o} : s₀.Keeps (s.closeOp o) :=
  have h1 := h.others.releaseHeld
  (h1.releaseRow.ite h1).releaseIds

theorem Keeps.setLanes (h : s₀.Keeps s) {p st} : s₀.Keeps (s.setLanes p st) := h.foldl fun h => h.wr

theorem Keeps.moveTo (h : s₀.Keeps s) {p st} : s₀.Keeps (s.moveTo p st) :=
  have h2 := h.wr.ite h.wr.wr
  have h3 := h2.ite h2.wr
  .ite h3 h3.updatePlanes.castPorts.repath

theorem Keeps.portDown (h : s₀.Keeps s) {p} : s₀.Keeps (s.portDown p) :=
  (((h.others.foldl fun h => h.wr).setPort).setLanes).moveTo

theorem Keeps.linkDown (h : s₀.Keeps s) {p} : s₀.Keeps (s.linkDown p) := h.raise.portDown

theorem Keeps.startTraining (h : s₀.Keeps s) {p} : s₀.Keeps (s.startTraining p) := h.setPort.setLanes.moveTo

theorem Keeps.enterCheck (h : s₀.Keeps s) {p} : s₀.Keeps (s.enterCheck p) := h.setPort.setLanes.moveTo

theorem Keeps.fitWidth (h : s₀.Keeps s) {p} : s₀.Keeps (s.fitWidth p) :=
  .ite h.moveTo (.ite h.raise.moveTo (.ite h.raise.moveTo.wr h.linkDown))

theorem Keeps.narrow (h : s₀.Keeps s) {p} : s₀.Keeps (s.narrow p) := .ite h h.fitWidth

theorem Keeps.laneMap (h : s₀.Keeps s) {l q on} : s₀.Keeps (s.laneMap l q on) := h.sendOn

theorem Keeps.retireUnit (h : s₀.Keeps s) {cause cls q} : s₀.Keeps (s.retireUnit cause cls q) :=
  .ite h h.others.note.raise

theorem Keeps.endTest (h : s₀.Keeps s) {t} : s₀.Keeps (s.endTest t) := h.others.wr.wr

theorem Keeps.stopTest (h : s₀.Keeps s) {die} : s₀.Keeps (s.stopTest die) := by
  unfold State.stopTest
  split
  · exact h.laneMap.endTest
  · exact h

theorem Keeps.retireLane (h : s₀.Keeps s) {l} : s₀.Keeps (s.retireLane l) := by
  unfold State.retireLane
  extract_lets mine s1 old s2
  have h1 : s₀.Keeps s1 := by
    unfold s1 mine
    split
    · exact h
    · exact h.stopTest
  have h2 : s₀.Keeps s2 := .ite h1 h1.retireUnit
  clear_value s2
  split
  · exact h2.endTest.withLayout
  · exact h2.withLayout.laneMap
  · exact h2.withLayout.wr

theorem Keeps.loseLane (h : s₀.Keeps s) {l} : s₀.Keeps (s.loseLane l) :=
  have h1 := h.raise.retireLane.badLane
  .ite h1 h1.narrow

/-! ### Operations of Machine/Remote -/

theorem Keeps.settleKeys (h : s₀.Keeps s) : s₀.Keeps s.settleKeys :=
  h.withFab fun c => (foldl_keeps (P := Fab.Canonical) (fun _ _ c => c.invalidate) _ _ c).others

theorem Keeps.region (h : s₀.Keeps s) {unit part idx} : s₀.Keeps (s.region unit part idx).1 := by
  unfold State.region
  split
  · exact h
  · exact (h.raiseAs.ite h).cached

theorem Keeps.invEffect (h : s₀.Keeps s) {part idx} : s₀.Keeps (invEffect part idx s) := h.others

theorem Keeps.invAllEffect (h : s₀.Keeps s) {part} : s₀.Keeps (invAllEffect part s) := h.others

theorem Keeps.checkPkt (h : s₀.Keeps s) {typ p} : s₀.Keeps (s.checkPkt typ p).1 := by
  unfold State.checkPkt
  dsimp only
  split
  · exact h.settleKeys
  · split
    · exact h.settleKeys
    · exact h.settleKeys.region

theorem Keeps.respond (h : s₀.Keeps s) {a} : s₀.Keeps (s.respond a) := .ite h.others (.ite h.transmit.emit h)

theorem Keeps.noteRefusal (h : s₀.Keeps s) {typ p st} : s₀.Keeps (s.noteRefusal typ p st) :=
  have h2 := h.raiseAs.raiseAs.ite h.raiseAs
  ((h2.raise.ite h2).wr).wr

theorem Keeps.refuse (h : s₀.Keeps s) {typ p st} : s₀.Keeps (s.refuse typ p st) := h.noteRefusal.respond

theorem Keeps.keep (h : s₀.Keeps s) {p a} : s₀.Keeps (s.keep p a) := h.others

theorem Keeps.outcomeExpiryEffect (h : s₀.Keeps s) : s₀.Keeps (outcomeExpiryEffect s) := h.others.releaseIds

theorem Keeps.arrive (h : s₀.Keeps s) {set arr} : s₀.Keeps (s.arrive set arr) := h.bump.bump

theorem Keeps.landWrite (h : s₀.Keeps s) {typ p} : s₀.Keeps (s.landWrite typ p) :=
  .ite h.checkPkt.refuse h.checkPkt.devWrite.respond

theorem Keeps.landCommit (h : s₀.Keeps s) {typ p} : s₀.Keeps (s.landCommit typ p) := by
  unfold State.landCommit
  dsimp only
  split
  · exact h.respond
  · exact .ite h.checkPkt.refuse (((h.checkPkt.arrive.ite h.checkPkt).keep).respond)

theorem Keeps.landLoad (h : s₀.Keeps s) {p} : s₀.Keeps (s.landLoad p) := .ite h.checkPkt.refuse h.checkPkt.respond

theorem Keeps.landAtomic (h : s₀.Keeps s) {p} : s₀.Keeps (s.landAtomic p) := by
  unfold State.landAtomic
  dsimp only
  split
  · exact h.respond
  · split
    · exact h.checkPkt.refuse
    · refine .respond (.keep ?_)
      split
      · exact h.checkPkt.devWrite
      · exact h.checkPkt

theorem Keeps.sdataEffect (h : s₀.Keeps s) {p} : s₀.Keeps (sdataEffect p s) := h.landWrite

theorem Keeps.udataEffect (h : s₀.Keeps s) {p} : s₀.Keeps (udataEffect p s) := h.landWrite

theorem Keeps.fabricStoreEffect (h : s₀.Keeps s) {p} : s₀.Keeps (fabricStoreEffect p s) := h.landWrite

theorem Keeps.scommitEffect (h : s₀.Keeps s) {p} : s₀.Keeps (scommitEffect p s) := h.landCommit

theorem Keeps.ucommitEffect (h : s₀.Keeps s) {p} : s₀.Keeps (ucommitEffect p s) := h.landCommit

theorem Keeps.fabricLoadEffect (h : s₀.Keeps s) {p} : s₀.Keeps (fabricLoadEffect p s) := h.landLoad

theorem Keeps.fabricAtomicEffect (h : s₀.Keeps s) {p} : s₀.Keeps (fabricAtomicEffect p s) := h.landAtomic

/-! ### Operations of Machine/Copy -/

theorem Keeps.sendRow (h : s₀.Keeps s) {set idx f off bs} : s₀.Keeps (s.sendRow set idx f off bs) :=
  h.foldl fun h => h.issueOp

theorem Keeps.fcopyIssue (h : s₀.Keeps s) {g x} : s₀.Keeps (s.fcopyIssue g x).1 := by
  unfold State.fcopyIssue
  extract_lets ecc mark rows bad rank causes f e from_ t count sent f'
  refine .iteFst h (.iteFst h (h.foldl fun {t r} h => ?_))
  obtain ⟨_ | bs, i⟩ := r
  · exact h
  · exact h.sendRow

theorem Keeps.fcopyEffect (h : s₀.Keeps s) {set x} : s₀.Keeps (fcopyEffect set x s) :=
  h.issueEvent fun h => h.fcopyIssue

theorem Keeps.takeDesc (h : s₀.Keeps s) {e d} : s₀.Keeps (s.takeDesc e d).1 :=
  have h1 := h.addDesc rfl
  .ite h1.wr.raise h1.wr

theorem Keeps.setDesc (h : s₀.Keeps s) {num} {f : Desc → Desc} (hf : ∀ d, d.num = num → (f d).num = num) :
    s₀.Keeps (s.setDesc num f) :=
  h.withFab fun c => { c with
    descs := fun d hd => by
      obtain ⟨d', hd', rfl⟩ := List.mem_map.1 hd
      have hlt := c.descs d' hd'
      dsimp only
      split
      · rw [hf d' ‹_›]; exact ‹d'.num = num› ▸ hlt
      · exact hlt }

theorem Keeps.sendParts (h : s₀.Keeps s) {x ps mk} : s₀.Keeps (s.sendParts x ps mk) :=
  (h.foldl fun h => h.issueOp).setDesc fun _ hd => hd

theorem Keeps.copyPutEffect (h : s₀.Keeps s) {e} : s₀.Keeps (copyPutEffect e s) := by
  unfold Machine.copyPutEffect
  dsimp only
  split
  · exact .ite (.ite h.takeDesc h.takeDesc.sendParts) h
  · exact h

theorem Keeps.copyGetEffect (h : s₀.Keeps s) {e} : s₀.Keeps (copyGetEffect e s) := by
  unfold Machine.copyGetEffect
  dsimp only
  split
  · exact .ite (.ite h.takeDesc h.takeDesc.sendParts) h
  · exact h

theorem Keeps.copyAtomicEffect (h : s₀.Keeps s) {e} : s₀.Keeps (copyAtomicEffect e s) := by
  unfold Machine.copyAtomicEffect
  dsimp only
  split
  · exact .ite (.ite h.takeDesc h.takeDesc.sendParts) h
  · exact h

theorem Keeps.copyFenceEffect (h : s₀.Keeps s) {e} : s₀.Keeps (copyFenceEffect e s) := by
  unfold Machine.copyFenceEffect
  split
  · exact .ite h.takeDesc h
  · exact h

theorem Keeps.putCommit (h : s₀.Keeps s) {d} : s₀.Keeps (s.putCommit d) := by
  unfold State.putCommit
  split
  · exact .ite (h.issueOp.setDesc fun _ hd => hd) h
  · exact h

theorem Keeps.endDesc (h : s₀.Keeps s) {d} : s₀.Keeps (s.endDesc d) := by
  unfold State.endDesc
  extract_lets fab s1 s2 s3 s4
  have h1 : s₀.Keeps s1 := h.dropDesc
  have h2 : s₀.Keeps s2 := by
    unfold s2
    clear_value s1
    split
    · exact .ite (.ite h1.arrive h1.raise) h1
    · exact h1
  clear_value s2
  have h3 : s₀.Keeps s3 := .ite h2 h2.devWrite
  exact .ite h3.bump.signal h3.bump

theorem Keeps.copyCompleteEffect (h : s₀.Keeps s) {e i} : s₀.Keeps (copyCompleteEffect e i s) := by
  unfold Machine.copyCompleteEffect
  split
  · exact h.endDesc
  · exact h

theorem Keeps.fcopyAnswer (h : s₀.Keeps s) {set idx reqid status} : s₀.Keeps (s.fcopyAnswer set idx reqid status) :=
  h.others.setSt

theorem Keeps.scommitAnswer (h : s₀.Keeps s) {set status} : s₀.Keeps (s.scommitAnswer set status) :=
  .ite h.bump h.raise

theorem Keeps.partAnswer (h : s₀.Keeps s) {num off reqid status data} :
    s₀.Keeps (s.partAnswer num off reqid status data) := by
  unfold State.partAnswer
  split
  next d hd =>
    have hnum : d.num = num := by simpa using List.find?_some hd
    extract_lets s1 old d'
    have h1 : s₀.Keeps s1 := h.devWrite.ite h
    exact (h1.setDesc (f := fun _ => d') fun _ _ => hnum).putCommit
  next => exact h

/-! ### Operations of Machine/Promenade -/

theorem Keeps.queueMove (h : s₀.Keeps s) {m rs} : s₀.Keeps (s.queueMove m rs) := .ite h h.others

theorem Keeps.writeLines (h : s₀.Keeps s) {m die n} : s₀.Keeps (s.writeLines m die n) :=
  .ite (h.foldl fun h => h.devWrite) h

theorem Keeps.turn (h : s₀.Keeps s) {die i} : s₀.Keeps (s.turn die i) := by
  unfold State.turn
  dsimp only
  split
  · exact h
  · exact .ite h.writeLines.others.bump.raise h.writeLines.others.bump.bump

theorem Keeps.runJob (h : s₀.Keeps s) {why} : s₀.Keeps (s.runJob why).1 := by
  unfold State.runJob
  dsimp only
  split
  · exact h
  · exact h.foldl fun h => .ite h.turn h

theorem Keeps.dropJob (h : s₀.Keeps s) {why} : s₀.Keeps (s.dropJob why) := h.others

theorem Keeps.orphanJob (h : s₀.Keeps s) {why} : s₀.Keeps (s.orphanJob why) := h.others

/-! ### Operations of Machine/KvPool -/

theorem Keeps.kvCount (h : s₀.Keeps s) {p word n} : s₀.Keeps (s.kvCount p word n) := h.devSetNat

theorem Keeps.popFrames (h : s₀.Keeps s) {p n} : s₀.Keeps (s.popFrames p n).1 := h.devSetNat

theorem Keeps.pushFrames (h : s₀.Keeps s) {p fs} : s₀.Keeps (s.pushFrames p fs) := h.devSet.devSetNat

theorem Keeps.clearTags (h : s₀.Keeps s) {p f} : s₀.Keeps (s.clearTags p f) := h.devSet

theorem Keeps.quarantine (h : s₀.Keeps s) {p fs} : s₀.Keeps (s.quarantine p fs) :=
  h.devSet.devSetNat.kvCount.foldl fun h => h.queueMove

theorem Keeps.rewriteFrame (h : s₀.Keeps s) {p f} : s₀.Keeps (s.rewriteFrame p f) :=
  ((((((h.foldl fun h => h.devLoad).foldl fun h => h.devLoad).devLoad).devSetNat).devSet).bump).pushFrames

theorem Keeps.newTable (h : s₀.Keeps s) {p root n} : s₀.Keeps (s.newTable p root n) :=
  (h.popFrames.foldl fun h => h.clearTags).devSet

theorem Keeps.growTable (h : s₀.Keeps s) {p root n} : s₀.Keeps (s.growTable p root n) :=
  (((h.popFrames.foldl fun h => h.clearTags).devSet).devSet).devSetNat

/-- A position mapped. -/
theorem Keeps.mapOne (h : s₀.Keeps s) {p root c n q} (ht : s.mapOne p root c n q = some t) : s₀.Keeps t := by
  unfold State.mapOne at ht
  dsimp only at ht
  split at ht
  · cases ht; exact h.devSetNat.devSetNat
  · split at ht
    · cases ht; exact h.devSetNat.devSetNat.kvCount
    · cases ht

theorem Keeps.mapMany (h : s₀.Keeps s) {p root c n q m} : s₀.Keeps (s.mapMany p root c n q m).1 := by
  induction m generalizing s q with
  | zero => exact h
  | succ m ih =>
    unfold State.mapMany
    split
    · exact ih (h.mapOne ‹_›)
    · exact h

theorem Keeps.mapTo (h : s₀.Keeps s) {p root c n hi} : s₀.Keeps (s.mapTo p root c n hi).1 := by
  unfold State.mapTo
  exact h.mapMany.devSetNat

theorem Keeps.stackFrames (h : s₀.Keeps s) {p} : s₀.Keeps (s.stackFrames p) :=
  .ite h h.devSet.devSetNat.devSetNat.others

/-! ### Operations of Machine/Doorbells -/

theorem Keeps.badBell (h : s₀.Keeps s) {g off v} : s₀.Keeps (s.badBell g off v) := h.raise.wr.wr.wr

theorem Keeps.bell (h : s₀.Keeps s) {g off v} : s₀.Keeps (s.bell g off v) :=
  .ite h.badBell (.ite (.ite h.wr h.badBell) (.ite (.ite h.wr h.badBell) (.ite h.wr.cqDrain h.badBell)))

theorem Keeps.ring (h : s₀.Keeps s) {g off fromPf size v} : s₀.Keeps (s.ring g off fromPf size v) :=
  .ite h.raise (.ite h (.ite h.badBell (.ite h.others h.bell)))

theorem Keeps.sqTailEffect (h : s₀.Keeps s) {g fromPf size v} : s₀.Keeps (sqTailEffect g fromPf size v s) := h.ring

theorem Keeps.copyTailEffect (h : s₀.Keeps s) {g e fromPf size v} : s₀.Keeps (copyTailEffect g e fromPf size v s) :=
  h.ring

theorem Keeps.cqHeadEffect (h : s₀.Keeps s) {g c fromPf size v} : s₀.Keeps (cqHeadEffect g c fromPf size v s) :=
  h.ring

/-! ### Operations of Machine/Requests -/

theorem Keeps.takeReq (h : s₀.Keeps s) {r typ} : s₀.Keeps (s.takeReq r typ) := h.others.wr.bump.wr

theorem Keeps.refuseEntry (h : s₀.Keeps s) {r status} : s₀.Keeps (s.refuseEntry r status) := h.note.finish

theorem Keeps.takeEntry (h : s₀.Keeps s) {g w} : s₀.Keeps (s.takeEntry g w) :=
  have h1 := h.takeReq
  .ite h1.finish (.ite h1.refuseEntry (.ite h1.finish (.ite h1.refuseEntry h1)))

theorem Keeps.requestTakeEffect (h : s₀.Keeps s) {g entry} : s₀.Keeps (requestTakeEffect g entry s) := by
  unfold Machine.requestTakeEffect
  dsimp only
  split
  · split
    · exact h.fetch.takeEntry
    · exact h.fetch.aerRead.wr.raise
  · exact h

theorem Keeps.sqRestartEffect (h : s₀.Keeps s) {g} : s₀.Keeps (sqRestartEffect g s) := h.wr

/-! ### Operations of Machine/Transfers -/

theorem Keeps.startRead (h : s₀.Keeps s) {x} : s₀.Keeps (s.startRead x).2 := by
  unfold State.startRead
  dsimp only
  split
  · exact h
  · exact h.withCqs.emit

theorem Keeps.pump (h : s₀.Keeps s) : s₀.Keeps s.pump := h.foldl fun h => h.startRead.others

theorem Keeps.addXfer (h : s₀.Keeps s) {x} : s₀.Keeps (s.addXfer x) := h.others.pump

theorem Keeps.dropXfer (h : s₀.Keeps s) {why} : s₀.Keeps (s.dropXfer why) := h.others

theorem Keeps.toDeviceEffect (h : s₀.Keeps s) {r} : s₀.Keeps (toDeviceEffect r s) := .ite h (.ite h.finish h.addXfer)

theorem Keeps.sendLines (h : s₀.Keeps s) {g h' d n} : s₀.Keeps (s.sendLines g h' d n) := h.foldl fun h => h.emit

theorem Keeps.toHostEffect (h : s₀.Keeps s) {r} : s₀.Keeps (toHostEffect r s) :=
  .ite h (.ite h.finish ((h.sendLines.raise.ite h.sendLines).complete))

theorem Keeps.failCopy (h : s₀.Keeps s) {r} : s₀.Keeps (s.failCopy r) := h.raise.dropXfer.finish.pump

theorem Keeps.copyArrived (h : s₀.Keeps s) {r x bs} : s₀.Keeps (s.copyArrived r x bs) :=
  .ite h.dropXfer.devWrite.complete.pump h.others.pump

/-! ### Operations of Machine/Caller -/

theorem Keeps.callerRaise (h : s₀.Keeps s) {e args} : s₀.Keeps (s.callerRaise e args) := h.raise

theorem Keeps.standby (h : s₀.Keeps s) {op} : s₀.Keeps (s.standby op) :=
  .ite (.ite h.callerRaise.withCaller h.callerRaise) h

theorem Keeps.sendWrite (h : s₀.Keeps s) {m b} : s₀.Keeps (s.sendWrite m b) := h.issueOp.others

theorem Keeps.flushAhead (h : s₀.Keeps s) {b} : s₀.Keeps (s.flushAhead b) := h.foldl fun h => .ite h.sendWrite h

theorem Keeps.sendMirror (h : s₀.Keeps s) : s₀.Keeps s.sendMirror := by
  unfold State.sendMirror
  dsimp only
  refine h.foldl fun h => ?_
  split
  · exact .ite h.sendWrite h
  · exact h

theorem Keeps.queueMirror (h : s₀.Keeps s) {ahead i off data} : s₀.Keeps (s.queueMirror ahead i off data) :=
  .ite h.others.sendMirror h

theorem Keeps.mirrorWrite (h : s₀.Keeps s) {i off data} : s₀.Keeps (s.mirrorWrite i off data) := by
  unfold State.mirrorWrite
  dsimp only
  split
  · exact h.queueMirror.queueMirror
  · exact h.queueMirror

theorem Keeps.mirrorHist (h : s₀.Keeps s) {i a data} : s₀.Keeps (s.mirrorHist i a data) := h.mirrorWrite

theorem Keeps.copyMirrorTo (h : s₀.Keeps s) {to_} : s₀.Keeps (s.copyMirrorTo to_) := by
  unfold State.copyMirrorTo
  dsimp only
  split
  · exact h
  · split
    · exact h.others
    · exact h.others.foldl fun h => (h.ite h.queueMirror).queueMirror

theorem Keeps.copyMirror (h : s₀.Keeps s) : s₀.Keeps s.copyMirror := h.copyMirrorTo

theorem Keeps.putSeq (h : s₀.Keeps s) {i e} : s₀.Keeps (s.putSeq i e) :=
  (h.withCaller fun w => mwf_mset w _ _).devSet.mirrorWrite

theorem Keeps.settleCancels (h : s₀.Keeps s) : s₀.Keeps s.settleCancels := h.foldl fun h => .ite h.others.complete h

theorem Keeps.flushWaiting (h : s₀.Keeps s) : s₀.Keeps s.flushWaiting :=
  have h2 := h.others.foldl fun h => h.cqPost
  (h2.wr.ite h2).settleCancels

theorem Keeps.mirrorDone (h : s₀.Keeps s) {num} : s₀.Keeps (s.mirrorDone num) := h.others.sendMirror.flushWaiting

theorem Keeps.queueEntry (h : s₀.Keeps s) {i grp cq words} : s₀.Keeps (s.queueEntry i grp cq words) := h.others

theorem Keeps.useEntry (h : s₀.Keeps s) {i} : s₀.Keeps (s.useEntry i) := h.others

theorem Keeps.releaseBars (h : s₀.Keeps s) {i} : s₀.Keeps (s.releaseBars i) := h.others

theorem Keeps.releaseKv (h : s₀.Keeps s) {i} : s₀.Keeps (s.releaseKv i) := .ite h h.wr.others

theorem Keeps.pruneLedger (h : s₀.Keeps s) : s₀.Keeps s.pruneLedger := h.others

theorem Keeps.dropFrames (h : s₀.Keeps s) {i} : s₀.Keeps (s.dropFrames i) :=
  .ite (.ite h.wr.quarantine h.pushFrames) h

theorem Keeps.dropShelf (h : s₀.Keeps s) {i} : s₀.Keeps (s.dropShelf i) := h.others

theorem Keeps.freeSeq (h : s₀.Keeps s) {i} : s₀.Keeps (s.freeSeq i) := h.dropFrames.dropShelf.putSeq.others

theorem Keeps.tryFree (h : s₀.Keeps s) {i} : s₀.Keeps (s.tryFree i) := .ite h.freeSeq h

theorem Keeps.seqEvent (h : s₀.Keeps s) {i status handle rest} : s₀.Keeps (s.seqEvent i status handle rest) :=
  h.queueEntry.flushWaiting

theorem Keeps.endPause (h : s₀.Keeps s) {i status rest} : s₀.Keeps (s.endPause i status rest) := by
  unfold State.endPause
  dsimp only
  split
  · exact h.others.complete
  · exact h

theorem Keeps.startClose (h : s₀.Keeps s) {i} : s₀.Keeps (s.startClose i) := h.releaseBars.releaseKv.putSeq.endPause

theorem Keeps.lose (h : s₀.Keeps s) {i} : s₀.Keeps (s.lose i) := h.startClose.seqEvent.tryFree

theorem Keeps.loadEntry (h : s₀.Keeps s) {i} : s₀.Keeps (s.loadEntry i) :=
  .ite h (.ite h.useEntry (.ite h.useEntry (.ite h.callerRaise.devSet.useEntry h.callerRaise.lose)))

/-! ### Operations of Machine/Admission -/

theorem Keeps.reserve (h : s₀.Keeps s) {a i d} : s₀.Keeps (s.reserve a i d) := h.wr.others

theorem Keeps.mapFirst (h : s₀.Keeps s) {i} : s₀.Keeps (s.mapFirst i) := by
  unfold State.mapFirst
  extract_lets e
  split
  next t ok e =>
    have h1 := h.mapTo.ofFst e
    exact .ite h1 h1.lose

theorem Keeps.takeIndex (h : s₀.Keeps s) {i} : s₀.Keeps (s.takeIndex i) := .ite h.others h.others

theorem Keeps.seatEntry (h : s₀.Keeps s) {i e} : s₀.Keeps (s.seatEntry i e) := h.takeIndex.newTable.putSeq.useEntry

theorem Keeps.admitEffect (h : s₀.Keeps s) {r late} : s₀.Keeps (admitEffect r late s) := by
  unfold Machine.admitEffect
  dsimp only
  split
  · exact h
  · split
    · exact h.reserve.bump.seatEntry.complete.mapFirst.addXfer.standby
    · exact h.bump.finish
    · exact h.bump.finish

theorem Keeps.promptArrived (h : s₀.Keeps s) {i gen x bs} : s₀.Keeps (s.promptArrived i gen x bs) := by
  unfold State.promptArrived
  dsimp only
  split
  · exact (h.others.devWrite.mirrorHist.ite h.others).pump
  · exact
      have h1 := h.raise.dropXfer
      (h1.lose.ite h1).pump

theorem Keeps.onSeq (h : s₀.Keeps s) {typ r} {f : State → Nat → State} (hf : ∀ {t i}, s₀.Keeps t → s₀.Keeps (f t i)) :
    s₀.Keeps (s.onSeq typ r f) := by
  unfold State.onSeq
  dsimp only
  split
  · exact h
  · split
    · exact h.finish
    · split
      · exact h.loadEntry.finish
      · exact (hf h.loadEntry).standby

theorem Keeps.readmit (h : s₀.Keeps s) {i} : s₀.Keeps (s.readmit i) := by
  unfold State.readmit
  dsimp only
  split
  · exact h
  · split
    · exact h.putSeq
    · split
      · exact h.callerRaise.putSeq.lose
      · split
        · exact
            have h1 := h.putSeq.dropFrames.dropShelf
            (h1.kvCount.ite h1.wr).others.endPause.putSeq.seqEvent.tryFree
        · exact
            have h1 := h.putSeq.dropFrames.dropShelf
            (h1.kvCount.ite h1.wr).others.endPause.reserve.newTable.putSeq.seqEvent.mapFirst

theorem Keeps.cancelSeq (h : s₀.Keeps s) {r i} : s₀.Keeps (s.cancelSeq r i) :=
  .ite h.putSeq.others.releaseBars.releaseKv.endPause h.putSeq.others.startClose.settleCancels.tryFree

theorem Keeps.cancelEffect (h : s₀.Keeps s) {r} : s₀.Keeps (cancelEffect r s) := h.onSeq fun h => h.cancelSeq

theorem Keeps.afterMove (h : s₀.Keeps s) {i} {f : State → State} (hf : ∀ {t}, s₀.Keeps t → s₀.Keeps (f t)) :
    s₀.Keeps (s.afterMove i f) :=
  .ite h.startClose.settleCancels.tryFree (.ite (hf h).readmit (hf h))

theorem Keeps.startPauseMove (h : s₀.Keeps s) {i} : s₀.Keeps (s.startPauseMove i) := by
  unfold State.startPauseMove
  dsimp only
  split
  · exact .ite h.putSeq.queueMove.others h
  · exact h

theorem Keeps.pauseSeq (h : s₀.Keeps s) {r i} : s₀.Keeps (s.pauseSeq r i) := by
  unfold State.pauseSeq
  dsimp only
  split
  · exact h.finish
  · split
    · exact h.finish
    · split
      · exact h.finish
      · exact h.releaseBars.putSeq.others.startPauseMove

theorem Keeps.pauseEffect (h : s₀.Keeps s) {r} : s₀.Keeps (pauseEffect r s) := h.onSeq fun h => h.pauseSeq

theorem Keeps.copyBytes (h : s₀.Keeps s) {src dst n} : s₀.Keeps (s.copyBytes src dst n) := h.devWrite

theorem Keeps.moveFrame (h : s₀.Keeps s) {d f place out} : s₀.Keeps (s.moveFrame d f place out) :=
  h.foldl fun h => .ite h.copyBytes h.copyBytes

theorem Keeps.setOut (h : s₀.Keeps s) {p root base} : s₀.Keeps (s.setOut p root base) :=
  h.copyBytes.foldl fun h => h.moveFrame

theorem Keeps.setIn (h : s₀.Keeps s) {p root base fs} : s₀.Keeps (s.setIn p root base fs) :=
  h.copyBytes.devSet.foldl fun h => h.moveFrame

theorem Keeps.endMove (h : s₀.Keeps s) {i} : s₀.Keeps (s.endMove i) := h.dropJob.dropJob.others

theorem Keeps.moveOfLost (h : s₀.Keeps s) {i} : s₀.Keeps (s.moveOfLost i) := h.endMove.settleCancels.tryFree

theorem Keeps.pauseMoveCompleteEffect (h : s₀.Keeps s) {i} : s₀.Keeps (pauseMoveCompleteEffect i s) := by
  unfold Machine.pauseMoveCompleteEffect
  dsimp only
  split
  · exact h
  · exact
      have h1 := h.runJob.loadEntry
      have h2 := (h1.setOut.endMove.dropFrames.releaseKv.putSeq.afterMove fun h => h.endPause).standby
      .ite h.runJob (.ite h1.moveOfLost h2)

theorem Keeps.expire (h : s₀.Keeps s) {i} : s₀.Keeps (s.expire i) := h.callerRaise.seqEvent.freeSeq

theorem Keeps.pauseExpiryEffect (h : s₀.Keeps s) {i} : s₀.Keeps (pauseExpiryEffect i s) :=
  .ite ((h.loadEntry.expire.ite h.loadEntry).standby) h

theorem Keeps.resumeSeq (h : s₀.Keeps s) {r i} : s₀.Keeps (s.resumeSeq r i) := by
  unfold State.resumeSeq
  dsimp only
  split
  · exact h.expire.finish
  · split
    · exact h.finish
    · split
      · exact h.finish
      · split
        · exact h.finish
        · exact (((((h.reserve.popFrames.foldl fun h => h.clearTags).devSet).putSeq).queueMove).others).complete

theorem Keeps.resumeEffect (h : s₀.Keeps s) {r} : s₀.Keeps (resumeEffect r s) := h.onSeq fun h => h.resumeSeq

theorem Keeps.resumeMoveCompleteEffect (h : s₀.Keeps s) {i} : s₀.Keeps (resumeMoveCompleteEffect i s) := by
  unfold Machine.resumeMoveCompleteEffect
  split
  · exact h
  · exact .ite h.runJob (.ite h.runJob.loadEntry.moveOfLost
      ((h.runJob.loadEntry.setIn.endMove.dropShelf.putSeq.afterMove fun h => h).standby))

theorem Keeps.extendSeq (h : s₀.Keeps s) {r i} : s₀.Keeps (s.extendSeq r i) :=
  .ite h.finish (.ite h.finish (.ite h.finish (.ite h.finish ((((h.wr.growTable.ite h.wr).others).putSeq).complete))))

theorem Keeps.extendEffect (h : s₀.Keeps s) {r} : s₀.Keeps (extendEffect r s) := h.onSeq fun h => h.extendSeq

theorem Keeps.journalLostEffect (h : s₀.Keeps s) {i} : s₀.Keeps (journalLostEffect i s) := by
  unfold Machine.journalLostEffect
  dsimp only
  split
  · exact h.callerRaise.mirrorDone
  · exact h

theorem Keeps.requestTimeoutEffect (h : s₀.Keeps s) {g cid} : s₀.Keeps (requestTimeoutEffect g cid s) := by
  unfold Machine.requestTimeoutEffect
  split
  · exact h.note.finish
  · exact h

theorem Keeps.callerSwitchEffect (h : s₀.Keeps s) : s₀.Keeps (callerSwitchEffect s) := h.others

theorem Keeps.callerOpenEffect (h : s₀.Keeps s) {p on} : s₀.Keeps (callerOpenEffect p on s) :=
  .ite h.wr (.ite h.stackFrames.wr h)

/-! ### Operations of Machine/ReelBase -/

theorem Keeps.setReel (h : s₀.Keeps s) {p x} : s₀.Keeps (s.setReel p x) := h.withReel fun w => mwf_mset w _ _

theorem Keeps.setLayer (h : s₀.Keeps s) {p l x} : s₀.Keeps (s.setLayer p l x) := h.setReel

theorem Keeps.reelSend (h : s₀.Keeps s) {unit dst p l a sets arr bs} : s₀.Keeps (s.reelSend unit dst p l a sets arr bs) :=
  h.foldl fun h => h.issueOp

theorem Keeps.holdRelease (h : s₀.Keeps s) {p l home w} : s₀.Keeps (s.holdRelease p l home w) := .ite h h.setLayer

theorem Keeps.releaseWave (h : s₀.Keeps s) {p a v} : s₀.Keeps (s.releaseWave p a v) := by
  unfold State.releaseWave
  dsimp only
  split
  · exact h
  · split
    · exact h
    · exact h.holdRelease.foldl fun h => h.issueOp

theorem Keeps.writeKeys (h : s₀.Keeps s) {p bar keys} : s₀.Keeps (s.writeKeys p bar keys) := by
  unfold State.writeKeys
  split
  · exact .ite h h.devSet
  · exact h

/-! ### Operations of Machine/VopRows -/

theorem Keeps.vopEffect (h : s₀.Keeps s) {lo hi set x} : s₀.Keeps (vopEffect lo hi set x s) :=
  h.issueEvent fun h => .iteFst h h

/-! ### Operations of Machine/Completion -/

theorem Keeps.applyWork (h : s₀.Keeps s) {set w} : s₀.Keeps (s.applyWork set w) := by
  unfold State.applyWork
  dsimp only
  split
  · exact h.sramPut
  · exact h.setTag
  · exact h.wr.wr.setSt
  · exact h.bump

theorem Keeps.completeFlight (h : s₀.Keeps s) {set f} : s₀.Keeps (s.completeFlight set f) := by
  unfold State.completeFlight
  dsimp only
  split
  · exact ((h.foldl fun h => h.applyWork).setSt).wr
  · exact (h.foldl fun h => h.applyWork).setSt

theorem Keeps.commandCompleteEffect (h : s₀.Keeps s) {set idx} : s₀.Keeps (commandCompleteEffect set idx s) := by
  unfold Machine.commandCompleteEffect
  split
  · exact .ite h.completeFlight h
  · exact h

theorem Keeps.arrTimeoutEffect (h : s₀.Keeps s) {set idx} : s₀.Keeps (arrTimeoutEffect set idx s) := by
  unfold Machine.arrTimeoutEffect
  split
  · exact .ite h.raise.wr.completeFlight h
  · exact h

theorem Keeps.applyHeld (h : s₀.Keeps s) {set bad h'} : s₀.Keeps (s.applyHeld set bad h') := by
  unfold State.applyHeld
  dsimp only
  split
  · exact h.devWrite
  · exact h.devWrite.devWrite
  · exact .ite h.raise h.cellWrite.releaseWave
  · exact h.foldl fun h => h.devWrite

theorem Keeps.commitCopy (h : s₀.Keeps s) {set idx bad k} : s₀.Keeps (s.commitCopy set idx bad k) :=
  .ite h.raise (((h.foldl fun h => h.sendRow).ite h).issueOp)

theorem Keeps.runsDone (h : s₀.Keeps s) : s₀.Keeps s.runsDone := h.others.foldl fun h => h.finish

theorem Keeps.commitEnd (h : s₀.Keeps s) {set} : s₀.Keeps (s.commitEnd set) :=
  have h1 := h.wr.wr
  .ite h1.wr.wr h1.wr.wr.wr.runsDone

theorem Keeps.commitFlight (h : s₀.Keeps s) {set bad f} : s₀.Keeps (s.commitFlight set bad f) := by
  unfold State.commitFlight
  dsimp only
  split
  · exact (h.foldl fun h => h.applyHeld).commitCopy
  · exact (h.foldl fun h => h.applyHeld).commitEnd
  · exact h.foldl fun h => h.applyHeld

theorem Keeps.groupCommitEffect (h : s₀.Keeps s) {set} : s₀.Keeps (groupCommitEffect set s) := by
  unfold Machine.groupCommitEffect
  dsimp only
  split
  · exact h
  · exact
      have h3 := h.setSt.wr.foldl fun h => h.commitFlight
      .ite h3.raise h3

theorem Keeps.schedKillEffect (h : s₀.Keeps s) {set} : s₀.Keeps (schedKillEffect set s) := .ite h h.kill

theorem Keeps.schedResumeEffect (h : s₀.Keeps s) {set kill} : s₀.Keeps (schedResumeEffect set kill s) :=
  .ite h.schedKillEffect (.ite h.setSt.wr h)

theorem Keeps.schedEnableEffect (h : s₀.Keeps s) {set on} : s₀.Keeps (schedEnableEffect set on s) :=
  .ite (.ite (.ite h.wr.wr h.wr) h) (.ite h.wr.setSt.wr h.wr)

/-! ### Operations of Machine/DanceCard -/

theorem Keeps.readDanceCardEffect (h : s₀.Keeps s) {off len} : s₀.Keeps (readDanceCardEffect off len s) :=
  .ite h.emit h.emit

theorem Keeps.beginCard (h : s₀.Keeps s) : s₀.Keeps s.beginCard := h.others

theorem Keeps.commitPages (h : s₀.Keeps s) : s₀.Keeps s.commitPages := by
  unfold State.commitPages
  extract_lets nv
  have hn : s.nv.Canonical → nv.Canonical := fun c =>
    foldl_keeps (P := Nv.Canonical) (fun v pg c => c.addPage pg (v.logNext + 1)) _ _ c
  clear_value nv
  exact (h.withNv hn).withHealth

theorem Keeps.commitLog (h : s₀.Keeps s) : s₀.Keeps s.commitLog :=
  .ite h.others (h.commitPages.change rfl fun c => { c with
    regs := mwf_mset c.regs _ _, nvSlack := c.slack, nvResults := c.results })

theorem Keeps.readAgeing (h : s₀.Keeps s) : s₀.Keeps s.readAgeing := by
  unfold State.readAgeing
  extract_lets a s1 s2
  have h2 : s.Keeps s2 := ((Keeps.refl s).foldl fun h => h.wr).wr.wr.wr
  exact h.change h2.pending fun c => { h2.canonical c with slack := c.nvSlack, results := c.nvResults }

theorem Keeps.reportRetired (h : s₀.Keeps s) {cs} : s₀.Keeps (s.reportRetired cs) := h.foldl fun h => h.mgmtTray

theorem Keeps.cardEvent (h : s₀.Keeps s) : s₀.Keeps s.cardEvent := h.note.mgmtAll.emit

theorem Keeps.recard (h : s₀.Keeps s) : s₀.Keeps s.recard := .ite h.others.cardEvent h

theorem Keeps.endCard (h : s₀.Keeps s) : s₀.Keeps s.endCard :=
  have h2 := h.others.cardEvent.reportRetired.measure
  .ite h2 h2.commitLog

theorem Keeps.danceCardRegenEffect (h : s₀.Keeps s) : s₀.Keeps (danceCardRegenEffect s) :=
  .ite h.endCard (.ite h.beginCard h)

/-! ### Operations of Machine/Plan -/

theorem Keeps.planCell (h : s₀.Keeps s) {p b half epoch n v} : s₀.Keeps (s.planCell p b half epoch n v) :=
  .ite h.callerRaise h.devWrite

theorem Keeps.writePlan (h : s₀.Keeps s) {p b xs} : s₀.Keeps (s.writePlan p b xs) :=
  ((((h.devZero.devZero.foldl fun h => h.devSet).devSet).devSet).writeKeys).foldl fun h => h.planCell

theorem Keeps.planEntries (h : s₀.Keeps s) {p b xs} : s₀.Keeps (s.planEntries p b xs) := by
  unfold State.planEntries
  dsimp only
  refine h.foldl fun h => ?_
  split
  · exact h.putSeq
  · exact .ite h.putSeq h

theorem Keeps.planCounts (h : s₀.Keeps s) {p xs} : s₀.Keeps (s.planCounts p xs) := h.bump.bump.bump

theorem Keeps.loadSeats (h : s₀.Keeps s) {p b} : s₀.Keeps (s.loadSeats p b) := h.foldl fun h => h.loadEntry

theorem Keeps.planPart (h : s₀.Keeps s) {p b} : s₀.Keeps (s.planPart p b) :=
  h.loadSeats.writePlan.planCounts.planEntries.standby

theorem Keeps.reprefillAll (h : s₀.Keeps s) : s₀.Keeps s.reprefillAll := h.foldl fun h => h.readmit

theorem Keeps.callerPlanEffect (h : s₀.Keeps s) : s₀.Keeps (callerPlanEffect s) :=
  .ite (((h.others.reprefillAll.ite h.others).foldl fun h => h.planPart).wr) h

/-! ### Operations of Machine/Figures -/

theorem Keeps.initCells (h : s₀.Keeps s) {im} : s₀.Keeps (s.initCells im) := h.foldl fun h => h.devWrite

theorem Keeps.armSet (h : s₀.Keeps s) {n} : s₀.Keeps (s.armSet n) := .ite h.wr h

theorem Keeps.loadStreams (h : s₀.Keeps s) {im} : s₀.Keeps (s.loadStreams im) :=
  h.foldl fun h => h.wr.wr.wr.wr.wr.armSet

theorem Keeps.dropStreams (h : s₀.Keeps s) {mask} : s₀.Keeps (s.dropStreams mask) :=
  h.foldl fun h => h.discard.wr.wr.wr.wr

theorem Keeps.setFig (h : s₀.Keeps s) {im} : s₀.Keeps (s.setFig im) := h.others

theorem Keeps.activate (h : s₀.Keeps s) {im} : s₀.Keeps (s.activate im) :=
  h.others.dropStreams.setFig.loadStreams.initCells

theorem Keeps.reportFigs (h : s₀.Keeps s) : s₀.Keeps s.reportFigs := h.wr.wr.wr

theorem Keeps.holdFig (h : s₀.Keeps s) {im} : s₀.Keeps (s.holdFig im) := .ite h.others.activate.reportFigs h.others

theorem Keeps.loadFigureEffect (h : s₀.Keeps s) {r} : s₀.Keeps (loadFigureEffect r s) := by
  unfold Machine.loadFigureEffect
  dsimp only
  split
  · exact h
  · split
    · exact h.finish
    · split
      · exact h.finish
      · split
        · exact h.finish
        · split
          · exact h.finish
          · split
            · exact h.finish
            · exact h.holdFig.measure.complete

theorem Keeps.startPass (h : s₀.Keeps s) {n} : s₀.Keeps (s.startPass n) :=
  ((h.afresh.setSt.foldl fun h => h.wr).foldl fun h => h.wr.wr).wr.wr.wr.wr.wr

theorem Keeps.runFigureEffect (h : s₀.Keeps s) {r} : s₀.Keeps (runFigureEffect r s) := by
  unfold Machine.runFigureEffect
  dsimp only
  split
  · exact h
  · split
    · exact h.finish
    · exact .ite h.finish (.ite h.finish (h.others.foldl fun h => h.startPass))

theorem Keeps.endRole (h : s₀.Keeps s) {x status} : s₀.Keeps (s.endRole x status) := by
  unfold State.endRole
  split
  · exact h.complete
  · exact h

theorem Keeps.offerRole (h : s₀.Keeps s) {x} : s₀.Keeps (s.offerRole x) := by
  unfold State.offerRole
  split
  · exact h.raise.endRole
  · split
    · exact h.endRole
    · split
      · exact h.others.copyMirror
      · exact .ite h.endRole h.others.copyMirror.endRole

theorem Keeps.roleChangeEffect (h : s₀.Keeps s) {r} : s₀.Keeps (roleChangeEffect r s) :=
  .ite h (.ite h.complete h.offerRole)

/-! ### Operations of Machine/Harvest -/

theorem Keeps.countResult (h : s₀.Keeps s) {p r} : s₀.Keeps (s.countResult p r) := h.bump.bump.bump.bump

theorem Keeps.queueRecord (h : s₀.Keeps s) {i n at_ m first last toks} : s₀.Keeps (s.queueRecord i n at_ m first last toks) :=
  .ite h h.queueEntry

theorem Keeps.harvestGood (h : s₀.Keeps s) {p n half x r} : s₀.Keeps (s.harvestGood p n half x r) := by
  unfold State.harvestGood
  extract_lets i e emits acc m at_ toks data s1 e' ends s2
  have h2 : s₀.Keeps s2 := (h.ite h.devSet.mirrorHist).countResult.putSeq.queueRecord
  split
  next t ok e =>
    have h3 := h2.mapTo.ofFst e
    exact .ite h3.startClose (.ite h3 h3.lose)

theorem Keeps.harvestClosed (h : s₀.Keeps s) {p n half x r} : s₀.Keeps (s.harvestClosed p n half x r) :=
  ((h.ite h.devSet.mirrorHist).countResult).putSeq

theorem Keeps.harvestSlot (h : s₀.Keeps s) {p n half i} : s₀.Keeps (s.harvestSlot p n half i) :=
  have h1 := h.ite h.loadEntry
  have h2 := Keeps.ite (.ite h1.callerRaise h1.callerRaise.lose) (.ite h1.harvestClosed h1.harvestGood)
  .ite h1 (.ite (h1.putSeq.ite h1).bump (.ite h1.readmit (.ite h1.bump (.ite h1 h2))))

theorem Keeps.harvestPart (h : s₀.Keeps s) {n p} : s₀.Keeps (s.harvestPart n p) := by
  unfold State.harvestPart
  extract_lets half
  exact .ite ((h.foldl fun h => h.harvestSlot).standby) h

theorem Keeps.afterHarvest (h : s₀.Keeps s) : s₀.Keeps s.afterHarvest :=
  ((h.foldl fun h => h.startPauseMove).foldl fun h => h.tryFree).flushWaiting

theorem Keeps.harvest (h : s₀.Keeps s) {n} : s₀.Keeps (s.harvest n) :=
  .ite ((h.others.foldl fun h => .ite h.harvestPart h).afterHarvest) h

theorem Keeps.barDoneNow (h : s₀.Keeps s) : s₀.Keeps s.barDoneNow := .ite (.ite h.others h.others.transmit.emit) h

theorem Keeps.figureCompleteEffect (h : s₀.Keeps s) : s₀.Keeps (figureCompleteEffect s) :=
  .ite (.ite h.barDoneNow.harvest (h.change (Keeps.refl s).barDoneNow.pending fun c =>
    { (Keeps.refl s).barDoneNow.canonical c with seqs := c.seqs })) h

theorem Keeps.harvestLateEffect (h : s₀.Keeps s) : s₀.Keeps (harvestLateEffect s) := .ite h.others.callerRaise h

/-! ### Operations of Machine/HealthBase -/

theorem Keeps.tkWrite (h : s₀.Keeps s) {dst off bs} : s₀.Keeps (s.tkWrite dst off bs) := h.foldl fun h => h.issueOp

theorem Keeps.sendHealth (h : s₀.Keeps s) {eligible} : s₀.Keeps (s.sendHealth eligible) :=
  h.wr.others.foldl fun h => h.tkWrite

theorem Keeps.reportFailed (h : s₀.Keeps s) {cause} : s₀.Keeps (s.reportFailed cause) := by
  unfold State.reportFailed
  extract_lets x s1 s2
  have h1 : s₀.Keeps s1 := h.withHealth
  clear_value s1
  exact h1.wr.wr.raise.mgmtTray.sendHealth

theorem Keeps.resetCore (h : s₀.Keeps s) {core} : s₀.Keeps (s.resetCore core) := .ite h.others.reportFailed h.others

theorem Keeps.dropCause (h : s₀.Keeps s) {cause} : s₀.Keeps (s.dropCause cause) := h.others

theorem Keeps.absorbOps (h : s₀.Keeps s) {p mine} : s₀.Keeps (s.absorbOps p mine) := h.others

theorem Keeps.zeroTile (h : s₀.Keeps s) {tile} : s₀.Keeps (s.zeroTile tile) :=
  h.change rfl fun c => { c with
    tileMem := mwf_mkeep c.tileMem fun k => k / 2 ^ 22 ≠ tile
    tileMark := mwf_mkeep c.tileMark fun k => k / 2 ^ 19 ≠ tile }

theorem Keeps.reissue (h : s₀.Keeps s) {set} : s₀.Keeps (s.reissue set) := .ite h.discard.wr h.discard

theorem Keeps.resetRuns (h : s₀.Keeps s) {set} : s₀.Keeps (s.resetRuns set) := h.others.foldl fun h => h.finish

theorem Keeps.freePort (h :
    s₀.Keeps s) {tile} : s₀.Keeps (s.freePort tile) :=
  
  h.withSets fun w => mwf_map (f := SetSt.mapFlights _) (fun _ => SetSt.mapFlights_ne_init) w

theorem Keeps.resetSet (h : s₀.Keeps s) {set} : s₀.Keeps (s.resetSet set) :=
  have h2 := (h.foldl fun h => h.clearValid.zeroTile.freePort).absorbOps
  ((h2.reissue.wr.ite (h2.discard.ite h2.kill)).setSt).resetRuns

theorem Keeps.resetTile (h : s₀.Keeps s) {tile} : s₀.Keeps (s.resetTile tile) :=
  .ite h.others (.ite h.others.resetSet h.others.clearValid.reissue.freePort)

theorem Keeps.movedTile (h : s₀.Keeps s) {tile} : s₀.Keeps (s.movedTile tile) := .ite h h.resetTile

theorem Keeps.markUnread (h : s₀.Keeps s) {tile} : s₀.Keeps (s.markUnread tile) :=
  h.withTileMark fun w => mwf_foldl_mset _ _ _ w

theorem Keeps.retireTile (h : s₀.Keeps s) {t cause} : s₀.Keeps (s.retireTile t cause) := by
  unfold State.retireTile
  dsimp only
  split
  · exact h
  · split
    · exact h.retireUnit.mapped.others.movedTile.markUnread
    · exact h.retireUnit.mapped.others.reportFailed

theorem Keeps.retireChannel (h : s₀.Keeps s) {c} : s₀.Keeps (s.retireChannel c) :=
  .ite h h.others.note.raise.reportFailed

theorem Keeps.showReplan (h : s₀.Keeps s) : s₀.Keeps s.showReplan := by
  unfold State.showReplan
  split
  · exact h.wr.wr.wr.wr
  · exact h.wr

theorem Keeps.dropReplan (h : s₀.Keeps s) : s₀.Keeps s.dropReplan := h.others.showReplan

theorem Keeps.standTile (h : s₀.Keeps s) {t q} : s₀.Keeps (s.standTile t q) := h.mapped.others.movedTile

theorem Keeps.stopSweep (h : s₀.Keeps s) : s₀.Keeps s.stopSweep := by
  unfold State.stopSweep
  split
  · exact (h.standTile.ite h).dropReplan
  · exact h

theorem Keeps.swapFaulty (h : s₀.Keeps s) : s₀.Keeps s.swapFaulty := by
  unfold State.swapFaulty
  extract_lets stuck ts hit x s1 s2
  have h1 : s₀.Keeps s1 := h.withHealth
  have h2 : s₀.Keeps s2 := by
    unfold s2
    clear_value s1
    refine .ite ?_ h1
    split
    · exact .ite h1.retireUnit.stopSweep.markUnread h1.stopSweep
    · exact h1
  exact h2.foldl fun h => h.retireTile

theorem Keeps.clearFailedEffect (h : s₀.Keeps s) : s₀.Keeps (clearFailedEffect s) := .ite h.others.wr.wr h.others

theorem Keeps.healthRecordEffect (h : s₀.Keeps s) : s₀.Keeps (healthRecordEffect s) := .ite h.sendHealth h

/-! ### Operations of Machine/Weights -/

theorem Keeps.nvPut (h : s₀.Keeps s) {slot a bs} : s₀.Keeps (s.nvPut slot a bs) :=
  h.withNv fun c => { c with data := mwf_msetList _ c.data _ }

theorem Keeps.showNv (h : s₀.Keeps s) : s₀.Keeps s.showNv := h.wr.wr.wr.wr.wr.wr

theorem Keeps.readRecords (h : s₀.Keeps s) : s₀.Keeps s.readRecords := h.others.showNv

theorem Keeps.writeRecord (h : s₀.Keeps s) {slot r} : s₀.Keeps (s.writeRecord slot r) :=
  Keeps.showNv (h.withNv fun c => by split <;> exact { c with })

theorem Keeps.commitRec (h : s₀.Keeps s) {slot r} : s₀.Keeps (s.commitRec slot r) := .ite h.others h.writeRecord

theorem Keeps.commitHeld (h : s₀.Keeps s) : s₀.Keeps s.commitHeld := h.others.foldl fun h => h.writeRecord

theorem Keeps.hostFail (h : s₀.Keeps s) {r} : s₀.Keeps (s.hostFail r) := h.raise.finish

theorem Keeps.wearOut (h : s₀.Keeps s) {m k} : s₀.Keeps (s.wearOut m k) := h.others

theorem Keeps.showInstall (h : s₀.Keeps s) : s₀.Keeps s.showInstall := by
  unfold State.showInstall
  dsimp only
  split
  · exact h.wr.wr.wr.wr
  · exact h.wr.wr

theorem Keeps.startInstall (h : s₀.Keeps s) {req slot m skip table} : s₀.Keeps (s.startInstall req slot m skip table) :=
  (((h.ite h.commitRec).others).others).showInstall

theorem Keeps.installEffect (h : s₀.Keeps s) {r d table} : s₀.Keeps (installEffect r d table s) := by
  unfold Machine.installEffect
  dsimp only
  split
  · exact h
  · split
    · exact h.fetch.aerRead.hostFail
    · split
      · exact h.fetch.raise.finish
      · split
        · exact h.fetch.finish
        · split
          · exact h.fetch.fetch.aerRead.hostFail
          · exact h.fetch.fetch.startInstall

theorem Keeps.adoptManifest (h : s₀.Keeps s) {slot m} : s₀.Keeps (s.adoptManifest slot m) :=
  h.nvPut.commitRec.commitRec.wr.measure

theorem Keeps.nextInstall (h : s₀.Keeps s) : s₀.Keeps s.nextInstall := by
  unfold State.nextInstall
  dsimp only
  split
  · exact h
  · exact .ite h (have h1 := h.others; .ite h1.raise (.ite h1.adoptManifest h1.startInstall))

theorem Keeps.endInstallWith (h : s₀.Keeps s) {i st} : s₀.Keeps (s.endInstallWith i st) := by
  unfold State.endInstallWith
  dsimp only
  refine .nextInstall ?_
  split
  · exact h.others.showInstall.finish
  · exact h.others.showInstall

theorem Keeps.cancelInstallEffect (h : s₀.Keeps s) {r} : s₀.Keeps (cancelInstallEffect r s) := by
  unfold Machine.cancelInstallEffect
  split
  · exact h
  · split
    · exact h.endInstallWith.finish
    · exact h.finish

theorem Keeps.installDone (h : s₀.Keeps s) {i} : s₀.Keeps (s.installDone i) := by
  unfold State.installDone
  dsimp only
  refine .endInstallWith (.measure ?_)
  split
  · exact h.commitRec
  · exact h.commitRec.commitRec.wr

theorem Keeps.shardDone (h : s₀.Keeps s) {i k} : s₀.Keeps (s.shardDone i k) :=
  have h2 := h.commitRec.others.showInstall
  .ite h2.installDone h2

theorem Keeps.fetchShard (h : s₀.Keeps s) {i k} : s₀.Keeps (s.fetchShard i k) := by
  unfold State.fetchShard
  split
  · exact h.fetch
  · exact h

theorem Keeps.shardProgrammedEffect (h :
    s₀.Keeps s) {written readBack} : s₀.Keeps (shardProgrammedEffect written readBack s) := by
  unfold Machine.shardProgrammedEffect
  dsimp only
  split
  · exact h
  · split
    · exact h
    · split
      · exact h
      · split
        · exact
            have h2 := h.fetchShard.nvPut.nvPut.wearOut
            .ite h2.shardDone (.ite h2.others h2.raise.endInstallWith)
        · exact h.fetchShard.aerRead.raise.endInstallWith

theorem Keeps.remap (h : s₀.Keeps s) {slot region} : s₀.Keeps (s.remap slot region) :=
  .ite h (h.foldl fun h => h.devSet)

/-! ### Operations of Machine/Power -/

theorem Keeps.pwrRaise (h : s₀.Keeps s) {e args} : s₀.Keeps (s.pwrRaise e args) := h.raise

theorem Keeps.setPower (h : s₀.Keeps s) {f} : s₀.Keeps (s.setPower f) := h.others

theorem Keeps.setMode (h : s₀.Keeps s) {gate} : s₀.Keeps (s.setMode gate) := .ite h h.wr

theorem Keeps.rebudget (h : s₀.Keeps s) {lo nonTile ds} : s₀.Keeps (s.rebudget lo nonTile ds) :=
  h.withGate fun c => foldl_keeps (P := Gate.Canonical) (fun _ _ c => c.setBudget) _ _ c

theorem Keeps.startRamp (h : s₀.Keeps s) {old held} : s₀.Keeps (s.startRamp old held) := h.setPower.rebudget

theorem Keeps.setRisk (h : s₀.Keeps s) {on} : s₀.Keeps (s.setRisk on) := h.foldl fun h => .ite h.putSeq h

theorem Keeps.reviewHold (h : s₀.Keeps s) : s₀.Keeps s.reviewHold :=
  .ite h.setPower.pwrRaise.mgmtAll.emit.setRisk (.ite h.setPower.setRisk.mgmtAll h)

theorem Keeps.onCap (h : s₀.Keeps s) : s₀.Keeps s.onCap :=
  have h1 := h.wr.wr
  have h2 := h1.ite h1.mgmt
  ((h2.ite h2.startRamp).reviewHold).setMode

theorem Keeps.setPowerCapEffect (h : s₀.Keeps s) {w force} : s₀.Keeps (setPowerCapEffect w force s) := h.wr.wr.onCap

theorem Keeps.hostCapWriteEffect (h : s₀.Keeps s) {w} : s₀.Keeps (hostCapWriteEffect w s) := h.wr.onCap

theorem Keeps.floorDeclWriteEffect (h : s₀.Keeps s) {w} : s₀.Keeps (floorDeclWriteEffect w s) :=
  .ite h.raise (have h1 := h.wr.wr; ((h1.ite h1.startRamp).reviewHold).setMode)

theorem Keeps.setOpp (h : s₀.Keeps s) {die c} : s₀.Keeps (s.setOpp die c) := h.others.wr

theorem Keeps.sendRail (h : s₀.Keeps s) {die c} : s₀.Keeps (s.sendRail die c) := .ite h h.setPower.emit

theorem Keeps.setDie (h : s₀.Keeps s) {die x} : s₀.Keeps (s.setDie die x) := h.setPower

theorem Keeps.moveDie (h : s₀.Keeps s) {die c} : s₀.Keeps (s.moveDie die c) :=
  .ite (.ite h h.setDie.sendRail) (.ite h.setDie h.setDie.sendRail)

theorem Keeps.railSettledEffect (h : s₀.Keeps s) {die} : s₀.Keeps (railSettledEffect die s) := by
  unfold Machine.railSettledEffect
  split
  · exact h.setDie
  · exact h

theorem Keeps.clockDies (h : s₀.Keeps s) : s₀.Keeps s.clockDies := by
  unfold State.clockDies
  refine h.foldl fun h => ?_
  split
  · exact h.setOpp.setDie.sendRail
  · exact h

theorem Keeps.avsErrorEffect (h : s₀.Keeps s) {die} : s₀.Keeps (avsErrorEffect die s) := h.setDie.mgmt

theorem Keeps.chooseOpp (h : s₀.Keeps s) {budgets demands} : s₀.Keeps (s.chooseOpp budgets demands) :=
  .ite h (h.foldl fun h => (h.pwrRaise.ite h).moveDie)

theorem Keeps.setTemps (h : s₀.Keeps s) {ts} : s₀.Keeps (s.setTemps ts) := h.wr.wr.wr

theorem Keeps.stepThermal (h : s₀.Keeps s) {hot} : s₀.Keeps (s.stepThermal hot) := by
  unfold State.stepThermal
  dsimp only
  split
  · exact h
  · exact h.setPower

theorem Keeps.addEnergy (h : s₀.Keeps s) {fj parts} : s₀.Keeps (s.addEnergy fj parts) :=
  (h.bump.foldl fun h => h.bump).setPower

theorem Keeps.addEstimate (h : s₀.Keeps s) {w} : s₀.Keeps (s.addEstimate w) := h.wr.setPower

theorem Keeps.raiseFloor (h : s₀.Keeps s) : s₀.Keeps s.raiseFloor :=
  .ite (have h1 := h.wr.wr.pwrRaise; (h1.mgmt.ite h1.mgmt.startRamp).reviewHold) h

theorem Keeps.nextWindow (h : s₀.Keeps s) {ds nonTile} : s₀.Keeps (s.nextWindow ds nonTile) :=
  have h1 := h.setPower
  (h1.setPower.ite h1).newWindow.rebudget

theorem Keeps.powerWindowEffect (h : s₀.Keeps s) {a} : s₀.Keeps (powerWindowEffect a s) :=
  have h1 := h.addEstimate.addEnergy.setTemps
  have h2 := h1.bump.pwrRaise.ite h1
  have h3 := h2.setPower.ite h2
  have h5 := (h3.nextWindow.stepThermal.onCap.ite h3.nextWindow).setMode
  .ite h5.chooseOpp h5

theorem Keeps.thermalThrottleEffect (h : s₀.Keeps s) {die degC} : s₀.Keeps (thermalThrottleEffect die degC s) :=
  .ite h.setPower.pwrRaise.mgmt.onCap h

theorem Keeps.stopSets (h : s₀.Keeps s) : s₀.Keeps s.stopSets := h.others.foldl fun h => h.schedKillEffect

theorem Keeps.stopServing (h : s₀.Keeps s) : s₀.Keeps s.stopServing := h.stopSets.pwrRaise.mgmt.reportFailed

theorem Keeps.thermalTripEffect (h : s₀.Keeps s) {die degC} : s₀.Keeps (thermalTripEffect die degC s) :=
  .ite h.others.pwrRaise.emit.wr.mgmt.stopServing h

theorem Keeps.parkDies (h : s₀.Keeps s) : s₀.Keeps s.parkDies := h.foldl fun h => h.setOpp.setDie.sendRail

theorem Keeps.coolantLossEffect (h : s₀.Keeps s) : s₀.Keeps (coolantLossEffect s) :=
  .ite (have h2 := h.wr.setPower.stopServing.dropReplan; (h2.setPower.ite h2.setPower.wr).parkDies) h

theorem Keeps.unparkEffect (h : s₀.Keeps s) : s₀.Keeps (unparkEffect s) :=
  .ite h.others.setPower.wr.dropCause.setMode.pump h

theorem Keeps.startSag (h : s₀.Keeps s) : s₀.Keeps s.startSag := h.wr.pwrRaise.mgmt.showInstall.onCap

theorem Keeps.supplySagEffect (h : s₀.Keeps s) : s₀.Keeps (supplySagEffect s) := .ite h (.ite h.wr h.startSag)

theorem Keeps.sagOver (h : s₀.Keeps s) : s₀.Keeps s.sagOver := .ite h.commitHeld.setPower.commitLog h.commitHeld

theorem Keeps.sagEndEffect (h : s₀.Keeps s) : s₀.Keeps (sagEndEffect s) :=
  .ite h (.ite h.wr h.wr.mgmt.sagOver.showInstall.onCap)

theorem Keeps.governorFailoverEffect (h : s₀.Keeps s) : s₀.Keeps (governorFailoverEffect s) :=
  .ite (h.wr.wr.foldl fun h => .ite h h.emit) h

theorem Keeps.powerBar (h : s₀.Keeps s) : s₀.Keeps s.powerBar := by
  unfold State.powerBar
  dsimp only
  refine .chooseOpp (.wr ?_)
  split
  · exact (((h.raiseFloor.wr.wr.foldl fun h => h.wr).setPower).setPower).wr
  · exact (h.raiseFloor.wr.wr.foldl fun h => h.wr).setPower

/-! ### Operations of Machine/FormatArea -/

theorem Keeps.putBits (h : s₀.Keeps s) {a hi lo v} : s₀.Keeps (s.putBits a hi lo v) := h.devSetNat

theorem Keeps.coreCell (h : s₀.Keeps s) {a v} : s₀.Keeps (s.coreCell a v) := h.cellWrite

/-! ### Operations of Machine/Staging -/

theorem Keeps.noteRegion (h : s₀.Keeps s) {region slot m} : s₀.Keeps (s.noteRegion region slot m) := h.others

theorem Keeps.writeRegion (h : s₀.Keeps s) {region m bytesOf entry} : s₀.Keeps (s.writeRegion region m bytesOf entry) :=
  h.devLoad.devSet.foldl fun h => (h.devLoad.ite h).devSet

theorem Keeps.showRegion (h : s₀.Keeps s) {region epoch full} : s₀.Keeps (s.showRegion region epoch full) :=
  .ite h.wr h.wr.wr

theorem Keeps.writeHostMap (h : s₀.Keeps s) {region} : s₀.Keeps (s.writeHostMap region) := h.devSet

theorem Keeps.remapHosts (h : s₀.Keeps s) : s₀.Keeps s.remapHosts := h.foldl fun h => .ite h h.writeHostMap

theorem Keeps.nvCodewordReadEffect (h : s₀.Keeps s) {k page fails} :
    s₀.Keeps (Machine.nvCodewordReadEffect k page fails s) := by
  unfold Machine.nvCodewordReadEffect
  extract_lets s1
  have h1 : s₀.Keeps s1 := h.raise.bump
  clear_value s1
  exact .ite h (.ite h.raise.bump (.ite h1 h1.withNv.remap.remap.remapHosts))

theorem Keeps.startStaging (h : s₀.Keeps s) {req slot region} : s₀.Keeps (s.startStaging req slot region) :=
  have h2 := h.queueMove.noteRegion.showRegion
  (h2.ite h2.wr).others

theorem Keeps.stageEpochEffect (h : s₀.Keeps s) {r} : s₀.Keeps (stageEpochEffect r s) :=
  .ite h (have h1 := h.raise.ite h; .ite h1.complete h1.startStaging)

theorem Keeps.stageAtBoot (h : s₀.Keeps s) : s₀.Keeps s.stageAtBoot := by
  unfold State.stageAtBoot
  split
  · exact .ite h.raise h.startStaging
  · exact h.raise

theorem Keeps.endStaging (h : s₀.Keeps s) {g st epoch} : s₀.Keeps (s.endStaging g st epoch) := by
  unfold State.endStaging
  dsimp only
  split
  · exact h.dropJob.others.wr.complete
  · exact h.dropJob.others.wr

theorem Keeps.noteServes (h : s₀.Keeps s) : s₀.Keeps s.noteServes := .ite h h.others

theorem Keeps.adoptRegion (h : s₀.Keeps s) {epoch} : s₀.Keeps (s.adoptRegion epoch) :=
  .ite h ((((((h.others.ite h).wr).wr).wr).wr).noteServes)

theorem Keeps.staged (h : s₀.Keeps s) {g remote} : s₀.Keeps (s.staged g remote) :=
  have h2 := h.writeRegion.noteRegion.showRegion.writeHostMap
  have h4 := (((h2.wr.wr.noteServes.ite h2).raise).dropCause).endStaging
  .ite h4.adoptRegion h4

theorem Keeps.stageDoneEffect (h : s₀.Keeps s) {remote} : s₀.Keeps (stageDoneEffect remote s) := by
  unfold Machine.stageDoneEffect
  split
  · exact h
  · exact .ite h.runJob (.ite h.runJob.staged h.runJob.raise.reportFailed.endStaging)

theorem Keeps.putExpert (h : s₀.Keeps s) {p l hs e source m bs} : s₀.Keeps (s.putExpert p l hs e source m bs) := by
  unfold State.putExpert
  extract_lets s1 x s2
  have h1 : s₀.Keeps s1 := h.foldl fun h => h.devLoad
  clear_value s1
  have h2 : s₀.Keeps s2 := h1.withWeights fun w => mwf_mset w (hostKey p l hs) (some ⟨e, source, manEpoch m⟩)
  exact h2.foldl fun h => .ite h.writeHostMap h

theorem Keeps.askHostSlot (h : s₀.Keeps s) {m p l e h'} : s₀.Keeps (s.askHostSlot m p l e h') := .ite h h.queueMove

theorem Keeps.stageHostSlotEffect (h : s₀.Keeps s) {r d} : s₀.Keeps (stageHostSlotEffect r d s) :=
  have h1 := h.askHostSlot.runJob
  have h2 := h1.dropJob.raise
  .ite h (.ite h.finish (.ite h1 (.ite h1.dropJob.putExpert.finish (h2.reportFailed.ite h2).finish)))

theorem Keeps.startFill (h : s₀.Keeps s) {req m src nhost} : s₀.Keeps (s.startFill req m src nhost) :=
  h.queueMove.noteRegion.showRegion.wr.others.raise

theorem Keeps.fillEffect (h : s₀.Keeps s) {r manifest sources held} : s₀.Keeps (fillEffect r manifest sources held s) := by
  unfold Machine.fillEffect
  dsimp only
  split
  · exact h
  · split
    · exact h.fetch.aerRead.hostFail
    · split
      · exact h.fetch.fetch.aerRead.hostFail
      · exact .ite h.fetch.fetch.finish (.ite h.fetch.fetch.finish (.ite h.fetch.fetch.raise.finish h.fetch.fetch.startFill))

theorem Keeps.fillHosts (h : s₀.Keeps s) {f} : s₀.Keeps (s.fillHosts f) := by
  unfold State.fillHosts
  refine h.foldl fun h => ?_
  dsimp only
  split
  · exact h.putExpert
  · exact h

theorem Keeps.sendReady (h : s₀.Keeps s) {ok} : s₀.Keeps (s.sendReady ok) := by
  unfold State.sendReady
  dsimp only
  split
  · exact .ite h h.others.tkWrite
  · exact h

theorem Keeps.tryReady (h : s₀.Keeps s) : s₀.Keeps s.tryReady := by
  unfold State.tryReady
  split
  · exact .ite h.sendReady h
  · exact h

theorem Keeps.kitFilled (h : s₀.Keeps s) : s₀.Keeps s.kitFilled := by
  unfold State.kitFilled
  dsimp only
  split
  · exact h.others.tryReady
  · exact h

theorem Keeps.endFill (h : s₀.Keeps s) {f st} : s₀.Keeps (s.endFill f st) := by
  unfold State.endFill
  dsimp only
  split
  · exact h.dropJob.others.wr.finish
  · exact .ite h.dropJob.others.wr.kitFilled h.dropJob.others.wr.sendReady

theorem Keeps.reinstall (h : s₀.Keeps s) {f} : s₀.Keeps (s.reinstall f) := h.others.nextInstall

theorem Keeps.fillDone (h : s₀.Keeps s) {f} : s₀.Keeps (s.fillDone f) :=
  h.writeRegion.noteRegion.showRegion.writeHostMap.fillHosts.raise.dropCause.adoptRegion.endFill.reinstall

theorem Keeps.fillDoneEffect (h : s₀.Keeps s) {ds} : s₀.Keeps (fillDoneEffect ds s) := by
  unfold Machine.fillDoneEffect
  dsimp only
  split
  · exact h
  · exact
      have h1 := h.runJob.others
      .ite (.ite h1.fillDone h1) (.ite h1.raise.reportFailed.endFill h1)

theorem Keeps.holdSwap (h : s₀.Keeps s) {w} : s₀.Keeps (s.holdSwap w) := h.others.wr

theorem Keeps.swapEpochEffect (h : s₀.Keeps s) {r} : s₀.Keeps (swapEpochEffect r s) := by
  unfold Machine.swapEpochEffect
  dsimp only
  split
  · exact h
  · split
    · exact h.others.raise.finish
    · split
      · exact h.holdSwap
      · exact .ite h.holdSwap.finish h.finish

theorem Keeps.epochNotReady (h : s₀.Keeps s) : s₀.Keeps s.epochNotReady := h.others.raise

theorem Keeps.switchRegions (h : s₀.Keeps s) {w} : s₀.Keeps (s.switchRegions w) := by
  unfold State.switchRegions
  dsimp only
  refine .finish (.measure ?_)
  refine .mgmtAll (.noteServes ?_)
  split
  · exact h.others.wr.wr.wr.wr.commitRec
  · exact h.others.wr.wr.wr.wr

theorem Keeps.checkOwed (h : s₀.Keeps s) : s₀.Keeps s.checkOwed := .ite h.epochNotReady h

theorem Keeps.swapAt (h : s₀.Keeps s) {bar} : s₀.Keeps (s.swapAt bar) := by
  unfold State.swapAt
  extract_lets x s1 s2 y
  have h1 : s₀.Keeps s1 := by
    unfold s1
    split
    · exact .ite h.withWeights.epochNotReady h
    · exact h
  clear_value s1
  split
  · exact h1
  · have h2 : s₀.Keeps s2 := Keeps.wr (s := { s1 with swap := none }) h1.others
    clear_value s2
    exact .ite h1 (.ite h2.switchRegions (.ite h2.withWeights.finish h2.epochNotReady.finish))

theorem Keeps.openSample (h : s₀.Keeps s) {p l bar k g} : s₀.Keeps (s.openSample p l bar k g) :=
  .ite h h.coreCell.putBits.putBits

theorem Keeps.afterPromenade (h : s₀.Keeps s) {m} : s₀.Keeps (s.afterPromenade m) := by
  unfold State.afterPromenade
  split
  · exact h.arrive
  · exact h.openSample
  · exact h.rewriteFrame
  · exact h

theorem Keeps.endMoves (h : s₀.Keeps s) : s₀.Keeps s.endMoves := by
  unfold State.endMoves
  split
  · exact h
  · split
    · exact h
    · exact h.others.afterPromenade

theorem Keeps.promenadeMoveCompleteEffect (h : s₀.Keeps s) {die} : s₀.Keeps (promenadeMoveCompleteEffect die s) := by
  unfold Machine.promenadeMoveCompleteEffect
  refine .endMoves ?_
  split
  · exact h
  · exact h.turn

theorem Keeps.closeUsed (h : s₀.Keeps s) : s₀.Keeps s.closeUsed := (h.foldl fun h => h.wr).others

theorem Keeps.prefetchIssueEffect (h : s₀.Keeps s) {p} : s₀.Keeps (prefetchIssueEffect p s) := by
  unfold Machine.prefetchIssueEffect
  dsimp only
  split
  · exact h
  · exact .ite h.queueMove.setFig h

/-! ### Operations of Machine/Tempo -/

theorem Keeps.badBeat (h : s₀.Keeps s) {b} : s₀.Keeps (s.badBeat b) :=
  have h1 := h.setInp
  .ite (.ite h1.wr.raise.others h1.wr.raise) h1

theorem Keeps.firstSelect (h : s₀.Keeps s) {b} : s₀.Keeps (s.firstSelect b) := .ite h.wr.wr.others (.ite h.wr.wr h)

theorem Keeps.goodBeat (h : s₀.Keeps s) {b} : s₀.Keeps (s.goodBeat b) := .ite h.setInp.setInp.wr.firstSelect h.setInp

theorem Keeps.frameEnd (h : s₀.Keeps s) {b count} : s₀.Keeps (s.frameEnd b count) :=
  .ite (.ite h.raise.badBeat h) (.ite h.wr.setNow h)

theorem Keeps.skew (h : s₀.Keeps s) : s₀.Keeps s.skew := .ite h.wr h

theorem Keeps.periodCheck (h : s₀.Keeps s) {b e} : s₀.Keeps (s.periodCheck b e) := .ite h.setInp.raise h.setInp

theorem Keeps.tempoBeatEffect (h : s₀.Keeps s) {b e} : s₀.Keeps (tempoBeatEffect b e s) := by
  unfold Machine.tempoBeatEffect
  refine .ite (.skew ?_) h
  have h1 := h.periodCheck (b := b) (e := e)
  split
  · exact (h1.setInp.goodBeat.ite h1.setInp.badBeat).frameEnd
  · exact .ite h1.setInp.goodBeat h1.setInp.badBeat

theorem Keeps.freshTempo (h : s₀.Keeps s) : s₀.Keeps s.freshTempo := h.withTempo fun _ => mwf_nil 0

theorem Keeps.tempoEnableEffect (h : s₀.Keeps s) : s₀.Keeps (tempoEnableEffect s) := .ite h h.wr.freshTempo

theorem Keeps.tempoDisableEffect (h : s₀.Keeps s) : s₀.Keeps (tempoDisableEffect s) := h.wr.clearFields.freshTempo

theorem Keeps.swapEffect (h : s₀.Keeps s) : s₀.Keeps (swapEffect s) := .ite h.others h

theorem Keeps.judgeMissing (h : s₀.Keeps s) {b} : s₀.Keeps (s.judgeMissing b) := .ite h h.setInp.badBeat

theorem Keeps.reselect (h : s₀.Keeps s) : s₀.Keeps s.reselect := by
  unfold State.reselect
  dsimp only
  split
  · exact .ite h.wr.raise h.wr.wr.raise
  · split
    · split
      · exact h
      · split
        · exact h.wr.wr
        · exact h.wr
    · exact .ite h.wr h

theorem Keeps.tempoBoundary (h : s₀.Keeps s) : s₀.Keeps s.tempoBoundary := h.reselect.others

theorem Keeps.idleTick (h : s₀.Keeps s) : s₀.Keeps s.idleTick :=
  .ite (.ite h.others.judgeMissing.judgeMissing h.others) h

/-! ### Operations of Machine/Boot -/

theorem Keeps.senseFuses (h : s₀.Keeps s) : s₀.Keeps s.senseFuses := h.wr.wr.wr.wr.wr.wr.wr.wr.wr

theorem Keeps.showLatch (h : s₀.Keeps s) : s₀.Keeps s.showLatch := h.wr.wr

theorem Keeps.packageReset (h : s₀.Keeps s) {perst railsUp} : s₀.Keeps (s.packageReset perst railsUp) :=
  have h1 := (((h.fromReset rfl rfl).foldl fun h => h.wr).senseFuses).showLatch
  .ite h1.wr h1

theorem Keeps.perstAssertEffect (h : s₀.Keeps s) : s₀.Keeps (perstAssertEffect s) := h.packageReset

theorem Keeps.powerLossEffect (h : s₀.Keeps s) : s₀.Keeps (powerLossEffect s) := h.packageReset

theorem Keeps.sendBoot (h : s₀.Keeps s) : s₀.Keeps s.sendBoot := h.emit

theorem Keeps.toStage (h : s₀.Keeps s) {n} : s₀.Keeps (s.toStage n) := h.wr.sendBoot

theorem Keeps.askChunk (h : s₀.Keeps s) {off} : s₀.Keeps (s.askChunk off) := h.emit

theorem Keeps.startFetch (h : s₀.Keeps s) : s₀.Keeps s.startFetch := by
  unfold State.startFetch
  exact (h.withBoot (x := { s.boot with sram := [] }) id fun _ => mwf_nil _).toStage.askChunk

theorem Keeps.bootFailed (h : s₀.Keeps s) : s₀.Keeps s.bootFailed := .ite h.wr.toStage h.others.startFetch

theorem Keeps.startBoot (h : s₀.Keeps s) : s₀.Keeps s.startBoot :=
  have h2 := h.toStage.startSag.ite h.toStage
  .ite h2.raise h2

theorem Keeps.perstDeassertEffect (h :
    s₀.Keeps s) {pos railsGood flowLow} : s₀.Keeps (perstDeassertEffect pos railsGood flowLow s) :=
  .ite h.others.wr.wr.startBoot h

theorem Keeps.firmwareReset (h : s₀.Keeps s) : s₀.Keeps s.firmwareReset := h.wr.sendBoot.packageReset.wr.wr.startBoot

theorem Keeps.afterCore (h : s₀.Keeps s) : s₀.Keeps s.afterCore := .ite h.firmwareReset h

theorem Keeps.railFaultEffect (h : s₀.Keeps s) : s₀.Keeps (railFaultEffect s) := .ite h h.firmwareReset

theorem Keeps.coolantFlowRestoredEffect (h : s₀.Keeps s) : s₀.Keeps (coolantFlowRestoredEffect s) := h.others.wr

theorem Keeps.firmwareChunkEffect (h : s₀.Keeps s) {off bs} : s₀.Keeps (firmwareChunkEffect off bs s) :=
  .ite (.ite h.loadSram.askChunk h.loadSram) h

theorem Keeps.runBundle (h : s₀.Keeps s) : s₀.Keeps s.runBundle := h.wr.wr.others

theorem Keeps.measureDies (h : s₀.Keeps s) : s₀.Keeps s.measureDies := h.others

theorem Keeps.compareDie (h : s₀.Keeps s) {die} : s₀.Keeps (s.compareDie die) := .ite h h.raise.reportFailed

theorem Keeps.spoilMeasure (h : s₀.Keeps s) {die} : s₀.Keeps (s.spoilMeasure die) := h.others

theorem Keeps.senseWords (h : s₀.Keeps s) : s₀.Keeps s.senseWords := h.foldl fun h => h.raise

theorem Keeps.seatTile (h : s₀.Keeps s) {t} : s₀.Keeps (s.seatTile t) := .ite h.others h

theorem Keeps.seatLane (h : s₀.Keeps s) {l} : s₀.Keeps (s.seatLane l) := .ite h.others h

theorem Keeps.buildMap (h : s₀.Keeps s) : s₀.Keeps s.buildMap := by
  unfold State.buildMap
  extract_lets fused y s1 s2
  have h1 : s₀.Keeps s1 := Keeps.foldl (s := { s with layout := y }) h.others fun h => h.seatTile
  clear_value s1
  have h2 : s₀.Keeps s2 := h1.foldl fun h => h.seatLane
  exact .ite h2.reportFailed h2

theorem Keeps.curveFailed (h : s₀.Keeps s) : s₀.Keeps s.curveFailed := .ite h.reportFailed h

theorem Keeps.d2dLaneReplaceEffect (h : s₀.Keeps s) {link lane} : s₀.Keeps (d2dLaneReplaceEffect link lane s) :=
  .ite h (.ite h.note h.reportFailed)

theorem Keeps.makeDevice (h : s₀.Keeps s) : s₀.Keeps s.makeDevice := h.others

theorem Keeps.makeAlias (h : s₀.Keeps s) : s₀.Keeps s.makeAlias := by
  unfold State.makeAlias
  dsimp only
  split
  · exact h.others
  · exact h

theorem Keeps.buildCard (h : s₀.Keeps s) : s₀.Keeps s.buildCard := .ite h.beginCard.endCard (.ite h.endCard h)

theorem Keeps.copyBundle (h : s₀.Keeps s) : s₀.Keeps s.copyBundle :=
  h.withBoot (fun _ => mwf_msetList _ (mwf_nil 0) _) id

theorem Keeps.bootReady (h : s₀.Keeps s) : s₀.Keeps s.bootReady := h.wr.toStage

theorem Keeps.verifyEnds (h : s₀.Keeps s) {passed} : s₀.Keeps (s.verifyEnds passed) :=
  .ite h.runBundle.measure.toStage.tempoEnableEffect h.raise.bootFailed

theorem Keeps.mapEnds (h : s₀.Keeps s) : s₀.Keeps s.mapEnds :=
  have h1 := h.curveFailed.copyBundle.makeAlias.toStage.stageAtBoot
  .ite h1.bootReady h1

theorem Keeps.stageEnds (h : s₀.Keeps s) {passed} : s₀.Keeps (s.stageEnds passed) := by
  unfold State.stageEnds
  dsimp only
  split
  · exact .ite h (.ite h.others.senseWords.toStage h.bootFailed)
  · exact .ite h.wr.toStage (.ite h.makeDevice.startFetch h.bootFailed)
  · exact .ite h.toStage h.bootFailed
  · exact h.verifyEnds
  · exact (h.measureDies.ite h.measureDies.raise.reportFailed).toStage
  · exact h.readRecords.readAgeing.buildMap.toStage
  · exact h.mapEnds
  · exact .ite h.bootReady h
  · exact h

theorem Keeps.trainFailed (h : s₀.Keeps s) {cls inst} : s₀.Keeps (s.trainFailed cls inst) := h.others.note

theorem Keeps.bootUnitFailed (h : s₀.Keeps s) {u} : s₀.Keeps (s.bootUnitFailed u) := by
  unfold State.bootUnitFailed
  split
  · exact (h.spoilMeasure.compareDie.ite h).reportFailed
  · exact h.reportFailed
  · exact h.d2dLaneReplaceEffect
  · exact h.retireChannel
  · exact h.trainFailed
  · exact h.trainFailed
  · split
    · exact h
    · split
      · exact h.retireTile
      · exact h.retireUnit

theorem Keeps.bootStageDoneEffect (h : s₀.Keeps s) {passed units} : s₀.Keeps (bootStageDoneEffect passed units s) :=
  .ite h (have h1 := h.stageEnds.foldl fun h => h.bootUnitFailed; .ite h1.buildCard h1)

theorem Keeps.getBootStatusEffect (h : s₀.Keeps s) {ms} : s₀.Keeps (getBootStatusEffect ms s) := h.emit

/-! ### Operations of Machine/Ports -/

theorem Keeps.portEnableEffect (h : s₀.Keeps s) {p on} : s₀.Keeps (portEnableEffect p on s) :=
  .ite h (have h1 := h.wr; .ite (.ite h1.startTraining h1) h1.portDown)

theorem Keeps.retrainEffect (h : s₀.Keeps s) {p} : s₀.Keeps (retrainEffect p s) := .ite h.startTraining h

theorem Keeps.portTrainedEffect (h : s₀.Keeps s) {p} : s₀.Keeps (portTrainedEffect p s) := .ite h.enterCheck.sendOn h

theorem Keeps.trainingTimeoutEffect (h : s₀.Keeps s) {p} : s₀.Keeps (trainingTimeoutEffect p s) := .ite h.linkDown h

theorem Keeps.crossed (h : s₀.Keeps s) {p} : s₀.Keeps (s.crossed p) := by
  unfold State.crossed
  dsimp only
  split
  · exact .ite h h.wr.wr.note
  · exact h

theorem Keeps.enterHeld (h : s₀.Keeps s) {p} : s₀.Keeps (s.enterHeld p) := h.moveTo.crossed

theorem Keeps.holdPort (h : s₀.Keeps s) {p} : s₀.Keeps (s.holdPort p) := h.raise.enterHeld

theorem Keeps.portIdEffect (h : s₀.Keeps s) {p tray plane swp} : s₀.Keeps (portIdEffect p tray plane swp s) :=
  .ite (have h1 := h.wr.wr.wr.wr; .ite h1.fitWidth h1.holdPort) (.ite (.ite h.holdPort h) h)

theorem Keeps.portIdTimeoutEffect (h : s₀.Keeps s) {p} : s₀.Keeps (portIdTimeoutEffect p s) := .ite h.enterHeld h

theorem Keeps.laneLostEffect (h : s₀.Keeps s) {l c} : s₀.Keeps (laneLostEffect l c s) := .ite h.loseLane h

theorem Keeps.corrHighEffect (h : s₀.Keeps s) {l n} : s₀.Keeps (corrHighEffect l n s) := .ite h.raise.loseLane h

theorem Keeps.heardAck (h : s₀.Keeps s) {p f} : s₀.Keeps (s.heardAck p f) :=
  .ite (.ite h.linkDown h.setPort.countFlits.raise.emit) h.setPort

theorem Keeps.badCodeword (h : s₀.Keeps s) {l} : s₀.Keeps (s.badCodeword l) := h.badLane

theorem Keeps.countCodeword (h : s₀.Keeps s) {p c} : s₀.Keeps (s.countCodeword p c) :=
  .ite h (.ite h.bump.badCodeword h.bump)

theorem Keeps.flitEffect (h : s₀.Keeps s) {p f} : s₀.Keeps (flitEffect p f s) :=
  have h1 := h.ite (h.foldl fun h => h.countCodeword)
  .ite h1 (.ite h1.setPort.countFlits.heardAck h1.emit)

theorem Keeps.portStateEffect (h : s₀.Keeps s) {p} : s₀.Keeps (Machine.portStateEffect p s) := by
  unfold Machine.portStateEffect
  extract_lets w off x s1
  have h1 : s₀.Keeps s1 := by
    refine h.withFab fun c => { c with peers := ?_ }
    exact mwf_mset c.peers _ _
  exact h1.updatePlanes.repath

theorem Keeps.portStateBroadcastEffect (h : s₀.Keeps s) : s₀.Keeps (portStateBroadcastEffect s) := .ite h.castPorts h

theorem Keeps.startTest (h : s₀.Keeps s) {l} : s₀.Keeps (s.startTest l) := by
  unfold State.startTest
  dsimp only
  split
  · exact h.others.laneMap.wr.wr
  · exact h.raise

theorem Keeps.laneTestEffect (h : s₀.Keeps s) {l} : s₀.Keeps (laneTestEffect l s) := .ite h.startTest h

theorem Keeps.laneRetireEffect (h : s₀.Keeps s) {l} : s₀.Keeps (laneRetireEffect l s) :=
  .ite (.ite h.retireLane h.retireLane.narrow) h

theorem Keeps.intervalTestEffect (h : s₀.Keeps s) : s₀.Keeps (intervalTestEffect s) := by
  unfold Machine.intervalTestEffect
  dsimp only
  split
  · exact h.others.startTest
  · exact h

theorem Keeps.bertEffect (h : s₀.Keeps s) {p} : s₀.Keeps (bertEffect p s) :=
  .ite h h.others.setPort.setLanes.enterHeld

theorem Keeps.noteTest (h : s₀.Keeps s) {l errors} : s₀.Keeps (s.noteTest l errors) := h.wr.wr.wr

theorem Keeps.endInstall (h : s₀.Keeps s) {t pass} : s₀.Keeps (s.endInstall t pass) :=
  have h2 := h.endTest.ite h.endTest.raise.raise.retireLane
  .ite h2 h2.enterCheck

theorem Keeps.endInterval (h : s₀.Keeps s) {t pass} : s₀.Keeps (s.endInterval t pass) :=
  .ite h.laneMap.endTest h.raise.retireLane

theorem Keeps.bertRunEndEffect (h : s₀.Keeps s) {l errors} : s₀.Keeps (bertRunEndEffect l errors s) := by
  unfold Machine.bertRunEndEffect
  dsimp only
  split
  · exact .ite h.noteTest.endInstall h.noteTest.endInterval
  · exact h

/-! ### Operations of Machine/Ageing -/

theorem Keeps.setSlack (h : s₀.Keeps s) {t ps} : s₀.Keeps (s.setSlack t ps) :=
  h.withHealth fun c => { c with slack := mwf_foldl_mset (fun e : Int × Nat => 32 * t + e.2) _ _ c.slack }

theorem Keeps.noSlack (h : s₀.Keeps s) {t} : s₀.Keeps (s.noSlack t) :=
  h.withHealth fun c => { c with slack := mwf_mkeep c.slack fun k => k / 32 ≠ t }

theorem Keeps.addResult (h : s₀.Keeps s) {key m} : s₀.Keeps (s.addResult key m) :=
  h.withHealth fun c => { c with results := mwf_mset c.results _ _ }

theorem Keeps.keepDay (h : s₀.Keeps s) : s₀.Keeps s.keepDay :=
  (((h.foldl fun h => h.addResult).foldl fun h => h.addResult).foldl fun h => h.addResult).foldl fun h => h.addResult

theorem Keeps.endDie (h : s₀.Keeps s) {die} : s₀.Keeps (s.endDie die) := by
  unfold State.endDie
  extract_lets xs off s1 s2 s3 s4 x s5 s6
  have h1 : s₀.Keeps s1 := h.wr
  have h2 : s₀.Keeps s2 := by
    unfold s2
    clear_value xs s1
    split
    · exact h1
    · exact h1.wr
  clear_value s2
  have h3 : s₀.Keeps s3 := h2.foldl fun h => by
    split
    · exact h.addResult
    · exact h
  clear_value s3
  have h5 : s₀.Keeps s5 := h3.wr.drifted
  clear_value s5
  have h6 : s₀.Keeps s6 := h5.mgmtTray.note
  exact .ite h6.raise.reportFailed h6

theorem Keeps.endReplan (h : s₀.Keeps s) : s₀.Keeps s.endReplan := by
  unfold State.endReplan
  extract_lets s1 s2 x s3
  have h1 : s₀.Keeps s1 := h.wr.bump
  have h2 : s₀.Keeps s2 := h1.keepDay
  clear_value s2
  have h3 : s₀.Keeps s3 := .ite h2.withHealth h1
  clear_value s3
  split
  extract_lets s3 w s4 s5 c
  have h4 : s₀.Keeps s4 := h3.wr.wr.wr.mgmtTray.note
  have h5 : s₀.Keeps s5 := h4.raise.ite h4
  exact .ite h5.setPower h5.setPower.wr

theorem Keeps.startReplan (h : s₀.Keeps s) : s₀.Keeps s.startReplan := h.wr.withHealth

theorem Keeps.startDie (h : s₀.Keeps s) {die} : s₀.Keeps (s.startDie die) := h.wr.withHealth

theorem Keeps.replanStartEffect (h : s₀.Keeps s) : s₀.Keeps (replanStartEffect s) := by
  unfold Machine.replanStartEffect
  split
  · exact h.startReplan
  · split
    · exact h.startDie
    · exact h

theorem Keeps.replanNowEffect (h : s₀.Keeps s) : s₀.Keeps (replanNowEffect s) := .ite h.startReplan h

theorem Keeps.tileOver (h : s₀.Keeps s) {t} : s₀.Keeps (s.tileOver t) := .ite h.endDie h

theorem Keeps.borrow (h : s₀.Keeps s) {n} : s₀.Keeps (State.borrow n s) := by
  induction n generalizing s with
  | zero => exact h
  | succ n ih =>
    unfold State.borrow
    extract_lets t x s1
    have h1 : s₀.Keeps s1 := h.withHealth
    clear_value s1
    refine .ite h.endReplan ?_
    split
    · exact .ite (ih h1.tileOver) h1.withHealth.showReplan
    · exact ih h1.raise.tileOver

theorem Keeps.setReplan (h : s₀.Keeps s) {r} : s₀.Keeps (s.setReplan r) := h.others.showReplan

theorem Keeps.replanBarStep (h : s₀.Keeps s) : s₀.Keeps s.replanBarStep := by
  unfold State.replanBarStep
  split
  · exact h
  · split
    · exact h.stopSweep
    · split
      · exact h.borrow
      · exact .ite h (.ite (.ite h.standTile.setReplan h.dropReplan.borrow) (.ite h.stopSweep.tileOver.borrow h))

theorem Keeps.replanSweepEndEffect (h : s₀.Keeps s) {ps bad} : s₀.Keeps (replanSweepEndEffect ps bad s) := by
  unfold Machine.replanSweepEndEffect
  dsimp only
  split
  · exact h
  · exact .ite h (have h1 := h.raise.ite h; (h1.noSlack.retireUnit.ite h1.setSlack).setReplan)

theorem Keeps.sampleEye (h : s₀.Keeps s) {l mv} : s₀.Keeps (s.sampleEye l mv) := .ite h.wr.raise.laneLostEffect h.wr

theorem Keeps.monitorSampleEffect (h : s₀.Keeps s) {m} : s₀.Keeps (monitorSampleEffect m s) :=
  .ite (((h.foldl fun h => h.raise).foldl fun h => h.drifted).others.foldl fun h => h.sampleEye) h

theorem Keeps.hbmMarginSweepEffect (h : s₀.Keeps s) {c steps repaired} :
    s₀.Keeps (hbmMarginSweepEffect c steps repaired s) :=
  have h1 := h.swept
  .ite (.ite (.ite h1.raise h1.raise.retireChannel) h1) h

theorem Keeps.coreWatchdogEffect (h : s₀.Keeps s) {core} : s₀.Keeps (coreWatchdogEffect core s) :=
  h.raiseAs.resetCore.afterCore

theorem Keeps.coreCodeCheckEffect (h : s₀.Keeps s) {core crc ecc} : s₀.Keeps (coreCodeCheckEffect core crc ecc s) :=
  .ite h.note.resetCore.afterCore (.ite h h.note.resetCore.afterCore)

theorem Keeps.checkWindowEnableEffect (h : s₀.Keeps s) {w} : s₀.Keeps (checkWindowEnableEffect w s) :=
  .ite h (.ite h.raise (.ite h.wr h.raise))

/-! ### Operations of Machine/Takeover -/

theorem Keeps.step435 (h : s₀.Keeps s) {step rank pkg} : s₀.Keeps (s.step435 step rank pkg) := h.note.commitLog

theorem Keeps.setCoord (h : s₀.Keeps s) {c} : s₀.Keeps (s.setCoord c) := h.others

theorem Keeps.orderRank (h : s₀.Keeps s) {c rank} : s₀.Keeps (s.orderRank c rank).2 := by
  unfold State.orderRank
  dsimp only
  split
  · exact h.tkWrite.step435
  · exact h.raise.mgmtTray

theorem Keeps.orderRanks (h : s₀.Keeps s) {c ranks} : s₀.Keeps (s.orderRanks c ranks) :=
  (Keeps.foldlSnd (x := (c, s)) h fun h => h.orderRank).setCoord

theorem Keeps.startCoord (h : s₀.Keeps s) : s₀.Keeps s.startCoord := .ite h.wr.step435.orderRanks h

theorem Keeps.coordinatorTimeoutEffect (h : s₀.Keeps s) : s₀.Keeps (coordinatorTimeoutEffect s) := by
  unfold Machine.coordinatorTimeoutEffect
  dsimp only
  split
  · exact .ite h.others.startCoord h
  · exact h

theorem Keeps.sendTable (h : s₀.Keeps s) {c} : s₀.Keeps (s.sendTable c) :=
  ((h.foldl fun h => h.tkWrite.tkWrite).setCoord).step435

theorem Keeps.coreDiffers (h : s₀.Keeps s) : s₀.Keeps s.coreDiffers := by
  unfold State.coreDiffers
  extract_lets s1 x
  have h1 : s₀.Keeps s1 := h.raise.resetCore.resetCore
  clear_value s1
  exact h1.wr.withHealth.afterCore

theorem Keeps.takeoverReadyEffect (h : s₀.Keeps s) {agree} : s₀.Keeps (takeoverReadyEffect agree s) := by
  unfold Machine.takeoverReadyEffect
  dsimp only
  split
  · exact h
  · split
    · exact h
    · split
      · exact .ite (.ite h.orderRanks.sendTable h.orderRanks.coreDiffers) h.orderRanks
      · exact h.orderRanks

theorem Keeps.askKit (h : s₀.Keeps s) {buddy off n} : s₀.Keeps (s.askKit buddy off n) := by
  unfold State.askKit
  dsimp only
  refine h.foldl fun h => ?_
  refine .issueOp ?_
  split
  · exact h.others
  · exact h

theorem Keeps.takeOrder (h : s₀.Keeps s) {rank gen} : s₀.Keeps (s.takeOrder rank gen) := by
  unfold State.takeOrder
  extract_lets coord x s1 y k s2
  have h1 : s₀.Keeps s1 := h.withHealth.step435
  clear_value s1
  split
  · exact h1.withHealth.tryReady
  · have h2 : s₀.Keeps s2 := h1.withHealth
    split
    · exact h2.askKit
    · exact h2.sendReady

theorem Keeps.takeoverOrderEffect (h : s₀.Keeps s) : s₀.Keeps (takeoverOrderEffect s) := .ite h.takeOrder h

theorem Keeps.loadKitImage (h : s₀.Keeps s) {k} (ht : s.loadKitImage k = some t) : s₀.Keeps t := by
  unfold State.loadKitImage at ht
  dsimp only at ht
  split at ht
  · cases ht
  · split at ht
    · obtain ⟨i, _, rfl⟩ := Option.map_eq_some_iff.1 ht
      exact h.devSet.holdFig.measure
    · cases ht

theorem Keeps.kitWhole (h : s₀.Keeps s) {k} : s₀.Keeps (s.kitWhole k) := by
  unfold State.kitWhole
  dsimp only
  split
  · exact h.sendReady
  · split
    · exact h.sendReady
    · exact (h.loadKitImage ‹_›).others.startFill

theorem Keeps.askParts (h : s₀.Keeps s) {k} : s₀.Keeps (s.askParts k) :=
  .ite h.sendReady (h.others.foldl fun h => h.askKit)

theorem Keeps.kitAnswer (h : s₀.Keeps s) {off st data} : s₀.Keeps (s.kitAnswer off st data) := by
  unfold State.kitAnswer
  dsimp only
  split
  · exact h
  · exact .ite h (have h1 := h.others; .ite h1.sendReady (.ite h1 (.ite h1.kitWhole h1.askParts)))

/-! ### Operations of Machine/Restore -/

theorem Keeps.askMirror (h : s₀.Keeps s) {off n} : s₀.Keeps (s.askMirror off n) := by
  unfold State.askMirror
  dsimp only
  refine h.foldl fun h => ?_
  split
  · exact h.others.issueOp
  · exact h

theorem Keeps.startRestore (h : s₀.Keeps s) {rank} : s₀.Keeps (s.startRestore rank) := by
  unfold State.startRestore
  dsimp only
  split
  · exact h.others.askMirror
  · exact h

theorem Keeps.restoreOne (h : s₀.Keeps s) {x j m} : s₀.Keeps (s.restoreOne x j m) := by
  unfold State.restoreOne
  dsimp only
  split
  · exact h.queueEntry.flushWaiting
  · split
    · exact h.reserve.seatEntry.devSet.mirrorHist.seqEvent
    · exact h.queueEntry.flushWaiting

theorem Keeps.lostTagged (h : s₀.Keeps s) {x} : s₀.Keeps (s.lostTagged x) := h.queueEntry.flushWaiting

theorem Keeps.restoreAll (h : s₀.Keeps s) {x} : s₀.Keeps (s.restoreAll x) :=
  have h3 := (h.others.foldl fun h => h.restoreOne).foldl fun h => h.lostTagged
  .ite h3 h3.emit

theorem Keeps.restoreAnswer (h : s₀.Keeps s) {off st data} : s₀.Keeps (s.restoreAnswer off st data) := by
  unfold State.restoreAnswer
  dsimp only
  split
  · exact h
  · exact .ite h (have h1 := h.others; .ite h1 (.ite h1.restoreAll (h1.others.foldl fun h => h.askMirror)))

/-! ### Operations of Machine/Answer -/

theorem Keeps.setThread (h : s₀.Keeps s) {tile th x} : s₀.Keeps (s.setThread tile th x) :=
  h.withThreads fun w => mwf_mset w _ _

theorem Keeps.setTurn (h : s₀.Keeps s) {tile v} : s₀.Keeps (s.setTurn tile v) := h.withTurns fun w => mwf_mset w _ _

theorem Keeps.wake (h : s₀.Keeps s) {tile th data} : s₀.Keeps (s.wake tile th data) :=
  .ite (.ite h.setThread.setTurn h.setThread) h

theorem Keeps.mirrorAnswer (h : s₀.Keeps s) {num st} : s₀.Keeps (s.mirrorAnswer num st) := by
  unfold State.mirrorAnswer
  split
  · exact .ite h.mirrorDone h.callerRaise.mirrorDone
  · exact h

theorem Keeps.deliverAnswer (h : s₀.Keeps s) {o st data} : s₀.Keeps (s.deliverAnswer o st data) := by
  unfold State.deliverAnswer
  split
  · exact h.fcopyAnswer
  · exact h.scommitAnswer
  · exact h.partAnswer
  · exact h.partAnswer
  · exact h
  · exact h.mirrorAnswer
  · exact h
  · exact h.kitAnswer
  · exact h.restoreAnswer
  · exact .ite h.wake h

theorem Keeps.refusedOp (h : s₀.Keeps s) {o st} : s₀.Keeps (s.refusedOp o st) := by
  unfold State.refusedOp
  dsimp only
  refine .closeOp (.deliverAnswer ?_)
  split
  · exact (h.raiseAs.ite h).raise
  · exact .ite h.raiseAs h

theorem Keeps.resolve (h : s₀.Keeps s) {o st data} : s₀.Keeps (s.resolve o st data) := by
  unfold State.resolve
  split
  · exact h.bump.closeOp
  · exact .ite h.refusedOp h.deliverAnswer.closeOp

theorem Keeps.lateAnswer (h : s₀.Keeps s) {p} : s₀.Keeps (s.lateAnswer p) := h.raiseAs

theorem Keeps.deadOp (h : s₀.Keeps s) {o} : s₀.Keeps (s.deadOp o) := by
  unfold State.deadOp
  dsimp only
  refine .closeOp (.deliverAnswer ?_)
  split
  · exact h.raiseAs.wr.wr.wr.raise
  · exact h.raiseAs.wr.wr.wr

theorem Keeps.deadTargetEffect (h : s₀.Keeps s) {unit reqid} : s₀.Keeps (deadTargetEffect unit reqid s) := by
  unfold Machine.deadTargetEffect
  split
  · exact h.deadOp
  · exact h

theorem Keeps.endDead (h : s₀.Keeps s) : s₀.Keeps s.endDead := by
  unfold State.endDead
  refine h.foldl fun h => ?_
  split
  · exact h.deadOp
  · exact h

theorem Keeps.answered (h : s₀.Keeps s) {p fits data} : s₀.Keeps (s.answered p fits data) := by
  unfold State.answered
  split
  · exact .ite h.lateAnswer (.ite h.deadOp.lateAnswer h.resolve)
  · exact h.lateAnswer

theorem Keeps.ackEffect (h : s₀.Keeps s) {p} : s₀.Keeps (ackEffect p s) := h.answered

theorem Keeps.ldataEffect (h : s₀.Keeps s) {p} : s₀.Keeps (ldataEffect p s) := h.answered

theorem Keeps.arespEffect (h : s₀.Keeps s) {p} : s₀.Keeps (arespEffect p s) := h.answered

theorem Keeps.hostAnswer (h : s₀.Keeps s) {tag d} : s₀.Keeps (s.hostAnswer tag d) := by
  unfold State.hostAnswer
  split
  · exact h
  · split
    · exact h.copyArrived
    · exact h.failCopy
    · exact h.promptArrived
    · exact h.promptArrived

theorem Keeps.hostReadCompletionEffect (h : s₀.Keeps s) {tag d} : s₀.Keeps (hostReadCompletionEffect tag d s) :=
  .ite h.aerRead.hostAnswer h

theorem Keeps.completionTimeoutEffect (h : s₀.Keeps s) {tag} : s₀.Keeps (completionTimeoutEffect tag s) :=
  .ite h.logAer.hostAnswer h

/-! ### Operations of Machine/Pcie -/

theorem Keeps.writeBar2 (h : s₀.Keeps s) {fn a size v} : s₀.Keeps (s.writeBar2 fn a size v) := by
  unfold State.writeBar2
  split
  · exact h.ring
  · exact h

theorem Keeps.refitVf (h : s₀.Keeps s) {g} : s₀.Keeps (s.refitVf g) := .ite h h.wr

theorem Keeps.emptyCq (h : s₀.Keeps s) {g c} : s₀.Keeps (s.emptyCq g c) := h.setCq.foldl fun h => h.cqDrop

theorem Keeps.groupOff (h : s₀.Keeps s) {g} : s₀.Keeps (s.groupOff g) :=
  .ite ((h.wr.foldl fun h => h.emptyCq).refitVf) h

theorem Keeps.startCq (h : s₀.Keeps s) {g c} : s₀.Keeps (s.startCq g c) := .ite h.wr.wr.wr.setCq h

theorem Keeps.groupOn (h : s₀.Keeps s) {g} : s₀.Keeps (s.groupOn g) := h.wr.wr.wr.foldl fun h => h.startCq

theorem Keeps.groupEnableEffect (h : s₀.Keeps s) {g on} : s₀.Keeps (groupEnableEffect g on s) :=
  .ite (.ite h h.groupOn) h.groupOff

theorem Keeps.vfEnableEffect (h : s₀.Keeps s) {on n} : s₀.Keeps (vfEnableEffect on n s) :=
  h.others.foldl fun h => h.refitVf

theorem Keeps.fnReset (h : s₀.Keeps s) {fn} : s₀.Keeps (s.fnReset fn) :=
  h.withMsixTab fun w => mwf_mkeep w fun x => !decide (x / 2048 = fn)

theorem Keeps.groupsOff (h : s₀.Keeps s) {p} : s₀.Keeps (s.groupsOff p) := h.foldl fun h => h.groupOff

theorem Keeps.pfFlrEffect (h : s₀.Keeps s) : s₀.Keeps (pfFlrEffect s) := h.groupsOff.fnReset

theorem Keeps.allFnReset (h : s₀.Keeps s) : s₀.Keeps s.allFnReset :=
  (h.groupsOff.withMsixTab fun _ => mwf_nil _).foldl fun h => h.refitVf

theorem Keeps.hotResetEffect (h : s₀.Keeps s) : s₀.Keeps (hotResetEffect s) := h.allFnReset

theorem Keeps.pcieLinkDownEffect (h : s₀.Keeps s) : s₀.Keeps (pcieLinkDownEffect s) := h.wr.raise.allFnReset

theorem Keeps.pcieLinkUpEffect (h : s₀.Keeps s) {speed width flit} : s₀.Keeps (pcieLinkUpEffect speed width flit s) :=
  .ite h (have h1 := h.wr.wr.wr.wr; .ite h1.raise h1)

theorem Keeps.pcieRetrainEffect (h : s₀.Keeps s) : s₀.Keeps (pcieRetrainEffect s) := h.emit

theorem Keeps.epRxEffect (h : s₀.Keeps s) : s₀.Keeps (epRxEffect s) := h.raise

theorem Keeps.drainGroup (h : s₀.Keeps s) {g} : s₀.Keeps (s.drainGroup g) := h.foldl fun h => h.cqDrain

theorem Keeps.sendPending (h : s₀.Keeps s) {fn} : s₀.Keeps (s.sendPending fn) := h.others.foldl fun h => h.message

theorem Keeps.busBack (h : s₀.Keeps s) {fn} : s₀.Keeps (s.busBack fn) :=
  (h.sendPending.foldl fun h => h.drainGroup).pump

theorem Keeps.busMasterEnableEffect (h : s₀.Keeps s) {fn on} : s₀.Keeps (busMasterEnableEffect fn on s) :=
  h.others.busBack

theorem Keeps.powerStateD3hotEffect (h : s₀.Keeps s) {fn entered} : s₀.Keeps (powerStateD3hotEffect fn entered s) :=
  h.others.busBack

theorem Keeps.msixTimeoutEffect (h : s₀.Keeps s) {g c} : s₀.Keeps (msixTimeoutEffect g c s) := .ite h.signalCq h

theorem Keeps.maskEntry (h : s₀.Keeps s) {fn n mask} : s₀.Keeps (s.maskEntry fn n mask) :=
  .ite h.others.others.message h.others

theorem Keeps.writeBar4Word (h : s₀.Keeps s) {fn a v} : s₀.Keeps (s.writeBar4Word fn a v) :=
  .ite (.ite h.setMsix h.setMsix.maskEntry) h

theorem Keeps.msixUnmaskEffect (h : s₀.Keeps s) {g v} : s₀.Keeps (msixUnmaskEffect g v s) := h.maskEntry

/-! ### Operations of Machine/Quinbingo -/

theorem Keeps.launchThreads (h : s₀.Keeps s) {r mask} : s₀.Keeps (s.launchThreads r mask) :=
  h.foldl fun h => h.foldl fun h => (h.foldl fun h => h.setThread).setTurn

theorem Keeps.qlaunchEffect (h : s₀.Keeps s) {r} : s₀.Keeps (qlaunchEffect r s) :=
  .ite h (.ite h.finish h.launchThreads)

theorem Keeps.threadOp (h :
    s₀.Keeps s) {tile th typ pkg part key off f waits} : s₀.Keeps (s.threadOp tile th typ pkg part key off f waits) :=
  have h1 := h.setThread.ite h
  .ite h1.issueOp.setTurn h1.issueOp

theorem Keeps.threadExit (h : s₀.Keeps s) {tile th} : s₀.Keeps (s.threadExit tile th) := by
  unfold State.threadExit
  dsimp only
  split
  · exact .ite h.setThread.setTurn h.setThread.setTurn.finish
  · exact h.setThread.setTurn

theorem Keeps.threadRemote (h : s₀.Keeps s) {tile th x3} : s₀.Keeps (s.threadRemote tile th x3) := by
  unfold State.threadRemote
  split
  · exact h.threadOp
  · exact h.threadOp
  · exact h.threadOp
  · exact h.threadExit
  · exact h

/-! ### Operations of Machine/Reel -/

theorem Keeps.showReel (h : s₀.Keeps s) {l ph} : s₀.Keeps (s.showReel l ph) := h.foldl fun h => h.wr.wr

theorem Keeps.sendAll (h : s₀.Keeps s) {p l a bs} : s₀.Keeps (s.sendAll p l a bs) := h.foldl fun h => h.reelSend

theorem Keeps.reelKeysEffect (h : s₀.Keeps s) {p} : s₀.Keeps (reelKeysEffect p s) := by
  unfold Machine.reelKeysEffect
  dsimp only
  split
  · exact .ite h.setReel.sendAll h
  · exact h

theorem Keeps.beginLayer (h : s₀.Keeps s) {p l} : s₀.Keeps (s.beginLayer p l) := h.setReel.setLayer.showReel

theorem Keeps.reelNominateEffect (h : s₀.Keeps s) {p l} : s₀.Keeps (reelNominateEffect p l s) := by
  unfold Machine.reelNominateEffect
  dsimp only
  split
  · exact .ite h.devWrite.beginLayer.sendAll h
  · exact h

theorem Keeps.countLoad (h : s₀.Keeps s) {p l e cs ps} : s₀.Keeps (s.countLoad p l e cs ps) :=
  .ite h (h.foldl fun h => h.devSetNat)

theorem Keeps.writeRec (h : s₀.Keeps s) {p l m miss ps t} : s₀.Keeps (s.writeRec p l m miss ps t) := by
  unfold State.writeRec
  extract_lets acc
  split
  exact .ite h.devWrite.bump h.devWrite

theorem Keeps.writeHostCell (h : s₀.Keeps s) {p l miss ps h'} : s₀.Keeps (s.writeHostCell p l miss ps h') :=
  h.devSetNat.cellWrite

theorem Keeps.tell (h : s₀.Keeps s) {w} : s₀.Keeps (s.tell w) := h.foldl fun h => h.bump

theorem Keeps.settleSlots (h : s₀.Keeps s) {p l ps} : s₀.Keeps (s.settleSlots p l ps) :=
  h.foldl fun h => .ite h.setLayer.tell h

theorem Keeps.settleWaves (h : s₀.Keeps s) {p l ps} : s₀.Keeps (s.settleWaves p l ps) :=
  h.foldl fun h => .ite h.setLayer.tell h

theorem Keeps.settle (h : s₀.Keeps s) {p l} : s₀.Keeps (s.settle p l) := by
  unfold State.settle
  split
  · exact h.settleSlots.settleWaves
  · exact h

theorem Keeps.checkRow (h : s₀.Keeps s) {p l base n comb} : s₀.Keeps (s.checkRow p l base n comb) :=
  .ite h.setLayer h.setLayer.raise.markRange

theorem Keeps.writePiece (h : s₀.Keeps s) {p l a base n comb data} : s₀.Keeps (s.writePiece p l a base n comb data) :=
  .ite (.ite h.bump h) (have h2 := h.devWrite.checkRow.ite h.devWrite; .ite h2.markRange h2)

theorem Keeps.countPiece (h :
    s₀.Keeps s) {p l a base n comb src unit reqid} : s₀.Keeps (s.countPiece p l a base n comb src unit reqid) :=
  .ite h ((h.setLayer.bump.ite h.setLayer).settle)

theorem Keeps.landPiece (h : s₀.Keeps s) {p l a data src unit reqid} : s₀.Keeps (s.landPiece p l a data src unit reqid) := by
  unfold State.landPiece
  split
  · exact h.writePiece.countPiece
  · exact h

theorem Keeps.landLocal (h : s₀.Keeps s) {p l a w bs} : s₀.Keeps (s.landLocal p l a w bs) :=
  h.foldl fun h => h.landPiece

theorem Keeps.select (h : s₀.Keeps s) {p l m miss} : s₀.Keeps (s.select p l m miss) :=
  have h1 := (h.setLayer.foldl fun h => h.countLoad).foldl fun h => h.writeRec
  ((h1.foldl fun h => h.writeHostCell).foldl fun h => h.checkRow).settle.showReel

theorem Keeps.reelSelectEffect (h : s₀.Keeps s) {p l} : s₀.Keeps (reelSelectEffect p l s) := by
  unfold Machine.reelSelectEffect
  split
  · exact .ite (.ite h.raise.select h.select) h
  · exact h

theorem Keeps.sendRowTo (h : s₀.Keeps s) {p l dst a w word k bs} : s₀.Keeps (s.sendRowTo p l dst a w word k bs) :=
  .ite h.landLocal (.ite h.bump.reelSend h)

theorem Keeps.dispatchOne (h : s₀.Keeps s) {p l miss k} : s₀.Keeps (s.dispatchOne p l miss k) := h.sendRowTo

theorem Keeps.dispatchAll (h : s₀.Keeps s) {p l} : s₀.Keeps (s.dispatchAll p l) :=
  h.setLayer.showReel.foldl fun h => h.dispatchOne

theorem Keeps.reelDispatchEffect (h : s₀.Keeps s) {p l} : s₀.Keeps (reelDispatchEffect p l s) := by
  unfold Machine.reelDispatchEffect
  dsimp only
  split
  · exact .ite (.ite h.dispatchAll (.ite h h.setReel.raise.select.dispatchAll)) h
  · exact h

theorem Keeps.combineOne (h : s₀.Keeps s) {p l w miss k} : s₀.Keeps (s.combineOne p l w miss k) :=
  (h.markRange.ite h).sendRowTo

theorem Keeps.waveTo (h : s₀.Keeps s) {p l w home} : s₀.Keeps (s.waveTo p l w home) :=
  .ite (h.setLayer.foldl fun h => h.combineOne) h

theorem Keeps.reelCombineEffect (h : s₀.Keeps s) {p l w} : s₀.Keeps (reelCombineEffect p l w s) :=
  .ite (have h1 := h.showReel.foldl fun h => h.waveTo; .ite h1.showReel h1) h

theorem Keeps.landReel (h : s₀.Keeps s) {hit k} : s₀.Keeps (s.landReel hit k) := by
  unfold State.landReel
  dsimp only
  split
  · exact h.devWrite.setReel
  · exact h.devWrite.setLayer
  · exact h.landPiece

theorem Keeps.reelEffect (h : s₀.Keeps s) {k} : s₀.Keeps (reelEffect k s) := by
  unfold Machine.reelEffect
  dsimp only
  split
  · exact h.refuse
  · split
    · exact h.refuse
    · split
      · exact h.refuse
      · exact h.landReel.respond

theorem Keeps.reelRelEffect (h : s₀.Keeps s) {k} : s₀.Keeps (reelRelEffect k s) := .ite h.refuse h.holdRelease.respond

theorem Keeps.abandonReel (h : s₀.Keeps s) : s₀.Keeps s.abandonReel :=
  ((h.foldl fun h => h.raise).withReel fun _ => mwf_nil _).showReel

theorem Keeps.snapshot (h : s₀.Keeps s) {bar} : s₀.Keeps (s.snapshot bar) :=
  .ite h ((((h.others.foldl fun h => h.devZero).raise).wr).foldl fun h => h.mgmt)

theorem Keeps.endPlace (h : s₀.Keeps s) {x status} : s₀.Keeps (s.endPlace x status) := h.complete

theorem Keeps.holdPlace (h : s₀.Keeps s) {x a} : s₀.Keeps (s.holdPlace x a) := h.others.copyRange

theorem Keeps.placementChangeEffect (h : s₀.Keeps s) {r} : s₀.Keeps (placementChangeEffect r s) := by
  unfold Machine.placementChangeEffect
  dsimp only
  split
  · exact h
  · split
    · exact h.raise.endPlace
    · split
      · exact h.raise.endPlace
      · split
        · exact h.endPlace
        · split
          · exact h.holdPlace
          · exact .ite h.endPlace h.holdPlace.endPlace

theorem Keeps.takePlace (h : s₀.Keeps s) {bar x} : s₀.Keeps (s.takePlace bar x) :=
  have h2 := h.copyRange.wr.wr
  (h2.raise.ite h2).endPlace

theorem Keeps.placeAt (h : s₀.Keeps s) {bar} : s₀.Keeps (s.placeAt bar) := h.others.foldl fun h => h.takePlace

/-! ### Operations of Machine/Partitions -/

theorem Keeps.parkWindow (h : s₀.Keeps s) {p} : s₀.Keeps (s.parkWindow p) := by
  unfold State.parkWindow
  extract_lets base rs mine
  exact h.change rfl fun c => { c with
    mem := mwf_mkeep c.mem fun k => !mine k
    memMark := mwf_mkeep c.memMark fun l => !mine (64 * l)
    parked := mwf_foldl_mset _ _ _ c.parked
    parkedMark := mwf_foldl_mset _ _ _ c.parkedMark }

theorem Keeps.openWindow (h : s₀.Keeps s) {p} : s₀.Keeps (s.openWindow p) := by
  unfold State.openWindow
  extract_lets addr
  exact h.change rfl fun c => { c with
    mem := mwf_placed addr s.parked c.mem
    memMark := mwf_placedMarks addr s.parkedMark c.memMark
    parked := mwf_mkeep c.parked fun k => (addr k).isNone
    parkedMark := mwf_mkeep c.parkedMark fun l => (addr (64 * l)).isNone }

theorem Keeps.setupBad (h : s₀.Keeps s) {p code} : s₀.Keeps (s.setupBad p code) := h.wr.raise

theorem Keeps.partLockEffect (h : s₀.Keeps s) {p} : s₀.Keeps (partLockEffect p s) :=
  .ite h (.ite h.setupBad (have h1 := h.openWindow.wr; .ite h1.others.wr h1.others))

theorem Keeps.setResetEffect (h : s₀.Keeps s) {set} : s₀.Keeps (setResetEffect set s) := .ite h.others h.resetSet

theorem Keeps.commandTimeoutEffect (h : s₀.Keeps s) {set idx} : s₀.Keeps (commandTimeoutEffect set idx s) := by
  unfold Machine.commandTimeoutEffect
  dsimp only
  split
  · exact .ite h.others.resetTile h
  · exact h

theorem Keeps.closeByReset (h : s₀.Keeps s) {i} : s₀.Keeps (s.closeByReset i) := h.startClose.seqEvent.freeSeq

theorem Keeps.moveBytes (h : s₀.Keeps s) {m} : s₀.Keeps (s.moveBytes m) := .ite h.setOut h.setIn

theorem Keeps.resetCaller (h : s₀.Keeps s) {p} : s₀.Keeps (s.resetCaller p) := by
  unfold State.resetCaller
  extract_lets live ws s1 x s2 s3 s4 y s5
  have h1 : s₀.Keeps s1 := h.foldl fun h => h.moveBytes
  clear_value s1
  have h2 : s₀.Keeps s2 := h1.withCaller
  clear_value s2
  have h3 : s₀.Keeps s3 := h2.foldl fun h => h.orphanJob.orphanJob
  clear_value s3
  have h4 : s₀.Keeps s4 := h3.foldl fun h => h.finish
  clear_value s4
  have h5 : s₀.Keeps s5 := h4.withCqs
  exact h5.foldl fun h => h.closeByReset

theorem Keeps.resetEngine (h : s₀.Keeps s) {e} : s₀.Keeps (s.resetEngine e) := (h.foldl fun h => h.endDesc).wr

theorem Keeps.resetRequests (h : s₀.Keeps s) {p} : s₀.Keeps (s.resetRequests p) :=
  ((h.withThreads fun w => mwf_filter w _).withTurns fun w => mwf_filter w _).others.foldl fun h => h.finish

theorem Keeps.resetSets (h : s₀.Keeps s) {p} : s₀.Keeps (s.resetSets p) :=
  ((h.foldl fun h => h.resetSet.wr.setSt.wr).resetCaller).setReel

theorem Keeps.resetCopies (h : s₀.Keeps s) {p} : s₀.Keeps (s.resetCopies p) :=
  (h.absorbOps.foldl fun h => h.resetEngine).resetRequests

theorem Keeps.resetAt (h : s₀.Keeps s) {p j step} : s₀.Keeps (s.resetAt p j step) := h.setJob

theorem Keeps.advanceReset (h : s₀.Keeps s) {p} : s₀.Keeps (s.advanceReset p) := by
  unfold State.advanceReset
  dsimp only
  split
  · exact h
  · split
    · exact h
    · split
      · exact .ite (((h.resetSets.resetAt.ite h).resetCopies).resetAt) (.ite h.resetSets.resetAt h)
      · exact .ite h.resetSets.resetAt h

theorem Keeps.startReset (h : s₀.Keeps s) {p clear scrub} : s₀.Keeps (s.startReset p clear scrub) :=
  have h1 := h.wr.wr.wr.setJob.others
  (h1.reportFailed.ite h1).advanceReset

theorem Keeps.askReset (h : s₀.Keeps s) {p clear scrub} : s₀.Keeps (s.askReset p clear scrub) :=
  .ite h.setupBad (.ite h (.ite h.setJob h.startReset))

theorem Keeps.partResetEffect (h : s₀.Keeps s) {p clear scrub} : s₀.Keeps (partResetEffect p clear scrub s) :=
  h.askReset

theorem Keeps.vfFlrEffect (h : s₀.Keeps s) {v} : s₀.Keeps (vfFlrEffect v s) := h.fnReset.askReset

theorem Keeps.scrubRange (h : s₀.Keeps s) {a n} : s₀.Keeps (s.scrubRange a n) := by
  unfold State.scrubRange
  extract_lets rs out
  exact h.change rfl fun c => { c with
    mem := mwf_mkeep c.mem fun k => !out k, memMark := mwf_mkeep c.memMark fun l => !out (64 * l) }

theorem Keeps.clearMemory (h : s₀.Keeps s) {p scrub} : s₀.Keeps (s.clearMemory p scrub) :=
  have h1 := h.foldl fun h => h.zeroRange
  .ite h1.scrubRange.zeroRange h1

theorem Keeps.ringHeld (h : s₀.Keeps s) {p} : s₀.Keeps (s.ringHeld p) := h.others.foldl fun h => h.bell

theorem Keeps.endReset (h : s₀.Keeps s) {p j} : s₀.Keeps (s.endReset p j) :=
  have h1 := h.clearMemory.setJob
  (h1.parkWindow.wr.ite h1).wr.raise.ringHeld

theorem Keeps.resetDoneEffect (h : s₀.Keeps s) {p} : s₀.Keeps (resetDoneEffect p s) := by
  unfold Machine.resetDoneEffect
  dsimp only
  split
  · exact .ite h.advanceReset.endReset h.advanceReset
  · exact h.advanceReset

theorem Keeps.writeOutside (h : s₀.Keeps s) {rs a data} : s₀.Keeps (s.writeOutside rs a data) :=
  h.foldl fun h => h.devWrite

theorem Keeps.saveTiles (h : s₀.Keeps s) {p} : s₀.Keeps (s.saveTiles p) :=
  .ite (h.foldl fun h => h.writeOutside.writeOutside) h

theorem Keeps.loadTiles (h : s₀.Keeps s) {p} : s₀.Keeps (s.loadTiles p) := .ite (h.foldl fun h => h.sramPut.sramPut) h

theorem Keeps.partResumeEffect (h : s₀.Keeps s) {p} : s₀.Keeps (partResumeEffect p s) := .ite h.wr h

theorem Keeps.partPreemptEffect (h : s₀.Keeps s) {p resume} : s₀.Keeps (partPreemptEffect p resume s) :=
  .ite h.partResumeEffect (.ite h (.ite h.wr ((h.foldl fun h => h.kill).wr)))

theorem Keeps.resetAfterCopy (h : s₀.Keeps s) {p} : s₀.Keeps (s.resetAfterCopy p) := by
  unfold State.resetAfterCopy
  split
  · exact h.startReset
  · exact h

theorem Keeps.saveDoneEffect (h : s₀.Keeps s) {p ticks} : s₀.Keeps (saveDoneEffect p ticks s) :=
  .ite h h.saveTiles.others.wr.wr.raise.resetAfterCopy

theorem Keeps.loadRecord (h : s₀.Keeps s) {x} : s₀.Keeps (s.loadRecord x) :=
  (((h.setSt.foldl fun h => h.wr).withTags fun w => mwf_foldl_mset _ _ _ (mwf_filter w _)).withThreads fun w =>
    mwf_foldl_mset _ _ _ (mwf_filter w _)).withTurns fun w => mwf_foldl_mset _ _ _ (mwf_filter w _)

theorem Keeps.continueSet (h : s₀.Keeps s) {p set} : s₀.Keeps (s.continueSet p set) :=
  .ite h (.ite h.setSt.wr (.ite h.schedResumeEffect h.setSt.wr))

theorem Keeps.restoreDoneEffect (h : s₀.Keeps s) {p ticks} : s₀.Keeps (restoreDoneEffect p ticks s) := by
  unfold Machine.restoreDoneEffect
  dsimp only
  split
  · exact h
  · refine .resetAfterCopy ?_
    refine ((((((h.loadTiles.foldl fun h => h.loadRecord).others).wr).wr).raise).foldl fun h => h.continueSet).foldl fun h => ?_
    split
    · exact h.resetTile
    · exact h.resetSet

/-! ### Operations of Machine/BarStart -/

theorem Keeps.overrun (h : s₀.Keeps s) {bar n late} : s₀.Keeps (s.overrun bar n late) := h.note.wr.wr.wr.raise.mgmt

theorem Keeps.remirror (h : s₀.Keeps s) : s₀.Keeps s.remirror := h.foldl fun h => h.mirrorHist

theorem Keeps.touchSeq (h : s₀.Keeps s) {i f} : s₀.Keeps (s.touchSeq i f) := .ite h.loadEntry h.loadEntry.putSeq

theorem Keeps.rebuddy (h : s₀.Keeps s) {b} : s₀.Keeps (s.rebuddy b) := h.foldl fun h => h.touchSeq

theorem Keeps.copyBefore (h : s₀.Keeps s) {t failed} : s₀.Keeps (s.copyBefore t failed) := by
  unfold State.copyBefore
  split
  · exact .ite h h.copyMirrorTo.flushAhead
  · exact h

theorem Keeps.moveMirror (h : s₀.Keeps s) {old failed} : s₀.Keeps (s.moveMirror old failed) := by
  unfold State.moveMirror
  split
  · exact h
  · extract_lets hit x t s1 copied y s2
    have h1 : s₀.Keeps s1 := h.withHealth.raise.mgmtTray.callerRaise.ite h
    have h2 : s₀.Keeps s2 := h1.withCaller
    exact (h2.ite h2.remirror).rebuddy.sendMirror

theorem Keeps.takeRoles (h : s₀.Keeps s) {t failed} : s₀.Keeps (s.takeRoles t failed) := by
  unfold State.takeRoles
  extract_lets old was s1 s2 s3 s4 s5 s6
  have h1 : s₀.Keeps s1 := h.copyBefore
  clear_value s1
  have h2 : s₀.Keeps s2 := Keeps.updatePlanes (s := { s1 with roles := t }) h1.others
  clear_value s2
  have h5 : s₀.Keeps s5 := h2.wr.wr.wr.wr.mgmt.measure
  clear_value s5
  have h6 : s₀.Keeps s6 := h5.others
  exact h6.moveMirror

theorem Keeps.rolesAt (h : s₀.Keeps s) {bar} : s₀.Keeps (s.rolesAt bar) := by
  unfold State.rolesAt
  split
  · exact .ite h.others.takeRoles.endRole h
  · exact h

theorem Keeps.retireFigs (h : s₀.Keeps s) : s₀.Keeps s.retireFigs := h.foldl fun h => h.setFig.dropStreams

theorem Keeps.haltUntimed (h : s₀.Keeps s) {why} : s₀.Keeps (s.haltUntimed why) := h.foldl fun h => h.haltFor

theorem Keeps.roleNotReady (h : s₀.Keeps s) : s₀.Keeps s.roleNotReady := h.others.haltUntimed.raise

theorem Keeps.changeRank (h : s₀.Keeps s) : s₀.Keeps s.changeRank := .ite h.retireFigs.others.haltUntimed h.retireFigs

theorem Keeps.activateAt (h : s₀.Keeps s) {bar fresh} : s₀.Keeps (s.activateAt bar fresh) :=
  have h1 := h.changeRank.ite h
  have h2 := h1.foldl fun h => h.activate
  have h3 := h1.ite (h1.others.ite (h2.others.ite h2))
  (h3.roleNotReady.ite h3).reportFigs

theorem Keeps.preemptAt (h : s₀.Keeps s) {p} : s₀.Keeps (s.preemptAt p) :=
  .ite (((h.foldl fun h => h.setSt.wr).wr).wr) h

theorem Keeps.newSchedules (h : s₀.Keeps s) : s₀.Keeps s.newSchedules := h.others

theorem Keeps.startSet (h : s₀.Keeps s) {n} : s₀.Keeps (s.startSet n) := h.discard.startPass.setSt.wr

theorem Keeps.dropFences (h : s₀.Keeps s) : s₀.Keeps s.dropFences :=
  ((h.foldl fun h => h.closeOp).others).foldl fun h => .ite h.setSt h

theorem Keeps.startSets (h : s₀.Keeps s) : s₀.Keeps s.startSets :=
  (h.dropFences.foldl fun h => h.preemptAt).foldl fun h => h.startSet

theorem Keeps.slip (h : s₀.Keeps s) {bar n parts} : s₀.Keeps (s.slip bar n parts) :=
  .ite h ((h.foldl fun h => h.touchSeq).callerRaise)

theorem Keeps.chargeSlot (h : s₀.Keeps s) {half e ntok i} : s₀.Keeps (s.chargeSlot half e ntok i) := .ite h.putSeq h

theorem Keeps.chargeBar (h : s₀.Keeps s) : s₀.Keeps s.chargeBar :=
  h.foldl fun h => .ite (h.foldl fun h => h.chargeSlot) h

theorem Keeps.switchCallers (h : s₀.Keeps s) : s₀.Keeps s.switchCallers := .ite h.others.wr.wr.callerRaise h

theorem Keeps.callerAt (h : s₀.Keeps s) {bar late first} : s₀.Keeps (s.callerAt bar late first) :=
  have h1 := h.switchCallers
  .ite (((h1.slip.callerRaise.slip.ite h1.slip).slip).pruneLedger) h1

theorem Keeps.openBar (h : s₀.Keeps s) {bar base} : s₀.Keeps (s.openBar bar base) := by
  unfold State.openBar
  extract_lets s1 s2
  have h2 : s₀.Keeps s2 := h.wr.wr.wr
  clear_value s2
  exact h2.withTempo.withHealth

theorem Keeps.startBar (h : s₀.Keeps s) {bar late tk} : s₀.Keeps (s.startBar bar late tk) := by
  unfold State.startBar
  dsimp only
  refine .snapshot ?_
  refine .powerBar (.replanBarStep ?_)
  refine .swapFaulty (.callerAt ?_)
  refine .startSets (.openBar ?_)
  refine .checkOwed (.swapAt ?_)
  refine .activateAt (.placeAt ?_)
  split
  · exact (h.abandonReel.closeUsed.newSchedules.chargeBar.ite h.abandonReel.closeUsed.newSchedules.chargeBar.overrun).takeRoles
  · exact (h.abandonReel.closeUsed.newSchedules.chargeBar.ite h.abandonReel.closeUsed.newSchedules.chargeBar.overrun).rolesAt

/-! ### Operations of Machine/Bars -/

theorem Keeps.beatBoundaryEffect (h : s₀.Keeps s) : s₀.Keeps (beatBoundaryEffect s) :=
  .ite h.tempoBoundary.clockDies h

theorem Keeps.holdoverExpiryEffect (h : s₀.Keeps s) : s₀.Keeps (Machine.holdoverExpiryEffect s) := by
  unfold Machine.holdoverExpiryEffect
  extract_lets s1 s2
  have h1 : s₀.Keeps s1 := h.wr.raise
  clear_value s1
  have h2 : s₀.Keeps s2 := Keeps.foldl (s := { s1 with stranded := true }) h1.others fun h => h.haltFor
  exact .ite h2.reportFailed h

theorem Keeps.barStartEffect (h : s₀.Keeps s) : s₀.Keeps (barStartEffect s) := by
  unfold Machine.barStartEffect
  split
  · exact h.startBar
  · exact h

theorem Keeps.countMark (h : s₀.Keeps s) {m} : s₀.Keeps (s.countMark m) :=
  (h.withTempo.raise.note.ite h).withTempo

theorem Keeps.joinBar (h : s₀.Keeps s) {bar stamp} : s₀.Keeps (s.joinBar bar stamp) := .ite h.startBar.withTempo h

theorem Keeps.barDoneEffect (h : s₀.Keeps s) {pkg bar stamp} : s₀.Keeps (barDoneEffect pkg bar stamp s) :=
  have h1 := h.seenMark.joinBar
  .ite h (.ite h1.raise (.ite h1.countMark h1))

theorem Keeps.barrierTimeoutEffect (h : s₀.Keeps s) : s₀.Keeps (barrierTimeoutEffect s) :=
  .ite h.others.raise.wr.wr.note.startCoord h

theorem Keeps.reportTakeover (h : s₀.Keeps s) {t failed coord} : s₀.Keeps (s.reportTakeover t failed coord) :=
  have h1 := h.raise.wr
  have h3 := h1.step435.mgmtTray.ite h1.step435
  .ite h3.wr h3

theorem Keeps.dropPending (h : s₀.Keeps s) : s₀.Keeps s.dropPending := by
  unfold State.dropPending
  split
  · exact h.others.endRole
  · exact h

theorem Keeps.takeoverStartEffect (h : s₀.Keeps s) : s₀.Keeps (takeoverStartEffect s) := by
  unfold Machine.takeoverStartEffect
  extract_lets t failed coord spare late s1 s2
  have h2 : s₀.Keeps s2 := h.stopSweep.dropPending.startBar.reportTakeover
  clear_value s2 spare
  refine .ite ?_ (.ite h.withHealth.raise h)
  split
  · exact h2.startRestore
  · exact h2

/-! ### Operations of Machine/Recipe -/

theorem Keeps.closeCells (h : s₀.Keeps s) {p l par} : s₀.Keeps (s.closeCells p l par) :=
  h.foldl fun h => .ite h h.coreCell

theorem Keeps.sampleLayer (h : s₀.Keeps s) {p n l} : s₀.Keeps (s.sampleLayer p n l) := by
  unfold State.sampleLayer
  dsimp only
  split
  · exact h
  · split
    · exact h.closeCells
    · exact .ite (h.closeCells.foldl fun h => h.queueMove) h.closeCells

theorem Keeps.shadowSampleEffect (h : s₀.Keeps s) {p} : s₀.Keeps (shadowSampleEffect p s) :=
  .ite (h.foldl fun h => h.sampleLayer) h

theorem Keeps.evalLayer (h : s₀.Keeps s) {p n l} : s₀.Keeps (s.evalLayer p n l) :=
  have h1 := h.devSetNat.devSetNat.devSetNat.devSet.putBits.setWindow
  have h2 := h1.putBits.ite h1
  have h3 := h2.putBits.ite h2
  have h4 := h3.putBits.ite h3
  .ite h4 h4.putBits.putBits.devSetNat.mgmt

theorem Keeps.recipeEvaluateEffect (h : s₀.Keeps s) {p} : s₀.Keeps (recipeEvaluateEffect p s) :=
  .ite ((h.foldl fun h => h.evalLayer).devSetNat) h

/-! ### Operations of Machine/RegisterWrite -/

theorem Keeps.writeField (h : s₀.Keeps s) {f i k j w m} : s₀.Keeps (s.writeField f i k j w m) := by
  unfold State.writeField
  dsimp only
  split
  · exact h
  · split
    · exact h
    · exact h
    · exact h.wr
    · exact h.wr
    · exact .ite h h.wr
    · split
      · exact h
      · split
        · exact h.raise
        · exact .ite h.wr h

theorem Keeps.afterWrite (h : s₀.Keeps s) {t f i k j} : s₀.Keeps (State.afterWrite t s f i k j) :=
  .ite h.invAllEffect (.ite (.ite h.enterCheck h.crossed) (.ite h.recount (.ite h.onCap h)))

theorem Keeps.refuseWindow (h : s₀.Keeps s) (ht : s₀.Keeps t) {cls off} : s₀.Keeps (s.refuseWindow t cls off) :=
  .ite h.raise ht

theorem Keeps.registerWriteEffect (h : s₀.Keeps s) {cls i off size val} :
    s₀.Keeps (Machine.registerWriteEffect cls i off size val s) := by
  unfold Machine.registerWriteEffect
  split
  · exact h
  · exact .ite ((h.refuseWindow (Keeps.foldlSnd (x := (s, s)) h fun h => h.writeField)).foldl fun h => h.afterWrite) h

theorem Keeps.writeBar0 (h : s₀.Keeps s) {a size val} : s₀.Keeps (s.writeBar0 a size val) := by
  unfold State.writeBar0
  split
  · exact h.registerWriteEffect
  · exact h

theorem Keeps.memRead (h : s₀.Keeps s) {fn bar a size} : s₀.Keeps (s.memRead fn bar a size).1 := by
  unfold State.memRead
  split
  · exact h.logAer
  · split
    · exact h
    · exact h
    · exact h

theorem Keeps.memWrite (h : s₀.Keeps s) {fn bar a size v ep} : s₀.Keeps (s.memWrite fn bar a size v ep) := by
  unfold State.memWrite
  dsimp only
  split
  · exact h.logAer
  · split
    · exact h.epRxEffect
    · split
      · exact .ite h.writeBar0 h
      · exact h.writeBar2
      · split
        · exact h.writeBar4Word
        · exact h

/-! ### Operations of Machine/Repair -/

theorem Keeps.refetch (h : s₀.Keeps s) {set x} : s₀.Keeps (s.refetch set x).1 := by
  unfold State.refetch
  split
  · exact h.sramPut
  · exact h

theorem Keeps.giveUp (h : s₀.Keeps s) {set x} : s₀.Keeps (s.giveUp set x) := by
  unfold State.giveUp
  dsimp only
  refine .raise (.sramPut ?_)
  split
  · exact h.markRange
  · exact h

theorem Keeps.rewrite (h : s₀.Keeps s) {x o bs} : s₀.Keeps (s.rewrite x o bs) := .ite h.devLoad.raise h

theorem Keeps.repairOne (h : s₀.Keeps s) {set remote x} : s₀.Keeps (s.repairOne set remote x).1 := by
  unfold State.repairOne
  have h1 : s₀.Keeps ((s.raise E.EXPAND_REFETCH x.tile [x.src]).refetch set x).1 := h.raise.refetch
  generalize (s.raise E.EXPAND_REFETCH x.tile [x.src]).refetch set x = r at h1 ⊢
  refine .iteFst h1 ?_
  split
  · exact h1.giveUp
  · exact .iteFst h1.rewrite.refetch h1.rewrite.refetch.giveUp

theorem Keeps.repairCompleteEffect (h : s₀.Keeps s) {set remote} : s₀.Keeps (repairCompleteEffect set remote s) :=
  (Keeps.foldlFst (x := (s, remote)) h fun h => h.repairOne).setSt

/-! ### Operations of Machine/Security -/

theorem Keeps.answer (h : s₀.Keeps s) {code ok} : s₀.Keeps (s.answer code ok) := h.emit

theorem Keeps.refuseKey (h : s₀.Keeps s) {code} : s₀.Keeps (s.refuseKey code) := h.raise.answer

theorem Keeps.burnBit (h : s₀.Keeps s) {f rest code} : s₀.Keeps (s.burnBit f rest code) := by
  unfold State.burnBit
  dsimp only
  split
  · exact h.others.senseFuses.raise.answer
  · exact h.others

theorem Keeps.stepBurn (h : s₀.Keeps s) : s₀.Keeps s.stepBurn := by
  unfold State.stepBurn
  dsimp only
  split
  · exact h.burnBit
  · exact h.others
  · exact h

theorem Keeps.endBurn (h : s₀.Keeps s) : s₀.Keeps s.endBurn := by
  unfold State.endBurn
  dsimp only
  split
  · split
    · exact h.burnBit
    · exact h.others
  · exact h

theorem Keeps.startBurn (h : s₀.Keeps s) {code steps} : s₀.Keeps (s.startBurn code steps) := h.others

theorem Keeps.setPackageIdEffect (h : s₀.Keeps s) {id overI3c} : s₀.Keeps (setPackageIdEffect id overI3c s) :=
  .ite h.answer (.ite (.ite h.answer h.raise.answer) h.others.wr.wr.recard.measure.answer)

theorem Keeps.commitSvnEffect (h : s₀.Keeps s) {overI3c} : s₀.Keeps (commitSvnEffect overI3c s) :=
  .ite h.answer (.ite h.endBurn.answer h.endBurn.startBurn)

theorem Keeps.registerOwnerKeyEffect (h :
    s₀.Keeps s) {k point sig overI3c} : s₀.Keeps (registerOwnerKeyEffect k point sig overI3c s) :=
  .ite h.answer (.ite h.endBurn.refuseKey h.endBurn.others.startBurn)

theorem Keeps.revokeOwnerKeyEffect (h : s₀.Keeps s) {k sig overI3c} : s₀.Keeps (revokeOwnerKeyEffect k sig overI3c s) :=
  .ite h.answer (.ite h.endBurn.refuseKey h.endBurn.startBurn)

theorem Keeps.getDebugChallengeEffect (h : s₀.Keeps s) {overI3c} : s₀.Keeps (getDebugChallengeEffect overI3c s) :=
  .ite h.answer h.others.emit

theorem Keeps.debugUnlockEffect (h : s₀.Keeps s) {t overI3c} : s₀.Keeps (debugUnlockEffect t overI3c s) :=
  .ite h.answer (.ite h.refuseKey h.others.answer)

theorem Keeps.spdmAnswer (h : s₀.Keeps s) {via msg} : s₀.Keeps (s.spdmAnswer via msg) :=
  (h.others.raise.ite h.others).emit

theorem Keeps.spdmRequestEffect (h : s₀.Keeps s) {via msg} : s₀.Keeps (spdmRequestEffect via msg s) := by
  unfold Machine.spdmRequestEffect
  split
  · exact h.emit
  · exact .ite h h.spdmAnswer

theorem Keeps.doeAbortEffect (h : s₀.Keeps s) : s₀.Keeps (doeAbortEffect s) := h.others.emit

/-! ### Operations of Machine/Idle -/

theorem Keeps.selfDeliver (h : s₀.Keeps s) {p} : s₀.Keeps (s.selfDeliver p) := by
  unfold State.selfDeliver
  split
  · exact h.sdataEffect
  · exact h.scommitEffect
  · exact h.reelEffect
  · exact h.reelRelEffect
  · exact h.ackEffect
  · exact h.ldataEffect
  · exact h.arespEffect
  · exact h.fabricLoadEffect
  · exact h.fabricStoreEffect
  · exact h.fabricAtomicEffect
  · exact h.udataEffect
  · exact h.ucommitEffect
  · exact h

theorem Keeps.idleLoop (h : s₀.Keeps s) : s₀.Keeps s.idleLoop := by
  unfold State.idleLoop
  dsimp only
  split
  · exact h.others.selfDeliver
  · exact h

theorem Keeps.appendRow (h : s₀.Keeps s) {r x} : s₀.Keeps (s.appendRow r x) := .ite h h.devSet.wr

theorem Keeps.appendLog (h : s₀.Keeps s) {r} : s₀.Keeps (s.appendLog r) := h.foldl fun h => h.appendRow

theorem Keeps.reportFault (h : s₀.Keeps s) {r} : s₀.Keeps (s.reportFault r) := by
  unfold State.reportFault
  split
  · exact .ite h h.mgmt
  · exact h

theorem Keeps.idleLog (h : s₀.Keeps s) : s₀.Keeps s.idleLog := by
  unfold State.idleLog
  dsimp only
  split
  · exact (h.others.raise.ite h.others.appendLog).reportFault
  · exact h

theorem Keeps.idleRebuild (h : s₀.Keeps s) : s₀.Keeps s.idleRebuild := .ite h.others.mgmtTray h

theorem Keeps.idleResets (h : s₀.Keeps s) : s₀.Keeps s.idleResets := h.foldl fun h => h.advanceReset

theorem Keeps.idle (h : s₀.Keeps s) : s₀.Keeps s.idle :=
  h.idleLoop.idleLog.idleRebuild.idleResets.stepBurn.endDead.idleTick

end Sys2Proof.Machine.State
end

section
namespace Sys2Proof.Machine
open State

/-! Every command, and the step with none, keeps the queue of waiting commands and the canonical form. -/

/-- What a command leaves behind, when it leaves a state, keeps the queue and the canonical form. -/
def State.KeepsNext (s : State) (r : Res) : Prop := ∀ t, r = .next t → s.Keeps t

variable {s : State}

theorem State.Keeps.next {t : State} (h : s.Keeps t) : s.KeepsNext (.next t) := fun _ e => by cases e; exact h

theorem execTapInstruction_keeps {i} : s.KeepsNext (execTapInstruction i s) := by
  unfold execTapInstruction
  split
  next j _ => exact ((Keeps.refl s).withBoot (x := { s.boot with tap := j }) id id).next
  next => exact fun _ e => nomatch e

theorem execQuinbingoInstruction_keeps {tile th op} : s.KeepsNext (execQuinbingoInstruction tile th op s) := by
  unfold execQuinbingoInstruction
  split
  · split
    · exact fun _ e => nomatch e
    · exact (Keeps.refl s).threadRemote.next
  · exact (Keeps.refl s).next

/-- Every command, arm by arm of the dispatcher. -/
theorem exec_keeps (c : Instr) (s : State) : s.KeepsNext (exec c s) :=
  have h := Keeps.refl s
  match c with
  | .registerWrite .. => h.registerWriteEffect.next
  | .readDanceCard .. => h.readDanceCardEffect.next
  | .danceCardRegen => h.danceCardRegenEffect.next
  | .tempoEnable => h.tempoEnableEffect.next
  | .tempoDisable => h.tempoDisableEffect.next
  | .swap => h.swapEffect.next
  | .tempoBeat .. => h.tempoBeatEffect.next
  | .beatBoundary => h.beatBoundaryEffect.next
  | .holdoverExpiry => h.holdoverExpiryEffect.next
  | .barStart => h.barStartEffect.next
  | .barDone .. => h.barDoneEffect.next
  | .barrierTimeout => h.barrierTimeoutEffect.next
  | .schedEnable .. => h.schedEnableEffect.next
  | .schedKill .. => h.schedKillEffect.next
  | .schedResume .. => h.schedResumeEffect.next
  | .fetch .. => h.fetchEffect.next
  | .mpass .. => h.mpassEffect.next
  | .check .. => h.checkEffect.next
  | .store .. => h.storeEffect.next
  | .handoff .. => h.handoffEffect.next
  | .fcopy .. => h.fcopyEffect.next
  | .wait .. => h.waitEffect.next
  | .sread .. => h.sreadEffect.next
  | .swrite .. => h.swriteEffect.next
  | .endBar .. => h.endBarEffect.next
  | .copy .. => h.vopEffect.next
  | .add .. => h.vopEffect.next
  | .sub .. => h.vopEffect.next
  | .mul .. => h.vopEffect.next
  | .fma .. => h.vopEffect.next
  | .max .. => h.vopEffect.next
  | .min .. => h.vopEffect.next
  | .exp .. => h.vopEffect.next
  | .recip .. => h.vopEffect.next
  | .rsqrt .. => h.vopEffect.next
  | .sqrt .. => h.vopEffect.next
  | .silu .. => h.vopEffect.next
  | .rowmax .. => h.vopEffect.next
  | .rowsum .. => h.vopEffect.next
  | .cvtBf16 .. => h.vopEffect.next
  | .cvtFp32 .. => h.vopEffect.next
  | .quant .. => h.vopEffect.next
  | .dequant .. => h.vopEffect.next
  | .amax .. => h.vopEffect.next
  | .qdiverge .. => h.vopEffect.next
  | .rot .. => h.vopEffect.next
  | .irot .. => h.vopEffect.next
  | .lsrnd .. => h.vopEffect.next
  | .lspack .. => h.vopEffect.next
  | .lsadd .. => h.vopEffect.next
  | .lsaddrnd .. => h.vopEffect.next
  | .lsclear .. => h.vopEffect.next
  | .commandComplete .. => h.commandCompleteEffect.next
  | .groupCommit .. => h.groupCommitEffect.next
  | .repairComplete .. => h.repairCompleteEffect.next
  | .arrTimeout .. => h.arrTimeoutEffect.next
  | .figureComplete => h.figureCompleteEffect.next
  | .callerPlan => h.callerPlanEffect.next
  | .harvestLate => h.harvestLateEffect.next
  | .admitSeq .. => h.admitEffect.next
  | .cancel .. => h.cancelEffect.next
  | .pause .. => h.pauseEffect.next
  | .resume .. => h.resumeEffect.next
  | .extend .. => h.extendEffect.next
  | .pauseMoveComplete .. => h.pauseMoveCompleteEffect.next
  | .resumeMoveComplete .. => h.resumeMoveCompleteEffect.next
  | .pauseExpiry .. => h.pauseExpiryEffect.next
  | .journalLost .. => h.journalLostEffect.next
  | .requestTimeout .. => h.requestTimeoutEffect.next
  | .callerSwitch => h.callerSwitchEffect.next
  | .callerOpen .. => h.callerOpenEffect.next
  | .reelKeys .. => h.reelKeysEffect.next
  | .reelNominate .. => h.reelNominateEffect.next
  | .reelSelect .. => h.reelSelectEffect.next
  | .reelDispatch .. => h.reelDispatchEffect.next
  | .reelCombine .. => h.reelCombineEffect.next
  | .reel .. => .next (.ite h.reelEffect h)
  | .reelRel .. => .next (.ite h.reelRelEffect h)
  | .placementChange .. => h.placementChangeEffect.next
  | .install .. => h.installEffect.next
  | .cancelInstall .. => h.cancelInstallEffect.next
  | .shardProgrammed .. => h.shardProgrammedEffect.next
  | .stageEpoch .. => h.stageEpochEffect.next
  | .stageDone .. => h.stageDoneEffect.next
  | .stageHostSlot .. => h.stageHostSlotEffect.next
  | .fill .. => h.fillEffect.next
  | .fillDone .. => h.fillDoneEffect.next
  | .swapEpoch .. => h.swapEpochEffect.next
  | .nvCodewordRead .. => h.nvCodewordReadEffect.next
  | .promenadeMoveComplete .. => h.promenadeMoveCompleteEffect.next
  | .prefetchIssue .. => h.prefetchIssueEffect.next
  | .shadowSample .. => h.shadowSampleEffect.next
  | .recipeEvaluate .. => h.recipeEvaluateEffect.next
  | .portEnable .. => h.portEnableEffect.next
  | .retrain .. => h.retrainEffect.next
  | .bert .. => h.bertEffect.next
  | .portTrained .. => h.portTrainedEffect.next
  | .trainingTimeout .. => h.trainingTimeoutEffect.next
  | .portId .. => h.portIdEffect.next
  | .portIdTimeout .. => h.portIdTimeoutEffect.next
  | .laneLost .. => h.laneLostEffect.next
  | .corrHigh .. => h.corrHighEffect.next
  | .flit .. => h.flitEffect.next
  | .portState .. => .next (.ite h.portStateEffect h)
  | .portStateBroadcast => h.portStateBroadcastEffect.next
  | .sdata .. => .next (.ite h.sdataEffect h)
  | .scommit .. => .next (.ite h.scommitEffect h)
  | .udata .. => .next (.ite h.udataEffect h)
  | .ucommit .. => .next (.ite h.ucommitEffect h)
  | .fabricLoad .. => .next (.ite h.fabricLoadEffect h)
  | .fabricStore .. => .next (.ite h.fabricStoreEffect h)
  | .fabricAtomic .. => .next (.ite h.fabricAtomicEffect h)
  | .ack .. => .next (.ite h.ackEffect h)
  | .ldata .. => .next (.ite h.ldataEffect h)
  | .aresp .. => .next (.ite h.arespEffect h)
  | .deadTarget .. => h.deadTargetEffect.next
  | .outcomeExpiry => h.outcomeExpiryEffect.next
  | .copyPut .. => h.copyPutEffect.next
  | .copyGet .. => h.copyGetEffect.next
  | .copyAtomic .. => h.copyAtomicEffect.next
  | .copyFence .. => h.copyFenceEffect.next
  | .copyComplete .. => h.copyCompleteEffect.next
  | .laneTest .. => h.laneTestEffect.next
  | .laneRetire .. => h.laneRetireEffect.next
  | .intervalTest => h.intervalTestEffect.next
  | .inv .. => h.invEffect.next
  | .invAll .. => h.invAllEffect.next
  | .qlaunch .. => h.qlaunchEffect.next
  | .sqTail .. => h.sqTailEffect.next
  | .copyTail .. => h.copyTailEffect.next
  | .cqHead .. => h.cqHeadEffect.next
  | .requestTake .. => h.requestTakeEffect.next
  | .sqRestart .. => h.sqRestartEffect.next
  | .toDevice .. => h.toDeviceEffect.next
  | .toHost .. => h.toHostEffect.next
  | .loadFigure .. => h.loadFigureEffect.next
  | .runFigure .. => h.runFigureEffect.next
  | .roleChange .. => h.roleChangeEffect.next
  | .msixTimeout .. => h.msixTimeoutEffect.next
  | .groupEnable .. => h.groupEnableEffect.next
  | .vfEnable .. => h.vfEnableEffect.next
  | .vfFlr .. => h.vfFlrEffect.next
  | .pfFlr => h.pfFlrEffect.next
  | .hotReset => h.hotResetEffect.next
  | .pcieLinkDown => h.pcieLinkDownEffect.next
  | .pcieLinkUp .. => h.pcieLinkUpEffect.next
  | .pcieRetrain => h.pcieRetrainEffect.next
  | .epRx => h.epRxEffect.next
  | .spdmRequest .. => h.spdmRequestEffect.next
  | .doeAbort => h.doeAbortEffect.next
  | .partLock .. => h.partLockEffect.next
  | .partReset .. => h.partResetEffect.next
  | .resetDone .. => h.resetDoneEffect.next
  | .partPreempt .. => h.partPreemptEffect.next
  | .saveDone .. => h.saveDoneEffect.next
  | .partResume .. => h.partResumeEffect.next
  | .restoreDone .. => h.restoreDoneEffect.next
  | .commandTimeout .. => h.commandTimeoutEffect.next
  | .setReset .. => h.setResetEffect.next
  | .powerWindow .. => h.powerWindowEffect.next
  | .setPowerCap .. => h.setPowerCapEffect.next
  | .hostCapWrite .. => h.hostCapWriteEffect.next
  | .floorDeclWrite .. => h.floorDeclWriteEffect.next
  | .railSettled .. => h.railSettledEffect.next
  | .coolantLoss => h.coolantLossEffect.next
  | .unpark => h.unparkEffect.next
  | .thermalThrottle .. => h.thermalThrottleEffect.next
  | .thermalTrip .. => h.thermalTripEffect.next
  | .supplySag => h.supplySagEffect.next
  | .sagEnd => h.sagEndEffect.next
  | .powerLoss => h.powerLossEffect.next
  | .avsError .. => h.avsErrorEffect.next
  | .governorFailover => h.governorFailoverEffect.next
  | .takeoverOrder => h.takeoverOrderEffect.next
  | .takeoverReady .. => h.takeoverReadyEffect.next
  | .takeoverStart => h.takeoverStartEffect.next
  | .coordinatorTimeout => h.coordinatorTimeoutEffect.next
  | .healthRecord => h.healthRecordEffect.next
  | .clearFailed => h.clearFailedEffect.next
  | .coreWatchdog .. => h.coreWatchdogEffect.next
  | .coreCodeCheck .. => h.coreCodeCheckEffect.next
  | .logCommit => h.commitLog.next
  | .replanStart => h.replanStartEffect.next
  | .replanNow => h.replanNowEffect.next
  | .replanSweepEnd .. => h.replanSweepEndEffect.next
  | .monitorSample .. => h.monitorSampleEffect.next
  | .hbmMarginSweep .. => h.hbmMarginSweepEffect.next
  | .hbmRetrain .. => h.next
  | .lpddrRetrain .. => h.next
  | .nvRetrain .. => h.next
  | .d2dLaneReplace .. => h.d2dLaneReplaceEffect.next
  | .checkWindowEnable .. => h.checkWindowEnableEffect.next
  | .perstAssert => h.perstAssertEffect.next
  | .perstDeassert .. => h.perstDeassertEffect.next
  | .bootStageDone .. => h.bootStageDoneEffect.next
  | .firmwareChunk .. => h.firmwareChunkEffect.next
  | .getBootStatus .. => h.getBootStatusEffect.next
  | .setPackageId .. => h.setPackageIdEffect.next
  | .commitSvn .. => h.commitSvnEffect.next
  | .registerOwnerKey .. => h.registerOwnerKeyEffect.next
  | .revokeOwnerKey .. => h.revokeOwnerKeyEffect.next
  | .getDebugChallenge .. => h.getDebugChallengeEffect.next
  | .debugUnlock .. => h.debugUnlockEffect.next
  | .railFault => h.railFaultEffect.next
  | .coolantFlowRestored => h.coolantFlowRestoredEffect.next
  | .bertRunEnd .. => h.bertRunEndEffect.next
  | .msixUnmask .. => h.msixUnmaskEffect.next
  | .busMasterEnable .. => h.busMasterEnableEffect.next
  | .powerStateD3hot .. => h.powerStateD3hotEffect.next
  | .hostReadCompletion .. => h.hostReadCompletionEffect.next
  | .completionTimeout .. => h.completionTimeoutEffect.next
  | .tapInstruction .. => execTapInstruction_keeps
  | .quinbingoInstruction .. => execQuinbingoInstruction_keeps

theorem step_keeps_of_front {c rest} (hq : s.pending = c :: rest) {t} (e : step s = .next t) :
    State.Keeps { s with pending := rest } t := by
  unfold step at e
  rw [hq] at e
  exact exec_keeps c _ t e

theorem step_keeps_of_idle (hq : s.pending = []) {t} (e : step s = .next t) : s.Keeps t := by
  unfold step at e
  rw [hq] at e
  cases e
  exact (Keeps.refl s).idle

/-- Settles O4: a command's run starts from a state with the same maps, and every operation keeps them canonical
(`State.Keeps`). -/
theorem stepKeepsWf : Obligations.StepKeepsWf := by
  intro s t hs e
  cases hq : s.pending with
  | nil => exact (step_keeps_of_idle hq e).2 hs
  | cons c rest => exact (step_keeps_of_front hq e).2 hs

/-- Settles O5, by the same walk over every operation. -/
theorem queueKept : Obligations.QueueKept :=
  ⟨fun c s t e => (exec_keeps c s t e).pending, fun _ _ hq e => (step_keeps_of_idle hq e).pending.trans hq⟩

/-- Settles O2, by evaluation of the reset state; no byte of device memory is in its map. -/
theorem resetState : Obligations.ResetState := by
  unfold Obligations.ResetState
  refine ⟨rfl, by decide +kernel, by decide +kernel, by decide +kernel, by decide +kernel, by decide +kernel, rfl, rfl,
    by decide +kernel, by decide +kernel, by decide +kernel, by decide +kernel, fun _ => rfl⟩

/-- Settles O3, by evaluation of the reset state. -/
theorem resetWf : Obligations.ResetWf := reset_wf

end Sys2Proof.Machine
end

section
namespace Sys2Proof.Machine

/-! O6 asks nothing of the availability of Tempo, whose registers it writes. -/

/-- An access to what is unavailable has no effect (R36). -/
theorem registerWriteEffect_of_unavail {cls i : Nat} {s : State} (h : s.avail cls i = false) (off size val : Nat) :
    registerWriteEffect cls i off size val s = s := by
  unfold registerWriteEffect
  split
  · rfl
  · exact if_neg fun hi => absurd hi.2 (by simp [h])

/-- The reset state, but with Tempo retired. -/
def tempoRetired : State := { State.reset with layout := { State.reset.layout with retired := [(0x03, 0)] } }

/-- Refutes O6: where Tempo is retired, a write of GUARD = 64 to TEMPO_BAR_CFG has no effect, and GUARD
still reads its reset value. -/
theorem not_registerWrites : ¬ Obligations.RegisterWrites := by
  rintro ⟨-, h, -⟩
  obtain ⟨⟨t, ht, hguard, -⟩, -⟩ := h (64 * 2 ^ 16) tempoRetired State.reset_wf
  have hgone : tempoRetired.avail 0x03 0 = false := by decide
  cases ht.symm.trans (congrArg Host.Outcome.next (registerWriteEffect_of_unavail hgone 0x40 8 _))
  have hread : tempoRetired.rd R.TEMPO_BAR_CFG_GUARD = 0x180 := by decide +kernel
  rw [hread] at hguard
  exact absurd hguard (by decide)

end Sys2Proof.Machine
end

section
namespace Sys2Proof.Machine

/-! The second half of O13 does not ask for canonical maps. Where the map of Sets holds two entries for one Set, writing the
reset record deletes the first and uncovers the second. -/

/-- A command that has completed and waits for its commit. -/
def doneFlight : Flight :=
  { idx := 0, grp := 0, cp := false, ssb := none, wsb := none, sh := none, unit := .none, tiles := [], reads := [], pins := []
    writes := [], kind := .plain, work := [], held := [], stamp := 0, chained := false, done := true }

/-- Set 0 runs a timed stream of one COPY of no elements at address 0; the map of Sets holds its reset record, and behind
it a second record with a command in flight. -/
def copyOfNone : State :=
  { ((((State.reset.wr R.SCHED_STATUS_STATE 2).wr R.SCHED_STREAM_LEN_LEN 1).wr R.SCHED_IMG_TIMED 1).devSet 0
      ([0x103, 0, 0x1000 + 0x2000 * 2 ^ 32, 0].flatMap (toLE 8))) with
    sets := [(0, SetSt.init), (0, { SetSt.init with flights := [doneFlight] })] }

/-- What issues in it: the COPY, well formed and of no elements. -/
def copyOfNoneGo : Go := ⟨0, copyOfNone.cmdAt 0, 0, 0, 0, false, false⟩

theorem copyOfNone_ready : copyOfNone.ready 0 (isVop 0x00 0x00) = some copyOfNoneGo := by decide +kernel

/-- Noting the lateness of the issue, which is 0, uncovers the second record: two commands stand in flight after it. -/
theorem copyOfNone_flights : ((vopEffect 0x00 0x00 0 ⟨0, 0⟩ copyOfNone).st 0).flights.length = 2 := by decide +kernel

/-- Refutes O13: after the COPY of `copyOfNone` issues, two commands are in flight where there was none, so it did not go
in flight behind those that were. -/
theorem not_issueCorners : ¬ Obligations.IssueCorners := by
  rintro ⟨-, h⟩
  obtain ⟨t, ht, ⟨f, hf, -⟩, -⟩ :=
    h 0 ⟨0, 0⟩ copyOfNone copyOfNoneGo (.copy 0 ⟨0, 0⟩, isVop 0x00 0x00) (by simp) copyOfNone_ready rfl rfl
  cases ht
  have hlen : 2 = ((copyOfNone.st 0).flights ++ [f]).length := copyOfNone_flights.symm.trans (congrArg List.length hf)
  have hnone : (copyOfNone.st 0).flights = [] := rfl
  rw [hnone] at hlen
  exact absurd hlen (by simp)

end Sys2Proof.Machine
end

section
namespace Sys2Proof.Machine

/-! The statement says that a regeneration leaves device memory alone. Its end sends the change event to the management group,
whose entry goes to that ring's backlog in device memory while the ring is full (R43, R380). -/

/-- A regeneration under way, for a lane that was retired, with the management group's completion ring full: 15 of its 16
slots are unreleased, and its backlog of two slots stands at 0x1000. -/
def regenRingFull : State :=
  let s := ((((State.reset.wr R.PCIE_GRP_CTL_EN 1 0 16).wr R.PCIE_CQ_CFG_EN 1 0 16).wr R.PCIE_CQ_CFG_TAIL 15 0 16).wr
    R.PCIE_CQ_BACKLOG_BASE 0x1000 0 16).wr R.PCIE_CQ_BACKLOG_BLOG2N 1 0 16
  { s with
    host := { s.host with bme := 1 }
    layout := { s.layout with retired := [(0x31, 5)] }
    card := { s.card with gen := 3, batch := [⟨3, 0x31, 5⟩] } }

/-- Its maps are in canonical form, and the first byte of the change event's entry holds its KIND, 4, above the phase bit. -/
theorem regenRingFull_backlog :
    regenRingFull.wf = true ∧ (danceCardRegenEffect regenRingFull).devByte 0x1000 = 8 := by decide +kernel

/-- Refutes O7: the change event that ends the regeneration of `regenRingFull` is written to the backlog of the management
group's ring, so a byte of device memory changes from 0 to 8. -/
theorem not_danceCard : ¬ Obligations.DanceCard := by
  rintro ⟨-, h⟩
  obtain ⟨⟨t, ht, hmem, -⟩, -⟩ := h regenRingFull
  cases ht
  have hbyte : (danceCardRegenEffect regenRingFull).devByte 0x1000 = 0 := (hmem 0x1000).1
  exact absurd (regenRingFull_backlog.2.symm.trans hbyte) (by decide)

end Sys2Proof.Machine
end

section
namespace Sys2Proof.Machine

/-! ### Keys of register fields -/

/-- A field that its register holds once, not in a repeated row. -/
def Fld.single (f : Fld) : Bool := decide (f.s1 = 0) && decide (f.s2 = 0) && decide (f.off < 2 ^ 32)

/-- Two fields that share no bit, whatever their instances: of different classes, or at different places of their block. -/
def Fld.apart (f g : Fld) : Bool :=
  decide (f.lo < 64) && decide (g.lo < 64) &&
    (decide (f.cls ≠ g.cls) || f.single && g.single && decide (f.off ≠ g.off ∨ f.lo ≠ g.lo))

theorem Fld.fkey_ne {f g : Fld} (h : f.apart g = true) {i k j i' k' j' : Nat} : fkey f i k j ≠ fkey g i' k' j' := by
  simp only [Fld.apart, Fld.single, Bool.and_eq_true, Bool.or_eq_true, decide_eq_true_eq] at h
  obtain ⟨⟨hf, hg⟩, hc | ⟨⟨⟨⟨h1, h2⟩, h3⟩, ⟨h4, h5⟩, h6⟩, hd⟩⟩ := h
  · unfold fkey
    split <;> split <;> omega
  · simp only [fkey, h1, h2, h4, h5, Nat.zero_mul, Nat.add_zero, Nat.mod_eq_of_lt h3, Nat.mod_eq_of_lt h6]
    split <;> split <;> omega

theorem Fld.fkey_not_mem {f g : Fld} (h : f.apart g = true) {i k j i' k' j' : Nat} : fkey g i' k' j' ∉ [fkey f i k j] :=
  fun hm => fkey_ne h (List.mem_singleton.1 hm).symm

/-- Two instances of a field that the block's instances do not share. -/
theorem fkey_ne_of_inst {f : Fld} (hf : f.shared = false) {i i' : Nat} (h : i % 2 ^ 16 ≠ i' % 2 ^ 16) {k j k' j' : Nat} :
    fkey f i k j ≠ fkey f i' k' j' := by
  simp only [fkey, hf, Bool.false_eq_true, if_false]
  omega

/-- The fields that raising a flag writes. -/
def EvFlag.fields (e : EvFlag) : List Fld := e.flag :: e.cnt :: e.last.toList

/-- A one-bit flag, its count and its stamp stand apart. -/
def EvFlag.sound (e : EvFlag) : Bool :=
  decide (e.flag.wid = 1) && e.flag.apart e.cnt && e.last.all (·.apart e.flag) && e.last.all (·.apart e.cnt)

namespace State
variable {s₀ s t u : State} {fs : List Fld} {ns : List Nat} {β : Type}

/-! ### Frames -/

/-- Between two states registers change in the listed fields and at the listed keys alone, the fault log goes on, and memory
and tiles stay. -/
structure Frame (fs : List Fld) (ns : List Nat) (s t : State) : Prop where
  rd : ∀ {f i k j}, fs.all (·.apart f) = true → fkey f i k j ∉ ns → t.rd f i k j = s.rd f i k j
  rising : mrising s.regs = true → mrising t.regs = true
  log : s.log <+: t.log
  mem : t.mem = s.mem
  memMark : t.memMark = s.memMark
  tileMem : t.tileMem = s.tileMem
  tileMark : t.tileMark = s.tileMark
  tags : t.tags = s.tags

/-- A frame in which the lanes stay too: their layout, the tests under way, the turn of the interval test, and which ports are
under an installation test. -/
structure Link (fs : List Fld) (ns : List Nat) (s t : State) : Prop extends Frame fs ns s t where
  layout : t.layout = s.layout
  tests : t.fab.tests = s.fab.tests
  turn : t.fab.nextLane = s.fab.nextLane ∧ t.fab.passBar = s.fab.passBar
  ports : mrising s.fab.ports = true → mrising t.fab.ports = true ∧ ∀ p, (t.port p).bert = (s.port p).bert

theorem Frame.others (hr : t.regs = s.regs := by rfl) (hl : s.log <+: t.log := by exact List.prefix_rfl)
    (h1 : t.mem = s.mem := by rfl) (h2 : t.memMark = s.memMark := by rfl) (h3 : t.tileMem = s.tileMem := by rfl)
    (h4 : t.tileMark = s.tileMark := by rfl) (h5 : t.tags = s.tags := by rfl) : s.Frame fs ns t :=
  ⟨fun _ _ => rd_eq_of_regs hr _ _ _ _, fun w => hr ▸ w, hl, h1, h2, h3, h4, h5⟩

theorem Frame.refl (s : State) : s.Frame fs ns s := .others

theorem Frame.trans (h : s.Frame fs ns t) (g : t.Frame fs ns u) : s.Frame fs ns u where
  rd hf hn := (g.rd hf hn).trans (h.rd hf hn)
  rising w := g.rising (h.rising w)
  log := h.log.trans g.log
  mem := g.mem.trans h.mem
  memMark := g.memMark.trans h.memMark
  tileMem := g.tileMem.trans h.tileMem
  tileMark := g.tileMark.trans h.tileMark
  tags := g.tags.trans h.tags

theorem Frame.mono {fs' : List Fld} {ns' : List Nat} (h : s.Frame fs ns t) (hf : fs ⊆ fs' := by decide)
    (hn : ns ⊆ ns' := by simp) : s.Frame fs' ns' t :=
  { h with rd := fun hf' hn' => h.rd (List.all_eq_true.2 fun g hg => List.all_eq_true.1 hf' g (hf hg)) fun hm => hn' (hn hm) }

theorem Frame.on (h : s.Frame fs ns t) {f i k j} (hf : fs.all (·.apart f) = true) (hn : fkey f i k j ∉ ns) :
    t.on f i k j = s.on f i k j := by
  unfold State.on
  rw [h.rd hf hn]

theorem Frame.sameMem (h : s.Frame fs ns t) : s.sameMem t := fun a => by
  simp only [devByte, lineMark, h.mem, h.memMark, and_self]

theorem Frame.sameTiles (h : s.Frame fs ns t) : s.sameTiles t := fun k => by
  simp only [h.tileMem, h.tileMark, h.tags, and_self]

theorem Frame.regsBut (h : s.Frame [] ns t) : s.regsBut t ns := fun _ _ _ _ hn => h.rd rfl hn

theorem Link.refl (s : State) : s.Link fs ns s := ⟨.refl s, rfl, rfl, ⟨rfl, rfl⟩, fun h => ⟨h, fun _ => rfl⟩⟩

theorem Link.trans (h : s.Link fs ns t) (g : t.Link fs ns u) : s.Link fs ns u where
  toFrame := h.toFrame.trans g.toFrame
  layout := g.layout.trans h.layout
  tests := g.tests.trans h.tests
  turn := ⟨g.turn.1.trans h.turn.1, g.turn.2.trans h.turn.2⟩
  ports hp :=
    have ⟨hp', hb⟩ := h.ports hp
    have ⟨hp'', hb'⟩ := g.ports hp'
    ⟨hp'', fun p => (hb' p).trans (hb p)⟩

theorem Link.mono {fs' : List Fld} {ns' : List Nat} (h : s.Link fs ns t) (hf : fs ⊆ fs' := by decide)
    (hn : ns ⊆ ns' := by simp) : s.Link fs' ns' t := { h with toFrame := h.toFrame.mono hf hn }

/-- A change of what no frame speaks of. -/
theorem Link.others (h : s₀.Link fs ns s) (hs : s.Frame fs ns t := by exact .others) (hy : t.layout = s.layout := by rfl)
    (ht : t.fab.tests = s.fab.tests := by rfl)
    (hn : t.fab.nextLane = s.fab.nextLane ∧ t.fab.passBar = s.fab.passBar := by exact ⟨rfl, rfl⟩)
    (hp : t.fab.ports = s.fab.ports := by rfl) : s₀.Link fs ns t :=
  h.trans ⟨hs, hy, ht, hn, fun w => ⟨hp ▸ w, fun p => by unfold State.port; rw [hp]⟩⟩

theorem Link.ite {c : Prop} {_ : Decidable c} (hs : s₀.Link fs ns s) (ht : s₀.Link fs ns t) :
    s₀.Link fs ns (if c then s else t) := by
  split <;> assumption

theorem Link.foldl {f : State → β → State} {l : List β} (h : s₀.Link fs ns s)
    (hf : ∀ {t b}, b ∈ l → s₀.Link fs ns t → s₀.Link fs ns (f t b)) : s₀.Link fs ns (l.foldl f s) := by
  induction l generalizing s with
  | nil => exact h
  | cons b r ih => exact ih (hf (List.mem_cons_self ..) h) fun hb => hf (List.mem_cons_of_mem _ hb)

/-! ### Registers, flags and outputs -/

/-- A write of a field that is in a list, or whose key is. -/
theorem Frame.wr {f v i k j} (hf : f ∈ fs ∨ fkey f i k j ∈ ns) : s.Frame fs ns (s.wr f v i k j) where
  rd {g i' k' j'} hg hn := by
    refine rd_wr_ne s f g ?_
    rcases hf with hf | hf
    · exact Fld.fkey_ne (List.all_eq_true.1 hg f hf)
    · exact fun e => hn (e ▸ hf)
  rising w := mrising_wr w ..
  log := List.prefix_rfl
  mem := rfl
  memMark := rfl
  tileMem := rfl
  tileMark := rfl
  tags := rfl

theorem Link.wr (h : s₀.Link fs ns s) {f v i k j} (hf : f ∈ fs ∨ fkey f i k j ∈ ns) : s₀.Link fs ns (s.wr f v i k j) :=
  h.others (.wr hf)

theorem Link.bump (h : s₀.Link fs ns s) {f n i k j} (hf : f ∈ fs ∨ fkey f i k j ∈ ns) : s₀.Link fs ns (s.bump f n i k j) :=
  h.wr hf

theorem Link.emit (h : s₀.Link fs ns s) {o} : s₀.Link fs ns (s.emit o) := h.others

theorem Link.logAs (h : s₀.Link fs ns s) {unit w args} : s₀.Link fs ns (s.logAs unit w args) :=
  h.others (.others (hl := List.prefix_append ..))

theorem Link.raise (h : s₀.Link fs ns s) {e i args k} (he : e.fields ⊆ fs) : s₀.Link fs ns (s.raise e i args k) := by
  have h1 : s₀.Link fs ns ((s.wr e.flag 1 i k).bump e.cnt 1 i k) :=
    (h.wr (.inl (he (by simp [EvFlag.fields])))).bump (.inl (he (by simp [EvFlag.fields])))
  unfold State.raise State.raiseAs
  dsimp only
  refine .logAs ?_
  split
  case h_1 f hf => exact h1.wr (.inl (he (by simp [EvFlag.fields, hf])))
  case h_2 => exact h1

/-- Raising a flag changes registers and the fault log alone. -/
theorem raise_only (s : State) (e : EvFlag) (i : Nat) (args : List Nat) (k : Nat) :
    s.raise e i args k = { s with regs := (s.raise e i args k).regs, log := (s.raise e i args k).log } := by
  unfold State.raise State.raiseAs
  split <;> rfl

/-- Beside its stamp, raising a flag writes the flag and its count. -/
theorem rd_raise {e : EvFlag} {f : Fld} (hl : e.last.all (·.apart f) = true) {i : Nat} {args : List Nat} {k i' k' j' : Nat} :
    (s.raise e i args k).rd f i' k' j' = ((s.wr e.flag 1 i k).bump e.cnt 1 i k).rd f i' k' j' := by
  unfold State.raise State.raiseAs
  dsimp only
  rw [rd_logAs]
  split
  case h_1 g hg => exact rd_wr_ne _ _ _ (Fld.fkey_ne (by simpa [hg] using hl))
  case h_2 => rfl

/-- A flag that is raised reads 1, is counted, and is in the log. -/
theorem raised_raise (w : mrising s.regs = true) {e : EvFlag} (he : e.sound = true) {i : Nat} {args : List Nat} {k : Nat} :
    s.raised (s.raise e i args k) e i k := by
  simp only [EvFlag.sound, Bool.and_eq_true, decide_eq_true_eq] at he
  obtain ⟨⟨⟨hw, hfc⟩, hlf⟩, hlc⟩ := he
  refine ⟨?_, ?_, ?_⟩
  · rw [State.on, decide_eq_true_eq, rd_raise hlf, State.bump, rd_wr_ne _ _ _ (Fld.fkey_ne hfc).symm, rd_wr_self w, hw]
    rfl
  · rw [rd_raise hlc, State.bump, rd_wr_self (mrising_wr w ..), rd_wr_ne _ _ _ (Fld.fkey_ne hfc)]
  · obtain ⟨r, hlog, hunit, hwhat, -⟩ := raise_log s e i args k
    exact ⟨r, by rw [hlog, List.drop_left]; exact List.mem_singleton_self r, hwhat, hunit⟩

/-- A flag raised stays raised through what does not write it. -/
theorem raised_then {e : EvFlag} {i k} (h : s.raised t e i k) (g : t.Frame fs ns u) (hf : fs.all (·.apart e.flag) = true)
    (hc : fs.all (·.apart e.cnt) = true) (nf : fkey e.flag i k 0 ∉ ns) (nc : fkey e.cnt i k 0 ∉ ns) : s.raised u e i k := by
  obtain ⟨hon, hcnt, r, hr, hwhat⟩ := h
  exact ⟨(g.on hf nf).trans hon, (g.rd hc nc).trans hcnt, r, (g.log.drop _).subset hr, hwhat⟩

/-- A flag raised after what does not write it. -/
theorem then_raised {e : EvFlag} {i k} (g : s.Frame fs ns t) (h : t.raised u e i k) (hc : fs.all (·.apart e.cnt) = true)
    (nc : fkey e.cnt i k 0 ∉ ns) : s.raised u e i k := by
  obtain ⟨hon, hcnt, r, hr, hwhat⟩ := h
  refine ⟨hon, by rw [hcnt, g.rd hc nc], r, ?_, hwhat⟩
  obtain ⟨l, hl⟩ := g.log
  rw [← hl, List.length_append, ← List.drop_drop] at hr
  exact List.mem_of_mem_drop hr

end State
end Sys2Proof.Machine
end

section
namespace Sys2Proof.Machine

/-! ### Layouts of lanes -/

theorem lookup_filter_self (l : Nat) (es : List (Nat × Nat)) : (es.filter (fun e => e.1 ≠ l)).lookup l = none := by
  rw [List.lookup_eq_none_iff]
  intro e he
  exact bne_iff_ne.2 (of_decide_eq_true (List.mem_filter.1 he).2).symm

theorem lookup_filter_ne {l m : Nat} (h : m ≠ l) (es : List (Nat × Nat)) :
    (es.filter (fun e => e.1 ≠ l)).lookup m = es.lookup m := by
  induction es with
  | nil => rfl
  | cons e r ih =>
    rw [List.filter_cons, List.lookup_cons]
    split
    · rw [List.lookup_cons, ih]
    · rename_i he
      have hm : (m == e.1) = false := by
        simp only [ne_eq, decide_eq_true_eq, not_not] at he
        rw [he]
        exact beq_false_of_ne h
      rw [hm, ih]

theorem Layout.lane_mapLane_self (y : Layout) (l q : Nat) : (y.mapLane l q).lane l = q := by
  unfold Layout.mapLane Layout.lane
  dsimp only
  split
  · rename_i hq
    rw [lookup_filter_self, hq]
    rfl
  · rw [List.lookup_append, lookup_filter_self, List.lookup_cons_self]
    rfl

theorem Layout.lane_mapLane_ne (y : Layout) {l m : Nat} (h : m ≠ l) (q : Nat) : (y.mapLane l q).lane m = y.lane m := by
  unfold Layout.mapLane Layout.lane
  dsimp only
  split
  · rw [lookup_filter_ne h]
  · have hlast : List.lookup m [(l, q)] = none := by rw [List.lookup_cons, beq_false_of_ne h]; rfl
    rw [List.lookup_append, lookup_filter_ne h, hlast, Option.or_none]

theorem State.avail_lane (s : State) (l : Nat) : s.avail 0x31 l = decide (s.layout.lane l ≠ 0xFFFF) := by
  simp [State.avail, Layout.phys]

/-- No lane stands on a spare with no repair. -/
theorem laneHome_not_spare {l die : Nat} (hl : l < 192) : laneHome l ∉ spareLanes die := by
  simp only [spareLanes, List.mem_map, List.mem_range, not_exists, not_and]
  intro i hi
  unfold laneHome
  split <;> omega

/-- A spare behind a lane is in the layout's list. -/
theorem Layout.spare_listed {y : Layout} {l die : Nat} (hl : l < 192) (h : y.lane l ∈ spareLanes die) :
    (l, y.lane l) ∈ y.lanes := by
  unfold Layout.lane at h ⊢
  cases hlk : y.lanes.lookup l with
  | none => rw [hlk] at h; exact absurd h (laneHome_not_spare hl)
  | some q =>
    obtain ⟨l₁, l₂, hy, -⟩ := List.lookup_eq_some_iff.1 hlk
    simp [hy]

namespace State
variable {s₀ s t u : State} {fs : List Fld} {ns : List Nat}

/-! ### Sending -/

/-- Sending on a port writes its counter of flits sent. -/
abbrev CountsFlits (fs : List Fld) (ns : List Nat) (q : Nat) : Prop :=
  R.FAB_TX_FLITS_TX ∈ fs ∨ fkey R.FAB_TX_FLITS_TX q 0 0 ∈ ns

theorem cut_bert (n : Nat) : ∀ (x : PortSt) (bs : List Byte), (x.cut n bs).bert = x.bert := by
  induction n with
  | zero => intro x bs; rfl
  | succ n ih => intro x bs; exact ih _ _

theorem mrising_setPort (w : mrising s.fab.ports = true) (p : Nat) (x : PortSt) : mrising (s.setPort p x).fab.ports = true := by
  simp only [State.setPort, mset]
  split
  · exact mrising_mdel w
  · exact mrising_mins w

theorem Link.setPort (h : s₀.Link fs ns s) {p x} (hx : x.bert = (s.port p).bert) : s₀.Link fs ns (s.setPort p x) :=
  h.trans ⟨.others, rfl, rfl, ⟨rfl, rfl⟩, fun w => ⟨mrising_setPort w p x, fun q => by
    by_cases hq : p = q
    · rw [← hq, port_setPort w, hx]
    · rw [port_setPort_ne hq]⟩⟩

theorem Link.transmitOn (h : s₀.Link fs ns s) {q p} (hq : CountsFlits fs ns q) : s₀.Link fs ns (s.transmitOn q p) :=
  ((h.setPort (cut_bert ..)).bump hq).others

theorem Link.transmit (h : s₀.Link fs ns s) {ports p} (hq : ∀ q ∈ ports, CountsFlits fs ns q) :
    s₀.Link fs ns (s.transmit ports p) := h.foldl fun hb h => h.transmitOn (hq _ hb)

theorem Link.sendOn (h : s₀.Link fs ns s) {ports typ bcast data} (hq : ∀ q ∈ ports, CountsFlits fs ns q) :
    s₀.Link fs ns (s.sendOn ports typ bcast data) :=
  .ite h (h.transmit fun q hm => hq q (List.mem_of_mem_filter hm)).emit

theorem Link.laneMap (h : s₀.Link fs ns s) {l q on} (hq : CountsFlits fs ns (l / 8)) : s₀.Link fs ns (s.laneMap l q on) :=
  h.sendOn fun _ hm => List.mem_singleton.1 hm ▸ hq

/-! ### Moves of a port -/

/-- What sending packets again, and keeping FAB_PLANES up to date, write. -/
def pathFields : List Fld :=
  [R.FAB_TX_FLITS_TX, R.COPY_BYTES_BYTES, R.FAB_PLANES_INSVC, R.FAB_PLANES_E2, R.FAB_PLANES_E2_MIN] ++ E.FAB_PLANES_LOW.fields

/-- What a move of a port to a state writes. -/
def moveFields : List Fld := [R.FAB_STATUS_STATE, R.FAB_STATUS_HALF_HI, R.FAB_STATUS_SWAP_WITH] ++ pathFields

theorem Link.updatePlanes (h : s₀.Link pathFields [] s) : s₀.Link pathFields [] s.updatePlanes :=
  have h1 := ((h.wr (f := R.FAB_PLANES_INSVC) (.inl (by decide))).wr (f := R.FAB_PLANES_E2) (.inl (by decide))).wr
    (f := R.FAB_PLANES_E2_MIN) (.inl (by decide))
  ((h1.raise (e := E.FAB_PLANES_LOW) (by decide)).ite h1).others

theorem Link.castPorts (h : s₀.Link pathFields [] s) : s₀.Link pathFields [] s.castPorts :=
  h.others.sendOn fun _ _ => .inl (by decide)

theorem Link.usedPort (h : s₀.Link fs ns s) {unit p q} : s₀.Link fs ns (s.usedPort unit p q) := by
  unfold State.usedPort
  split
  · exact .ite h.others h
  · exact h

theorem Link.countSent (h : s₀.Link pathFields [] s) {o} : s₀.Link pathFields [] (s.countSent o) := by
  unfold State.countSent
  split
  · exact .ite (h.bump (.inl (by decide))) h
  · exact h

theorem Link.putOp (h : s₀.Link fs ns s) {o} : s₀.Link fs ns (s.putOp o) := h.others

theorem Link.resendOp (h : s₀.Link pathFields [] s) {o} : s₀.Link pathFields [] (s.resendOp o) := by
  unfold State.resendOp
  extract_lets us bad pkt p q lost s1
  have h1 : s₀.Link pathFields [] s1 := h.putOp
  clear_value s1 q lost bad
  refine .ite h.putOp ?_
  split
  · exact ((h1.countSent.ite h1).usedPort.transmit fun _ _ => .inl (by decide)).emit
  · exact h1

theorem Link.repath (h : s₀.Link pathFields [] s) : s₀.Link pathFields [] s.repath := h.foldl fun _ h => h.resendOp

/-- The registers of a port's state, as a move to a state leaves them. -/
def moved (s : State) (p st : Nat) : State :=
  let s := s.wr R.FAB_STATUS_STATE st p
  let s := if st = 4 then s else s.wr R.FAB_STATUS_HALF_HI 0 p
  if st = 5 then s else s.wr R.FAB_STATUS_SWAP_WITH 0x1F p

theorem moved_link (s : State) (p st : Nat) : s.Link moveFields [] (s.moved p st) :=
  have h1 := (Link.refl s).wr (f := R.FAB_STATUS_STATE) (v := st) (i := p) (k := 0) (j := 0) (.inl (by decide))
  have h2 := h1.ite (c := st = 4) (h1.wr (f := R.FAB_STATUS_HALF_HI) (v := 0) (i := p) (k := 0) (j := 0) (.inl (by decide)))
  h2.ite (c := st = 5) (h2.wr (.inl (by decide)))

/-- After that, the move broadcasts the ports and sends lost packets again. -/
theorem moved_link_moveTo (s : State) (p st : Nat) : (s.moved p st).Link pathFields [] (s.moveTo p st) :=
  (Link.refl (s.moved p st)).ite (c := st = s.portState p) (Link.refl (s.moved p st)).updatePlanes.castPorts.repath

theorem Link.moveTo (h : s₀.Link moveFields [] s) {p st} : s₀.Link moveFields [] (s.moveTo p st) :=
  (h.trans (moved_link s p st)).trans ((moved_link_moveTo s p st).mono)

theorem portState_moveTo (w : mrising s.regs = true) (p : Nat) {st : Nat} (hst : st < 8) :
    (s.moveTo p st).portState p = st := by
  unfold State.portState
  rw [(moved_link_moveTo s p st).rd (by decide) (by simp)]
  have h1 : (s.wr R.FAB_STATUS_STATE st p).rd R.FAB_STATUS_STATE p = st := (rd_wr_self w ..).trans (Nat.mod_eq_of_lt hst)
  unfold moved
  dsimp only
  have hhi : ∀ (t : State) v, (t.wr R.FAB_STATUS_HALF_HI v p).rd R.FAB_STATUS_STATE p = t.rd R.FAB_STATUS_STATE p :=
    fun t _ => rd_wr_ne t _ _ (Fld.fkey_ne (by decide))
  have hswap : ∀ (t : State) v, (t.wr R.FAB_STATUS_SWAP_WITH v p).rd R.FAB_STATUS_STATE p = t.rd R.FAB_STATUS_STATE p :=
    fun t _ => rd_wr_ne t _ _ (Fld.fkey_ne (by decide))
  split <;> split <;> simp only [hhi, hswap, h1]

end State
end Sys2Proof.Machine
end

section
namespace Sys2Proof.Machine.State
variable {s₀ s t u : State} {fs : List Fld} {ns : List Nat}

/-! ### Ports going down, and ports that narrow -/

theorem Link.setLanes (h : s₀.Link fs ns s) (hf : R.LANE_STATUS_STATE ∈ fs) {p st} : s₀.Link fs ns (s.setLanes p st) :=
  h.foldl fun _ h => h.wr (.inl hf)

/-- What taking a port DOWN writes. -/
def downFields : List Fld := [R.LANE_STATUS_STATE, R.LANE_STATUS_BORROWED] ++ moveFields

/-- What fitting a port to the lanes that work writes. -/
def narrowFields : List Fld := E.FAB_LINK_DOWN.fields ++ E.FAB_HALF_WIDTH.fields ++ downFields

/-- A port's tests end as it goes DOWN. -/
def dropTests (s : State) (p : Nat) : State :=
  { s with fab := { s.fab with tests := s.fab.tests.filter (fun t => t.lane / 8 ≠ p) } }

/-- No lane of the port has a spare standing in. -/
def unborrow (s : State) (p : Nat) : State := (lanesOf p).foldl (fun t l => t.wr R.LANE_STATUS_BORROWED 0 l) s

/-- A port that goes DOWN, but for its move. -/
def quench (s : State) (p : Nat) : State := (((s.dropTests p).unborrow p).setPort p .init).setLanes p 0

theorem portDown_eq (s : State) (p : Nat) : s.portDown p = (s.quench p).moveTo p 0 := rfl

theorem Link.unborrow (h : s₀.Link fs ns s) (hf : R.LANE_STATUS_BORROWED ∈ fs) {p} : s₀.Link fs ns (s.unborrow p) :=
  h.foldl fun _ h => h.wr (.inl hf)

theorem setPort_frame (s : State) (p : Nat) (x : PortSt) : s.Frame fs ns (s.setPort p x) := .others

theorem dropTests_frame (s : State) (p : Nat) : s.Frame fs ns (s.dropTests p) := .others

theorem quench_frame (s : State) (p : Nat) : s.Frame downFields [] (s.quench p) :=
  (((dropTests_frame s p).trans ((Link.refl (s.dropTests p)).unborrow (by decide)).toFrame).trans
    (setPort_frame ((s.dropTests p).unborrow p) p .init)).trans ((Link.refl _).setLanes (by decide)).toFrame

theorem quench_layout (s : State) (p : Nat) : (s.quench p).layout = s.layout := by
  have hb := ((Link.refl (fs := downFields) (ns := []) (s.dropTests p)).unborrow (by decide) (p := p)).layout
  have hl := ((Link.refl (fs := downFields) (ns := []) (((s.dropTests p).unborrow p).setPort p .init)).setLanes
    (by decide) (p := p) (st := 0)).layout
  rw [quench, hl, setPort_layout, hb, dropTests]

theorem portDown_frame (s : State) (p : Nat) : s.Frame downFields [] (s.portDown p) :=
  (quench_frame s p).trans ((Link.refl (s.quench p)).moveTo.toFrame.mono)

theorem portDown_layout (s : State) (p : Nat) : (s.portDown p).layout = s.layout :=
  (Link.refl (s.quench p)).moveTo.layout.trans (quench_layout s p)

theorem linkDown_frame (s : State) (p : Nat) : s.Frame narrowFields [] (s.linkDown p) :=
  ((Link.refl s).raise (by decide)).toFrame.trans (portDown_frame _ p).mono

theorem portState_portDown (w : mrising s.regs = true) (p : Nat) : (s.portDown p).portState p = 0 :=
  portState_moveTo ((quench_frame s p).rising w) p (by decide)

theorem linkDown_layout (s : State) (p : Nat) : (s.linkDown p).layout = s.layout :=
  (portDown_layout ..).trans (raise_layout ..)

/-- A lane that carries nothing stays so as its port goes DOWN. -/
theorem setLanes_off {l : Nat} (w : mrising s.regs = true) (h : s.rd R.LANE_STATUS_STATE l = 0) (p : Nat) :
    (s.setLanes p 0).rd R.LANE_STATUS_STATE l = 0 := by
  refine (foldl_keeps (P := fun t : State => mrising t.regs = true ∧ t.rd R.LANE_STATUS_STATE l = 0) ?_ _ s ⟨w, h⟩).2
  rintro t m ⟨w, h⟩
  refine ⟨mrising_wr w .., ?_⟩
  rw [ite_self]
  by_cases hk : fkey R.LANE_STATUS_STATE m 0 0 = fkey R.LANE_STATUS_STATE l 0 0
  · have hself := rd_wr_self w R.LANE_STATUS_STATE 0 m 0 0
    unfold State.rd at hself ⊢
    rw [← hk, hself]
    rfl
  · rw [rd_wr_ne _ _ _ hk, h]

theorem laneState_moveTo (s : State) (p st l : Nat) : (s.moveTo p st).rd R.LANE_STATUS_STATE l = s.rd R.LANE_STATUS_STATE l :=
  (Link.refl s).moveTo.rd (by decide) (by simp)

theorem linkDown_off {l : Nat} (w : mrising s.regs = true) (h : s.rd R.LANE_STATUS_STATE l = 0) (p : Nat) :
    (s.linkDown p).rd R.LANE_STATUS_STATE l = 0 := by
  let u := (s.raise E.FAB_LINK_DOWN p).dropTests p
  have hu : s.Frame (R.LANE_STATUS_BORROWED :: E.FAB_LINK_DOWN.fields) [] ((u.unborrow p).setPort p .init) :=
    ((((Link.refl s).raise (by decide)).toFrame.trans (dropTests_frame ..)).trans
      ((Link.refl u).unborrow (by decide)).toFrame).trans (setPort_frame (u.unborrow p) p .init)
  have hoff : ((u.unborrow p).setPort p .init).rd R.LANE_STATUS_STATE l = 0 := (hu.rd (by decide) (by simp)).trans h
  have hquench : ((s.raise E.FAB_LINK_DOWN p).quench p).rd R.LANE_STATUS_STATE l = 0 := setLanes_off (hu.rising w) hoff p
  rw [State.linkDown, portDown_eq, laneState_moveTo, hquench]

theorem fitWidth_frame (s : State) (p : Nat) : s.Frame narrowFields [] (s.fitWidth p) := by
  have hhalf : s.Link narrowFields [] ((s.raise E.FAB_HALF_WIDTH p).moveTo p 4) :=
    ((Link.refl s).raise (by decide)).trans ((Link.refl _).moveTo.mono)
  unfold State.fitWidth
  dsimp only
  split
  · exact (Link.refl s).moveTo.toFrame.mono
  · split
    · exact hhalf.toFrame
    · split
      · exact (hhalf.wr (.inl (by decide))).toFrame
      · exact linkDown_frame s p

theorem fitWidth_layout (s : State) (p : Nat) : (s.fitWidth p).layout = s.layout := by
  have hhalf : ((s.raise E.FAB_HALF_WIDTH p).moveTo p 4).layout = s.layout :=
    (Link.refl _).moveTo.layout.trans (raise_layout ..)
  unfold State.fitWidth
  dsimp only
  split
  · exact (Link.refl s).moveTo.layout
  · split
    · exact hhalf
    · split
      · exact hhalf
      · exact linkDown_layout s p

theorem fitWidth_off {l : Nat} (w : mrising s.regs = true) (h : s.rd R.LANE_STATUS_STATE l = 0) (p : Nat) :
    (s.fitWidth p).rd R.LANE_STATUS_STATE l = 0 := by
  have hraise : (s.raise E.FAB_HALF_WIDTH p).rd R.LANE_STATUS_STATE l = 0 :=
    ((Link.refl s).raise (fs := E.FAB_HALF_WIDTH.fields) (ns := []) (by decide)).rd (by decide) (by simp) |>.trans h
  unfold State.fitWidth
  dsimp only
  split
  · exact (laneState_moveTo ..).trans h
  · split
    · exact (laneState_moveTo ..).trans hraise
    · split
      · rw [rd_wr_ne _ _ _ (Fld.fkey_ne (by decide)), laneState_moveTo, hraise]
      · exact linkDown_off w h p

/-- A port one of whose lanes fails fits the other half. -/
theorem fitWidth_half {l : Nat} (hl : s.laneWorks l = false) (ho : ∀ m ∈ lanesOf (l / 8), m ≠ l → s.laneWorks m = true) :
    s.fitWidth (l / 8) =
      if l % 8 < 4 then ((s.raise E.FAB_HALF_WIDTH (l / 8)).moveTo (l / 8) 4).wr R.FAB_STATUS_HALF_HI 1 (l / 8)
      else (s.raise E.FAB_HALF_WIDTH (l / 8)).moveTo (l / 8) 4 := by
  have hbad : ∀ a, a ≤ l % 8 → l % 8 < a + 4 → (List.range 4).all (fun i => s.laneWorks (8 * (l / 8) + a + i)) = false := by
    intro a h1 h2
    refine List.all_eq_false.2 ⟨l % 8 - a, List.mem_range.2 (by omega), ?_⟩
    have hi : 8 * (l / 8) + a + (l % 8 - a) = l := by omega
    simp only [hi, hl, Bool.false_eq_true, not_false_eq_true]
  have hgood : ∀ a, a ≤ 4 → (l % 8 < a ∨ a + 4 ≤ l % 8) →
      (List.range 4).all (fun i => s.laneWorks (8 * (l / 8) + a + i)) = true := by
    intro a h1 h2
    refine List.all_eq_true.2 fun i hi => ho _ ?_ ?_
    · exact List.mem_map.2 ⟨a + i, List.mem_range.2 (by rw [List.mem_range] at hi; omega), by omega⟩
    · rw [List.mem_range] at hi
      omega
  unfold State.fitWidth
  dsimp only
  by_cases h : l % 8 < 4
  · have h0 := hbad 0 (by omega) (by omega)
    have h4 := hgood 4 (by omega) (by omega)
    simp only [h0, h4, h, Bool.false_and, Bool.false_eq_true, if_true, if_false]
  · have h0 := hgood 0 (by omega) (by omega)
    have h4 := hbad 4 (by omega) (by omega)
    simp only [h0, h4, h, Bool.true_and, Bool.false_eq_true, if_true, if_false]

/-- A port at full width narrows by what its lanes carry. -/
theorem narrow_full {p : Nat} (h : s.portState p = 3) : s.narrow p = s.fitWidth p := by
  unfold State.narrow
  rw [h]
  exact if_neg fun hc => absurd hc.1 (by decide)

/-- A port at full width that loses one lane goes on in the half without it. -/
theorem narrow_one_lane {l : Nat} (w : mrising s.regs = true) (hp : s.portState (l / 8) = 3) (hl : s.laneWorks l = false)
    (ho : ∀ m ∈ lanesOf (l / 8), m ≠ l → s.laneWorks m = true) :
    (s.narrow (l / 8)).portState (l / 8) = 4 ∧ s.raised (s.narrow (l / 8)) E.FAB_HALF_WIDTH (l / 8) ∧
      (l % 8 < 4 → (s.narrow (l / 8)).rd R.FAB_STATUS_HALF_HI (l / 8) = 1) := by
  let u := (s.raise E.FAB_HALF_WIDTH (l / 8)).moveTo (l / 8) 4
  have wr : mrising (s.raise E.FAB_HALF_WIDTH (l / 8)).regs = true := mrising_raise w ..
  have hst : u.portState (l / 8) = 4 := portState_moveTo wr _ (by decide)
  have hraised : s.raised u E.FAB_HALF_WIDTH (l / 8) :=
    raised_then (raised_raise w (by decide)) (Link.refl _).moveTo.toFrame (by decide) (by decide) (by simp) (by simp)
  rw [narrow_full hp, fitWidth_half hl ho]
  split
  · have wu : mrising u.regs = true := (Link.refl _).moveTo.rising wr
    have hframe : u.Frame [R.FAB_STATUS_HALF_HI] [] (u.wr R.FAB_STATUS_HALF_HI 1 (l / 8)) := .wr (.inl (by decide))
    exact ⟨(hframe.rd (by decide) (by simp)).trans hst,
      raised_then hraised hframe (by decide) (by decide) (by simp) (by simp), fun _ => rd_wr_self wu ..⟩
  · exact ⟨hst, hraised, fun h => absurd h ‹_›⟩

/-! ### Retirement of a lane -/

theorem freeLanes_congr (hy : t.layout = s.layout) (ht : t.fab.tests = s.fab.tests) (die : Nat) :
    t.freeLanes die = s.freeLanes die := by
  simp only [freeLanes, hy, ht]

theorem freeLanes_spare {die q : Nat} (h : q ∈ s.freeLanes die) : q ∈ spareLanes die := List.mem_of_mem_filter h

/-- What the retirement of a unit writes. -/
theorem retireUnit_frame (s : State) (cause cls q : Nat) (hf : E.HEALTH_RETIRED.fields ⊆ fs) :
    s.Frame fs ns (s.retireUnit cause cls q) := by
  unfold State.retireUnit
  split
  · exact .refl s
  · exact Frame.trans (t := { s with layout := { s.layout with retired := s.layout.retired ++ [(cls, q)] }, card := _ }) .others
      ((Link.refl _).logAs.raise hf).toFrame

theorem retireUnit_fab (s : State) (cause cls q : Nat) : (s.retireUnit cause cls q).fab = s.fab := by
  unfold State.retireUnit
  split
  · rfl
  · exact raise_fab ..

/-- The layout's retired instances grow by the unit; nothing else of it changes. -/
theorem retireUnit_layout (s : State) (cause cls q : Nat) :
    (s.retireUnit cause cls q).layout = { s.layout with
      retired := if s.layout.retired.contains (cls, q) then s.layout.retired else s.layout.retired ++ [(cls, q)] } := by
  unfold State.retireUnit
  split
  · rfl
  · exact raise_layout ..

theorem retireUnit_lane (s : State) (cause cls q l : Nat) : (s.retireUnit cause cls q).layout.lane l = s.layout.lane l := by
  rw [retireUnit_layout]
  rfl

theorem mem_retireUnit (s : State) (cause cls q : Nat) : (cls, q) ∈ (s.retireUnit cause cls q).layout.retired := by
  rw [retireUnit_layout]
  dsimp only
  split
  · exact List.contains_iff_mem.1 ‹_›
  · exact List.mem_append_right _ (List.mem_singleton_self _)

/-- The physical lane that retires is not a free spare, before or after. -/
theorem freeLanes_retireUnit {l : Nat} (hl : l < 192) (cause die : Nat) :
    (s.retireUnit cause 0x31 (s.layout.lane l)).freeLanes die = s.freeLanes die := by
  unfold State.freeLanes
  refine List.filter_congr fun q hq => ?_
  rw [retireUnit_layout, retireUnit_fab]
  dsimp only
  by_cases hlq : s.layout.lane l = q
  · have hin : s.layout.lanes.any (fun e => decide (e.2 = q)) = true :=
      List.any_eq_true.2 ⟨_, Layout.spare_listed hl (hlq ▸ hq), by simpa using hlq⟩
    simp [hin]
  · split
    · rfl
    · simp [Ne.symm hlq]

end Sys2Proof.Machine.State
end

section
namespace Sys2Proof.Machine.State
variable {s t u : State} {fs : List Fld} {ns : List Nat}

/-- The physical lane behind a logical one retires, if there is one. -/
def retireBehind (s : State) (l : Nat) : State :=
  if s.layout.lane l = 0xFFFF then s else s.retireUnit 3 0x31 (s.layout.lane l)

/-- A physical lane behind a logical one, in the layout alone. -/
def putLane (s : State) (l q : Nat) : State := { s with layout := s.layout.mapLane l q }

@[simp] theorem putLane_fab (s : State) (l q : Nat) : (s.putLane l q).fab = s.fab := rfl

@[simp] theorem putLane_layout (s : State) (l q : Nat) : (s.putLane l q).layout = s.layout.mapLane l q := rfl

theorem putLane_frame (s : State) (l q : Nat) : s.Frame fs ns (s.putLane l q) := .others

/-- The retirement of a lane while no lane is under test. -/
theorem retireLane_untested (ht : s.fab.tests = []) (l : Nat) :
    s.retireLane l = match (s.retireBehind l).freeLanes (laneDie l) with
      | q :: _ => ((s.retireBehind l).putLane l q).laneMap l q true
      | [] => ((s.retireBehind l).putLane l 0xFFFF).wr R.LANE_STATUS_STATE 0 l := by
  unfold State.retireLane State.stopTest retireBehind
  simp only [ht, List.find?_nil]
  generalize (if s.layout.lane l = 0xFFFF then s else s.retireUnit 3 0x31 (s.layout.lane l)) = u
  cases u.freeLanes (laneDie l) <;> rfl

/-- The retirement of a lane whose own test is under way: the spare that stands in stays. -/
theorem retireLane_tested {l : Nat} {x : LaneTest} (hx : s.fab.tests.find? (fun t => !t.install && t.lane = l) = some x) :
    s.retireLane l = ((s.retireBehind l).endTest x).putLane l x.spare := by
  unfold State.retireLane retireBehind
  simp only [hx]
  rfl

theorem retireBehind_frame (s : State) (l : Nat) (hf : E.HEALTH_RETIRED.fields ⊆ fs) : s.Frame fs ns (s.retireBehind l) := by
  unfold retireBehind
  split
  · exact .refl s
  · exact retireUnit_frame s _ _ _ hf

theorem retireBehind_fab (s : State) (l : Nat) : (s.retireBehind l).fab = s.fab := by
  unfold retireBehind
  split
  · rfl
  · exact retireUnit_fab ..

/-- What the retirement of a lane writes, beside that lane's state. -/
def retireFields : List Fld := R.FAB_TX_FLITS_TX :: E.HEALTH_RETIRED.fields

/-- The physical lane behind a lane has retired: the lowest free spare is behind the lane now, or nothing. -/
structure LaneRetired (s : State) (l : Nat) (t : State) : Prop
    extends Frame retireFields [fkey R.LANE_STATUS_STATE l 0 0] s t where
  retired : (0x31, s.layout.lane l) ∈ t.layout.retired
  spare : ∀ q r, s.freeLanes (laneDie l) = q :: r → t.layout.lane l = q
  gone : s.freeLanes (laneDie l) = [] → t.layout.lane l = 0xFFFF ∧ t.rd R.LANE_STATUS_STATE l = 0
  rest : ∀ m, m ≠ l → t.layout.lane m = s.layout.lane m

theorem retireLane_retired {l : Nat} (hl : l < 192) (w : mrising s.regs = true) (ht : s.fab.tests = [])
    (ha : s.avail 0x31 l = true) : s.LaneRetired l (s.retireLane l) := by
  have hne : s.layout.lane l ≠ 0xFFFF := by simpa [avail_lane] using ha
  have hr : s.retireBehind l = s.retireUnit 3 0x31 (s.layout.lane l) := if_neg hne
  have hframe : ∀ q, s.Frame retireFields [fkey R.LANE_STATUS_STATE l 0 0] ((s.retireBehind l).putLane l q) := fun q =>
    (retireBehind_frame s l (by decide)).trans (putLane_frame ..)
  have hold : (0x31, s.layout.lane l) ∈ (s.retireBehind l).layout.retired := hr ▸ mem_retireUnit ..
  have hlane : ∀ m, (s.retireBehind l).layout.lane m = s.layout.lane m := fun m => by rw [hr, retireUnit_lane]
  have hfree : (s.retireBehind l).freeLanes (laneDie l) = s.freeLanes (laneDie l) := by rw [hr, freeLanes_retireUnit hl]
  rw [retireLane_untested ht, hfree]
  cases hs : s.freeLanes (laneDie l) with
  | nil =>
    exact {
      toFrame := (hframe 0xFFFF).trans (.wr (.inr (List.mem_singleton_self _)))
      retired := hold
      spare := fun q r h => by cases hs.symm.trans h
      gone := fun _ => ⟨Layout.lane_mapLane_self .., rd_wr_self ((hframe 0xFFFF).rising w) ..⟩
      rest := fun m hm => (Layout.lane_mapLane_ne _ hm _).trans (hlane m) }
  | cons q r =>
    have hsent : ((s.retireBehind l).putLane l q).Link retireFields [fkey R.LANE_STATUS_STATE l 0 0]
        (((s.retireBehind l).putLane l q).laneMap l q true) := (Link.refl _).laneMap (.inl (by decide))
    exact {
      toFrame := (hframe q).trans hsent.toFrame
      retired := by rw [hsent.layout]; exact hold
      spare := fun q' r' h => by
        cases hs.symm.trans h
        rw [hsent.layout]
        exact Layout.lane_mapLane_self ..
      gone := fun h => by cases hs.symm.trans h
      rest := fun m hm => by
        rw [hsent.layout]
        exact (Layout.lane_mapLane_ne _ hm _).trans (hlane m) }

/-- What the loss or the retirement of a lane of a port at full width comes to (R41, R318). -/
def laneOut (s : State) (l : Nat) (t : State) : Prop :=
  (0x31, s.layout.lane l) ∈ t.layout.retired ∧
  (∀ q r, s.freeLanes (laneDie l) = q :: r → t.layout.lane l = q ∧ t.portState (l / 8) = 3) ∧
  (s.freeLanes (laneDie l) = [] → t.avail 0x31 l = false ∧ t.rd R.LANE_STATUS_STATE l = 0 ∧
    ((∀ m ∈ lanesOf (l / 8), m ≠ l → s.laneWorks m = true) →
      t.portState (l / 8) = 4 ∧ s.raised t E.FAB_HALF_WIDTH (l / 8) ∧
      (l % 8 < 4 → t.rd R.FAB_STATUS_HALF_HI (l / 8) = 1))) ∧ s.sameMem t ∧ s.sameTiles t

/-- A lane that has retired goes on with its spare, or its port narrows. -/
def afterLane (s : State) (l : Nat) : State := if s.avail 0x31 l ∨ s.inService (l / 8) = false then s else s.narrow (l / 8)

theorem afterLane_frame (s : State) (l : Nat) : s.Frame narrowFields [] (s.afterLane l) := by
  unfold afterLane State.narrow
  dsimp only
  split
  · exact .refl s
  · split
    · exact .refl s
    · exact fitWidth_frame s _

theorem afterLane_layout (s : State) (l : Nat) : (s.afterLane l).layout = s.layout := by
  unfold afterLane State.narrow
  dsimp only
  split
  · rfl
  · split
    · rfl
    · exact fitWidth_layout s _

theorem freeLanes_lt {l q : Nat} (h : q ∈ s.freeLanes (laneDie l)) : q < 0xFFFF := by
  obtain ⟨i, hi, rfl⟩ := List.mem_map.1 (freeLanes_spare h)
  rw [List.mem_range] at hi
  unfold laneDie
  split <;> omega

theorem laneRetired_afterLane {l : Nat} (w : mrising s.regs = true) (hp : s.portState (l / 8) = 3)
    (h : s.LaneRetired l u) : s.laneOut l (u.afterLane l) := by
  have hup : u.portState (l / 8) = 3 :=
    (h.rd (by decide) (Fld.fkey_not_mem (by decide))).trans hp
  have hafterLane : u.layout.lane l = 0xFFFF → u.afterLane l = u.fitWidth (l / 8) := fun hgone => by
    unfold afterLane
    rw [if_neg (by simp [avail_lane, hgone, State.inService, hup]), narrow_full hup]
  have hall : s.Frame (narrowFields ++ retireFields) [fkey R.LANE_STATUS_STATE l 0 0] (u.afterLane l) :=
    h.toFrame.mono.trans (afterLane_frame u l).mono
  refine ⟨?_, fun q r hf => ?_, fun hf => ?_, hall.sameMem, hall.sameTiles⟩
  · rw [afterLane_layout]
    exact h.retired
  · have hq : q < 0xFFFF := freeLanes_lt (hf ▸ List.mem_cons_self ..)
    have hstay : u.afterLane l = u := if_pos (.inl (by rw [avail_lane, h.spare q r hf]; exact decide_eq_true (Nat.ne_of_lt hq)))
    rw [hstay]
    exact ⟨h.spare q r hf, hup⟩
  · obtain ⟨hgone, hoff⟩ := h.gone hf
    rw [hafterLane hgone]
    have hlane : (u.fitWidth (l / 8)).layout.lane l = 0xFFFF := by rw [fitWidth_layout, hgone]
    refine ⟨by simp [avail_lane, hlane], fitWidth_off (h.rising w) hoff _, fun ho => ?_⟩
    have hdead : u.laneWorks l = false := by simp [State.laneWorks, hoff]
    have hwork : ∀ m ∈ lanesOf (l / 8), m ≠ l → u.laneWorks m = true := by
      intro m hm hml
      have hkey : fkey R.LANE_STATUS_STATE m 0 0 ∉ [fkey R.LANE_STATUS_STATE l 0 0] := by
        obtain ⟨i, hi, rfl⟩ := List.mem_map.1 hm
        rw [List.mem_range] at hi
        exact fun hk => fkey_ne_of_inst rfl (by omega) (List.mem_singleton.1 hk)
      have hm' := ho m hm hml
      unfold State.laneWorks at hm' ⊢
      rwa [avail_lane, h.rest m hml, ← avail_lane, h.rd (by decide) hkey]
    obtain ⟨hst, hra, hhi⟩ := narrow_one_lane (h.rising w) hup hdead hwork
    rw [narrow_full hup] at hst hra hhi
    exact ⟨hst, then_raised h.toFrame hra (by decide) (Fld.fkey_not_mem (by decide)), hhi⟩

/-! ### A lane lost -/

/-- Raising a flag that is no lane's state leaves what a lane's loss depends on. -/
theorem laneOut_of_raise {e : EvFlag} {i l : Nat} {args : List Nat} {k : Nat}
    (hst : e.fields.all (·.apart R.LANE_STATUS_STATE) = true) (hcnt : e.fields.all (·.apart E.FAB_HALF_WIDTH.cnt) = true)
    (h : (s.raise e i args k).laneOut l t) : s.laneOut l t := by
  have hlink : s.Link e.fields [] (s.raise e i args k) := (Link.refl s).raise (List.Subset.refl _)
  have hfree : (s.raise e i args k).freeLanes (laneDie l) = s.freeLanes (laneDie l) :=
    freeLanes_congr hlink.layout hlink.tests _
  have hwork : ∀ m, (s.raise e i args k).laneWorks m = s.laneWorks m := fun m => by
    simp only [State.laneWorks, avail_lane, hlink.layout, hlink.rd hst (List.not_mem_nil)]
  obtain ⟨hret, hspare, hgone, hmem, htiles⟩ := h
  rw [hlink.layout] at hret
  rw [hfree] at hspare hgone
  refine ⟨hret, hspare, fun hf => ?_, ?_, ?_⟩
  · obtain ⟨ha, hoff, hhalf⟩ := hgone hf
    refine ⟨ha, hoff, fun ho => ?_⟩
    obtain ⟨hport, hra, hhi⟩ := hhalf fun m hm hml => (hwork m).trans (ho m hm hml)
    exact ⟨hport, then_raised hlink.toFrame hra hcnt (by simp), hhi⟩
  · exact fun a => ⟨(hmem a).1.trans (hlink.sameMem a).1, (hmem a).2.trans (hlink.sameMem a).2⟩
  · intro a
    obtain ⟨h1, h2, h3⟩ := htiles a
    obtain ⟨g1, g2, g3⟩ := hlink.sameTiles a
    exact ⟨h1.trans g1, h2.trans g2, h3.trans g3⟩

/-- A lane of a port at full width that retires. -/
theorem retireLane_out {l : Nat} (hl : l < 192) (w : mrising s.regs = true) (hp : s.portState (l / 8) = 3)
    (ht : s.fab.tests = []) (ha : s.avail 0x31 l = true) : s.laneOut l ((s.retireLane l).afterLane l) :=
  laneRetired_afterLane w hp (retireLane_retired hl w ht ha)

/-- The count of a lane's bad codewords begins again. -/
def forgetBad (s : State) (l : Nat) : State := { s with fab := { s.fab with bad := mset (0, 0) l (0, 0) s.fab.bad } }

theorem loseLane_eq (s : State) (l : Nat) :
    s.loseLane l = (((s.raise E.FAB_LANE_LOST (l / 8) [l]).retireLane l).forgetBad l).afterLane l := rfl

theorem LaneRetired.forgetBad {l : Nat} (h : s.LaneRetired l t) : s.LaneRetired l (t.forgetBad l) :=
  { toFrame := h.toFrame.trans .others, retired := h.retired, spare := h.spare, gone := h.gone, rest := h.rest }

/-- What the loss of a lane writes, beside that lane's state. -/
def loseFields : List Fld := E.FAB_LANE_LOST.fields ++ narrowFields ++ retireFields

/-- A lane of a port at full width that is lost. -/
theorem loseLane_out {l : Nat} (hl : l < 192) (w : mrising s.regs = true) (hp : s.portState (l / 8) = 3) (ht : s.fab.tests = [])
    (ha : s.avail 0x31 l = true) :
    s.Frame loseFields [fkey R.LANE_STATUS_STATE l 0 0] (s.loseLane l) ∧ s.raised (s.loseLane l) E.FAB_LANE_LOST (l / 8) ∧
      s.laneOut l (s.loseLane l) := by
  let u := s.raise E.FAB_LANE_LOST (l / 8) [l]
  have hlink : s.Link E.FAB_LANE_LOST.fields [] u := (Link.refl s).raise (List.Subset.refl _)
  have hret : u.LaneRetired l ((u.retireLane l).forgetBad l) :=
    (retireLane_retired hl (hlink.rising w) (hlink.tests.trans ht)
      (by rw [avail_lane, hlink.layout, ← avail_lane, ha])).forgetBad
  have hframe : u.Frame (narrowFields ++ retireFields) [fkey R.LANE_STATUS_STATE l 0 0] (s.loseLane l) :=
    hret.toFrame.mono.trans (afterLane_frame _ l).mono
  refine ⟨hlink.toFrame.mono.trans hframe.mono,
    raised_then (raised_raise w (by decide)) hframe (by decide) (by decide) (Fld.fkey_not_mem (by decide))
      (Fld.fkey_not_mem (by decide)), ?_⟩
  rw [loseLane_eq]
  exact laneOut_of_raise (by decide) (by decide)
    (laneRetired_afterLane (hlink.rising w) ((hlink.rd (by decide) (by simp)).trans hp) hret)

end Sys2Proof.Machine.State

namespace Sys2Proof.Machine
variable {s : State} {l : LaneId}

theorem laneLostEffect_out (w : mrising s.regs = true) (hp : s.portState (l / 8) = 3) (hw : s.laneWorks l = true)
    (ht : s.fab.tests = []) {c : LaneCause} (hc : s.laneFails l c = true) :
    s.raised (laneLostEffect l c s) E.FAB_LANE_LOST (l / 8) ∧ s.laneOut l (laneLostEffect l c s) := by
  have ha : s.avail 0x31 l = true := ((Bool.and_eq_true ..).mp hw).1
  rw [laneLostEffect, if_pos ⟨hc, hw, .inl (by simp [State.inService, hp])⟩]
  exact (State.loseLane_out l.isLt w hp ht ha).2

theorem laneRetireEffect_out (w : mrising s.regs = true) (hp : s.portState (l / 8) = 3) (ha : s.avail 0x31 l = true)
    (ht : s.fab.tests = []) : s.laneOut l (laneRetireEffect l s) := by
  rw [laneRetireEffect, if_pos ha]
  exact State.retireLane_out l.isLt w hp ht ha

theorem corrHighEffect_out (w : mrising s.regs = true) (hp : s.portState (l / 8) = 3) (hw : s.laneWorks l = true)
    (ht : s.fab.tests = []) {n : Nat} (hn : s.rd R.FAB_LANE_THR_THR < n) :
    s.raised (corrHighEffect l n s) E.LANE_CORR_HIGH l ∧ s.raised (corrHighEffect l n s) E.FAB_LANE_LOST (l / 8) ∧
      s.laneOut l (corrHighEffect l n s) := by
  have ha : s.avail 0x31 l = true := ((Bool.and_eq_true ..).mp hw).1
  have hlink : s.Link E.LANE_CORR_HIGH.fields [] (s.raise E.LANE_CORR_HIGH l [n]) :=
    (State.Link.refl s).raise (List.Subset.refl _)
  obtain ⟨hframe, hlost, hout⟩ := State.loseLane_out l.isLt (hlink.rising w) ((hlink.rd (by decide) (by simp)).trans hp)
    (hlink.tests.trans ht) (by rw [State.avail_lane, hlink.layout, ← State.avail_lane, ha])
  rw [corrHighEffect, if_pos ⟨by simp [State.inService, hp], hw, hn⟩]
  exact ⟨State.raised_then (State.raised_raise w (by decide)) hframe (by decide) (by decide) (Fld.fkey_not_mem (by decide))
      (Fld.fkey_not_mem (by decide)),
    State.then_raised hlink.toFrame hlost (by decide) (by simp), State.laneOut_of_raise (by decide) (by decide) hout⟩

end Sys2Proof.Machine
end

section
namespace Sys2Proof.Machine

/-! ### Flits -/

theorem sumOf_append (a b : List Nat) : sumOf (a ++ b) = sumOf a + sumOf b := by
  simp only [sumOf, ← List.sum_eq_foldl, List.sum_append]

/-- The codewords among some that end on a lane, uncorrectable or not. -/
def endedOn (cs : List Codeword) (l : Fin 8) (lost : Bool) : List Codeword :=
  cs.filter (fun c => c.ends && c.lane = l && c.lost = lost)

theorem endedOn_append (cs ds : List Codeword) (l : Fin 8) (lost : Bool) :
    endedOn (cs ++ ds) l lost = endedOn cs l lost ++ endedOn ds l lost := List.filter_append ..

/-- The keys of the codeword counters of a port's lanes. -/
def fecKeys (p : Nat) : List Nat :=
  (lanesOf p).flatMap (fun l => [fkey R.LANE_FEC_CORR_SYMBOLS l 0 0, fkey R.LANE_FEC_UNCORR_CODEWORDS l 0 0])

theorem mem_fecKeys {p n : Nat} :
    n ∈ fecKeys p ↔ ∃ l ∈ lanesOf p, n = fkey R.LANE_FEC_CORR_SYMBOLS l 0 0 ∨ n = fkey R.LANE_FEC_UNCORR_CODEWORDS l 0 0 := by
  simp [fecKeys]

theorem fkey_not_mem_fecKeys {f : Fld} (hs : R.LANE_FEC_CORR_SYMBOLS.apart f = true)
    (hu : R.LANE_FEC_UNCORR_CODEWORDS.apart f = true) {p i k j : Nat} : fkey f i k j ∉ fecKeys p := by
  rw [mem_fecKeys]
  rintro ⟨l, -, h | h⟩
  · exact Fld.fkey_ne hs h.symm
  · exact Fld.fkey_ne hu h.symm

theorem lane_mem_lanesOf (p : Nat) (l : Fin 8) : 8 * p + l.val ∈ lanesOf p :=
  List.mem_map.2 ⟨l, List.mem_range.2 l.isLt, rfl⟩

namespace State
variable {s t u : State}

theorem rising_of_wf (h : s.wf = true) : mrising s.regs = true ∧ mrising s.fab.ports = true :=
  have c := (wf_iff s).1 h
  ⟨((mwf_iff _ _).1 c.regs).1, ((mwf_iff _ _).1 c.ports).1⟩

/-- What codewords of a port leave behind: their counts on their lanes, and of the rest the run of bad codewords alone. -/
structure Counted (p : Nat) (cs : List Codeword) (s t : State) : Prop where
  frame : s.Frame [] (fecKeys p) t
  only : t = { s with regs := t.regs, fab := { s.fab with bad := t.fab.bad } }
  symbols : ∀ l : Fin 8, t.rd R.LANE_FEC_CORR_SYMBOLS (8 * p + l) =
    (s.rd R.LANE_FEC_CORR_SYMBOLS (8 * p + l) + sumOf ((endedOn cs l false).map (·.wrong))) % 2 ^ 64
  codewords : ∀ l : Fin 8, t.rd R.LANE_FEC_UNCORR_CODEWORDS (8 * p + l) =
    (s.rd R.LANE_FEC_UNCORR_CODEWORDS (8 * p + l) + (endedOn cs l true).length) % 2 ^ 32

theorem Counted.nil (p : Nat) (s : State) : Counted p [] s s where
  frame := .refl s
  only := rfl
  symbols _ := (Nat.mod_eq_of_lt (rd_lt s ..)).symm
  codewords _ := (Nat.mod_eq_of_lt (rd_lt s ..)).symm

theorem Counted.append {p : Nat} {cs ds : List Codeword} (h : Counted p cs s t) (g : Counted p ds t u) :
    Counted p (cs ++ ds) s u where
  frame := h.frame.trans g.frame
  only := by rw [g.only, h.only]
  symbols l := by
    rw [g.symbols, h.symbols, Nat.mod_add_mod, endedOn_append, List.map_append, sumOf_append, Nat.add_assoc]
  codewords l := by
    rw [g.codewords, h.codewords, Nat.mod_add_mod, endedOn_append, List.length_append, Nat.add_assoc]

/-- A count on one lane of a port. -/
theorem rd_bump_lane (w : mrising s.regs = true) {f : Fld} (hf : f.shared = false) (p n : Nat) (a l : Fin 8) :
    (s.bump f n (8 * p + a)).rd f (8 * p + l) = (s.rd f (8 * p + l) + if a = l then n else 0) % 2 ^ f.wid := by
  unfold State.bump
  by_cases h : a = l
  · rw [h, rd_wr_self w, if_pos rfl]
  · have hv : a.val ≠ l.val := fun e => h (Fin.ext e)
    rw [rd_wr_ne _ _ _ (fkey_ne_of_inst hf (by omega)), if_neg h, Nat.add_zero, Nat.mod_eq_of_lt (rd_lt ..)]

theorem counted_codeword (w : mrising s.regs = true) (p : Nat) (c : Codeword) : Counted p [c] s (s.countCodeword p c) := by
  have hmem := lane_mem_lanesOf p c.lane
  have hsame : ∀ f i, (s.rd f i + 0) % 2 ^ f.wid = s.rd f i := fun f i => Nat.mod_eq_of_lt (rd_lt s f i 0 0)
  unfold State.countCodeword
  by_cases he : c.ends = true
  · rw [if_neg (by simp [he])]
    by_cases hl : c.lost = true
    · rw [if_pos hl]
      exact {
        frame := (Frame.wr (.inr (mem_fecKeys.2 ⟨_, hmem, .inr rfl⟩))).trans .others
        only := rfl
        symbols := fun l => by
          have hnone : sumOf ((endedOn [c] l false).map (·.wrong)) = 0 := by simp [endedOn, hl, sumOf]
          rw [hnone]
          exact (rd_wr_ne _ _ _ (Fld.fkey_ne (by decide))).trans (hsame ..).symm
        codewords := fun l => by
          have hone : (endedOn [c] l true).length = if c.lane = l then 1 else 0 := by
            by_cases h : c.lane = l <;> simp [endedOn, he, hl, h]
          rw [hone]
          exact rd_bump_lane w rfl p 1 c.lane l }
    · rw [if_neg hl]
      exact {
        frame := .wr (.inr (mem_fecKeys.2 ⟨_, hmem, .inl rfl⟩))
        only := rfl
        symbols := fun l => by
          have hone : sumOf ((endedOn [c] l false).map (·.wrong)) = if c.lane = l then c.wrong else 0 := by
            by_cases h : c.lane = l <;> simp [endedOn, he, hl, h, sumOf]
          rw [hone]
          exact rd_bump_lane w rfl p c.wrong c.lane l
        codewords := fun l => by
          have hnone : (endedOn [c] l true).length = 0 := by simp [endedOn, hl]
          rw [hnone]
          exact (rd_wr_ne _ _ _ (Fld.fkey_ne (by decide))).trans (hsame ..).symm }
  · have hnone : ∀ l lost, endedOn [c] l lost = [] := fun l lost => by simp [endedOn, he]
    rw [if_pos (by simp [he])]
    exact {
      frame := .refl s
      only := rfl
      symbols := fun l => by rw [hnone]; exact (hsame ..).symm
      codewords := fun l => by rw [hnone]; exact (hsame ..).symm }

theorem counted_codewords (p : Nat) (cs : List Codeword) : ∀ {s : State}, mrising s.regs = true →
    Counted p cs s (cs.foldl (fun t c => t.countCodeword p c) s) := by
  induction cs with
  | nil => exact fun _ => .nil p _
  | cons c r ih => exact fun w => (counted_codeword w p c).append (ih ((counted_codeword w p c).frame.rising w))

/-! ### Flits accepted and discarded -/

/-- Whether a flit is accepted: whole, and in sequence (R321). -/
abbrev goodFlit (s : State) (p : Nat) (f : FlitIn) : Prop := f.crcGood = true ∧ f.uncorr = false ∧ f.seq = (s.port p).rxNext

/-- The codewords of a flit are counted on their lanes. -/
def heardCodewords (s : State) (p : Nat) (f : FlitIn) : State := f.codewords.foldl (fun t c => t.countCodeword p c) s

/-- A flit is accepted, but for its ACK: the next one is expected, and it is counted. -/
def takeFlit (s : State) (p : Nat) : State :=
  (s.setPort p { s.port p with rxNext := ((s.port p).rxNext + 1) % 65536 }).countFlits R.FAB_RX_FLITS_RX p 1

theorem Counted.fab {p : Nat} {cs : List Codeword} (h : Counted p cs s t) : t.fab = { s.fab with bad := t.fab.bad } :=
  congrArg State.fab h.only

theorem Counted.port {p : Nat} {cs : List Codeword} (h : Counted p cs s t) (q : Nat) : t.port q = s.port q := by
  unfold State.port
  rw [h.fab]

theorem Counted.portState {p : Nat} {cs : List Codeword} (h : Counted p cs s t) (q : Nat) : t.portState q = s.portState q :=
  h.frame.rd rfl (fkey_not_mem_fecKeys (by decide) (by decide))

/-- What a port that receives does with a flit. -/
theorem flitEffect_eq (w : mrising s.regs = true) {p : Nat} (hp : 2 ≤ s.portState p) (f : FlitIn) :
    flitEffect p f s = if s.goodFlit p f then
      ((s.heardCodewords p f).takeFlit p).heardAck p f
      else (s.heardCodewords p f).emit (.nak p (((s.port p).rxNext + 65535) % 32768)) := by
  have hc : Counted p f.codewords s (s.heardCodewords p f) := counted_codewords p f.codewords w
  have hlow : ¬ s.portState p < 2 := Nat.not_lt.2 hp
  have hlow' : ¬ (s.heardCodewords p f).portState p < 2 := by rw [hc.portState]; exact hlow
  unfold flitEffect takeFlit
  rw [hc.port]
  simp only [hlow, if_false]
  exact if_neg hlow'

end State
end Sys2Proof.Machine
end

section
namespace Sys2Proof.Machine.State
variable {s t u : State} {p : Nat} {f : FlitIn}

/-- The codewords of a flit have been counted on their lanes (R319). -/
def countedFlit (s : State) (p : Nat) (f : FlitIn) (t : State) : Prop := ∀ l : Fin 8,
  t.rd R.LANE_FEC_CORR_SYMBOLS (8 * p + l) =
    (s.rd R.LANE_FEC_CORR_SYMBOLS (8 * p + l) + sumOf ((endedOn f.codewords l false).map (·.wrong))) % 2 ^ 64 ∧
  t.rd R.LANE_FEC_UNCORR_CODEWORDS (8 * p + l) =
    (s.rd R.LANE_FEC_UNCORR_CODEWORDS (8 * p + l) + (endedOn f.codewords l true).length) % 2 ^ 32

/-- A flit has been accepted and counted, and the next one is expected (R321). -/
def tookFlit (s : State) (p : Nat) (f : FlitIn) (t : State) : Prop :=
  s.countedFlit p f t ∧ (t.port p).rxNext = ((s.port p).rxNext + 1) % 65536 ∧ (t.port p).acked = f.ack ∧
    t.rd R.FAB_RX_FLITS_RX p = (s.rd R.FAB_RX_FLITS_RX p + 1) % 2 ^ 64

theorem counted_heardCodewords (w : mrising s.regs = true) (p : Nat) (f : FlitIn) :
    Counted p f.codewords s (s.heardCodewords p f) := counted_codewords p f.codewords w

/-- An accepted flit, with the port's record replaced by one that its ACK gives. -/
def ackFlit (s : State) (p : Nat) (f : FlitIn) (x : PortSt) : State := ((s.heardCodewords p f).takeFlit p).setPort p x

theorem takeFlit_rising (w : mrising s.regs = true) (wp : mrising s.fab.ports = true) :
    mrising ((s.heardCodewords p f).takeFlit p).fab.ports = true :=
  mrising_setPort (s := s.heardCodewords p f) (by rw [(counted_heardCodewords w p f).fab]; exact wp) ..

theorem takeFlit_port (w : mrising s.regs = true) (wp : mrising s.fab.ports = true) :
    ((s.heardCodewords p f).takeFlit p).port p = { s.port p with rxNext := ((s.port p).rxNext + 1) % 65536 } := by
  have hc := counted_heardCodewords w p f
  have hports : mrising (s.heardCodewords p f).fab.ports = true := by rw [hc.fab]; exact wp
  exact (port_setPort hports ..).trans (by rw [hc.port])

theorem fkey_not_mem_takeKeys {g : Fld} (hr : R.FAB_RX_FLITS_RX.apart g = true) (hs : R.LANE_FEC_CORR_SYMBOLS.apart g = true)
    (hu : R.LANE_FEC_UNCORR_CODEWORDS.apart g = true) {i k j : Nat} :
    fkey g i k j ∉ fkey R.FAB_RX_FLITS_RX p 0 0 :: fecKeys p := by
  rw [List.mem_cons, not_or]
  exact ⟨(Fld.fkey_ne hr).symm, fkey_not_mem_fecKeys hs hu⟩

theorem takeFlit_frame (w : mrising s.regs = true) :
    s.Frame [] (fkey R.FAB_RX_FLITS_RX p 0 0 :: fecKeys p) ((s.heardCodewords p f).takeFlit p) :=
  ((counted_heardCodewords w p f).frame.mono (List.Subset.refl _) (List.subset_cons_self ..)).trans
    (((setPort_frame ..).trans (.wr (.inr (List.mem_cons_self ..)))).trans .others)

theorem ackFlit_frame (w : mrising s.regs = true) {x : PortSt} :
    s.Frame [] (fkey R.FAB_RX_FLITS_RX p 0 0 :: fecKeys p) (s.ackFlit p f x) := (takeFlit_frame w).trans (setPort_frame ..)

/-- An accepted flit changes registers, the port's record, the runs of bad codewords and the count of flits. -/
theorem ackFlit_only (w : mrising s.regs = true) {x : PortSt} : s.ackFlit p f x = { s with
    regs := (s.ackFlit p f x).regs, fab := { s.fab with ports := (s.ackFlit p f x).fab.ports, bad := (s.ackFlit p f x).fab.bad }
    gate := { s.gate with flits := (s.ackFlit p f x).gate.flits } } := by
  unfold ackFlit
  obtain ⟨r, b, h⟩ : ∃ r b, s.heardCodewords p f = { s with regs := r, fab := { s.fab with bad := b } } :=
    ⟨_, _, (counted_heardCodewords w p f).only⟩
  rw [h]
  rfl

theorem ackFlit_out (w : mrising s.regs = true) {x : PortSt} : (s.ackFlit p f x).out = s.out := by
  rw [ackFlit_only w]

/-! ### Flits sent again -/

/-- What the replay of flits writes. -/
def replayFields : List Fld := R.FAB_TX_FLITS_TX :: E.FAB_REPLAY.fields

/-- Flits go out again: they are counted, and REPLAY is raised (R321). -/
def replayFlits (s : State) (p ack : Nat) (flits : List (List (List Byte))) : State :=
  ((s.countFlits R.FAB_TX_FLITS_TX p flits.length).raise E.FAB_REPLAY p).emit (.replay p ack flits)

section
variable {ack : Nat} {flits : List (List (List Byte))}

theorem countFlits_link (s : State) (f : Fld) (p n : Nat) : s.Link [f] [] (s.countFlits f p n) :=
  ((Link.refl s).bump (.inl (List.mem_singleton_self f))).others

theorem replayFlits_frame : s.Frame replayFields [] (s.replayFlits p ack flits) :=
  ((countFlits_link ..).mono.trans ((Link.refl _).raise (by decide))).emit.toFrame

theorem replayFlits_fab : (s.replayFlits p ack flits).fab = s.fab := by
  rw [replayFlits, emit_fab, raise_fab]
  rfl

theorem replayFlits_out : (s.replayFlits p ack flits).out = s.out ++ [Out.replay p ack flits] := by
  have hsent : ((s.countFlits R.FAB_TX_FLITS_TX p flits.length).raise E.FAB_REPLAY p).out = s.out := raise_out ..
  rw [replayFlits, State.emit, hsent]

theorem replayFlits_raised (w : mrising s.regs = true) : s.raised (s.replayFlits p ack flits) E.FAB_REPLAY p :=
  have hc := countFlits_link s R.FAB_TX_FLITS_TX p flits.length
  have hr := raised_then (raised_raise (hc.rising w) (by decide)) (Link.refl (fs := []) (ns := []) _).emit.toFrame rfl rfl
    (by simp) (by simp)
  then_raised hc.toFrame hr (by decide) (by simp)

theorem rd_replayFlits (w : mrising s.regs = true) :
    (s.replayFlits p ack flits).rd R.FAB_TX_FLITS_TX p = (s.rd R.FAB_TX_FLITS_TX p + flits.length) % 2 ^ 64 :=
  ((Link.refl (s.countFlits R.FAB_TX_FLITS_TX p flits.length)).raise (fs := E.FAB_REPLAY.fields) (ns := [])
    (List.Subset.refl _)).emit.rd (by decide) (by simp) |>.trans (rd_wr_self w ..)
end

theorem tookFlit_of_ackFlit (w : mrising s.regs = true) (wp : mrising s.fab.ports = true) {x : PortSt}
    (hx : x.rxNext = ((s.port p).rxNext + 1) % 65536) (ha : x.acked = f.ack) (hf : (s.ackFlit p f x).Frame replayFields [] t)
    (hp : t.fab = (s.ackFlit p f x).fab) : s.tookFlit p f t := by
  have hc := counted_heardCodewords w p f
  have hrx : ∀ g i, R.FAB_RX_FLITS_RX.apart g = true → (s.ackFlit p f x).rd g i = (s.heardCodewords p f).rd g i :=
    fun g i hg => rd_wr_ne _ _ _ (Fld.fkey_ne hg)
  have hport : t.port p = x := by
    have hx : (s.ackFlit p f x).port p = x := port_setPort (takeFlit_rising w wp) ..
    rwa [State.port, hp]
  refine ⟨fun l => ⟨?_, ?_⟩, by rw [hport, hx], by rw [hport, ha], ?_⟩
  · rw [hf.rd (by decide) (by simp), hrx _ _ (by decide), hc.symbols]
  · rw [hf.rd (by decide) (by simp), hrx _ _ (by decide), hc.codewords]
  · rw [hf.rd (by decide) (by simp)]
    have hold : (s.heardCodewords p f).rd R.FAB_RX_FLITS_RX p = s.rd R.FAB_RX_FLITS_RX p :=
      hc.frame.rd rfl (fkey_not_mem_fecKeys (by decide) (by decide))
    rw [← hold]
    exact rd_wr_self (s := (s.heardCodewords p f).setPort p _) (hc.frame.rising w) ..

/-- A flit that is not whole or not in sequence is answered with a NAK, and nothing of it is taken. -/
theorem flit_discarded (w : mrising s.regs = true) (hp : 2 ≤ s.portState p)
    (hg : ¬s.goodFlit p f) :
    s.countedFlit p f (flitEffect p f s) ∧
    (flitEffect p f s).out = s.out ++ [Out.nak p (((s.port p).rxNext + 65535) % 32768)] ∧
    s.regsBut (flitEffect p f s) (fecKeys p) ∧
    flitEffect p f s = { s with
      regs := (flitEffect p f s).regs, fab := { s.fab with bad := (flitEffect p f s).fab.bad }
      out := (flitEffect p f s).out } := by
  have hc := counted_heardCodewords w p f
  rw [flitEffect_eq w hp, if_neg hg]
  refine ⟨fun l => ⟨hc.symbols l, hc.codewords l⟩, ?_, hc.frame.regsBut, ?_⟩
  · rw [State.emit, hc.only]
  · obtain ⟨r, b, h⟩ : ∃ r b, s.heardCodewords p f = { s with regs := r, fab := { s.fab with bad := b } } := ⟨_, _, hc.only⟩
    rw [h]
    rfl

/-! ### The ACK of an accepted flit -/

/-- The port's record after an acknowledgement, or a NAK that is answered (R321). -/
def acks (x : PortSt) (f : FlitIn) : PortSt :=
  { x with acked := f.ack, replays := if x.acked = f.ack then x.replays + b2n f.nak else b2n f.nak }

theorem heardAck_ack (hn : f.nak = false) : u.heardAck p f = u.setPort p (acks (u.port p) f) := by
  simp only [State.heardAck, acks, hn, Bool.false_eq_true, if_false, b2n, Nat.add_zero]

/-- The flits that a NAK asks for, as the lanes carry them. -/
def resent (s : State) (p : Nat) (f : FlitIn) : List (List (List Byte)) :=
  ((s.port p).replayed f.ack).map (flitLanes (decide (s.portState p = 4)))

theorem heardAck_nak (hn : f.nak = true) (hr : (u.port p).acked ≠ f.ack ∨ (u.port p).replays < 8) :
    u.heardAck p f = (u.setPort p (acks (u.port p) f)).replayFlits p f.ack (u.resent p f) := by
  have hstay : ¬((u.port p).acked = f.ack ∧ 8 ≤ (u.port p).replays) := by
    rintro ⟨h1, h2⟩
    exact hr.elim (fun h => h h1) (fun h => Nat.not_lt.2 h2 h)
  have hs : ∀ x, (u.setPort p x).portState p = u.portState p := fun _ => rfl
  simp only [State.heardAck, acks, resent, replayFlits, hn, hs, if_true, if_neg hstay, b2n]

theorem heardAck_down (hn : f.nak = true) (ha : (u.port p).acked = f.ack) (hr : 8 ≤ (u.port p).replays) :
    u.heardAck p f = u.linkDown p := by
  simp only [State.heardAck, hn, if_true]
  exact if_pos ⟨ha, hr⟩

/-- An accepted flit, as far as its ACK goes. -/
theorem flitEffect_good (w : mrising s.regs = true) (hp : 2 ≤ s.portState p)
    (hg : s.goodFlit p f) :
    flitEffect p f s = ((s.heardCodewords p f).takeFlit p).heardAck p f := by
  rw [flitEffect_eq w hp, if_pos hg]

theorem takeFlit_portState (w : mrising s.regs = true) : ((s.heardCodewords p f).takeFlit p).portState p = s.portState p :=
  (takeFlit_frame w).rd rfl (fkey_not_mem_takeKeys (by decide) (by decide) (by decide))

theorem takeFlit_resent (w : mrising s.regs = true) (wp : mrising s.fab.ports = true) :
    ((s.heardCodewords p f).takeFlit p).resent p f = s.resent p f := by
  unfold resent
  rw [takeFlit_port w wp, takeFlit_portState w]
  rfl

/-- An accepted flit with an acknowledgement. -/
theorem flit_acknowledged (w : mrising s.regs = true) (wp : mrising s.fab.ports = true) (hp : 2 ≤ s.portState p)
    (hg : s.goodFlit p f) (hn : f.nak = false) :
    s.tookFlit p f (flitEffect p f s) ∧ s.regsBut (flitEffect p f s) (fkey R.FAB_RX_FLITS_RX p 0 0 :: fecKeys p) ∧
    flitEffect p f s = { s with
      regs := (flitEffect p f s).regs
      fab := { s.fab with ports := (flitEffect p f s).fab.ports, bad := (flitEffect p f s).fab.bad }
      gate := { s.gate with flits := (flitEffect p f s).gate.flits } } := by
  rw [flitEffect_good w hp hg, heardAck_ack hn, takeFlit_port w wp]
  exact ⟨tookFlit_of_ackFlit w wp rfl rfl (.refl _) rfl, (ackFlit_frame w).regsBut, ackFlit_only w⟩

/-- An accepted flit with a NAK: the flits after its ACK go out again. -/
theorem flit_replayed (w : mrising s.regs = true) (wp : mrising s.fab.ports = true) (hp : 2 ≤ s.portState p)
    (hg : s.goodFlit p f) (hn : f.nak = true)
    (hr : (s.port p).acked ≠ f.ack ∨ (s.port p).replays < 8) :
    s.tookFlit p f (flitEffect p f s) ∧ s.raised (flitEffect p f s) E.FAB_REPLAY p ∧
    (flitEffect p f s).out = s.out ++ [Out.replay p f.ack (s.resent p f)] ∧
    (flitEffect p f s).rd R.FAB_TX_FLITS_TX p = (s.rd R.FAB_TX_FLITS_TX p + (s.resent p f).length) % 2 ^ 64 ∧
    ((flitEffect p f s).port p).replays = if (s.port p).acked = f.ack then (s.port p).replays + 1 else 1 := by
  rw [flitEffect_good w hp hg, heardAck_nak hn (by rw [takeFlit_port w wp]; exact hr), takeFlit_port w wp, takeFlit_resent w wp]
  have hv : s.Frame [] (fkey R.FAB_RX_FLITS_RX p 0 0 :: fecKeys p)
      (s.ackFlit p f (acks { s.port p with rxNext := ((s.port p).rxNext + 1) % 65536 } f)) := ackFlit_frame w
  refine ⟨tookFlit_of_ackFlit w wp rfl rfl replayFlits_frame replayFlits_fab, ?_, ?_, ?_, ?_⟩
  · exact then_raised hv (replayFlits_raised (hv.rising w)) rfl (fkey_not_mem_takeKeys (by decide) (by decide) (by decide))
  · exact replayFlits_out.trans (congrArg (· ++ _) (ackFlit_out w))
  · refine (rd_replayFlits (hv.rising w)).trans ?_
    rw [hv.rd rfl (fkey_not_mem_takeKeys (by decide) (by decide) (by decide))]
  · rw [State.port, replayFlits_fab]
    exact (congrArg PortSt.replays (port_setPort (takeFlit_rising w wp) ..)).trans (by simp only [acks, hn, b2n, if_true])

/-- An accepted NAK for a flit that was replayed eight times takes the port DOWN. -/
theorem flit_down (w : mrising s.regs = true) (wp : mrising s.fab.ports = true) (hp : 2 ≤ s.portState p)
    (hg : s.goodFlit p f) (hn : f.nak = true)
    (ha : (s.port p).acked = f.ack) (hr : 8 ≤ (s.port p).replays) :
    s.raised (flitEffect p f s) E.FAB_LINK_DOWN p ∧ (flitEffect p f s).portState p = 0 := by
  have hu := takeFlit_frame (p := p) (f := f) w
  rw [flitEffect_good w hp hg, heardAck_down hn (by rw [takeFlit_port w wp]; exact ha) (by rw [takeFlit_port w wp]; exact hr)]
  have hr := raised_then (raised_raise (hu.rising w) (e := E.FAB_LINK_DOWN) (by decide) (i := p) (args := []) (k := 0))
    (portDown_frame _ p) (by decide) (by decide) (by simp) (by simp)
  exact ⟨then_raised hu hr rfl (fkey_not_mem_takeKeys (by decide) (by decide) (by decide)),
    portState_portDown (mrising_raise (hu.rising w) ..) p⟩

end Sys2Proof.Machine.State
end

section
namespace Sys2Proof.Machine.State
variable {s : State} {l q : Nat}

/-! ### Lane tests -/

/-- Tests of lanes begin. -/
def addTests (s : State) (ts : List LaneTest) : State := { s with fab := { s.fab with tests := s.fab.tests ++ ts } }

/-- A lane is tested against the lowest free spare. -/
theorem startTest_borrow {r : List Nat} (hf : s.freeLanes (laneDie l) = q :: r) :
    s.startTest l = (((s.addTests [⟨l, s.layout.lane l, q, false⟩]).laneMap l q true).wr R.LANE_STATUS_STATE 3 l).wr
      R.LANE_STATUS_BORROWED 1 l := by
  unfold State.startTest
  rw [hf]
  rfl

/-- With no spare free the test of a lane is skipped. -/
theorem startTest_skipped (w : mrising s.regs = true) (hf : s.freeLanes (laneDie l) = []) :
    s.raised (s.startTest l) E.LANE_TEST_SKIP l ∧
      s.startTest l = { s with regs := (s.startTest l).regs, log := (s.startTest l).log } := by
  have hskip : s.startTest l = s.raise E.LANE_TEST_SKIP l := by
    unfold State.startTest
    rw [hf]
  rw [hskip]
  exact ⟨raised_raise w (by decide), raise_only ..⟩

/-- The keys that a test of a lane writes as it begins. -/
def testKeys (l : Nat) : List Nat := fkey R.LANE_STATUS_STATE l 0 0 :: fkey R.LANE_STATUS_BORROWED l 0 0 :: txKeys

theorem startTest_link (hl : l < 192) {r : List Nat} (hf : s.freeLanes (laneDie l) = q :: r) :
    (s.addTests [⟨l, s.layout.lane l, q, false⟩]).Link [] (testKeys l) (s.startTest l) := by
  have hport : fkey R.FAB_TX_FLITS_TX (l / 8) 0 0 ∈ testKeys l :=
    List.mem_cons_of_mem _ (List.mem_cons_of_mem _ (List.mem_map.2 ⟨_, List.mem_range.2 (by omega), rfl⟩))
  rw [startTest_borrow hf]
  exact (((Link.refl _).laneMap (.inr hport)).wr (.inr (List.mem_cons_self ..))).wr
    (.inr (List.mem_cons_of_mem _ (List.mem_cons_self ..)))

/-- What the beginning of a test of a lane comes to (R348). -/
theorem startTest_begun (w : mrising s.regs = true) (hl : l < 192) {r : List Nat} (hf : s.freeLanes (laneDie l) = q :: r) :
    (s.startTest l).fab.tests = s.fab.tests ++ [⟨l, s.layout.lane l, q, false⟩] ∧
    (s.startTest l).rd R.LANE_STATUS_STATE l = 3 ∧ (s.startTest l).on R.LANE_STATUS_BORROWED l = true ∧
    (s.startTest l).layout = s.layout ∧ s.regsBut (s.startTest l) (testKeys l) := by
  have h := startTest_link hl hf
  have hmap : mrising ((s.addTests [⟨l, s.layout.lane l, q, false⟩]).laneMap l q true).regs = true :=
    (Link.laneMap (fs := [R.FAB_TX_FLITS_TX]) (ns := []) (Link.refl _) (.inl (List.mem_singleton_self _))).rising w
  refine ⟨h.tests, ?_, ?_, h.layout, fun _ _ _ _ hn => (h.rd rfl hn)⟩
  · rw [startTest_borrow hf, rd_wr_ne _ _ _ (Fld.fkey_ne (by decide))]
    exact rd_wr_self hmap ..
  · rw [startTest_borrow hf, State.on, rd_wr_self (mrising_wr hmap ..)]
    rfl

/-- The interval test has come to a lane, in a pass that began in a bar. -/
def takeTurn (s : State) (l b : Nat) : State := { s with fab := { s.fab with nextLane := l + 1, passBar := some b } }

theorem intervalTestEffect_eq {b : Nat} (hen : s.on R.FAB_BERT_CFG_EN = true) (hn : s.nextTest = some (l, b)) :
    intervalTestEffect s = (s.takeTurn l b).startTest l := by
  unfold intervalTestEffect
  rw [hen, hn]
  rfl

theorem testFrom_lt {n : Nat} (h : s.testFrom n = some l) : l < 192 := List.mem_range.1 (List.mem_of_find?_eq_some h)

theorem nextTest_lt {b : Nat} (h : s.nextTest = some (l, b)) : l < 192 := by
  unfold State.nextTest at h
  split at h
  · rename_i hfrom
    cases h
    exact testFrom_lt hfrom
  · split at h
    · obtain ⟨m, hm, he⟩ := Option.map_eq_some_iff.1 h
      cases he
      exact testFrom_lt hm
    · cases h

/-- The interval test of the next lane of its pass (R348). -/
theorem intervalTest_begun {b : Nat} {r : List Nat} (hen : s.on R.FAB_BERT_CFG_EN = true) (hn : s.nextTest = some (l, b))
    (hf : s.freeLanes (laneDie l) = q :: r) :
    (intervalTestEffect s).fab.tests = s.fab.tests ++ [⟨l, s.layout.lane l, q, false⟩] ∧
    (intervalTestEffect s).fab.nextLane = l + 1 ∧ (intervalTestEffect s).fab.passBar = some b := by
  have h := startTest_link (s := s.takeTurn l b) (nextTest_lt hn) hf
  rw [intervalTestEffect_eq hen hn]
  exact ⟨h.tests, h.turn⟩

theorem intervalTest_off (hen : s.on R.FAB_BERT_CFG_EN = false) : intervalTestEffect s = s := by
  unfold intervalTestEffect
  rw [hen]

theorem intervalTest_none (hn : s.nextTest = none) : intervalTestEffect s = s := by
  unfold intervalTestEffect
  rw [hn]
  split
  · rename_i h
    cases h
  · rfl

/-! ### Installation tests -/

theorem crossed_link (s : State) (p : Nat) : s.Link [R.FAB_STATUS_SWAP_WITH] [] (s.crossed p) := by
  unfold State.crossed
  dsimp only
  split
  · split
    · exact .refl s
    · exact (((Link.refl s).wr (.inl (List.mem_singleton_self _))).wr (.inl (List.mem_singleton_self _))).logAs
  · exact .refl s

/-- An installation test holds a port that is out of service (R316, R348). -/
theorem bert_begun {p : Nat} (w : mrising s.regs = true) (wp : mrising s.fab.ports = true) (hs : s.inService p = false)
    (hb : (s.port p).bert = false) (hl : (lanesOf p).filter (s.avail 0x31) ≠ []) :
    (bertEffect p s).portState p = 5 ∧ ((bertEffect p s).port p).bert = true ∧
    (bertEffect p s).fab.tests = s.fab.tests ++
      ((lanesOf p).filter (s.avail 0x31)).map (fun l => ⟨l, s.layout.lane l, 0xFFFF, true⟩) := by
  let a := (s.addTests (((lanesOf p).filter (s.avail 0x31)).map fun l => ⟨l, s.layout.lane l, 0xFFFF, true⟩)).setPort p
    { s.port p with bert := true }
  have hset : a.Link (R.LANE_STATUS_STATE :: moveFields) [] (a.setLanes p 3) := (Link.refl a).setLanes (by decide)
  have hmove := hset.trans (Link.moveTo (p := p) (st := 5) (Link.refl _)).mono
  have hall := hmove.trans (crossed_link _ p).mono
  have heff : bertEffect p s = ((a.setLanes p 3).moveTo p 5).crossed p := by
    unfold bertEffect
    dsimp only
    exact if_neg (by simp [hs, hb, hl])
  rw [heff]
  refine ⟨?_, ?_, hall.tests⟩
  · exact ((crossed_link _ p).rd (by decide) (by simp)).trans (portState_moveTo (hset.rising w) p (by decide))
  · rw [(hall.ports (mrising_setPort wp ..)).2 p]
    exact congrArg PortSt.bert (port_setPort wp ..)

end Sys2Proof.Machine.State
end

section
namespace Sys2Proof.Machine.State
variable {s t u : State} {fs : List Fld} {ns : List Nat} {x : LaneTest}

/-! ### The end of a lane test -/

/-- What ends of tests write, but for the latched result. -/
def endFields : List Fld :=
  E.LANE_TEST_FAIL.fields ++ E.FAB_BERT_FAIL.fields ++ E.HEALTH_RETIRED.fields ++
    [R.LANE_STATUS_STATE, R.LANE_STATUS_BORROWED] ++ moveFields

theorem noteTest_link (s : State) (l errors : Nat) :
    s.Link [R.LANE_BER_ERRORS, R.LANE_BER_PASS, R.LANE_BER_STAMP_STAMP] [] (s.noteTest l errors) :=
  (((Link.refl s).wr (.inl (by decide))).wr (.inl (by decide))).wr (.inl (by decide))

/-- The result of a test is latched (R348). -/
theorem noteTest_result (w : mrising s.regs = true) (l errors : Nat) :
    (s.noteTest l errors).rd R.LANE_BER_ERRORS l = min errors 0xFFFFFFFF ∧
    (s.noteTest l errors).rd R.LANE_BER_PASS l = b2n (decide (errors ≤ 2 ^ 20)) := by
  have w1 := mrising_wr w R.LANE_BER_ERRORS (min errors 0xFFFFFFFF) l 0 0
  have hpass : b2n (decide (errors ≤ 2 ^ 20)) < 2 := by
    unfold b2n
    split <;> decide
  unfold State.noteTest
  constructor
  · rw [rd_wr_ne _ _ _ (Fld.fkey_ne (by decide)), rd_wr_ne _ _ _ (Fld.fkey_ne (by decide)), rd_wr_self w]
    exact Nat.mod_eq_of_lt (by show min errors 0xFFFFFFFF < 2 ^ 32; omega)
  · rw [rd_wr_ne _ _ _ (Fld.fkey_ne (by decide)), rd_wr_self w1]
    exact Nat.mod_eq_of_lt hpass

/-- A test is no longer under way. -/
def dropTest (s : State) (x : LaneTest) : State :=
  { s with fab := { s.fab with tests := s.fab.tests.filter (fun y => y.lane ≠ x.lane) } }

theorem endTest_eq (s : State) (x : LaneTest) :
    s.endTest x =
      ((s.dropTest x).wr R.LANE_STATUS_STATE (if x.install then 0 else 2) x.lane).wr R.LANE_STATUS_BORROWED 0 x.lane := rfl

theorem endTest_frame (s : State) (x : LaneTest) (hs : R.LANE_STATUS_STATE ∈ fs) (hb : R.LANE_STATUS_BORROWED ∈ fs) :
    s.Frame fs ns (s.endTest x) :=
  (Frame.trans (t := s.dropTest x) .others (.wr (.inl hs))).trans (.wr (.inl hb))

/-- The end of the only test under way. -/
theorem endTest_tests (h : s.fab.tests = [x]) : (s.endTest x).fab.tests = [] := by
  have hdrop : (s.endTest x).fab.tests = s.fab.tests.filter (fun y => y.lane ≠ x.lane) := rfl
  rw [hdrop, h]
  simp

theorem endTest_lane (w : mrising s.regs = true) (x : LaneTest) :
    (s.endTest x).rd R.LANE_STATUS_STATE x.lane = (if x.install then 0 else 2) ∧
    (s.endTest x).on R.LANE_STATUS_BORROWED x.lane = false := by
  have wd : mrising (s.dropTest x).regs = true := w
  rw [endTest_eq]
  constructor
  · rw [rd_wr_ne _ _ _ (Fld.fkey_ne (by decide)), rd_wr_self wd]
    split <;> rfl
  · rw [State.on, rd_wr_self (mrising_wr wd ..)]
    rfl

/-- A lane that passed the interval test is back in service, and its spare is free. -/
theorem endInterval_passed (w : mrising s.regs = true) (h : s.fab.tests = [x]) (hx : x.install = false) :
    s.Frame endFields [] (s.endInterval x true) ∧ (s.endInterval x true).fab.tests = [] ∧
    (s.endInterval x true).rd R.LANE_STATUS_STATE x.lane = 2 ∧ (s.endInterval x true).on R.LANE_STATUS_BORROWED x.lane = false ∧
    (s.endInterval x true).layout = s.layout := by
  have hmap : s.Link endFields [] (s.laneMap x.lane x.spare false) := (Link.refl s).laneMap (.inl (by decide))
  obtain ⟨hst, hbor⟩ := endTest_lane (hmap.rising w) x
  rw [hx] at hst
  exact ⟨hmap.toFrame.trans (endTest_frame _ x (by decide) (by decide)), endTest_tests (hmap.tests.trans h), hst, hbor,
    hmap.layout⟩

/-- The retirement of a lane whose test is the only one under way ends that test, and the spare stays. -/
theorem retireLane_own_test (h : s.fab.tests = [x]) (hx : x.install = false) :
    s.Frame (E.HEALTH_RETIRED.fields ++ [R.LANE_STATUS_STATE, R.LANE_STATUS_BORROWED]) [] (s.retireLane x.lane) ∧
    (s.retireLane x.lane).fab.tests = [] ∧ (s.retireLane x.lane).layout.lane x.lane = x.spare := by
  have hfind : s.fab.tests.find? (fun t => !t.install && t.lane = x.lane) = some x := by simp [h, hx]
  have hone : (s.retireBehind x.lane).fab.tests = [x] := by rw [retireBehind_fab, h]
  rw [retireLane_tested hfind]
  exact ⟨((retireBehind_frame s x.lane (by decide)).trans (endTest_frame _ x (by decide) (by decide))).trans (putLane_frame ..),
    by rw [putLane_fab, endTest_tests hone], by rw [putLane_layout, Layout.lane_mapLane_self]⟩

theorem endInterval_false (s : State) (x : LaneTest) :
    s.endInterval x false = (s.raise E.LANE_TEST_FAIL x.lane).retireLane x.lane := rfl

/-- A lane that failed the interval test is replaced by the spare that stood in. -/
theorem endInterval_failed (w : mrising s.regs = true) (h : s.fab.tests = [x]) (hx : x.install = false) :
    s.Frame endFields [] (s.endInterval x false) ∧ (s.endInterval x false).fab.tests = [] ∧
    s.raised (s.endInterval x false) E.LANE_TEST_FAIL x.lane ∧ (s.endInterval x false).layout.lane x.lane = x.spare := by
  have hu : s.Link endFields [] (s.raise E.LANE_TEST_FAIL x.lane) := (Link.refl s).raise (by decide)
  obtain ⟨hframe, hnone, hlane⟩ := retireLane_own_test (hu.tests.trans h) hx
  rw [endInterval_false]
  exact ⟨hu.toFrame.trans hframe.mono, hnone,
    raised_then (raised_raise w (by decide)) hframe (by decide) (by decide) (by simp) (by simp), hlane⟩

/-- A port whose lanes are ready for CHECK, but for its move. -/
def readyCheck (s : State) (p : Nat) : State :=
  (s.setPort p { s.port p with since := s.tempo.now / 1024, bert := false }).setLanes p 2

theorem readyCheck_link (s : State) (p : Nat) :
    (s.setPort p { s.port p with since := s.tempo.now / 1024, bert := false }).Link [R.LANE_STATUS_STATE] [] (s.readyCheck p) :=
  (Link.refl _).setLanes (List.mem_singleton_self _)

theorem enterCheck_eq (s : State) (p : Nat) : s.enterCheck p = (s.readyCheck p).moveTo p 2 := rfl

/-- What the entry into CHECK comes to (R316). -/
theorem enterCheck_checks (w : mrising s.regs = true) (p : Nat) :
    s.Frame endFields [] (s.enterCheck p) ∧ (s.enterCheck p).fab.tests = s.fab.tests ∧ (s.enterCheck p).portState p = 2 := by
  have hready := readyCheck_link s p
  have hmove : (s.readyCheck p).Link moveFields [] ((s.readyCheck p).moveTo p 2) := (Link.refl _).moveTo
  rw [enterCheck_eq]
  exact ⟨((setPort_frame s p _).trans hready.toFrame.mono).trans hmove.toFrame.mono, hmove.tests.trans hready.tests,
    portState_moveTo (hready.rising w) p (by decide)⟩

theorem retireLane_untested_frame (h : s.fab.tests = []) (l : Nat) :
    s.Frame endFields [] (s.retireLane l) ∧ (s.retireLane l).fab.tests = [] := by
  have hput : ∀ q, s.Frame endFields [] ((s.retireBehind l).putLane l q) := fun q =>
    (retireBehind_frame s l (by decide)).trans (putLane_frame ..)
  have htests : (s.retireBehind l).fab.tests = [] := by rw [retireBehind_fab, h]
  rw [retireLane_untested h]
  split
  case h_1 q r hf =>
    have hmap : ((s.retireBehind l).putLane l q).Link endFields [] (((s.retireBehind l).putLane l q).laneMap l q true) :=
      (Link.refl _).laneMap (.inl (by decide))
    exact ⟨(hput q).trans hmap.toFrame, hmap.tests.trans htests⟩
  case h_2 => exact ⟨(hput 0xFFFF).trans (.wr (.inl (by decide))), htests⟩

/-- What the end of the only installation test under way leaves before the port goes to CHECK. -/
def judged (s : State) (x : LaneTest) (pass : Bool) : State :=
  if pass then s.endTest x
  else (((s.endTest x).raise E.LANE_TEST_FAIL x.lane).raise E.FAB_BERT_FAIL (x.lane / 8)).retireLane x.lane

theorem judged_frame (h : s.fab.tests = [x]) (pass : Bool) :
    s.Frame endFields [] (s.judged x pass) ∧ (s.judged x pass).fab.tests = [] := by
  have hend := endTest_frame (fs := endFields) (ns := []) s x (by decide) (by decide)
  unfold judged
  cases pass with
  | true => exact ⟨hend, endTest_tests h⟩
  | false =>
    have hraise : (s.endTest x).Link endFields []
        (((s.endTest x).raise E.LANE_TEST_FAIL x.lane).raise E.FAB_BERT_FAIL (x.lane / 8)) :=
      ((Link.refl _).raise (by decide)).raise (by decide)
    obtain ⟨hframe, hnone⟩ := retireLane_untested_frame (hraise.tests.trans (endTest_tests h)) x.lane
    exact ⟨(hend.trans hraise.toFrame).trans hframe, hnone⟩

/-- The last installation test of a port sends it to CHECK. -/
theorem endInstall_last (w : mrising s.regs = true) (h : s.fab.tests = [x]) (pass : Bool) :
    s.Frame endFields [] (s.endInstall x pass) ∧ (s.endInstall x pass).fab.tests = [] ∧
    (s.endInstall x pass).portState (x.lane / 8) = 2 := by
  obtain ⟨hframe, hnone⟩ := judged_frame h pass
  have hno : (s.judged x pass).fab.tests.any (fun y => y.install && decide (y.lane / 8 = x.lane / 8)) ≠ true := by simp [hnone]
  have hlast : s.endInstall x pass = (s.judged x pass).enterCheck (x.lane / 8) := if_neg hno
  obtain ⟨hcheck, htests, hst⟩ := enterCheck_checks (hframe.rising w) (x.lane / 8)
  rw [hlast]
  exact ⟨hframe.trans hcheck, htests.trans hnone, hst⟩

/-- What the end of a bit-error run latches, whatever follows it. -/
theorem latched_result (w : mrising s.regs = true) {l errors : Nat} (h : (s.noteTest l errors).Frame endFields [] t) :
    t.rd R.LANE_BER_ERRORS l = min errors 0xFFFFFFFF ∧ t.on R.LANE_BER_PASS l = decide (errors ≤ 2 ^ 20) := by
  obtain ⟨herr, hpass⟩ := noteTest_result w l errors
  refine ⟨(h.rd (by decide) (by simp)).trans herr, ?_⟩
  rw [State.on, h.rd (by decide) (by simp), hpass]
  cases decide (errors ≤ 2 ^ 20) <;> rfl

/-- The end of the only test under way (R316, R348). -/
theorem bertRunEnd_only (w : mrising s.regs = true) {errors : Nat} (h : s.fab.tests = [x]) :
    (bertRunEndEffect x.lane errors s).rd R.LANE_BER_ERRORS x.lane = min errors 0xFFFFFFFF ∧
    (bertRunEndEffect x.lane errors s).on R.LANE_BER_PASS x.lane = decide (errors ≤ 2 ^ 20) ∧
    (bertRunEndEffect x.lane errors s).fab.tests = [] ∧
    (x.install = false → errors ≤ 2 ^ 20 → (bertRunEndEffect x.lane errors s).rd R.LANE_STATUS_STATE x.lane = 2 ∧
      (bertRunEndEffect x.lane errors s).on R.LANE_STATUS_BORROWED x.lane = false ∧
      (bertRunEndEffect x.lane errors s).layout = s.layout) ∧
    (x.install = false → 2 ^ 20 < errors → s.raised (bertRunEndEffect x.lane errors s) E.LANE_TEST_FAIL x.lane ∧
      (bertRunEndEffect x.lane errors s).layout.lane x.lane = x.spare) ∧
    (x.install = true → errors ≤ 2 ^ 20 → (bertRunEndEffect x.lane errors s).portState (x.lane / 8) = 2) := by
  have hnote := noteTest_link s x.lane errors
  have wn := hnote.rising w
  have hone := hnote.tests.trans h
  have heff : bertRunEndEffect x.lane errors s =
      if x.install then (s.noteTest x.lane errors).endInstall x (decide (errors ≤ 2 ^ 20))
      else (s.noteTest x.lane errors).endInterval x (decide (errors ≤ 2 ^ 20)) := by
    unfold bertRunEndEffect
    rw [h]
    simp
  rw [heff]
  cases hi : x.install with
  | true =>
    obtain ⟨hframe, hnone, hst⟩ := endInstall_last wn hone (decide (errors ≤ 2 ^ 20))
    obtain ⟨herr, hpass⟩ := latched_result w hframe
    exact ⟨herr, hpass, hnone, nofun, nofun, fun _ _ => hst⟩
  | false =>
    by_cases hle : errors ≤ 2 ^ 20
    · obtain ⟨hframe, hnone, hst, hbor, hlay⟩ := endInterval_passed wn hone hi
      obtain ⟨herr, hpass⟩ := latched_result w hframe
      rw [decide_eq_true hle] at hpass ⊢
      exact ⟨herr, hpass, hnone, fun _ _ => ⟨hst, hbor, hlay.trans hnote.layout⟩,
        fun _ hlt => absurd hle (Nat.not_le.2 hlt), nofun⟩
    · obtain ⟨hframe, hnone, hra, hlane⟩ := endInterval_failed wn hone hi
      obtain ⟨herr, hpass⟩ := latched_result w hframe
      rw [decide_eq_false hle] at hpass ⊢
      exact ⟨herr, hpass, hnone, fun _ h => absurd h hle,
        fun _ _ => ⟨then_raised hnote.toFrame hra (by decide) (by simp), hlane⟩, nofun⟩

end Sys2Proof.Machine.State
end

section
namespace Sys2Proof.Machine
open State

/-- Settles O38, part by part: the loss of a lane, flits, and bit-error tests. -/
theorem lanesAndFlits : Obligations.LanesAndFlits := by
  refine ⟨?_, ?_, ?_⟩
  · intro l c n s hwf hp hw ht _ lost
    have w := (rising_of_wf hwf).1
    have ha : s.avail 0x31 l = true := ((Bool.and_eq_true ..).mp hw).1
    exact ⟨fun hc => congrArg Host.Outcome.next (if_neg fun h => by simp [hc] at h),
      fun hc => ⟨_, rfl, laneLostEffect_out w hp hw ht hc⟩, ⟨_, rfl, laneRetireEffect_out w hp ha ht⟩,
      fun hn => congrArg Host.Outcome.next (if_neg fun h => Nat.not_lt.2 hn h.2.2),
      fun hn => ⟨_, rfl, corrHighEffect_out w hp hw ht hn⟩⟩
  · intro p f s hwf hp x good mine counted fec taken
    obtain ⟨w, wp⟩ := rising_of_wf hwf
    exact ⟨fun hg => ⟨_, rfl, flit_discarded w hp hg⟩, fun hg hn => ⟨_, rfl, flit_acknowledged w wp hp hg hn⟩,
      fun hg hn hr => ⟨_, rfl, flit_replayed w wp hp hg hn hr⟩, fun hg hn ha hr => ⟨_, rfl, flit_down w wp hp hg hn ha hr⟩⟩
  · intro s hwf
    obtain ⟨w, wp⟩ := rising_of_wf hwf
    refine ⟨fun l hl => ⟨fun q r hf => ⟨_, congrArg Host.Outcome.next (if_pos hl), startTest_begun w l.isLt hf⟩,
        fun hf => ⟨_, congrArg Host.Outcome.next (if_pos hl), startTest_skipped w hf⟩⟩,
      fun l hl => congrArg Host.Outcome.next (if_neg (by simp [hl])),
      fun hen => congrArg Host.Outcome.next (intervalTest_off hen),
      fun hn => congrArg Host.Outcome.next (intervalTest_none hn),
      fun l b q r hen hn hf => ⟨_, rfl, intervalTest_begun hen hn hf⟩,
      fun p hs hb hl => ⟨_, rfl, bert_begun w wp hs hb hl⟩,
      fun l errors x hx hl => ⟨_, rfl, ?_⟩⟩
    rw [← hl]
    exact bertRunEnd_only w hx

end Sys2Proof.Machine
end

section
namespace Sys2Proof.Machine
namespace State
variable {s t u : State} {fs : List Fld} {ns : List Nat}

/-! ### Idle steps -/

theorem idleLoop_none (h : s.fab.loop = []) : s.idleLoop = s := by
  unfold idleLoop
  rw [h]

theorem idleLog_none (h : s.log.length ≤ s.logged) : s.idleLog = s := by
  unfold idleLog
  rw [List.getElem?_eq_none h]

theorem idleRebuild_none (h : s.health.rebuild = false) : s.idleRebuild = s := if_neg (by simp [h])

theorem advanceReset_none {p : Nat} (h : s.resets = []) : s.advanceReset p = s := by
  unfold advanceReset
  rw [h, mget_nil]

theorem idleResets_none (h : s.resets = []) : s.idleResets = s := List.foldl_fixed' (fun _ => advanceReset_none h) _

theorem stepBurn_none (h : s.boot.burn = none) : s.stepBurn = s := by
  unfold stepBurn
  rw [h]

theorem endDead_none (h : ∀ o ∈ s.fab.ops, s.lapsed o 0 = false) : s.endDead = s := by
  have hnone : s.fab.ops.filter (s.lapsed · 0) = [] := List.filter_eq_nil_iff.2 fun o ho => by simp [h o ho]
  unfold endDead
  rw [hnone]
  rfl

/-- One tick of a beat, other than tick 900, judges nothing (R51). -/
theorem idleTick_quiet (hen : s.on R.TEMPO_CTL_EN = true) (hlt : s.tempo.now % 1024 < 1023) (hne : s.tempo.now % 1024 ≠ 899) :
    s.idleTick = { s with tempo := { s.tempo with now := s.tempo.now + 1 } } := by
  have hnot : ¬(s.tempo.now + 1) % 1024 = 900 := by omega
  unfold idleTick
  rw [if_pos ⟨hen, hlt⟩]
  exact if_neg fun h => hnot h.2

end State

/-- Settles O1: the step is `exec` on the front command, and with nothing under way every part of an idle step but the tick
changes nothing. -/
theorem stepRunsFront : Obligations.StepRunsFront := by
  refine ⟨fun c rest s hq => ?_, fun s hq hloop hlog hrebuild hresets hburn hdead hen hlt hne => ?_⟩
  · unfold step
    rw [hq]
  · have hidle : step s = .next s.idle := by
      unfold step
      rw [hq]
    rw [hidle, State.idle, State.idleLoop_none hloop, State.idleLog_none hlog, State.idleRebuild_none hrebuild,
      State.idleResets_none hresets,
      State.stepBurn_none hburn, State.endDead_none hdead, State.idleTick_quiet hen hlt hne]

end Sys2Proof.Machine
end

section
namespace Sys2Proof.Machine

/-! ### Tempo inputs -/

theorem beatSymbol_iff (high : Nat) :
    (beatSymbol high = some (some false) ↔ 150 ≤ high ∧ high ≤ 350) ∧
    (beatSymbol high = some none ↔ 400 ≤ high ∧ high ≤ 600) ∧
    (beatSymbol high = some (some true) ↔ 650 ≤ high ∧ high ≤ 850) ∧
    (beatSymbol high = none ↔ high < 150 ∨ (350 < high ∧ high < 400) ∨ (600 < high ∧ high < 650) ∨ 850 < high) := by
  unfold beatSymbol
  split_ifs with hzero hmarker hone <;> simp only [Option.some.injEq, reduceCtorEq, true_iff, false_iff, Bool.false_eq_true,
    Bool.true_eq_false] <;> omega

/-- A beat without a bit ends no good frame (R47). -/
theorem frameStep_invalid (fr : Option (List (Option Bool))) : (frameStep fr none).2.2 = none := by
  cases fr with
  | none => rfl
  | some bs =>
    have hbad : frameGood bs none = false := rfl
    simp only [frameStep, Option.getD_none, hbad, Bool.false_eq_true, if_false]
    split <;> rfl

@[simp] theorem Tempo.inp_setInp (t : Tempo) (b : Bool) (x : TempoIn) : (t.setInp b x).inp b = x := by
  cases b <;> rfl

theorem qualFld_apart_sel (b : Bool) : (qualFld b).apart R.TEMPO_STATUS_SEL = true := by cases b <;> decide

namespace State
variable {s t u : State} {fs : List Fld} {ns : List Nat} {b : Bool} {e : Edge}

/-! ### What Tempo changes -/

/-- Between two states registers, Tempo's record and the fault log alone change. -/
def TempoOnly (s t : State) : Prop := t = { s with regs := t.regs, tempo := t.tempo, log := t.log }

theorem TempoOnly.trans (h : s.TempoOnly t) (g : t.TempoOnly u) : s.TempoOnly u := Eq.trans g (by rw [h])

theorem raise_tempoOnly (s : State) (e : EvFlag) (i : Nat) (args : List Nat) (k : Nat) : s.TempoOnly (s.raise e i args k) := by
  unfold TempoOnly
  rw [raise_tempo]
  exact raise_only s e i args k

/-- Bring an edge and its bit of the frame into an input's record. -/
def takeEdge (s : State) (b : Bool) (e : Edge) (fr : Option (List (Option Bool))) : State :=
  { s with tempo := s.tempo.setInp b { s.tempo.inp b with started := true, seen := true, off := e.off, frame := fr } }

/-- The frame of an input after one more pulse. -/
def frameAfter (s : State) (b : Bool) (e : Edge) : Option (List (Option Bool)) × Bool × Option Nat :=
  frameStep ((s.periodCheck b e).tempo.inp b).frame (beatSymbol e.high)

/-- A beat that ends no good frame is judged, and no more. -/
theorem tempoBeatEffect_midFrame (hen : s.on R.TEMPO_CTL_EN = true) (hmid : (s.frameAfter b e).2.2 = none) :
    tempoBeatEffect b e s =
      (if edgeTimely (s.on R.TEMPO_STATUS_LOCKED) (s.tempo.inp b) e && (beatSymbol e.high).isSome && !(s.frameAfter b e).2.1
        then ((s.periodCheck b e).takeEdge b e (s.frameAfter b e).1).goodBeat b
        else ((s.periodCheck b e).takeEdge b e (s.frameAfter b e).1).badBeat b).skew := by
  unfold frameAfter at hmid ⊢
  unfold tempoBeatEffect
  rw [if_pos hen]
  dsimp only
  rw [hmid]
  rfl

/-- A pulse without a symbol is a bad beat, whatever its edge (R46, R50). -/
theorem tempoBeatEffect_invalid (hen : s.on R.TEMPO_CTL_EN = true) (hsym : beatSymbol e.high = none) :
    tempoBeatEffect b e s = (((s.periodCheck b e).takeEdge b e (s.frameAfter b e).1).badBeat b).skew := by
  have hmid : (s.frameAfter b e).2.2 = none := by
    unfold frameAfter
    rw [hsym]
    exact frameStep_invalid _
  rw [tempoBeatEffect_midFrame hen hmid, if_neg (by simp [hsym])]

@[simp] theorem skew_tempo (s : State) : s.skew.tempo = s.tempo := by
  unfold skew
  split <;> rfl

/-- A bad beat starts the input's run of good beats again (R50). -/
theorem badBeat_good (s : State) (b : Bool) : ((s.badBeat b).tempo.inp b).good = 0 := by
  unfold badBeat
  dsimp only
  split
  · split
    · simp only [raise_tempo, wr_tempo]
      cases b <;> rfl
    · simp
  · simp

end State

/-- Settles O8: the ranges of high times are disjoint, and a pulse outside them is a bad beat. -/
theorem beatSymbols : Obligations.BeatSymbols := by
  refine ⟨beatSymbol_iff, fun b e s hen hsym => ⟨_, rfl, ?_⟩⟩
  rw [State.tempoBeatEffect_invalid hen hsym, State.skew_tempo]
  exact State.badBeat_good ..

end Sys2Proof.Machine
end

section
namespace Sys2Proof.Machine

/-! ### The barrier after a late marker -/

/-- A bar of ten beats whose only member, package 1, stamped its marker in beat 5; the marker came late, and beat 20 is the
first boundary with it. -/
def lateMarkedBar : State :=
  let s := ((State.reset.wr R.TEMPO_CTL_EN 1).wr R.TEMPO_STATUS_COUNT_VALID 1).wr R.TEMPO_BAR_CFG_BAR_LEN 10
  { s with
    tempo := { s.tempo with now := 20 * 1024, barOn := true, lateMark := true, marks := [⟨1, 5 * 1024⟩] }
    roles := { s.roles with ranks := [(0, 2)] } }

theorem exec_barStart (s : State) : exec .barStart s = .next (barStartEffect s) := rfl

/-- START names the boundary at which the bar starts in fact. -/
theorem lateMarkedBar_start : (barStartEffect lateMarkedBar).rd R.TEMPO_BAR_START_START = 20 * 1024 := by decide +kernel

/-- The stamps give the boundary of beat 10. -/
theorem lateMarkedBar_boundary : lateMarkedBar.boundaryFor (lateMarkedBar.tempo.marks.map (·.stamp)) = 10 := by decide +kernel

/-- Refutes O11: after a late marker BAR_START sets START to the boundary at which it starts the bar, and keeps the one that the
stamps give in the base alone. In `lateMarkedBar` START reads beat 20, where the statement asks for beat 10. -/
theorem not_barBarrier : ¬ Obligations.BarBarrier := by
  rintro ⟨h, -⟩
  obtain ⟨-, h⟩ := h lateMarkedBar (by decide +kernel) (by decide +kernel) (by decide +kernel) (by decide +kernel) rfl
    (by decide +kernel)
  obtain ⟨h, -⟩ := h (by decide +kernel) (by decide +kernel)
  have hmarked : ∀ q ∈ lateMarkedBar.members, ∃ m ∈ lateMarkedBar.tempo.marks, m.pkg = q ∧
      m.stamp + lateMarkedBar.tempo.guardEff ≤ lateMarkedBar.tempo.now := by decide +kernel
  obtain ⟨t, ht, -, hstart, -⟩ := h ⟨by decide +kernel, fun q hq _ => hmarked q hq⟩
  rw [exec_barStart] at ht
  cases Host.Outcome.next.inj ht
  rw [lateMarkedBar_start, if_pos (show lateMarkedBar.tempo.lateMark = true from rfl), lateMarkedBar_boundary] at hstart
  exact absurd hstart (by decide)

end Sys2Proof.Machine
end

section
namespace Sys2Proof.Machine
namespace State
variable {s t u : State} {fs : List Fld} {ns : List Nat} {n m : Nat}

/-! ### Kills -/

@[simp] theorem st_wr (s : State) (f : Fld) (v i k j n : Nat) : (s.wr f v i k j).st n = s.st n := rfl

/-- A Set's record after a discard (R85). -/
theorem st_discard (w : mrising s.sets = true) (n : Nat) : (s.discard n).st n = { s.st n with flights := [], passes := [] } := by
  unfold discard
  dsimp only
  rw [st_wr, st_wr, st_setSt w]

theorem st_discard_ne (h : n ≠ m) : (s.discard n).st m = s.st m := by
  unfold discard
  dsimp only
  rw [st_wr, st_wr, st_setSt_ne h]

theorem rising_setSt (w : mrising s.sets = true) (n : Nat) (x : SetSt) : mrising (s.setSt n x).sets = true := by
  unfold setSt mset
  split
  · exact mrising_mdel w
  · exact mrising_mins w

/-- Between two states registers and the records of Sets alone change. -/
def SetsOnly (s t : State) : Prop := t = { s with regs := t.regs, sets := t.sets }

theorem SetsOnly.trans (h : s.SetsOnly t) (g : t.SetsOnly u) : s.SetsOnly u := Eq.trans g (by rw [h])

theorem wr_setsOnly (s : State) (f : Fld) (v i k j : Nat) : s.SetsOnly (s.wr f v i k j) := rfl

theorem setSt_setsOnly (s : State) (n : Nat) (x : SetSt) : s.SetsOnly (s.setSt n x) := rfl

theorem discard_setsOnly (s : State) (n : Nat) : s.SetsOnly (s.discard n) :=
  ((setSt_setsOnly ..).trans (wr_setsOnly ..)).trans (wr_setsOnly ..)

/-- A kill changes registers and the records of Sets alone. -/
theorem kill_setsOnly (s : State) (n : Nat) : s.SetsOnly (s.kill n) :=
  ((discard_setsOnly s n).trans (setSt_setsOnly ..)).trans (wr_setsOnly ..)

/-- A discarded Set's record as a kill from STATE `was` leaves it (R85, R101). -/
def killedSt (s : State) (was n : Nat) : SetSt :=
  let x := s.st n
  let y := if was = 2 ∨ was = 3 then { x with halted := some was, haltBar := s.bar } else x
  { y with repair := [], why := if was = 5 then y.why else .kill }

theorem kill_eq (s : State) (n : Nat) :
    s.kill n = ((s.discard n).setSt n ((s.discard n).killedSt (s.setState n) n)).wr R.SCHED_STATUS_STATE 5 n := rfl

theorem killedSt_same (s : State) (was n : Nat) :
    (s.killedSt was n).flights = (s.st n).flights ∧ (s.killedSt was n).sbHeld = (s.st n).sbHeld := by
  unfold killedSt
  split <;> exact ⟨rfl, rfl⟩

theorem killedSt_halted {was : Nat} (h : was = 2 ∨ was = 3) (s : State) (n : Nat) : (s.killedSt was n).halted = some was := by
  simp only [killedSt, if_pos h]

theorem st_kill (w : mrising s.sets = true) (n : Nat) : (s.kill n).st n = (s.discard n).killedSt (s.setState n) n := by
  have wd : mrising (s.discard n).sets = true := rising_setSt w n _
  rw [kill_eq, st_wr, st_setSt wd]

/-- Nothing is in flight after a kill, and the tokens of committed commands stay (R85). -/
theorem st_kill_drops (w : mrising s.sets = true) (n : Nat) :
    ((s.kill n).st n).flights = [] ∧ ((s.kill n).st n).sbHeld = (s.st n).sbHeld := by
  obtain ⟨hf, hb⟩ := killedSt_same (s.discard n) (s.setState n) n
  rw [st_discard w] at hf hb
  rw [st_kill w]
  exact ⟨hf, hb⟩

theorem st_kill_ne (h : n ≠ m) : (s.kill n).st m = s.st m := by
  rw [kill_eq, st_wr, st_setSt_ne h, st_discard_ne h]

/-- A kill writes STATE, ISSUE_IDX and SB of its Set. -/
def killKeys (n : Nat) : List Nat :=
  [fkey R.SCHED_STATUS_STATE n 0 0, fkey R.SCHED_STATUS_ISSUE_IDX n 0 0, fkey R.SCHED_SB_SB n 0 0]

theorem discard_frame (s : State) (n : Nat) : s.Frame [] (killKeys n) (s.discard n) :=
  (Frame.trans (t := s.setSt n { s.st n with flights := [], passes := [] }) .others (.wr (.inr (by simp [killKeys])))).trans
    (.wr (.inr (by simp [killKeys])))

theorem kill_frame (s : State) (n : Nat) : s.Frame [] (killKeys n) (s.kill n) :=
  ((discard_frame s n).trans .others).trans (.wr (.inr (by simp [killKeys])))

theorem setState_kill (w : mrising s.regs = true) (n : Nat) : (s.kill n).setState n = 5 :=
  rd_wr_self ((discard_frame s n).rising w) ..

/-- The registers of a kill, STATE apart, are those of the discard. -/
theorem rd_kill {f : Fld} (h : R.SCHED_STATUS_STATE.apart f = true) {i k j : Nat} :
    (s.kill n).rd f i k j = (s.discard n).rd f i k j := rd_wr_ne _ _ _ (Fld.fkey_ne h)

/-- The issue point returns to the oldest uncommitted command (R85). -/
theorem issueIdx_kill (w : mrising s.regs = true) (n : Nat) :
    (s.kill n).rd R.SCHED_STATUS_ISSUE_IDX n = s.rd R.SCHED_STATUS_COMMIT_IDX n := by
  have hself : (s.discard n).rd R.SCHED_STATUS_ISSUE_IDX n =
      s.rd R.SCHED_STATUS_COMMIT_IDX n % 2 ^ R.SCHED_STATUS_ISSUE_IDX.wid := by
    unfold discard
    dsimp only
    rw [rd_wr_ne _ _ _ (Fld.fkey_ne (by decide))]
    exact rd_wr_self w ..
  rw [rd_kill (by decide), hself]
  exact Nat.mod_eq_of_lt (rd_lt s R.SCHED_STATUS_COMMIT_IDX n 0 0)

/-- Tokens that no committed command has set clear (R85). -/
theorem sb_kill (w : mrising s.regs = true) (n : Nat) :
    (s.kill n).rd R.SCHED_SB_SB n = s.rd R.SCHED_SB_SB n &&& (s.st n).sbHeld := by
  have hself : (s.discard n).rd R.SCHED_SB_SB n = (s.rd R.SCHED_SB_SB n &&& (s.st n).sbHeld) % 2 ^ R.SCHED_SB_SB.wid := by
    unfold discard
    dsimp only
    rw [rd_wr_self (mrising_wr (by exact w) ..), rd_setSt]
  rw [rd_kill (by decide), hself]
  exact Nat.mod_eq_of_lt (Nat.lt_of_le_of_lt Nat.and_le_left (rd_lt s R.SCHED_SB_SB n 0 0))

/-! ### Control of a Set -/

theorem rising_sets (h : s.wf = true) : mrising s.sets = true := ((mwf_iff _ _).1 ((wf_iff s).1 h).sets).1

/-- EN and ARMED, where a Set may be armed (R101, R103). -/
theorem schedEnable_arms {set : Nat} (ho : (s.ownerOf set).isSome = true) (hi : s.setState set = 0)
    (hs : s.stranded = false) (hl : s.rd R.SCHED_STREAM_LEN_LEN set ≠ 0) :
    schedEnableEffect set true s = (s.wr R.SCHED_CTL_EN 1 set).wr R.SCHED_STATUS_STATE 1 set := by
  have hstate : (s.wr R.SCHED_CTL_EN 1 set).setState set = s.setState set := rd_wr_ne _ _ _ (Fld.fkey_ne (by decide))
  have hlen : (s.wr R.SCHED_CTL_EN 1 set).rd R.SCHED_STREAM_LEN_LEN set = s.rd R.SCHED_STREAM_LEN_LEN set :=
    rd_wr_ne _ _ _ (Fld.fkey_ne (by decide))
  unfold schedEnableEffect
  rw [if_pos rfl, if_pos ho]
  exact if_pos ⟨hstate.trans hi, hs, hlen ▸ hl⟩

/-- EN cleared takes a Set that waits, is done or is halted to IDLE (R101, R103). -/
theorem schedEnable_clears {set : Nat} (h : s.setState set = 1 ∨ s.setState set = 4 ∨ s.setState set = 5) :
    schedEnableEffect set false s =
      ((s.wr R.SCHED_CTL_EN 0 set).setSt set { s.st set with halted := none }).wr R.SCHED_STATUS_STATE 0 set := by
  have hstate : (s.wr R.SCHED_CTL_EN 0 set).setState set = s.setState set := rd_wr_ne _ _ _ (Fld.fkey_ne (by decide))
  unfold schedEnableEffect
  rw [if_neg (by decide)]
  refine if_pos ?_
  rw [hstate]
  omega

/-- RESUME runs on a bar or pass still in progress, and arms otherwise (R101). -/
theorem schedResume_resumes {set : Nat} (h5 : s.setState set = 5) (hne : (s.st set).why ≠ .expiry) :
    schedResumeEffect set false s = (s.setSt set { s.st set with halted := none }).wr R.SCHED_STATUS_STATE
      (if (s.st set).halted ≠ none ∧ (s.timed set = false ∨ (s.st set).haltBar = s.bar) then 2 else 1) set := by
  unfold schedResumeEffect
  rw [if_neg (by decide), if_pos ⟨h5, hne⟩]
  simp only [Option.isSome_iff_ne_none]

/-- EN reads what was written after the STATE that follows it. -/
theorem on_en_then_state (w : mrising s.regs = true) (v st set : Nat) (x : SetSt) :
    (((s.wr R.SCHED_CTL_EN v set).setSt set x).wr R.SCHED_STATUS_STATE st set).on R.SCHED_CTL_EN set = decide (v % 2 = 1) := by
  have hself : (s.wr R.SCHED_CTL_EN v set).rd R.SCHED_CTL_EN set = v % 2 := rd_wr_self w ..
  unfold State.on
  rw [rd_wr_ne _ _ _ (Fld.fkey_ne (by decide)), rd_setSt, hself]

end State

/-- Settles O23, write by write: what each of the three controls does to the Set's registers and record. -/
theorem setControl : Obligations.SetControl := by
  intro set s hwf
  obtain ⟨w, -⟩ := State.rising_of_wf hwf
  have ws := State.rising_sets hwf
  have hstate : ∀ (t : State) (st : Nat), mrising t.regs = true → st < 8 →
      (t.wr R.SCHED_STATUS_STATE st set).setState set = st := fun t st wt hst =>
    (State.rd_wr_self wt ..).trans (Nat.mod_eq_of_lt hst)
  have wen : ∀ v, mrising (s.wr R.SCHED_CTL_EN v set).regs = true := fun v => State.mrising_wr w ..
  refine ⟨fun ho hi hs hl => ⟨_, congrArg Host.Outcome.next (State.schedEnable_arms ho hi hs hl), ?_⟩, fun hnone => ?_,
    fun h => ⟨_, congrArg Host.Outcome.next (State.schedEnable_clears h), ?_⟩,
    fun h => ⟨_, congrArg Host.Outcome.next (if_neg (by omega)), ?_⟩,
    fun h => congrArg Host.Outcome.next (if_pos h), rfl, fun h5 hex => ?_, fun h5 hne =>
    ⟨_, congrArg Host.Outcome.next (State.schedResume_resumes h5 hne), ?_⟩⟩
  · exact ⟨State.on_en_then_state w 1 1 set (s.st set), hstate _ 1 (wen 1) (by decide), rfl⟩
  · exact congrArg Host.Outcome.next ((if_pos rfl).trans (if_neg (by simp [hnone])))
  · exact ⟨State.on_en_then_state w 0 0 set _, hstate _ 0 (wen 0) (by decide), rfl⟩
  · obtain ⟨hflights, hheld⟩ := State.st_kill_drops ws set.val
    refine ⟨State.setState_kill w set, hflights, State.issueIdx_kill w set, State.sb_kill w set, hheld, ?_,
      fun n hn => State.st_kill_ne hn.symm, State.kill_setsOnly s set⟩
    rw [State.st_kill ws]
    exact State.killedSt_halted h _ _
  · exact congrArg Host.Outcome.next ((if_neg (by decide)).trans (if_neg fun h => h.2 hex))
  · refine ⟨?_, ?_, rfl⟩
    · exact hstate _ _ w (by split <;> decide)
    · rw [State.st_wr, State.st_setSt ws]

end Sys2Proof.Machine
end

section
namespace Sys2Proof.Machine
namespace State
variable {s t u : State} {fs : List Fld} {ns : List Nat} {b : Bool} {e : Edge}

/-! ### Writes of registers alone -/

/-- Between two states registers alone change. -/
def RegsOnly (s t : State) : Prop := t = { s with regs := t.regs }

theorem RegsOnly.trans (h : s.RegsOnly t) (g : t.RegsOnly u) : s.RegsOnly u := Eq.trans g (by rw [h])

theorem wr_regsOnly (s : State) (f : Fld) (v i k j : Nat) : s.RegsOnly (s.wr f v i k j) := rfl

theorem clearFields_regsOnly (s : State) (l : List Fld) (i : Nat) : s.RegsOnly (s.clearFields l i) :=
  foldl_keeps (P := s.RegsOnly) (fun _ _ h => h.trans (wr_regsOnly ..)) l s rfl

theorem clearFields_frame (s : State) {l : List Fld} {i : Nat} (h : ∀ f ∈ l, f ∈ fs ∨ fkey f i 0 0 ∈ ns) :
    s.Frame fs ns (s.clearFields l i) := by
  induction l generalizing s with
  | nil => exact .refl s
  | cons f r ih => exact (Frame.wr (h f (List.mem_cons_self ..))).trans (ih _ fun g hg => h g (List.mem_cons_of_mem _ hg))

/-- Fields that stand apart all read their reset values once cleared. -/
theorem rd_clearFields {l : List Fld} {i : Nat} (w : mrising s.regs = true) (h : l.Pairwise (fun f g => g.apart f = true))
    {f : Fld} (hf : f ∈ l) : (s.clearFields l i).rd f i = f.rst % 2 ^ f.wid := by
  induction l generalizing s with
  | nil => cases hf
  | cons g r ih =>
    obtain ⟨hg, hr⟩ := List.pairwise_cons.1 h
    rcases List.mem_cons.1 hf with rfl | hf
    · have hrest : (s.wr f f.rst i).Frame r [] ((s.wr f f.rst i).clearFields r i) := clearFields_frame _ fun _ h => .inl h
      exact (hrest.rd (List.all_eq_true.2 fun g' hg' => hg g' hg') (List.not_mem_nil)).trans (rd_wr_self w ..)
    · exact ih (mrising_wr w ..) hr hf

/-! ### Changes of Tempo's record alone -/

/-- Put another Tempo record in place. -/
def withTempo (s : State) (x : Tempo) : State := { s with tempo := x }

@[simp] theorem withTempo_tempo (s : State) (x : Tempo) : (s.withTempo x).tempo = x := rfl
@[simp] theorem withTempo_rd (s : State) (x : Tempo) (f : Fld) (i k j : Nat) : (s.withTempo x).rd f i k j = s.rd f i k j := rfl
@[simp] theorem withTempo_qual (s : State) (x : Tempo) (b : Bool) : (s.withTempo x).qual b = s.qual b := rfl

theorem withTempo_frame (s : State) (x : Tempo) : s.Frame fs ns (s.withTempo x) := .others

theorem withTempo_tempoOnly (s : State) (x : Tempo) : s.TempoOnly (s.withTempo x) := rfl

theorem withTempo_of_regsOnly (h : s.RegsOnly t) (x : Tempo) :
    t.withTempo x = { s with regs := (t.withTempo x).regs, tempo := (t.withTempo x).tempo } := by
  unfold withTempo
  rw [h]

theorem RegsOnly.of_withTempo {x : Tempo} (h : (s.withTempo x).RegsOnly t) :
    t.log = s.log ∧ t = { s with regs := t.regs, tempo := t.tempo } := by
  rw [h]
  exact ⟨rfl, rfl⟩

theorem RegsOnly.tempoOnly (h : s.RegsOnly t) : s.TempoOnly t := by
  unfold TempoOnly
  rw [h]

/-! ### EN set and cleared -/

theorem tempoCleared_apart : tempoCleared.Pairwise (fun f g => g.apart f = true) := by decide

theorem tempoCleared_reset : ∀ f ∈ tempoCleared, f.rst % 2 ^ f.wid = f.rst := by decide

/-- The registers that clearing EN leaves (R67). -/
def disabledRegs (s : State) : State := (s.wr R.TEMPO_CTL_EN 0).clearFields tempoCleared

theorem disabledRegs_rd (w : mrising s.regs = true) : s.disabledRegs.rd R.TEMPO_CTL_EN = 0 ∧
    ∀ f ∈ tempoCleared, s.disabledRegs.rd f = f.rst := by
  refine ⟨?_, fun f hf => ?_⟩
  · have hclear : (s.wr R.TEMPO_CTL_EN 0).Frame tempoCleared [] s.disabledRegs := clearFields_frame _ fun _ h => .inl h
    have hself : (s.wr R.TEMPO_CTL_EN 0).rd R.TEMPO_CTL_EN = 0 := rd_wr_self w ..
    rw [hclear.rd (by decide) (List.not_mem_nil), hself]
  · exact (rd_clearFields (mrising_wr w ..) tempoCleared_apart hf).trans (tempoCleared_reset f hf)

theorem disabledRegs_frame (s : State) :
    s.Frame [] (fkey R.TEMPO_CTL_EN 0 0 0 :: tempoCleared.map (fun f => fkey f 0 0 0)) s.disabledRegs :=
  Frame.trans (t := s.wr R.TEMPO_CTL_EN 0) (.wr (.inr (List.mem_cons_self ..)))
    (clearFields_frame _ fun _ h => .inr (List.mem_cons_of_mem _ (List.mem_map_of_mem h)))

theorem disabledRegs_regsOnly (s : State) : s.RegsOnly s.disabledRegs := (wr_regsOnly ..).trans (clearFields_regsOnly ..)

/-- Tempo's record from the beginning (R67). -/
def freshRecord (s : State) : Tempo :=
  { Tempo.init with guardEff := s.tempo.guardEff, tmoEff := s.tempo.tmoEff, cycles := s.cyclesFrom 0 }

theorem tempoDisableEffect_eq (s : State) : tempoDisableEffect s = s.disabledRegs.withTempo s.disabledRegs.freshRecord := rfl

theorem tempoEnableEffect_eq (h : s.on R.TEMPO_CTL_EN = false) :
    tempoEnableEffect s = (s.wr R.TEMPO_CTL_EN 1).withTempo (s.wr R.TEMPO_CTL_EN 1).freshRecord := by
  unfold tempoEnableEffect
  rw [h]
  rfl

/-- The stamp of a package whose count is not valid is 0 (R52). -/
theorem stamp_invalid (h : s.rd R.TEMPO_STATUS_COUNT_VALID = 0) : s.stamp = 0 := by
  unfold stamp State.on
  rw [h]
  rfl

/-! ### Qualifying -/

theorem skew_regsOnly (s : State) : s.RegsOnly s.skew := by
  unfold skew
  split <;> rfl

theorem skew_frame (s : State) : s.Frame [R.TEMPO_STATUS_AB_SKEW] [] s.skew := by
  unfold skew
  split
  · exact .wr (.inl (List.mem_singleton_self _))
  · exact .refl s

theorem rd_skew (s : State) {f : Fld} (h : R.TEMPO_STATUS_AB_SKEW.apart f = true) : s.skew.rd f = s.rd f :=
  (skew_frame s).rd (List.all_eq_true.2 fun _ hg => List.mem_singleton.1 hg ▸ h) (List.not_mem_nil)

/-- An input qualifies, is selected, and locks the loop. -/
def lockOn (s : State) (b : Bool) : State :=
  ((s.wr (qualFld b) 1).wr R.TEMPO_STATUS_SEL (selCode b)).wr R.TEMPO_STATUS_LOCKED 1

theorem lockOn_withTempo_regsOnly (s : State) (b : Bool) (x : Tempo) :
    (s.withTempo x).RegsOnly ((s.lockOn b).withTempo x) := rfl

/-- The eighth good beat in a row, with no input selected (R50, R51). -/
theorem goodBeat_eighth (hg : (s.tempo.inp b).good = 7) (hq : s.qual b = false) (hs : s.rd R.TEMPO_STATUS_SEL = 0) :
    ∃ x, s.goodBeat b = (s.lockOn b).withTempo x := by
  have hsel : ∀ x, ((s.withTempo x).wr (qualFld b) 1).rd R.TEMPO_STATUS_SEL = 0 := fun x =>
    (rd_wr_ne _ _ _ (Fld.fkey_ne (qualFld_apart_sel b))).trans hs
  unfold goodBeat
  dsimp only
  rw [if_pos ⟨by rw [hg]; rfl, hq⟩]
  unfold firstSelect
  exact ⟨_, if_pos (hsel _)⟩

/-- An edge within 0.1 % of the period is no step towards PERIOD_FAULT (R50). -/
theorem periodCheck_near (h : e.ppm.natAbs ≤ 1000) :
    s.periodCheck b e = s.withTempo (s.tempo.setInp b { s.tempo.inp b with offRun := 0 }) := by
  have hoff : edgeOffPeriod (s.tempo.inp b) e = false := by simp [edgeOffPeriod, h]
  unfold periodCheck
  dsimp only
  rw [hoff]
  rfl

/-- The eighth good beat in a row of the first input to qualify. -/
theorem tempoBeat_locks {x : Bool} (hen : s.on R.TEMPO_CTL_EN = true) (hl : s.on R.TEMPO_STATUS_LOCKED = false)
    (hs : s.rd R.TEMPO_STATUS_SEL = 0) (hg : (s.tempo.inp b).good = 7) (hf : (s.tempo.inp b).frame = none)
    (hq : s.qual b = false) (hsym : beatSymbol e.high = some (some x)) (hp : e.ppm.natAbs ≤ 1000) :
    ∃ tm, tempoBeatEffect b e s = ((s.lockOn b).withTempo tm).skew := by
  have hframe : s.frameAfter b e = (none, false, none) := by
    unfold frameAfter
    rw [periodCheck_near hp, hsym]
    rw [withTempo_tempo, Tempo.inp_setInp, hf]
    rfl
  have htimely : edgeTimely (s.on R.TEMPO_STATUS_LOCKED) (s.tempo.inp b) e = true := by
    simp [edgeTimely, hl, hp]
  have hgood : (((s.periodCheck b e).takeEdge b e none).tempo.inp b).good = 7 := by
    rw [periodCheck_near hp]
    unfold takeEdge
    dsimp only
    rw [Tempo.inp_setInp, withTempo_tempo, Tempo.inp_setInp, hg]
  have hqual : ((s.periodCheck b e).takeEdge b e none).qual b = false := by rw [periodCheck_near hp]; exact hq
  have hsel : ((s.periodCheck b e).takeEdge b e none).rd R.TEMPO_STATUS_SEL = 0 := by rw [periodCheck_near hp]; exact hs
  obtain ⟨tm, htm⟩ := goodBeat_eighth hgood hqual hsel
  refine ⟨tm, ?_⟩
  rw [tempoBeatEffect_midFrame hen (by rw [hframe]), hframe, if_pos (by simp [htimely, hsym]), htm, periodCheck_near hp]
  rfl

theorem lockOn_rd (w : mrising s.regs = true) (b : Bool) : (s.lockOn b).qual b = true ∧
    (s.lockOn b).rd R.TEMPO_STATUS_SEL = selCode b ∧ (s.lockOn b).on R.TEMPO_STATUS_LOCKED = true := by
  have w1 := mrising_wr w (qualFld b) 1 0 0 0
  have hqual : (s.lockOn b).rd (qualFld b) = 1 % 2 ^ (qualFld b).wid := by
    unfold lockOn
    rw [rd_wr_ne _ _ _ (Fld.fkey_ne (by cases b <;> decide)), rd_wr_ne _ _ _ (Fld.fkey_ne (by cases b <;> decide)), rd_wr_self w]
  have hsel : (s.lockOn b).rd R.TEMPO_STATUS_SEL = selCode b % 2 ^ R.TEMPO_STATUS_SEL.wid := by
    unfold lockOn
    rw [rd_wr_ne _ _ _ (Fld.fkey_ne (by decide)), rd_wr_self w1]
  have hlock : (s.lockOn b).rd R.TEMPO_STATUS_LOCKED = 1 := rd_wr_self (mrising_wr w1 ..) ..
  unfold State.qual State.on
  rw [hqual, hsel, hlock]
  cases b <;> decide

/-! ### Losing the selected input -/

theorem takeEdge_tempoOnly (s : State) (b : Bool) (e : Edge) (fr : Option (List (Option Bool))) :
    s.TempoOnly (s.takeEdge b e fr) := rfl

/-- The period check changes Tempo's record, and may raise PERIOD_FAULT (R50). -/
theorem periodCheck_cases (s : State) (b : Bool) (e : Edge) :
    ∃ x, s.periodCheck b e = s.withTempo x ∨ s.periodCheck b e = (s.withTempo x).raise E.TEMPO_PERIOD_FAULT := by
  unfold periodCheck
  dsimp only
  by_cases h : (if edgeOffPeriod (s.tempo.inp b) e = true then (s.tempo.inp b).offRun + 1 else 0) = 8
  · rw [if_pos h]
    exact ⟨_, .inr rfl⟩
  · rw [if_neg h]
    exact ⟨_, .inl rfl⟩

theorem periodCheck_tempoOnly (s : State) (b : Bool) (e : Edge) : s.TempoOnly (s.periodCheck b e) := by
  obtain ⟨x, h | h⟩ := periodCheck_cases s b e <;> rw [h]
  · exact withTempo_tempoOnly s x
  · exact (withTempo_tempoOnly s x).trans (raise_tempoOnly ..)

theorem periodCheck_frame (s : State) (b : Bool) (e : Edge) : s.Frame E.TEMPO_PERIOD_FAULT.fields [] (s.periodCheck b e) := by
  obtain ⟨x, h | h⟩ := periodCheck_cases s b e <;> rw [h]
  · exact withTempo_frame s x
  · exact (withTempo_frame s x).trans ((Link.refl _).raise (List.Subset.refl _)).toFrame

/-- The loss of the selected input (R50, R53). -/
structure Loses (b : Bool) (s t : State) : Prop where
  unqualified : t.qual b = false
  raised : s.raised t (lostFlag b)
  waits : t.tempo.lost = true
  selected : t.rd R.TEMPO_STATUS_SEL = selCode b
  only : s.TempoOnly t

/-- A bad beat of the selected input, as a chain of writes. -/
theorem badBeat_eq (hq : s.qual b = true) (hs : s.rd R.TEMPO_STATUS_SEL = selCode b) :
    ∃ x y, s.badBeat b = ((((s.withTempo x).wr (qualFld b) 0).raise (lostFlag b)).withTempo y) ∧ y.lost = true := by
  have hsel : ∀ x, (((s.withTempo x).wr (qualFld b) 0).raise (lostFlag b)).rd R.TEMPO_STATUS_SEL = selCode b := fun x => by
    have hraise := ((Link.refl ((s.withTempo x).wr (qualFld b) 0)).raise (e := lostFlag b) (i := 0)
      (args := []) (k := 0) (ns := [])
      (List.Subset.refl _)).toFrame
    rw [hraise.rd (by cases b <;> decide) (List.not_mem_nil),
      rd_wr_ne _ _ _ (Fld.fkey_ne (qualFld_apart_sel b)), withTempo_rd, hs]
  unfold badBeat
  dsimp only
  rw [if_pos (by exact hq)]
  exact ⟨_, _, if_pos (hsel _), rfl⟩

theorem badBeat_loses (w : mrising s.regs = true) (hq : s.qual b = true) (hs : s.rd R.TEMPO_STATUS_SEL = selCode b) :
    s.Loses b (s.badBeat b) := by
  obtain ⟨x, y, hbeat, hlost⟩ := badBeat_eq hq hs
  let u := (s.withTempo x).wr (qualFld b) 0
  have hu : s.Frame [qualFld b] [] u := (withTempo_frame s x).trans (.wr (.inl (List.mem_singleton_self _)))
  have hraise : u.Frame (lostFlag b).fields [] (u.raise (lostFlag b)) := ((Link.refl u).raise (List.Subset.refl _)).toFrame
  have hrecord : (u.raise (lostFlag b)).Frame [] [] ((u.raise (lostFlag b)).withTempo y) := withTempo_frame ..
  have hqual : u.rd (qualFld b) = 0 := by
    rw [rd_wr_self (by exact w), Nat.zero_mod]
  rw [hbeat]
  exact {
    unqualified := by
      rw [withTempo_qual, State.qual, State.on, hraise.rd (by cases b <;> decide) (List.not_mem_nil), hqual]
      decide
    raised := then_raised hu (raised_then (raised_raise (hu.rising w) (by cases b <;> decide)) hrecord rfl rfl
      (List.not_mem_nil) (List.not_mem_nil)) (by cases b <;> decide) (List.not_mem_nil)
    waits := hlost
    selected := by
      rw [withTempo_rd, hraise.rd (by cases b <;> decide) (List.not_mem_nil),
        hu.rd (by cases b <;> decide) (List.not_mem_nil), hs]
    only := (((withTempo_tempoOnly s x).trans (wr_regsOnly ..).tempoOnly).trans (raise_tempoOnly ..)).trans
      (withTempo_tempoOnly ..) }

/-- A beat without a symbol of the selected input loses it. -/
theorem tempoBeat_loses (w : mrising s.regs = true) (hen : s.on R.TEMPO_CTL_EN = true) (hq : s.qual b = true)
    (hs : s.rd R.TEMPO_STATUS_SEL = selCode b) (hsym : beatSymbol e.high = none) : s.Loses b (tempoBeatEffect b e s) := by
  let u := (s.periodCheck b e).takeEdge b e (s.frameAfter b e).1
  have hu : s.Frame E.TEMPO_PERIOD_FAULT.fields [] u := (periodCheck_frame s b e).trans .others
  have hskew := skew_frame (u.badBeat b)
  have h : u.Loses b (u.badBeat b) := badBeat_loses (hu.rising w)
    ((hu.on (by cases b <;> decide) (List.not_mem_nil)).trans hq) ((hu.rd (by decide) (List.not_mem_nil)).trans hs)
  rw [tempoBeatEffect_invalid hen hsym]
  exact {
    unqualified := (hskew.on (by cases b <;> decide) (List.not_mem_nil)).trans h.unqualified
    raised := then_raised hu (raised_then h.raised hskew (by cases b <;> decide) (by cases b <;> decide)
      (List.not_mem_nil) (List.not_mem_nil)) (by cases b <;> decide) (List.not_mem_nil)
    waits := by rw [skew_tempo]; exact h.waits
    selected := (hskew.rd (by decide) (List.not_mem_nil)).trans h.selected
    only := (((periodCheck_tempoOnly s b e).trans (takeEdge_tempoOnly ..)).trans h.only).trans (skew_regsOnly _).tempoOnly }

end State

/-- Settles O9, part by part: EN, the eighth good beat, and a bad beat of the selected input. -/
theorem tempoInputs : Obligations.TempoInputs := by
  refine ⟨fun s hwf => ?_, fun b x e s hwf hen hl hs _ hg hf hq hsym hp => ?_, fun b e s hwf hen hq hs hsym => ?_⟩
  · obtain ⟨w, -⟩ := State.rising_of_wf hwf
    refine ⟨fun hoff => ⟨_, congrArg Host.Outcome.next (State.tempoEnableEffect_eq hoff), ?_⟩,
      fun hen => congrArg Host.Outcome.next (if_pos hen), _, congrArg Host.Outcome.next (State.tempoDisableEffect_eq s), ?_⟩
    · have hwr : s.Frame [] [fkey R.TEMPO_CTL_EN 0 0 0] (s.wr R.TEMPO_CTL_EN 1) := .wr (.inr (List.mem_singleton_self _))
      exact ⟨(State.withTempo_rd ..).trans (State.rd_wr_self w ..), rfl, rfl, rfl,
        (hwr.trans (State.withTempo_frame ..)).regsBut, State.withTempo_of_regsOnly (State.wr_regsOnly ..) _⟩
    · obtain ⟨hen, hcleared⟩ := State.disabledRegs_rd w
      have hframe := (State.disabledRegs_frame s).trans (State.withTempo_frame s.disabledRegs s.disabledRegs.freshRecord)
      exact ⟨(State.withTempo_rd ..).trans hen, fun f hf => (State.withTempo_rd ..).trans (hcleared f hf),
        State.stamp_invalid ((State.withTempo_rd ..).trans (hcleared _ (by decide))), rfl, hframe.regsBut,
        State.withTempo_of_regsOnly (State.disabledRegs_regsOnly s) _⟩
  · obtain ⟨w, -⟩ := State.rising_of_wf hwf
    obtain ⟨tm, htm⟩ := State.tempoBeat_locks hen hl hs hg hf hq hsym hp
    obtain ⟨hqual, hsel, hlock⟩ := State.lockOn_rd w b
    have hregs : (s.withTempo tm).RegsOnly ((s.lockOn b).withTempo tm).skew :=
      State.RegsOnly.trans (State.lockOn_withTempo_regsOnly s b tm) (State.skew_regsOnly _)
    have hon : ∀ f, R.TEMPO_STATUS_AB_SKEW.apart f = true → ((s.lockOn b).withTempo tm).skew.rd f = (s.lockOn b).rd f :=
      fun f hf => (State.rd_skew _ hf).trans (State.withTempo_rd ..)
    have hexec : exec (.tempoBeat b e) s = .next (tempoBeatEffect b e s) := rfl
    refine ⟨_, hexec.trans (congrArg Host.Outcome.next htm), ?_, (hon _ (by decide)).trans hsel, ?_, hregs.of_withTempo⟩
    · rw [State.qual, State.on, hon _ (by cases b <;> decide)]
      exact hqual
    · rw [State.on, hon _ (by decide)]
      exact hlock
  · obtain ⟨w, -⟩ := State.rising_of_wf hwf
    obtain ⟨hqual, hraised, hlost, hsel, honly⟩ := State.tempoBeat_loses w hen hq hs hsym
    refine ⟨_, rfl, hqual, hraised, ?_, hlost, hsel, honly⟩
    rw [State.tempoBeatEffect_invalid hen hsym, State.skew_tempo]
    exact State.badBeat_good ..

end Sys2Proof.Machine
end

section
namespace Sys2Proof.Machine

theorem pickFrom_mem {i p : Nat} {us : List Nat} (h : pickFrom i us = some p) : p ∈ us := by
  unfold pickFrom at h
  split at h
  case h_1 q hq => exact Option.some.inj h ▸ List.mem_of_find?_eq_some hq
  case h_2 => exact List.mem_of_head? h

theorem pickSingle_mem {d o p : Nat} {us : List Nat} (h : pickSingle d o us = some p) : p ∈ us := by
  unfold pickSingle at h
  split at h
  · cases h
  · exact List.mem_of_getElem? h

theorem storeCuts_ne_nil {n : Nat} (h : 64 ≤ n) (off : Nat) : storeCuts off n ≠ [] := by
  intro hnil
  have hlen := congrArg List.length hnil
  simp only [storeCuts, List.length_append, List.length_map, List.length_range, List.length_nil, Nat.add_eq_zero_iff] at hlen
  obtain ⟨⟨hhead, hbody⟩, hrest⟩ := hlen
  rw [List.length_eq_zero_iff] at hbody
  unfold pieces at hbody
  split at hbody
  · omega
  · simp at hbody

namespace State
variable {s s₀ t u : State}

/-! ### Sending -/

theorem choose_mem {unit dst : Nat} {p : Pkt} {us : List Nat} {q : Nat} (h : s.choose unit dst p us = some q) : q ∈ us := by
  unfold choose at h
  split at h
  · exact pickFrom_mem h
  · exact pickSingle_mem h

theorem usable_lt {dst q : Nat} (h : q ∈ s.usable dst) : q < 24 :=
  List.mem_range.1 (List.mem_of_mem_filter (List.mem_of_mem_filter h))

theorem mem_txKeys {q : Nat} (h : q < 24) : fkey R.FAB_TX_FLITS_TX q 0 0 ∈ txKeys :=
  List.mem_map.2 ⟨q, List.mem_range.2 h, rfl⟩

/-- Between two states packets are sent: the counters of flits, the ports, the packages' operations and the output change
alone, and the operations begun go behind those there were. -/
structure Sends (s t : State) : Prop extends Frame [] txKeys s t where
  only : t = { s with regs := t.regs, fab := t.fab, gate := { s.gate with flits := t.gate.flits }, out := t.out }
  ops : s.fab.ops <+: t.fab.ops

theorem Sends.refl (s : State) : s.Sends s := ⟨.refl s, rfl, List.prefix_rfl⟩

theorem Sends.trans (h : s.Sends t) (g : t.Sends u) : s.Sends u where
  toFrame := h.toFrame.trans g.toFrame
  only := g.only.trans (by rw [h.only])
  ops := h.ops.trans g.ops

theorem Sends.foldl {β : Type} {f : State → β → State} {l : List β} (hf : ∀ (t : State) b, b ∈ l → t.Sends (f t b)) (s : State) :
    s.Sends (l.foldl f s) := by
  induction l generalizing s with
  | nil => exact .refl s
  | cons b r ih => exact (hf s b (List.mem_cons_self ..)).trans (ih (fun t c hc => hf t c (List.mem_cons_of_mem _ hc)) _)

theorem Sends.emit (h : s.Sends t) {o : Out} : s.Sends (t.emit o) := h.trans ⟨.others, rfl, List.prefix_rfl⟩

theorem Sends.transmit (h : s.Sends t) {q : Nat} {p : Pkt} (hq : q < 24) : s.Sends (t.transmit [q] p) :=
  h.trans ⟨((Link.refl t).transmitOn (.inr (mem_txKeys hq))).toFrame, rfl, List.prefix_rfl⟩

theorem Sends.usedPort (h : s.Sends t) {unit : Nat} {p : Pkt} {q : Option Nat} : s.Sends (t.usedPort unit p q) := by
  refine h.trans ?_
  unfold State.usedPort
  split
  · split
    · exact ⟨.others, rfl, List.prefix_rfl⟩
    · exact .refl t
  · exact .refl t

theorem countSent_of_no_engine {o : Op} (h : o.owner.engine = none) : s.countSent o = s := by
  unfold countSent
  rw [h]

/-- An operation of no copy engine is sent, or held (R325, R332). -/
theorem launchOp_sends {o : Op} (h : o.owner.engine = none) : s.Sends (s.launchOp o).2 := by
  unfold launchOp
  dsimp only
  split
  · rw [countSent_of_no_engine (by exact h)]
    exact ⟨.others, rfl, List.prefix_rfl⟩
  · split
    · rename_i q hq
      rw [countSent_of_no_engine (by exact h)]
      have hlt : q < 24 := by
        split at hq
        · cases hq
        · exact usable_lt (choose_mem hq)
      exact ((Sends.refl s).usedPort.transmit hlt).emit
    · exact .refl s

theorem launchOp_op (s : State) (o : Op) : (s.launchOp o).1.typ = o.typ ∧ (s.launchOp o).1.dst = o.dst := by
  unfold launchOp
  dsimp only
  split
  · exact ⟨rfl, rfl⟩
  · split <;> exact ⟨rfl, rfl⟩

/-- Some operation begun between two states is of a type and for a package. -/
def Begun (s t : State) (typ dst : Nat) : Prop := ∃ o ∈ t.fab.ops.drop s.fab.ops.length, o.typ = typ ∧ o.dst = dst

theorem Begun.then {typ dst : Nat} (h : s.Begun t typ dst) (g : t.Sends u) : s.Begun u typ dst := by
  obtain ⟨o, ho, hop⟩ := h
  exact ⟨o, (g.ops.drop _).subset ho, hop⟩

theorem Begun.after {typ dst : Nat} (g : s.Sends t) (h : t.Begun u typ dst) : s.Begun u typ dst := by
  obtain ⟨o, ho, hop⟩ := h
  obtain ⟨l, hl⟩ := g.ops
  rw [← hl, List.length_append, ← List.drop_drop] at ho
  exact ⟨o, List.mem_of_mem_drop ho, hop⟩

/-- Put an operation behind those there are. -/
def addOp (s : State) (o : Op) : State := { s with fab := { s.fab with ops := s.fab.ops ++ [o] } }

theorem addOp_sends (s : State) (o : Op) : s.Sends (s.addOp o) := ⟨.others, rfl, List.prefix_append ..⟩

theorem addOp_begun (h : s.Sends t) (o : Op) : s.Begun (t.addOp o) o.typ o.dst := by
  refine Begun.after h ⟨o, ?_, rfl, rfl⟩
  rw [addOp, List.drop_left]
  exact List.mem_singleton_self o

/-- Issuing an operation of no copy engine sends, and begins that operation. -/
theorem issueOp_sends {owner : Owner} (h : owner.engine = none) (s : State) (unit : Nat) (p : Pkt) :
    s.Sends (s.issueOp unit p owner) ∧ s.Begun (s.issueOp unit p owner) p.typ.toNat p.dst.val := by
  unfold issueOp
  extract_lets id p' op fab s1
  have h1 : s.Sends s1 := ⟨.others, rfl, List.prefix_rfl⟩
  split
  rename_i op' s2 he
  have h2 : s.Sends s2 ∧ op'.typ = p.typ.toNat ∧ op'.dst = p.dst.val := by
    split at he
    · cases he
      exact ⟨h1, rfl, rfl⟩
    · have hs2 : s2 = (s1.launchOp op).2 := congrArg Prod.snd he.symm
      have hop : op' = (s1.launchOp op).1 := congrArg Prod.fst he.symm
      rw [hs2, hop]
      obtain ⟨htyp, hdst⟩ := launchOp_op s1 op
      exact ⟨h1.trans (launchOp_sends h), htyp, hdst⟩
  obtain ⟨hs, htyp, hdst⟩ := h2
  exact ⟨hs.trans (addOp_sends s2 op'), htyp ▸ hdst ▸ addOp_begun hs op'⟩

/-- A write into the takeover region of a package, of 64 bytes or more, is sent as STORE packets to it (R434). -/
theorem tkWrite_sends {dst : Nat} (hd : dst < 4096) {bs : List Byte} (hb : 64 ≤ bs.length) (s : State) (off : Nat) :
    s.Sends (s.tkWrite dst off bs) ∧ s.Begun (s.tkWrite dst off bs) 0x19 dst := by
  unfold tkWrite
  dsimp only
  generalize s.rd R.HEALTH_TK_OFF_OFFSET = base
  have hstep (t : State) (c : Nat × Nat) := issueOp_sends (owner := .core) rfl t 0x01
    (withData (t.toRemote 3 0x19 dst 0 (t.rd R.HEALTH_TK_KEY_KEY) (base + off + c.1) 0) (clean ((bs.drop c.1).take c.2)))
  cases hc : storeCuts (base + off) bs.length with
  | nil => exact absurd hc (storeCuts_ne_nil hb _)
  | cons c r =>
    have hrest := Sends.foldl (l := r) (fun t b _ => (hstep t b).1)
    obtain ⟨hs, hbegun⟩ := hstep s c
    obtain ⟨o, ho, htyp, hdst⟩ := hbegun.then (hrest _)
    exact ⟨hs.trans (hrest _), o, ho, htyp, hdst.trans (Nat.mod_eq_of_lt hd)⟩

/-- Writes into the takeover regions of some packages. -/
theorem tkWrites_send {l : List Nat} (hl : ∀ q ∈ l, q < 4096) {bs : List Byte} (hb : 64 ≤ bs.length) (s : State) (off : Nat) :
    let t := l.foldl (fun t q => t.tkWrite q off bs) s
    s.Sends t ∧ ∀ q ∈ l, s.Begun t 0x19 q := by
  induction l generalizing s with
  | nil => exact ⟨.refl s, fun _ hq => absurd hq (List.not_mem_nil)⟩
  | cons q r ih =>
    obtain ⟨hs, hbegun⟩ := tkWrite_sends (hl q (List.mem_cons_self ..)) hb s off
    obtain ⟨hrest, hall⟩ := ih (fun q' hq => hl q' (List.mem_cons_of_mem _ hq)) (s.tkWrite q off bs)
    refine ⟨hs.trans hrest, fun q' hq => ?_⟩
    rcases List.mem_cons.1 hq with rfl | hq
    · exact hbegun.then hrest
    · exact .after hs (hall q' hq)

end State
end Sys2Proof.Machine
end

section
namespace Sys2Proof.Machine
namespace State
variable {s s₀ t u : State} {fs : List Fld} {f : Fld} {e : EvFlag} {o : Out} {g c n m v i k j : Nat} {w : List Nat}

/-! ### Reports -/

/-- Between two states the package reports something: registers change in the listed fields alone and the fault log goes on,
and the Sets, what NV holds, and the health core's own record but for what it has sent stay. -/
structure Reports (fs : List Fld) (s t : State) : Prop where
  rd : ∀ {f i k j}, fs.all (·.apart f) = true → t.rd f i k j = s.rd f i k j
  rising : mrising s.regs = true → mrising t.regs = true
  log : s.log <+: t.log
  sets : t.sets = s.sets
  nv : t.nv = s.nv
  health : t.health = { s.health with record := t.health.record }

theorem Reports.trans (h : s.Reports fs t) (g : t.Reports fs u) : s.Reports fs u where
  rd hf := (g.rd hf).trans (h.rd hf)
  rising w := g.rising (h.rising w)
  log := h.log.trans g.log
  sets := g.sets.trans h.sets
  nv := g.nv.trans h.nv
  health := g.health.trans (by rw [h.health])

theorem Frame.reports (h : s.Frame fs [] t) (hs : t.sets = s.sets := by rfl) (hn : t.nv = s.nv := by rfl)
    (hh : t.health = { s.health with record := t.health.record } := by rfl) : s.Reports fs t :=
  ⟨fun hf => h.rd hf (List.not_mem_nil), h.rising, h.log, hs, hn, hh⟩

theorem Reports.refl (s : State) : s.Reports fs s := (Frame.refl s).reports

/-- A change of what reports do not speak of. -/
theorem Reports.others (h : s₀.Reports fs s) (hr : t.regs = s.regs := by rfl) (hl : t.log = s.log := by rfl)
    (hs : t.sets = s.sets := by rfl) (hn : t.nv = s.nv := by rfl)
    (hh : t.health = { s.health with record := t.health.record } := by rfl) : s₀.Reports fs t :=
  h.trans ⟨fun _ => rd_eq_of_regs hr _ _ _ _, fun w => hr ▸ w, hl ▸ List.prefix_rfl, hs, hn, hh⟩

theorem Reports.ite {c : Prop} {_ : Decidable c} (hs : s₀.Reports fs s) (ht : s₀.Reports fs t) :
    s₀.Reports fs (if c then s else t) := by
  split <;> assumption

theorem Reports.foldl {β : Type} {f : State → β → State} {l : List β} (h : s₀.Reports fs s)
    (hf : ∀ {t b}, s₀.Reports fs t → s₀.Reports fs (f t b)) : s₀.Reports fs (l.foldl f s) :=
  foldl_keeps (P := s₀.Reports fs) (fun _ _ => hf) l s h

theorem Reports.wr (h : s₀.Reports fs s) (hf : f ∈ fs := by decide) : s₀.Reports fs (s.wr f v i k j) :=
  h.trans (Frame.wr (.inl hf)).reports

theorem Reports.bump (h : s₀.Reports fs s) (hf : f ∈ fs := by decide) : s₀.Reports fs (s.bump f v i k j) := h.wr hf

theorem Reports.emit (h : s₀.Reports fs s) : s₀.Reports fs (s.emit o) := h.others

theorem Reports.raise (h : s₀.Reports fs s) (he : e.fields ⊆ fs := by decide) : s₀.Reports fs (s.raise e i w k) := by
  have hraise : s.Frame fs [] (s.raise e i w k) := ((Link.refl s).raise he).toFrame
  have honly := raise_only s e i w k
  exact h.trans (hraise.reports (by rw [honly]) (by rw [honly]) (by rw [honly]))

theorem Sends.reports (h : s.Sends t) (hf : R.FAB_TX_FLITS_TX ∈ fs) : s.Reports fs t := by
  have hrd : s.Frame [R.FAB_TX_FLITS_TX] [] t := { h.toFrame with
    rd := fun ha _ => h.rd rfl fun hm => by
      obtain ⟨q, -, hq⟩ := List.mem_map.1 hm
      exact Fld.fkey_ne (List.all_eq_true.1 ha _ (List.mem_singleton_self _)) hq }
  exact (hrd.mono (fun _ hm => List.mem_singleton.1 hm ▸ hf)).reports (by rw [h.only]) (by rw [h.only]) (by rw [h.only])

theorem raisedBy_then {unit : Nat} (h : s.raisedBy t unit e i k) (g : t.Reports fs u)
    (hf : fs.all (·.apart e.flag) = true := by decide) (hc : fs.all (·.apart e.cnt) = true := by decide) :
    s.raisedBy u unit e i k := by
  obtain ⟨hon, hcnt, r, hr, hwhat⟩ := h
  exact ⟨by rw [State.on, g.rd hf]; exact hon, (g.rd hc).trans hcnt, r, (g.log.drop _).subset hr, hwhat⟩

theorem Reports.then_raised (g : s.Reports fs t) (h : t.raised u e i k) (hc : fs.all (·.apart e.cnt) = true := by decide) :
    s.raised u e i k := by
  obtain ⟨hon, hcnt, r, hr, hwhat⟩ := h
  refine ⟨hon, by rw [hcnt, g.rd hc], r, ?_, hwhat⟩
  obtain ⟨l, hl⟩ := g.log
  rw [← hl, List.length_append, ← List.drop_drop] at hr
  exact List.mem_of_mem_drop hr

/-! ### Entries of a completion ring -/

/-- What posting an entry may write. -/
def postFields : List Fld :=
  [R.PCIE_GRP_DROP_DROPPED, R.PCIE_CQ_CFG_TAIL, R.PCIE_CQ_CFG_PHASE, R.CHECK_CREATE_CNT_CREATES, R.CHECK_UPDATE_CNT_UPDATES] ++
    E.PCIE_CQ_DROP.fields ++ E.PCIE_CQ_BACKLOG.fields ++ E.CHECK_HDR_PARTIAL.fields ++ E.CHECK_GEN_FAULT.fields

theorem Reports.markRange (h : s₀.Reports fs s) : s₀.Reports fs (s.markRange n m) := h.others

theorem Reports.crcUpdate {a b : Nat} (h : s₀.Reports postFields t) : s₀.Reports postFields (State.crcUpdate s t a b n) :=
  have h1 := h.raise.markRange.ite h
  .ite h.others.bump (.ite h1.others.bump h1)

theorem Reports.generatorCheck (h : s₀.Reports postFields s) : s₀.Reports postFields (s.generatorCheck n m) :=
  .ite h.raise.markRange h

theorem Reports.devSet (h : s₀.Reports postFields s) {bs : List Byte} : s₀.Reports postFields (s.devSet n bs) :=
  h.others.foldl fun h => h.crcUpdate.generatorCheck

theorem Reports.toBacklog (h : s₀.Reports postFields s) : s₀.Reports postFields (s.toBacklog g c w) := h.others.devSet

theorem Reports.cqDrop (h : s₀.Reports postFields s) : s₀.Reports postFields (s.cqDrop g) := h.bump.raise

theorem Reports.cqDefer (h : s₀.Reports postFields s) : s₀.Reports postFields (s.cqDefer g c w) :=
  .ite h.toBacklog.raise (.ite h.others h.cqDrop)

theorem Reports.signal (h : s₀.Reports postFields s) : s₀.Reports postFields (s.signal g v) :=
  .ite (.ite h.emit h) (.ite h h.others)

theorem Reports.noteEntry (h : s₀.Reports postFields s) : s₀.Reports postFields (s.noteEntry g c) :=
  .ite (.ite h.others.others.signal h.others) h

theorem Reports.cqWrite (h : s₀.Reports postFields s) : s₀.Reports postFields (s.cqWrite g c w) := h.emit.emit.wr.wr.noteEntry

theorem Reports.cqPost (h : s₀.Reports postFields s) : s₀.Reports postFields (s.cqPost g c w) :=
  .ite h.cqDrop (.ite h.cqDefer h.cqWrite)

theorem mgmtTray_reports (s : State) (code : Nat) (payload : List Nat) : s.Reports postFields (s.mgmtTray code payload) :=
  ((Reports.refl s).cqPost).emit

end State
end Sys2Proof.Machine
end

section
namespace Sys2Proof.Machine
namespace State
variable {s s₀ t u : State} {fs : List Fld} {b : Bool} {c : Nat}

/-! ### The health record -/

theorem stamp_wr (s : State) {f : Fld} (h : f.apart R.TEMPO_STATUS_COUNT_VALID = true) {v i k j : Nat} :
    (s.wr f v i k j).stamp = s.stamp := by
  unfold stamp State.on
  rw [rd_wr_ne _ _ _ (Fld.fkey_ne h)]
  rfl

/-- The record of R434 does not tell ELIGIBLE as it stands in its register. -/
theorem healthWords_wr_eligible (s : State) (v : Nat) (b : Bool) :
    (s.wr R.HEALTH_STATUS_ELIGIBLE v).healthWords b = s.healthWords b := by
  unfold healthWords
  rw [stamp_wr s (by decide), rd_wr_ne s R.HEALTH_STATUS_ELIGIBLE R.HEALTH_STATUS_FAILED (Fld.fkey_ne (by decide)),
    rd_wr_ne s R.HEALTH_STATUS_ELIGIBLE R.HEALTH_STATUS_CAUSE (Fld.fkey_ne (by decide)),
    rd_wr_ne s R.HEALTH_STATUS_ELIGIBLE R.HEALTH_FORECAST_MONTHS (Fld.fkey_ne (by decide))]
  rfl

/-- ELIGIBLE and the record that goes out. -/
def showHealth (s : State) (b : Bool) : State :=
  { s.wr R.HEALTH_STATUS_ELIGIBLE (b2n b) with health := { s.health with record := (s.healthWords b).eraseIdx 1 } }

/-- The bytes that go out. -/
def healthBytes (s : State) (b : Bool) : List Byte := (s.healthWords b ++ [0, 0, 0, 0]).flatMap (toLE 8)

theorem ensemble_wr_eligible (s : State) (v : Nat) : (s.wr R.HEALTH_STATUS_ELIGIBLE v).ensemble = s.ensemble := by
  have hrack : ∀ q, (s.wr R.HEALTH_STATUS_ELIGIBLE v).rackOf 0 q = s.rackOf 0 q := fun q => by
    unfold rackOf reelArea
    rw [rd_wr_ne s R.HEALTH_STATUS_ELIGIBLE R.REEL_AREA_BASE (Fld.fkey_ne (by decide))]
    rfl
  unfold ensemble
  simp only [hrack]

theorem sendHealth_eq (s : State) (b : Bool) :
    s.sendHealth b = s.ensemble.foldl (fun t q => t.tkWrite q (64 * s.pkgId) (s.healthBytes b)) (s.showHealth b) := by
  unfold sendHealth
  dsimp only
  rw [healthWords_wr_eligible, ← ensemble_wr_eligible s (b2n b)]
  rfl

theorem length_healthBytes (s : State) (b : Bool) : (s.healthBytes b).length = 64 := by
  simp [healthBytes, healthWords, length_toLE]

theorem lt_of_mem_ensemble {q : Nat} (h : q ∈ s.ensemble) : q < 4096 := by
  rw [ensemble, List.mem_filter] at h
  exact List.mem_range.1 h.1

/-- A health record goes to every package of the ensemble (R434). -/
theorem sendHealth_sends (s : State) (b : Bool) :
    (s.showHealth b).Sends (s.sendHealth b) ∧ ∀ q ∈ s.ensemble, s.Begun (s.sendHealth b) 0x19 q := by
  obtain ⟨hs, hbegun⟩ := tkWrites_send (fun _ => lt_of_mem_ensemble) (Nat.le_of_eq (length_healthBytes s b).symm)
    (s.showHealth b) (64 * s.pkgId)
  rw [sendHealth_eq]
  exact ⟨hs, hbegun⟩

theorem showHealth_frame (s : State) (b : Bool) : s.Frame [] [fkey R.HEALTH_STATUS_ELIGIBLE 0 0 0] (s.showHealth b) :=
  (Frame.wr (.inr (List.mem_singleton_self _))).trans (.others (s := s.wr R.HEALTH_STATUS_ELIGIBLE (b2n b)))

/-- What sending the health record writes. -/
def healthFields : List Fld := [R.HEALTH_STATUS_ELIGIBLE, R.FAB_TX_FLITS_TX]

theorem sendHealth_reports (s : State) (b : Bool) : s.Reports healthFields (s.sendHealth b) :=
  ((Reports.refl s).wr (f := R.HEALTH_STATUS_ELIGIBLE) (v := b2n b) (i := 0) (k := 0) (j := 0)).others.trans
    ((sendHealth_sends s b).1.reports (by decide))

/-! ### A failed role -/

/-- What reporting a failed role writes beside FAILED and CAUSE. -/
def failFields : List Fld := E.HEALTH_ROLE_FAILED.fields ++ postFields ++ healthFields

/-- The causes of a failed role with another one. -/
def withCause (s : State) (c : Nat) : State :=
  { s with health := { s.health with
    causes := if s.health.causes.contains c then s.health.causes else s.health.causes ++ [c] } }

/-- FAILED and CAUSE as a report leaves them (R431). -/
def failedAs (s : State) (c : Nat) : State := ((s.withCause c).wr R.HEALTH_STATUS_FAILED 1).wr R.HEALTH_STATUS_CAUSE c

theorem reportFailed_eq (s : State) (c : Nat) : s.reportFailed c =
    (((s.failedAs c).raise E.HEALTH_ROLE_FAILED 0 [c]).mgmtTray 0x0201 [c]).sendHealth false := rfl

theorem Reports.mono {fs' : List Fld} (h : s.Reports fs t) (hf : fs ⊆ fs' := by decide) : s.Reports fs' t :=
  { h with rd := fun hf' => h.rd (List.all_eq_true.2 fun g hg => List.all_eq_true.1 hf' g (hf hg)) }

theorem failedAs_reports (s : State) (c : Nat) :
    (s.withCause c).Reports [R.HEALTH_STATUS_FAILED, R.HEALTH_STATUS_CAUSE] (s.failedAs c) := (Reports.refl _).wr.wr

theorem reportFailed_reports (s : State) (c : Nat) : (s.failedAs c).Reports failFields (s.reportFailed c) := by
  have hflag : (s.failedAs c).Reports failFields ((s.failedAs c).raise E.HEALTH_ROLE_FAILED 0 [c]) := (Reports.refl _).raise
  rw [reportFailed_eq]
  exact (hflag.trans (mgmtTray_reports ..).mono).trans (sendHealth_reports ..).mono

/-- The role stands failed for a cause, and says so (R431). -/
theorem reportFailed_shows (w : mrising s.regs = true) {c : Nat} (hc : c < 16) :
    (s.reportFailed c).on R.HEALTH_STATUS_FAILED = true ∧ (s.reportFailed c).rd R.HEALTH_STATUS_CAUSE = c ∧
      s.raised (s.reportFailed c) E.HEALTH_ROLE_FAILED := by
  have hreport := reportFailed_reports s c
  have hpre : (s.withCause c).Reports [R.HEALTH_STATUS_FAILED, R.HEALTH_STATUS_CAUSE] (s.failedAs c) := failedAs_reports s c
  have hfailed : (s.failedAs c).rd R.HEALTH_STATUS_FAILED = 1 := by
    unfold failedAs
    rw [rd_wr_ne _ _ _ (Fld.fkey_ne (by decide)), rd_wr_self (by exact w)]
    rfl
  have hcause : (s.failedAs c).rd R.HEALTH_STATUS_CAUSE = c := by
    unfold failedAs
    rw [rd_wr_self (mrising_wr (by exact w) ..)]
    exact Nat.mod_eq_of_lt (Nat.lt_of_lt_of_le hc (by decide))
  refine ⟨?_, (hreport.rd (by decide)).trans hcause, ?_⟩
  · rw [State.on, hreport.rd (by decide), hfailed]
    rfl
  · have hraise := raised_raise (hpre.rising w) (e := E.HEALTH_ROLE_FAILED) (by decide) (i := 0) (args := [c]) (k := 0)
    have hlater : ((s.failedAs c).raise E.HEALTH_ROLE_FAILED 0 [c]).Reports (postFields ++ healthFields) (s.reportFailed c) := by
      rw [reportFailed_eq]
      exact (mgmtTray_reports ..).mono.trans (sendHealth_reports ..).mono
    exact hpre.then_raised (s := s.withCause c) (raisedBy_then hraise hlater)

end State
end Sys2Proof.Machine
end

section
namespace Sys2Proof.Machine

theorem otherInp_selCode (b : Bool) : otherInp (selCode b) = !b := by cases b <;> rfl

namespace State
variable {s s₀ t u : State} {fs : List Fld} {ns : List Nat} {b : Bool} {n m : Nat}

/-! ### The dies' clocks at a boundary -/

/-- Between two states the dies' codes and clocks change: of the registers OPP alone, of Tempo's record the cycles alone. -/
structure Clocks (s t : State) : Prop extends Frame [R.PWR_STATUS_OPP] [] s t where
  tempo : t.tempo = { s.tempo with cycles := t.tempo.cycles }

theorem Clocks.trans (h : s.Clocks t) (g : t.Clocks u) : s.Clocks u where
  toFrame := h.toFrame.trans g.toFrame
  tempo := g.tempo.trans (by rw [h.tempo])

theorem setOpp_clocks (s : State) (die c : Nat) : s.Clocks (s.setOpp die c) where
  toFrame := Frame.trans (t := { s with tempo := { s.tempo with cycles := s.cyclesFrom s.tempo.now } }) .others
    (.wr (.inl (List.mem_singleton_self _)))
  tempo := rfl

theorem setDie_clocks (s : State) (die : Nat) (x : DieClk) : s.Clocks (s.setDie die x) := ⟨.others, rfl⟩

theorem sendRail_clocks (s : State) (die c : Nat) : s.Clocks (s.sendRail die c) := by
  unfold sendRail
  dsimp only
  split <;> exact ⟨.others, rfl⟩

theorem clockDies_clocks (s : State) : s.Clocks s.clockDies := by
  unfold clockDies
  refine foldl_keeps (P := s.Clocks) (fun t die ht => ?_) _ s ⟨.refl s, rfl⟩
  split
  · exact ((ht.trans (setOpp_clocks ..)).trans (setDie_clocks ..)).trans (sendRail_clocks ..)
  · exact ht

/-! ### The boundary -/

theorem beatBoundary_eq (hen : s.on R.TEMPO_CTL_EN = true) (hl : s.on R.TEMPO_STATUS_LOCKED = true)
    (hn : s.tempo.now % 1024 = 1023) :
    beatBoundaryEffect s = (s.reselect.withTempo s.reselect.tempo.nextBeat).clockDies := if_pos ⟨hen, hl, hn⟩

/-- What a boundary leaves as its selection of an input leaves it. -/
theorem beatBoundary_frame (s : State) :
    s.reselect.Frame [R.PWR_STATUS_OPP] [] (s.reselect.withTempo s.reselect.tempo.nextBeat).clockDies :=
  (withTempo_frame ..).trans (clockDies_clocks _).toFrame

/-- The stamp goes to tick 0 of the next beat, and a loss is over (R51). -/
theorem beatBoundary_tempo (h : s.reselect.tempo = s.tempo) :
    (s.reselect.withTempo s.reselect.tempo.nextBeat).clockDies.tempo.now = (s.tempo.now / 1024 + 1) * 1024 ∧
      (s.reselect.withTempo s.reselect.tempo.nextBeat).clockDies.tempo.lost = false := by
  rw [(clockDies_clocks _).tempo, withTempo_tempo, h]
  exact ⟨rfl, rfl⟩

theorem reselect_failover (hs : s.rd R.TEMPO_STATUS_SEL = selCode b) (hl : s.tempo.lost = true) (hq : s.qual (!b) = true) :
    s.reselect = (s.wr R.TEMPO_STATUS_SEL (selCode (!b))).raise E.TEMPO_FAILOVER := by
  unfold reselect
  dsimp only
  rw [hs, otherInp_selCode, if_pos hl, if_pos hq]

theorem reselect_holdover (hs : s.rd R.TEMPO_STATUS_SEL = selCode b) (hl : s.tempo.lost = true) (hq : s.qual (!b) = false) :
    s.reselect = ((s.wr R.TEMPO_STATUS_SEL 3).wr R.TEMPO_STATUS_HOLD_BEATS 0).raise E.TEMPO_HOLDOVER := by
  unfold reselect
  dsimp only
  rw [hs, otherInp_selCode, if_pos hl, if_neg (by simp [hq])]

theorem reselect_swap (hs : s.rd R.TEMPO_STATUS_SEL = selCode b) (hl : s.tempo.lost = false) (hw : s.tempo.swap = true)
    (hq : s.qual (!b) = true) : s.reselect = s.wr R.TEMPO_STATUS_SEL (selCode (!b)) := by
  unfold reselect
  dsimp only
  rw [hs, otherInp_selCode, if_neg (by simp [hl]), if_neg (by cases b <;> decide), if_pos ⟨hw, hq⟩]

theorem raise_frame (s : State) (e : EvFlag) (args : List Nat) : s.Frame e.fields [] (s.raise e 0 args) :=
  ((Link.refl s).raise (List.Subset.refl _)).toFrame

theorem selCode_fits (b : Bool) : selCode b % 2 ^ R.TEMPO_STATUS_SEL.wid = selCode b := by cases b <;> rfl

/-- At the boundary after a loss the other input, qualified, is selected (R53). -/
theorem beatBoundary_failover (w : mrising s.regs = true) (hs : s.rd R.TEMPO_STATUS_SEL = selCode b) (hl : s.tempo.lost = true)
    (hq : s.qual (!b) = true) (hframe : s.reselect.Frame [R.PWR_STATUS_OPP] [] t) :
    t.rd R.TEMPO_STATUS_SEL = selCode (!b) ∧ s.raised t E.TEMPO_FAILOVER := by
  have hsel : (s.wr R.TEMPO_STATUS_SEL (selCode (!b))).rd R.TEMPO_STATUS_SEL = selCode (!b) :=
    (rd_wr_self w ..).trans (selCode_fits _)
  have hwr : s.Frame [R.TEMPO_STATUS_SEL] [] (s.wr R.TEMPO_STATUS_SEL (selCode (!b))) := .wr (.inl (List.mem_singleton_self _))
  have hraise := raise_frame (s.wr R.TEMPO_STATUS_SEL (selCode (!b))) E.TEMPO_FAILOVER []
  rw [reselect_failover hs hl hq] at hframe
  refine ⟨?_, then_raised hwr (raised_then (raised_raise (hwr.rising w) (by decide)) hframe (by decide) (by decide)
    (List.not_mem_nil) (List.not_mem_nil)) (by decide) (List.not_mem_nil)⟩
  rw [hframe.rd (by decide) (List.not_mem_nil), hraise.rd (by decide) (List.not_mem_nil), hsel]

/-- At the boundary after a loss holdover begins, when no other input is qualified (R53). -/
theorem beatBoundary_holdover (w : mrising s.regs = true) (hs : s.rd R.TEMPO_STATUS_SEL = selCode b) (hl : s.tempo.lost = true)
    (hq : s.qual (!b) = false) (hframe : s.reselect.Frame [R.PWR_STATUS_OPP] [] t) :
    t.rd R.TEMPO_STATUS_SEL = 3 ∧ t.rd R.TEMPO_STATUS_HOLD_BEATS = 0 ∧ s.raised t E.TEMPO_HOLDOVER := by
  let u := (s.wr R.TEMPO_STATUS_SEL 3).wr R.TEMPO_STATUS_HOLD_BEATS 0
  have hsel : u.rd R.TEMPO_STATUS_SEL = 3 := (rd_wr_ne _ _ _ (Fld.fkey_ne (by decide))).trans (rd_wr_self w ..)
  have hbeats : u.rd R.TEMPO_STATUS_HOLD_BEATS = 0 := (rd_wr_self (mrising_wr w ..) ..).trans (Nat.zero_mod _)
  have hu : s.Frame [R.TEMPO_STATUS_SEL, R.TEMPO_STATUS_HOLD_BEATS] [] u :=
    Frame.trans (t := s.wr R.TEMPO_STATUS_SEL 3) (.wr (.inl (by decide))) (.wr (.inl (by decide)))
  have hraise := raise_frame u E.TEMPO_HOLDOVER []
  rw [reselect_holdover hs hl hq] at hframe
  refine ⟨?_, ?_, then_raised hu (raised_then (raised_raise (hu.rising w) (by decide)) hframe (by decide) (by decide)
    (List.not_mem_nil) (List.not_mem_nil)) (by decide) (List.not_mem_nil)⟩
  · rw [hframe.rd (by decide) (List.not_mem_nil), hraise.rd (by decide) (List.not_mem_nil), hsel]
  · rw [hframe.rd (by decide) (List.not_mem_nil), hraise.rd (by decide) (List.not_mem_nil), hbeats]

/-- A boundary after a loss leaves Tempo's record but for the new beat. -/
theorem reselect_lost_tempo (hs : s.rd R.TEMPO_STATUS_SEL = selCode b) (hl : s.tempo.lost = true) :
    s.reselect.tempo = s.tempo := by
  cases hq : s.qual (!b) with
  | true => rw [reselect_failover hs hl hq, raise_tempo]; rfl
  | false => rw [reselect_holdover hs hl hq, raise_tempo]; rfl

/-! ### Holdover expiry -/

/-- A Set stands halted with nothing of it left uncommitted. -/
def Idled (s : State) (n : Nat) : Prop := s.setState n = 5 ∧ (s.st n).flights = []

theorem rising_sets_kill (w : mrising s.sets = true) (n : Nat) : mrising (s.kill n).sets = true := by
  rw [kill_eq]
  exact rising_setSt (rising_setSt w _ _) _ _

theorem rising_sets_haltFor (w : mrising s.sets = true) (n : Nat) (why : HaltWhy) : mrising (s.haltFor n why).sets = true :=
  rising_setSt (rising_sets_kill w n) _ _

theorem st_haltFor (w : mrising s.sets = true) (n : Nat) (why : HaltWhy) : ((s.haltFor n why).st n).flights = [] := by
  obtain ⟨hf, -⟩ := st_kill_drops w n
  unfold haltFor
  dsimp only
  rw [st_setSt (rising_sets_kill w n)]
  exact hf

theorem haltFor_idles (w : mrising s.regs = true) (ws : mrising s.sets = true) (n : Nat) (why : HaltWhy) :
    (s.haltFor n why).Idled n :=
  ⟨(rd_setSt ..).trans (setState_kill w n), st_haltFor ws n why⟩

/-- Halting a Set keeps another one as it is. -/
theorem haltFor_keeps_idled (hn : n < 2 ^ 16) (hm : m < 2 ^ 16) (hne : n ≠ m) (why : HaltWhy) (h : s.Idled m) :
    (s.haltFor n why).Idled m := by
  obtain ⟨hstate, hflights⟩ := h
  have hkey : fkey R.SCHED_STATUS_STATE m 0 0 ∉ killKeys n := by
    have h1 : fkey R.SCHED_STATUS_STATE m 0 0 ≠ fkey R.SCHED_STATUS_STATE n 0 0 :=
      fkey_ne_of_inst rfl (by rw [Nat.mod_eq_of_lt hn, Nat.mod_eq_of_lt hm]; exact hne.symm)
    have h2 : fkey R.SCHED_STATUS_STATE m 0 0 ≠ fkey R.SCHED_STATUS_ISSUE_IDX n 0 0 := Fld.fkey_ne (by decide)
    have h3 : fkey R.SCHED_STATUS_STATE m 0 0 ≠ fkey R.SCHED_SB_SB n 0 0 := Fld.fkey_ne (by decide)
    simp [killKeys, h1, h2, h3]
  refine ⟨(rd_setSt ..).trans (((kill_frame s n).rd rfl hkey).trans hstate), ?_⟩
  unfold haltFor
  dsimp only
  rw [st_setSt_ne hne, st_kill_ne hne]
  exact hflights

/-- Halt Sets one after the other. -/
def haltAll (s : State) (l : List Nat) (why : HaltWhy) : State := l.foldl (fun t n => t.haltFor n why) s

/-- What killing Sets writes. -/
def killFields : List Fld := [R.SCHED_STATUS_STATE, R.SCHED_STATUS_ISSUE_IDX, R.SCHED_SB_SB]

theorem haltFor_frame (s : State) (n : Nat) (why : HaltWhy) : s.Frame killFields [] (s.haltFor n why) := by
  have hkill : s.Frame killFields [] (s.kill n) := { kill_frame s n with
    rd := fun ha _ => (kill_frame s n).rd rfl fun hm => by
      have hapart := List.all_eq_true.1 ha
      simp only [killKeys, List.mem_cons, List.not_mem_nil, or_false] at hm
      rcases hm with hm | hm | hm
      · exact Fld.fkey_ne (hapart R.SCHED_STATUS_STATE (by decide)) hm.symm
      · exact Fld.fkey_ne (hapart R.SCHED_STATUS_ISSUE_IDX (by decide)) hm.symm
      · exact Fld.fkey_ne (hapart R.SCHED_SB_SB (by decide)) hm.symm }
  exact hkill.trans (.others (s := s.kill n))

theorem haltAll_frame (s : State) (l : List Nat) (why : HaltWhy) : s.Frame killFields [] (s.haltAll l why) :=
  foldl_keeps (P := s.Frame killFields []) (fun _ _ h => h.trans (haltFor_frame ..)) l s (.refl s)

/-- Every Set named is halted, and one that was halted stays so (R56). -/
theorem haltAll_idles (w : mrising s.regs = true) (ws : mrising s.sets = true) (why : HaltWhy) {l : List Nat}
    (hl : ∀ n ∈ l, n < 2 ^ 16) (hm : m < 2 ^ 16) (h : m ∈ l ∨ s.Idled m) : (s.haltAll l why).Idled m := by
  induction l generalizing s with
  | nil => exact h.resolve_left (List.not_mem_nil)
  | cons n r ih =>
    refine ih ((haltFor_frame s n why).rising w) (rising_sets_haltFor ws n why) (fun q hq => hl q (List.mem_cons_of_mem _ hq)) ?_
    by_cases hne : n = m
    · exact .inr (hne ▸ haltFor_idles w ws n why)
    · exact (h.imp_left fun hin => (List.mem_cons.1 hin).resolve_left (Ne.symm hne)).imp_right
        (haltFor_keeps_idled (hl n (List.mem_cons_self ..)) hm hne why)

theorem swapEffect_lost (h : s.tempo.lost = true) : swapEffect s = s := if_neg (by simp [h])

theorem swapEffect_taken (hen : s.on R.TEMPO_CTL_EN = true) (hs : s.rd R.TEMPO_STATUS_SEL = selCode b)
    (ha : s.qual false = true) (hb : s.qual true = true) (hl : s.tempo.lost = false) :
    swapEffect s = s.withTempo { s.tempo with swap := true } :=
  if_pos ⟨hen, by rw [hs]; cases b <;> decide, ha, hb, hl⟩

theorem withCause_rd (s : State) (c : Nat) (f : Fld) (i k j : Nat) : (s.withCause c).rd f i k j = s.rd f i k j := rfl

theorem withCause_raised {c : Nat} {e : EvFlag} (h : s.raised t e) : s.raised (t.withCause c) e := h

theorem withCause_idled {c : Nat} (h : s.Idled n) : (s.withCause c).Idled n := h

/-- The state in which every Set is halted at an expiry, the flag raised. -/
def expired (s : State) : State :=
  let t := (s.wr R.TEMPO_STATUS_EXPIRED 1).raise E.TEMPO_HOLD_EXPIRED
  { t with stranded := true }

theorem expired_frame (s : State) :
    ((s.wr R.TEMPO_STATUS_EXPIRED 1).raise E.TEMPO_HOLD_EXPIRED).Frame [] [] s.expired := .others

theorem expired_sets (s : State) : s.expired.sets = s.sets := by
  unfold expired
  rw [raise_only]
  rfl

theorem expired_shows (w : mrising s.regs = true) :
    s.expired.rd R.TEMPO_STATUS_EXPIRED = 1 ∧ s.raised s.expired E.TEMPO_HOLD_EXPIRED := by
  have hwr : s.Frame [R.TEMPO_STATUS_EXPIRED] [] (s.wr R.TEMPO_STATUS_EXPIRED 1) := .wr (.inl (List.mem_singleton_self _))
  have hset : (s.wr R.TEMPO_STATUS_EXPIRED 1).rd R.TEMPO_STATUS_EXPIRED = 1 := rd_wr_self w ..
  have hraise := raise_frame (s.wr R.TEMPO_STATUS_EXPIRED 1) E.TEMPO_HOLD_EXPIRED []
  refine ⟨?_, then_raised hwr (raised_then (raised_raise (hwr.rising w) (by decide)) (expired_frame s) rfl rfl
    (List.not_mem_nil) (List.not_mem_nil)) (by decide) (List.not_mem_nil)⟩
  rw [(expired_frame s).rd rfl (List.not_mem_nil), hraise.rd (by decide) (List.not_mem_nil), hset]

theorem expired_whole (s : State) : s.Frame (R.TEMPO_STATUS_EXPIRED :: E.TEMPO_HOLD_EXPIRED.fields) [] s.expired :=
  (Frame.trans (t := s.wr R.TEMPO_STATUS_EXPIRED 1) (.wr (.inl (by decide))) (raise_frame ..).mono).trans (expired_frame s).mono

/-- The state that an expiry reports as a failed role. -/
def stranding (s : State) : State := s.expired.haltAll (List.range 48) .expiry

theorem stranding_shows (w : mrising s.regs = true) (ws : mrising s.sets = true) :
    s.stranding.rd R.TEMPO_STATUS_EXPIRED = 1 ∧ s.raised s.stranding E.TEMPO_HOLD_EXPIRED ∧ ∀ n < 48, s.stranding.Idled n := by
  obtain ⟨hexp, hraised⟩ := expired_shows w
  have hframe : s.expired.Frame killFields [] s.stranding := haltAll_frame ..
  refine ⟨(hframe.rd (by decide) (List.not_mem_nil)).trans hexp,
    raised_then hraised hframe (by decide) (by decide) (List.not_mem_nil) (List.not_mem_nil), fun n hn => ?_⟩
  exact haltAll_idles ((expired_whole s).rising w) (expired_sets s ▸ ws) .expiry
    (fun m hm => Nat.lt_trans (List.mem_range.1 hm) (by decide)) (Nat.lt_trans hn (by decide)) (.inl (List.mem_range.2 hn))

/-- What stands in the registers and Sets of a package goes on standing when its role is reported failed. -/
theorem reportFailed_whole (s : State) (c : Nat) :
    (s.withCause c).Reports ([R.HEALTH_STATUS_FAILED, R.HEALTH_STATUS_CAUSE] ++ failFields) (s.reportFailed c) :=
  (failedAs_reports s c).mono.trans (reportFailed_reports s c).mono

theorem Reports.idled (h : s.Reports fs t) (hf : fs.all (·.apart R.SCHED_STATUS_STATE) = true) (hi : s.Idled n) : t.Idled n := by
  obtain ⟨hstate, hflights⟩ := hi
  refine ⟨(h.rd hf).trans hstate, ?_⟩
  rw [State.st, h.sets]
  exact hflights

theorem holdoverExpiry_eq (hs : s.rd R.TEMPO_STATUS_SEL = 3) (hb : s.rd R.TEMPO_STATUS_HOLD_BEATS = 256)
    (he : s.on R.TEMPO_STATUS_EXPIRED = false) (ha : s.qual false = false) (hB : s.qual true = false) :
    holdoverExpiryEffect s = s.stranding.reportFailed 2 := by
  have hdue : s.expiryDue = true := by simp [expiryDue, returning, hs, hb, he, ha, hB]
  exact if_pos hdue

end State

/-- Settles O10: the boundary after a loss, SWAP, and the expiry of holdover. -/
theorem beatBoundaries : Obligations.BeatBoundaries := by
  refine ⟨fun b s hwf hen hl hs hlost hnow => ?_, fun b s hwf hen hl hs ha hb => ⟨fun hlost => ?_, fun hlost hnow => ?_⟩,
    fun s hwf hs hbeats he ha hb => ?_⟩
  · obtain ⟨w, -⟩ := State.rising_of_wf hwf
    obtain ⟨hnow', hlost'⟩ := State.beatBoundary_tempo (State.reselect_lost_tempo hs hlost)
    have hframe := State.beatBoundary_frame s
    exact ⟨_, congrArg Host.Outcome.next (State.beatBoundary_eq hen hl hnow), hnow', hlost',
      fun hq => State.beatBoundary_failover w hs hlost hq hframe, fun hq => State.beatBoundary_holdover w hs hlost hq hframe⟩
  · exact congrArg Host.Outcome.next (State.swapEffect_lost hlost)
  · obtain ⟨w, -⟩ := State.rising_of_wf hwf
    let t := s.withTempo { s.tempo with swap := true }
    have hq : t.qual (!b) = true := by cases b <;> assumption
    refine ⟨t, _, congrArg Host.Outcome.next (State.swapEffect_taken hen hs ha hb hlost), rfl,
      congrArg Host.Outcome.next (State.beatBoundary_eq (s := t) hen hl hnow), ?_⟩
    have hsel : (t.wr R.TEMPO_STATUS_SEL (selCode (!b))).rd R.TEMPO_STATUS_SEL = selCode (!b) :=
      (State.rd_wr_self w ..).trans (State.selCode_fits _)
    rw [(State.beatBoundary_frame t).rd (by decide) (List.not_mem_nil), State.reselect_swap (s := t) hs hlost rfl hq, hsel]
  · obtain ⟨w, -⟩ := State.rising_of_wf hwf
    obtain ⟨hexp, hraised, hidle⟩ := State.stranding_shows w (State.rising_sets hwf)
    have hframe : s.Frame (R.TEMPO_STATUS_EXPIRED :: E.TEMPO_HOLD_EXPIRED.fields ++ State.killFields) [] s.stranding :=
      (State.expired_whole s).mono.trans (State.haltAll_frame ..).mono
    obtain ⟨hfailed, hcause, hrole⟩ := State.reportFailed_shows (hframe.rising w) (c := 2) (by decide)
    have hreport := State.reportFailed_whole s.stranding 2
    refine ⟨_, congrArg Host.Outcome.next (State.holdoverExpiry_eq hs hbeats he ha hb), ?_,
      State.raisedBy_then (State.withCause_raised hraised) hreport,
      fun n hn => hreport.idled (by decide) (State.withCause_idled (hidle n hn)),
      hfailed, hcause, State.then_raised hframe hrole (by decide) (List.not_mem_nil)⟩
    rw [State.on, hreport.rd (by decide), State.withCause_rd, hexp]
    rfl

end Sys2Proof.Machine
end

section
namespace Sys2Proof.Machine
namespace State
variable {s s₀ t u : State} {f : Fld} {e : EvFlag} {v : Nv} {n i k j : Nat} {w : List Nat}

/-! ### A package that starts its boot -/

/-- The package stands at stage ROM with nothing in memory, no entry at the Caller and no way to the host, its NV contents
what they were. -/
structure Booting (v : Nv) (s : State) : Prop where
  rising : mrising s.regs = true
  stage : s.rd R.SEC_STATUS_STAGE = 0
  mem : s.mem = []
  nv : s.nv = v
  perst : s.boot.perst = false
  seqs : s.caller.seqs = []
  bus : s.host.bme = 0

/-- A change of what a booting package does not hold. -/
theorem Booting.others (h : Booting v s) (hr : t.regs = s.regs := by rfl) (h1 : t.mem = s.mem := by rfl)
    (h2 : t.nv = s.nv := by rfl) (h3 : t.boot = s.boot := by rfl) (h4 : t.caller = s.caller := by rfl)
    (h5 : t.host = s.host := by rfl) : Booting v t where
  rising := hr ▸ h.rising
  stage := (rd_eq_of_regs hr _ _ _ _).trans h.stage
  mem := h1.trans h.mem
  nv := h2.trans h.nv
  perst := by rw [h3, h.perst]
  seqs := by rw [h4, h.seqs]
  bus := by rw [h5, h.bus]

theorem Booting.wr (h : Booting v s) {x : Nat} (hf : f.apart R.SEC_STATUS_STAGE = true := by decide) :
    Booting v (s.wr f x i k j) :=
  { h with rising := mrising_wr h.rising .., stage := (rd_wr_ne _ _ _ (Fld.fkey_ne hf)).trans h.stage }

theorem Booting.ite {c : Prop} {_ : Decidable c} (hs : Booting v s) (ht : Booting v t) : Booting v (if c then s else t) := by
  split <;> assumption

theorem Booting.foldl {β : Type} {f : State → β → State} {l : List β} (h : Booting v s)
    (hf : ∀ {t b}, Booting v t → Booting v (f t b)) : Booting v (l.foldl f s) :=
  foldl_keeps (P := Booting v) (fun _ _ => hf) l s h

theorem Booting.emit (h : Booting v s) {o : Out} : Booting v (s.emit o) := h.others

theorem Booting.raise (h : Booting v s) (hf : e.fields.all (·.apart R.SEC_STATUS_STAGE) = true := by decide) :
    Booting v (s.raise e i w k) := by
  have hraise : s.Frame e.fields [] (s.raise e i w k) := ((Link.refl s).raise (List.Subset.refl _)).toFrame
  have honly := raise_only s e i w k
  exact {
    rising := hraise.rising h.rising
    stage := (hraise.rd hf (List.not_mem_nil)).trans h.stage
    mem := hraise.mem.trans h.mem
    nv := by rw [honly]; exact h.nv
    perst := by rw [honly]; exact h.perst
    seqs := by rw [honly]; exact h.seqs
    bus := by rw [honly]; exact h.bus }

theorem hostOk_of_no_bus (h : s.host.bme = 0) (g : Nat) : s.hostOk g = false := by
  simp [hostOk, busOk, fnOk, h]

/-- A management event of such a package is dropped (R358). -/
theorem Booting.mgmt (h : Booting v s) {g code : Nat} : Booting v (s.mgmt g code w) := by
  unfold State.mgmt cqPost
  dsimp only
  rw [if_pos (.inl (hostOk_of_no_bus h.bus g))]
  exact h.wr.raise

theorem Booting.mgmtAll (h : Booting v s) {code : Nat} : Booting v (s.mgmtAll code w) := (h.foldl fun h => h.mgmt).mgmt

theorem Booting.setRisk (h : Booting v s) {on : Bool} : Booting v (s.setRisk on) := by
  unfold State.setRisk
  rw [h.seqs]
  exact h

theorem Booting.reviewHold (h : Booting v s) : Booting v s.reviewHold :=
  .ite ((((h.others.raise).mgmtAll).emit).setRisk) (.ite (h.others.setRisk.mgmtAll) h)

theorem Booting.setMode (h : Booting v s) {b : Bool} : Booting v (s.setMode b) := .ite h h.wr

theorem Booting.onCap (h : Booting v s) : Booting v s.onCap :=
  have h1 := h.wr.wr
  have h2 := h1.ite h1.mgmt
  ((h2.ite h2.others).reviewHold).setMode

theorem Booting.showInstall (h : Booting v s) : Booting v s.showInstall := by
  unfold State.showInstall
  split
  · exact h.wr.wr.wr.wr
  · exact h.wr.wr

theorem Booting.startSag (h : Booting v s) : Booting v s.startSag := (h.wr.raise.mgmt.showInstall).onCap

theorem Booting.startBoot (h : Booting v (s.toStage 0)) : Booting v s.startBoot :=
  have h1 := h.startSag.ite h
  .ite h1.raise h1

/-- The state that a package reset starts from, before it shows weights, fuses and latch in registers (R425, R457). -/
def cleared (s : State) (perst railsUp : Bool) : State :=
  { State.reset with
    pending := s.pending
    nv := s.nv
    fuses := s.fuses
    boot := { Boot.init with
      perst := perst
      nonces := s.boot.nonces
      latch := if railsUp then s.boot.latch else none
      trip := railsUp && s.boot.trip }
    nvLog := s.nvLog
    out := s.out }

/-- From a state on, registers alone change, and stay in canonical order. -/
structure RisingRegs (s t : State) : Prop where
  only : s.RegsOnly t
  rising : mrising t.regs = true

theorem RisingRegs.wr (h : s.RisingRegs t) {x : Nat} : s.RisingRegs (t.wr f x i k j) :=
  ⟨h.only.trans (wr_regsOnly ..), mrising_wr h.rising ..⟩

theorem RisingRegs.senseFuses (h : s.RisingRegs t) : s.RisingRegs t.senseFuses := h.wr.wr.wr.wr.wr.wr.wr.wr.wr

theorem RisingRegs.showLatch (h : s.RisingRegs t) : s.RisingRegs t.showLatch := h.wr.wr

theorem RisingRegs.ite {c : Prop} {_ : Decidable c} (h : s.RisingRegs t) (g : s.RisingRegs u) :
    s.RisingRegs (if c then t else u) := by
  split <;> assumption

theorem packageReset_regs (s : State) (perst railsUp : Bool) :
    (s.cleared perst railsUp).RisingRegs (s.packageReset perst railsUp) := by
  have hrising : mrising (s.cleared perst railsUp).regs = true := (rising_of_wf State.reset_wf).1
  have hweights := foldl_keeps (P := (s.cleared perst railsUp).RisingRegs)
    (f := fun (t : State) (e : Nat × Nat) => t.wr R.PWR_WEIGHT_WEIGHT e.1 0 e.2)
    (fun _ _ h => h.wr) (s.fuses.weights.take 8).zipIdx (s.cleared perst railsUp) ⟨rfl, hrising⟩
  have hshown := hweights.senseFuses.showLatch
  exact .ite hshown.wr hshown

/-- A package out of its reset, at stage ROM. -/
theorem RisingRegs.booting {b : Bool} (h : (s.cleared false b).RisingRegs t) : Booting s.nv (t.toStage 0) := by
  have hstage : (t.wr R.SEC_STATUS_STAGE 0).rd R.SEC_STATUS_STAGE = 0 := (rd_wr_self h.rising ..).trans (Nat.zero_mod _)
  exact {
    rising := mrising_wr h.rising R.SEC_STATUS_STAGE 0 0 0 0
    stage := hstage
    mem := (congrArg mem h.only : t.mem = _)
    nv := (congrArg nv h.only : t.nv = _)
    perst := (congrArg (fun x : State => x.boot.perst) h.only : t.boot.perst = _)
    seqs := (congrArg (fun x : State => x.caller.seqs) h.only : t.caller.seqs = _)
    bus := (congrArg (fun x : State => x.host.bme) h.only : t.host.bme = _) }

/-- Firmware's own package reset leaves a package that starts its boot (R457). -/
theorem firmwareReset_booting (s : State) : Booting s.nv s.firmwareReset :=
  Booting.startBoot (((packageReset_regs ((s.wr R.SEC_STATUS_BOOT_FAIL 1).sendBoot) false true).wr).wr.booting)

end State
end Sys2Proof.Machine
end

section
namespace Sys2Proof.Machine
namespace State
variable {s s₀ t u v : State} {fs : List Fld} {e : EvFlag} {core unit i k : Nat} {args : List Nat}

/-! ### Flags raised in another unit's name -/

/-- A flag raised in a unit's name writes the registers that it writes in its own block's, and one log record. -/
theorem raiseAs_eq (s : State) (unit : Nat) (e : EvFlag) (i : Nat) (args : List Nat) (k : Nat) :
    ∃ r : LogRec, r.what = .flag e.flag i ∧ r.unit = unit ∧
      s.raiseAs unit e i args k = { s with regs := (s.raise e i args k).regs, log := s.log ++ [r] } := by
  unfold raise raiseAs logAs
  split <;> exact ⟨_, rfl, rfl, rfl⟩

theorem raiseAs_frame (s : State) (unit : Nat) (e : EvFlag) (i : Nat) (args : List Nat) (k : Nat) :
    s.Frame [] (flagKeys e i k) (s.raiseAs unit e i args k) := by
  have h1 : s.Link [] (flagKeys e i k) ((s.wr e.flag 1 i k).bump e.cnt 1 i k) :=
    ((Link.refl s).wr (.inr (by simp [flagKeys]))).bump (.inr (by simp [flagKeys]))
  unfold raiseAs
  dsimp only
  split
  case h_1 f hf => exact ((h1.wr (.inr (by simp [flagKeys, hf]))).logAs).toFrame
  case h_2 => exact h1.logAs.toFrame

theorem raisedBy_raiseAs (w : mrising s.regs = true) (he : e.sound = true) :
    s.raisedBy (s.raiseAs unit e i args k) unit e i k := by
  obtain ⟨hon, hcnt, -⟩ := raised_raise w he (i := i) (args := args) (k := k)
  obtain ⟨r, hwhat, hunit, heq⟩ := raiseAs_eq s unit e i args k
  have hregs : (s.raiseAs unit e i args k).regs = (s.raise e i args k).regs := by rw [heq]
  refine ⟨?_, (rd_eq_of_regs hregs ..).trans hcnt, r, ?_, hwhat, hunit⟩
  · rw [State.on, rd_eq_of_regs hregs]
    exact hon
  · rw [heq, List.drop_left]
    exact List.mem_singleton_self r

/-! ### Resets of control cores -/

/-- The resets within 4,096 beats, with one of a core now (R441). -/
def nearResets (s : State) (core : Nat) : List (Nat × Nat) :=
  (s.health.resets ++ [(core, s.beat)]).filter (fun e => decide (s.beat ≤ e.2 + 4096))

/-- Whether a reset of a core now is its third. -/
def ThirdReset (s : State) (core : Nat) : Prop := ((s.nearResets core).filter (fun e => e.1 = core)).length = 3

/-- Whether a reset of a core now leaves X0 without a core (R457). -/
def losesCores (s : State) (core : Nat) : Bool :=
  (List.range 4).all (fun k => decide (3 ≤ ((s.nearResets core).filter (fun e => e.1 = k)).length))

/-- Keep a list of resets. -/
def withResets (s : State) (l : List (Nat × Nat)) : State := { s with health := { s.health with resets := l } }

theorem resetCore_third (h : s.ThirdReset core) : s.resetCore core = (s.withResets (s.nearResets core)).reportFailed 8 := if_pos h

theorem resetCore_noted (h : ¬s.ThirdReset core) : s.resetCore core = s.withResets (s.nearResets core) := if_neg h

/-- What the reset of a core leaves (R441). -/
structure CoreReset (core : Nat) (s t : State) : Prop where
  resets : t.health.resets = s.nearResets core
  third : s.ThirdReset core → t.on R.HEALTH_STATUS_FAILED = true ∧ t.rd R.HEALTH_STATUS_CAUSE = 8 ∧ 8 ∈ t.health.causes

theorem withCause_causes (s : State) (c : Nat) : c ∈ (s.withCause c).health.causes := by
  unfold withCause
  dsimp only
  split
  · rename_i h
    simpa using h
  · simp

theorem reportFailed_health (s : State) (c : Nat) :
    (s.reportFailed c).health.resets = s.health.resets ∧ c ∈ (s.reportFailed c).health.causes := by
  rw [(reportFailed_whole s c).health]
  exact ⟨rfl, withCause_causes s c⟩

theorem resetCore_coreReset (w : mrising s.regs = true) (core : Nat) : CoreReset core s (s.resetCore core) := by
  by_cases h : s.ThirdReset core
  · obtain ⟨hresets, hcauses⟩ := reportFailed_health (s.withResets (s.nearResets core)) 8
    obtain ⟨hfailed, hcause, -⟩ := reportFailed_shows (s := s.withResets (s.nearResets core)) w (c := 8) (by decide)
    rw [resetCore_third h]
    exact ⟨hresets, fun _ => ⟨hfailed, hcause, hcauses⟩⟩
  · rw [resetCore_noted h]
    exact ⟨rfl, fun h' => absurd h' h⟩

theorem withResets_raisedBy {l : List (Nat × Nat)} {c : Nat} (h : s.raisedBy t unit e i k) :
    s.raisedBy ((t.withResets l).withCause c) unit e i k := h

/-- What a core's reset leaves of what was raised before it. -/
theorem raisedBy_resetCore (h : s.raisedBy t unit E.HEALTH_CORE_WDOG) :
    s.raisedBy (t.resetCore core) unit E.HEALTH_CORE_WDOG := by
  by_cases h3 : t.ThirdReset core
  · rw [resetCore_third h3]
    exact raisedBy_then (withResets_raisedBy h) (reportFailed_whole ..)
  · rw [resetCore_noted h3]
    exact h

theorem resetCore_log (s : State) (core : Nat) : s.log <+: (s.resetCore core).log := by
  by_cases h3 : s.ThirdReset core
  · rw [resetCore_third h3]
    exact (reportFailed_whole (s.withResets (s.nearResets core)) 8).log
  · rw [resetCore_noted h3]
    exact List.prefix_rfl

theorem resetCore_nv (s : State) (core : Nat) : (s.resetCore core).nv = s.nv := by
  by_cases h3 : s.ThirdReset core
  · rw [resetCore_third h3]
    exact (reportFailed_whole (s.withResets (s.nearResets core)) 8).nv
  · rw [resetCore_noted h3]
    rfl

theorem coresLost_resetCore (s : State) (core : Nat) : (s.resetCore core).coresLost = s.losesCores core := by
  have hresets : (s.resetCore core).health.resets = s.nearResets core := by
    by_cases h3 : s.ThirdReset core
    · rw [resetCore_third h3, (reportFailed_health _ _).1]
      rfl
    · rw [resetCore_noted h3]
      rfl
  unfold coresLost losesCores
  rw [hresets]

theorem afterCore_stands (h : s.losesCores core = false) : (s.resetCore core).afterCore = s.resetCore core := by
  unfold afterCore
  rw [coresLost_resetCore, h]
  rfl

/-- With every core of X0 lost the package starts its boot, its NV contents as they were (R457). -/
theorem afterCore_boots (h : s.losesCores core = true) : Booting s.nv (s.resetCore core).afterCore := by
  have hboot := firmwareReset_booting (s.resetCore core)
  rw [resetCore_nv] at hboot
  unfold afterCore
  rw [coresLost_resetCore, h]
  exact hboot

/-! ### What precedes a reset -/

/-- Up to the reset of a core registers and the log change alone, and neither its resets, the beat nor the order of the map. -/
structure PreReset (s v : State) : Prop where
  only : v = { s with regs := v.regs, log := v.log }
  beat : v.beat = s.beat
  rising : mrising v.regs = true

theorem PreReset.near (h : s.PreReset v) (core : Nat) : v.nearResets core = s.nearResets core := by
  unfold nearResets
  rw [h.beat, h.only]

theorem PreReset.third (h : s.PreReset v) (core : Nat) : v.ThirdReset core ↔ s.ThirdReset core := by
  unfold ThirdReset
  rw [h.near]

theorem PreReset.loses (h : s.PreReset v) (core : Nat) : v.losesCores core = s.losesCores core := by
  unfold losesCores
  rw [h.near]

theorem PreReset.coreReset (h : s.PreReset v) (core : Nat) : CoreReset core s (v.resetCore core) := by
  obtain ⟨hresets, hthird⟩ := resetCore_coreReset h.rising core
  exact ⟨hresets.trans (h.near core), fun h3 => hthird ((h.third core).2 h3)⟩

/-- A reset that is not the third changes no register beside what preceded it. -/
theorem PreReset.noted (h : s.PreReset v) (h3 : ¬s.ThirdReset core) :
    (v.resetCore core).regs = v.regs ∧
      v.resetCore core = { s with regs := (v.resetCore core).regs, log := (v.resetCore core).log
                                  health := (v.resetCore core).health } := by
  rw [resetCore_noted (mt (h.third core).1 h3)]
  refine ⟨rfl, ?_⟩
  unfold withResets
  rw [h.only]

theorem note_preReset (w : mrising s.regs = true) (unit : Nat) (n : Note) : s.PreReset (s.note unit n) := ⟨rfl, rfl, w⟩

theorem raiseAs_preReset (w : mrising s.regs = true) (unit core : Nat) :
    s.PreReset (s.raiseAs unit E.HEALTH_CORE_WDOG 0 [core]) := by
  have hframe := raiseAs_frame s unit E.HEALTH_CORE_WDOG 0 [core] 0
  obtain ⟨r, -, -, heq⟩ := raiseAs_eq s unit E.HEALTH_CORE_WDOG 0 [core] 0
  have hvalid : fkey R.TEMPO_STATUS_COUNT_VALID 0 0 0 ∉ flagKeys E.HEALTH_CORE_WDOG := by decide
  have honly : s.raiseAs unit E.HEALTH_CORE_WDOG 0 [core] = { s with
    regs := (s.raiseAs unit E.HEALTH_CORE_WDOG 0 [core]).regs
    log := (s.raiseAs unit E.HEALTH_CORE_WDOG 0 [core]).log } := by rw [heq]
  have htempo := congrArg State.tempo honly
  refine ⟨honly, ?_, hframe.rising w⟩
  unfold beat stamp State.on
  rw [hframe.rd rfl hvalid, htempo]

end State
end Sys2Proof.Machine
end

section
namespace Sys2Proof.Machine
namespace State
variable {s s₀ t u v : State} {core unit : Nat}

/-! ### Health records -/

/-- A health record that is due (R434). -/
theorem healthRecord_due (w : mrising s.regs = true) (b : Bool) :
    (s.sendHealth b).on R.HEALTH_STATUS_ELIGIBLE = b ∧
      s.Frame [] (fkey R.HEALTH_STATUS_ELIGIBLE 0 0 0 :: txKeys) (s.sendHealth b) ∧
      s.sendHealth b = { s with
        regs := (s.sendHealth b).regs, fab := (s.sendHealth b).fab
        health := { s.health with record := (s.healthWords b).eraseIdx 1 }
        gate := { s.gate with flits := (s.sendHealth b).gate.flits }, out := (s.sendHealth b).out } := by
  obtain ⟨hsends, -⟩ := sendHealth_sends s b
  have hshow := showHealth_frame s b
  have heligible : (s.showHealth b).rd R.HEALTH_STATUS_ELIGIBLE = b2n b := by
    have hself : (s.showHealth b).rd R.HEALTH_STATUS_ELIGIBLE = b2n b % 2 ^ R.HEALTH_STATUS_ELIGIBLE.wid := rd_wr_self w ..
    rw [hself]
    cases b <;> rfl
  have hother : fkey R.HEALTH_STATUS_ELIGIBLE 0 0 0 ∉ txKeys := fun hm => by
    obtain ⟨q, -, hq⟩ := List.mem_map.1 hm
    exact Fld.fkey_ne (by decide) hq
  refine ⟨?_, (hshow.mono (by decide) (by simp)).trans (hsends.toFrame.mono (by decide) (by simp)), ?_⟩
  · rw [State.on, hsends.rd rfl hother, heligible]
    cases b <;> rfl
  · exact hsends.only

/-! ### CLEAR_FAILED -/

/-- The causes that stand are kept (R431). -/
def keepStanding (s : State) : State := { s with health := { s.health with causes := s.standing } }

theorem clearFailed_over (h : s.standing = []) : clearFailedEffect s =
    (s.keepStanding.wr R.HEALTH_STATUS_FAILED 0).wr R.HEALTH_STATUS_CAUSE 0 := if_pos (List.isEmpty_iff.2 h)

theorem clearFailed_standing (h : s.standing ≠ []) : clearFailedEffect s = s.keepStanding :=
  if_neg (mt List.isEmpty_iff.1 h)

theorem keepStanding_frame (s : State) {fs : List Fld} {ns : List Nat} : s.Frame fs ns s.keepStanding := .others

theorem clearFailed_frame (s : State) :
    s.Frame [] [fkey R.HEALTH_STATUS_FAILED 0 0 0, fkey R.HEALTH_STATUS_CAUSE 0 0 0] (clearFailedEffect s) := by
  by_cases h : s.standing = []
  · rw [clearFailed_over h]
    exact (s.keepStanding_frame.trans (.wr (.inr (by simp)))).trans (.wr (.inr (by simp)))
  · rw [clearFailed_standing h]
    exact s.keepStanding_frame

theorem clearFailed_only (s : State) : clearFailedEffect s =
    { s with regs := (clearFailedEffect s).regs, health := { s.health with causes := s.standing } } := by
  by_cases h : s.standing = []
  · rw [clearFailed_over h]
    rfl
  · rw [clearFailed_standing h]
    rfl

theorem clearFailed_clears (w : mrising s.regs = true) (h : s.standing = []) :
    (clearFailedEffect s).on R.HEALTH_STATUS_FAILED = false ∧ (clearFailedEffect s).rd R.HEALTH_STATUS_CAUSE = 0 := by
  have hw : mrising s.keepStanding.regs = true := w
  have hfailed : (s.keepStanding.wr R.HEALTH_STATUS_FAILED 0).rd R.HEALTH_STATUS_FAILED = 0 :=
    (rd_wr_self hw ..).trans (Nat.zero_mod _)
  rw [clearFailed_over h]
  refine ⟨?_, (rd_wr_self (mrising_wr hw ..) ..).trans (Nat.zero_mod _)⟩
  rw [State.on, rd_wr_ne _ _ _ (Fld.fkey_ne (by decide)), hfailed]
  decide

/-! ### Log commits -/

theorem commitLog_sag (h : s.on R.PWR_STATUS_SAG = true) :
    s.commitLog = { s with power := { s.power with logHeld := true } } := if_pos h

/-- The pages of the log's ring in place (R440). -/
def paged (s : State) : Nv :=
  (pagesOf s.newLog).foldl (fun (v : Nv) pg =>
    { v with logPages := mset [] (v.logNext % 8192) pg v.logPages, logNext := v.logNext + 1 }) s.nv

/-- The pages of the log's ring change the log area of NV alone. -/
theorem paged_only (s : State) : s.paged = { s.nv with logPages := s.paged.logPages, logNext := s.paged.logNext } :=
  foldl_keeps (P := fun v : Nv => v = { s.nv with logPages := v.logPages, logNext := v.logNext })
    (fun v pg hv => by rw [hv]) (pagesOf s.newLog) s.nv rfl

/-- What a log commit keeps in NV (R424, R440). -/
def committedNv (s : State) : Nv :=
  { s.paged with
    retired := s.paged.retired ++ s.layout.retired.filter (fun u => !s.paged.retired.contains u)
    channels := s.paged.channels ++ s.layout.channels.filter (fun c => !s.paged.channels.contains c)
    forecasts := (List.range 4).map (fun k => s.rd R.HEALTH_MARGIN_FORECAST 0 k)
    d2d := s.nv.d2d ++ s.lanesNoted.filter (fun e => !s.nv.d2d.contains e)
    ageing := s.ageing }

theorem commitLog_eq (h : s.on R.PWR_STATUS_SAG = false) : s.commitLog =
    { s.wr R.HEALTH_LOG_COMMIT_STAMP s.stamp with
      nvLog := s.log, nv := s.committedNv, health := { s.health with committed := s.rd R.HEALTH_LOG_SEQ_SEQ } } :=
  if_neg (by simp [h])

/-- A union of two lists holds both. -/
theorem mem_union_of_filter {α : Type} [BEq α] [LawfulBEq α] {l m : List α} {x : α} (h : x ∈ l ++ m) :
    x ∈ l ++ m.filter (fun y => !l.contains y) := by
  rcases List.mem_append.1 h with h | h
  · exact List.mem_append_left _ h
  · by_cases hx : x ∈ l
    · exact List.mem_append_left _ hx
    · exact List.mem_append_right _ (List.mem_filter.2 ⟨h, by simpa using hx⟩)

theorem committedNv_keeps (s : State) :
    (∀ u ∈ s.nv.retired ++ s.layout.retired, u ∈ s.committedNv.retired) ∧
      (∀ c ∈ s.nv.channels ++ s.layout.channels, c ∈ s.committedNv.channels) ∧ s.committedNv.data = s.nv.data := by
  have hretired : s.paged.retired = s.nv.retired := by rw [paged_only]
  have hchannels : s.paged.channels = s.nv.channels := by rw [paged_only]
  have hdata : s.paged.data = s.nv.data := by rw [paged_only]
  unfold committedNv
  dsimp only
  rw [hretired, hchannels]
  exact ⟨fun _ => mem_union_of_filter, fun _ => mem_union_of_filter, hdata⟩

end State
end Sys2Proof.Machine
end

section
namespace Sys2Proof.Machine

/-- A key that a filter of a map drops reads the default. -/
theorem mget_mkeep_dropped {α : Type} (d : α) {p : Nat → Bool} {k : Nat} (hk : p k = false) (m : SMap α) :
    mget d (mkeep p m) k = d := by
  induction m with
  | nil => rfl
  | cons e r ih =>
    unfold mkeep at ih ⊢
    by_cases he : p e.1 = true
    · rw [List.filter_cons_of_pos (p := fun e : Nat × α => p e.1) he, mget, if_neg (fun h => by rw [h, hk] at he; cases he)]
      exact ih
    · rw [List.filter_cons_of_neg (p := fun e : Nat × α => p e.1) he]
      exact ih

namespace State
variable {s s₀ t u v : State} {ps : List Int} {bad : Bool} {r : Replan}

/-! ### The start of a re-plan -/

theorem replanStart_due (h : s.replanDue = true) : replanStartEffect s = s.startReplan := if_pos h

theorem replanStart_forward {d : Nat} {ds : List Nat} (h : s.replanDue = false) (hm : s.mayReplan = true)
    (hf : s.health.forward = d :: ds) : replanStartEffect s = s.startDie d := by
  unfold replanStartEffect
  rw [if_neg (by simp [h]), hm, hf]

theorem replanStart_none (h : s.replanDue = false) (hn : s.mayReplan = false ∨ s.health.forward = []) :
    replanStartEffect s = s := by
  unfold replanStartEffect
  rw [if_neg (by simp [h])]
  rcases hn with hn | hn
  · rw [hn]
  · rw [hn]
    split <;> rename_i h1 h2
    · cases h2
    · rfl

theorem replanNow_starts (h : (s.healthOn && !s.on R.HEALTH_STATUS_REPLAN) = true) : replanNowEffect s = s.startReplan := by
  simp only [Bool.and_eq_true, Bool.not_eq_true'] at h
  exact if_pos h

theorem replanNow_none (h : s.healthOn = false ∨ s.on R.HEALTH_STATUS_REPLAN = true) : replanNowEffect s = s := by
  refine if_neg fun ⟨hon, hoff⟩ => ?_
  rcases h with h | h
  · rw [h] at hon
    cases hon
  · rw [h] at hoff
    cases hoff

/-- The register that a re-plan's start writes (R443). -/
theorem replan_begun (w : mrising s.regs = true) (ht : t.regs = (s.wr R.HEALTH_STATUS_REPLAN 1).regs) :
    t.on R.HEALTH_STATUS_REPLAN = true ∧ s.regsBut t [fkey R.HEALTH_STATUS_REPLAN 0 0 0] := by
  have hself : (s.wr R.HEALTH_STATUS_REPLAN 1).rd R.HEALTH_STATUS_REPLAN = 1 := rd_wr_self w ..
  have hwr : s.Frame [] [fkey R.HEALTH_STATUS_REPLAN 0 0 0] (s.wr R.HEALTH_STATUS_REPLAN 1) :=
    .wr (.inr (List.mem_singleton_self _))
  refine ⟨?_, fun f i k j hn => (rd_eq_of_regs ht ..).trans (hwr.rd rfl hn)⟩
  rw [State.on, rd_eq_of_regs ht, hself]
  rfl

/-! ### The end of a sweep -/

/-- The registers that show a re-plan. -/
def replanFields : List Fld := [R.HEALTH_REPLAN_TILE, R.HEALTH_REPLAN_PHYS, R.HEALTH_REPLAN_SPARE, R.HEALTH_REPLAN_STAGE]

/-- The record of a re-plan, before its registers show it. -/
def withReplan (s : State) (r : Replan) : State := { s with health := { s.health with replan := some r } }

theorem setReplan_eq (s : State) (r : Replan) : s.setReplan r =
    ((((s.withReplan r).wr R.HEALTH_REPLAN_TILE r.tile).wr R.HEALTH_REPLAN_PHYS r.phys).wr R.HEALTH_REPLAN_SPARE r.spare).wr
      R.HEALTH_REPLAN_STAGE r.stage := rfl

theorem setReplan_regsOnly (s : State) (r : Replan) : (s.withReplan r).RegsOnly (s.setReplan r) :=
  (((wr_regsOnly ..).trans (wr_regsOnly ..)).trans (wr_regsOnly ..)).trans (wr_regsOnly ..)

/-- What a re-plan's change leaves alone: the lanes and tiles, the log, the slacks. -/
theorem setReplan_same (s : State) (r : Replan) : (s.setReplan r).health.replan = some r ∧ (s.setReplan r).layout = s.layout ∧
    (s.setReplan r).log = s.log ∧ (s.setReplan r).health.slack = s.health.slack := by
  rw [setReplan_regsOnly]
  exact ⟨rfl, rfl, rfl, rfl⟩

theorem setReplan_frame (s : State) (r : Replan) : s.Frame replanFields [] (s.setReplan r) := by
  have hreplan : s.Frame replanFields [] (s.withReplan r) := .others
  rw [setReplan_eq]
  exact (((hreplan.trans (.wr (.inl (by decide)))).trans (.wr (.inl (by decide)))).trans (.wr (.inl (by decide)))).trans
    (.wr (.inl (by decide)))

theorem setReplan_stage (w : mrising s.regs = true) (hr : r.stage = 3) : (s.setReplan r).rd R.HEALTH_REPLAN_STAGE = 3 := by
  rw [setReplan_eq, hr, rd_wr_self (mrising_wr (mrising_wr (mrising_wr (by exact w) ..) ..) ..)]
  rfl

/-- The slacks of a sweep that counts: key by key from code `c` on. -/
theorem mget_slacks (t : Nat) {x : Int} : ∀ (l : List Int) (c i : Nat) (m : SMap Nat), mrising m = true → l[i]? = some x →
    mget 0 ((l.zipIdx c).foldl (fun m e => mset 0 (32 * t + e.2) (65536 + e.1).toNat m) m) (32 * t + (c + i)) =
      (65536 + x).toNat := by
  have hlater : ∀ (l : List Int) (c j : Nat) (m : SMap Nat), j < c →
      mget 0 ((l.zipIdx c).foldl (fun m e => mset 0 (32 * t + e.2) (65536 + e.1).toNat m) m) (32 * t + j) =
        mget 0 m (32 * t + j) := by
    intro l
    induction l with
    | nil => intros; rfl
    | cons y l ih =>
      intro c j m hj
      rw [List.zipIdx_cons, List.foldl_cons, ih (c + 1) j _ (by omega), mget_mset_ne _ _ (by omega)]
  intro l
  induction l with
  | nil => intro c i m _ h; cases h
  | cons y l ih =>
    intro c i m w h
    rw [List.zipIdx_cons, List.foldl_cons]
    have w' : mrising (mset 0 (32 * t + c) (65536 + y).toNat m) = true := by
      unfold mset
      split
      · exact mrising_mdel w
      · exact mrising_mins w
    cases i with
    | zero =>
      cases h
      rw [hlater l (c + 1) (c + 0) _ (by omega)]
      exact mget_mset_self _ _ _ w
    | succ i =>
      rw [← ih (c + 1) i _ w' h]
      congr 2
      omega

theorem slackOf_setSlack (w : mrising s.health.slack = true) {t c : Nat} {x : Int} (hc : c < 23) (hx : ps[c]? = some x)
    (hmin : -65536 < x) : (s.setSlack t ps).slackOf c t = some x := by
  have hget : mget 0 (s.setSlack t ps).health.slack (32 * t + c) = (65536 + x).toNat := by
    have h := mget_slacks t (x := x) (ps.take 23) 0 c s.health.slack w (by rw [List.getElem?_take_of_lt hc, hx])
    rw [Nat.zero_add] at h
    exact h
  unfold slackOf
  dsimp only
  rw [hget, if_neg (by omega)]
  congr 1
  omega

theorem slackOf_of_slack (h : t.health.slack = s.health.slack) (c n : Nat) : t.slackOf c n = s.slackOf c n := by
  unfold slackOf
  rw [h]

theorem slackOf_noSlack (s : State) {c : Nat} (hc : c < 32) (t : Nat) : (s.noSlack t).slackOf c t = none := by
  have hdrop : decide ((32 * t + c) / 32 ≠ t) = false := decide_eq_false (by omega)
  have hget : mget 0 (s.noSlack t).health.slack (32 * t + c) = 0 :=
    mget_mkeep_dropped (p := fun k => decide (k / 32 ≠ t)) 0 hdrop s.health.slack
  unfold slackOf
  dsimp only
  rw [hget]
  rfl

/-- Whether a sweep finds a tile past OFFSET_MAX (R444). -/
def aboveMax (s : State) (ps : List Int) : Bool := (ps[17]?).any (fun x => decide (s.rd R.HEALTH_FLOOR_OFFSET_MAX < s.needed x))

theorem aboveMax_iff : s.aboveMax ps = true ↔ ∃ x, ps[17]? = some x ∧ s.rd R.HEALTH_FLOOR_OFFSET_MAX < s.needed x := by
  unfold aboveMax
  cases ps[17]? <;> simp

/-- The re-plan after its sweep. -/
def afterSweep (s : State) (r : Replan) : Replan := { r with stage := 3, since := s.bar, swept := true }

/-- A sweep that ends out of its time has no effect. -/
theorem sweepEnd_early (hr : s.health.replan = some r) (h : r.stage ≠ 2 ∨ s.bar < r.since + s.rd R.HEALTH_CFG_SWEEP_BARS) :
    replanSweepEndEffect ps bad s = s := by
  unfold replanSweepEndEffect
  rw [hr]
  exact if_pos h

theorem sweepEnd_none (hr : s.health.replan = none) : replanSweepEndEffect ps bad s = s := by
  unfold replanSweepEndEffect
  rw [hr]

/-- The flag of a tile past OFFSET_MAX (R444). -/
def lowTile (s : State) (r : Replan) : State := s.raise E.HEALTH_MARGIN_LOW 0 [0x11, r.phys]

/-- A tile that its sweep finds bad retires, its slacks forgotten (R443). -/
def badTile (s : State) (r : Replan) : State := (s.noSlack r.tile).retireUnit 2 0x11 r.phys

/-- What the end of a sweep keeps of it (R443, R444). -/
def swept (s : State) (ps : List Int) (bad : Bool) (r : Replan) : State :=
  let u := if s.aboveMax ps then s.lowTile r else s
  if bad || s.aboveMax ps then u.badTile r else u.setSlack r.tile ps

/-- The beat of a sweep's end. -/
theorem lowTile_bar (s : State) (r : Replan) : (s.lowTile r).bar = s.bar :=
  (raise_frame s E.HEALTH_MARGIN_LOW [0x11, r.phys]).rd (by decide) (List.not_mem_nil)

theorem noSlack_frame (s : State) (t : Nat) {fs : List Fld} {ns : List Nat} : s.Frame fs ns (s.noSlack t) := .others

theorem badTile_frame (s : State) (r : Replan) : s.Frame E.HEALTH_RETIRED.fields [] (s.badTile r) :=
  (noSlack_frame ..).trans (retireUnit_frame _ _ _ _ (List.Subset.refl _))

theorem badTile_slack (s : State) (r : Replan) : (s.badTile r).health.slack = (s.noSlack r.tile).health.slack := by
  unfold badTile retireUnit
  dsimp only
  split
  · rfl
  · rw [raise_only]
    rfl

theorem badTile_bar (s : State) (r : Replan) : (s.badTile r).bar = s.bar := (badTile_frame s r).rd (by decide) (List.not_mem_nil)

theorem swept_bar (s : State) (ps : List Int) (bad : Bool) (r : Replan) : (s.swept ps bad r).bar = s.bar := by
  unfold swept
  dsimp only
  split
  · rw [badTile_bar]
    split
    · exact lowTile_bar s r
    · rfl
  · split
    · exact lowTile_bar s r
    · rfl

/-- The end of a sweep that has run its time (R443, R444). -/
theorem sweepEnd_eq (hr : s.health.replan = some r) (h2 : r.stage = 2) (h : r.since + s.rd R.HEALTH_CFG_SWEEP_BARS ≤ s.bar) :
    replanSweepEndEffect ps bad s = (s.swept ps bad r).setReplan (s.afterSweep r) := by
  have hend : replanSweepEndEffect ps bad s = (s.swept ps bad r).setReplan ((s.swept ps bad r).afterSweep r) := by
    unfold replanSweepEndEffect
    rw [hr]
    exact if_neg (by rw [h2]; omega)
  rw [hend]
  unfold afterSweep
  rw [swept_bar]

theorem swept_good (hb : bad = false) (ha : s.aboveMax ps = false) : s.swept ps bad r = s.setSlack r.tile ps := by
  simp [swept, hb, ha]

theorem swept_bad (h : bad = true ∨ s.aboveMax ps = true) :
    s.swept ps bad r = (if s.aboveMax ps then s.lowTile r else s).badTile r := by
  unfold swept
  dsimp only
  rw [if_pos (by simpa using h)]

/-- A tile that retires has no slacks, and stands retired (R443). -/
theorem swept_retires (h : bad = true ∨ s.aboveMax ps = true) :
    (∀ c < 32, (s.swept ps bad r).slackOf c r.tile = none) ∧ (0x11, r.phys) ∈ (s.swept ps bad r).layout.retired := by
  rw [swept_bad h]
  exact ⟨fun c hc => (slackOf_of_slack (badTile_slack ..) c r.tile).trans (slackOf_noSlack _ hc r.tile), mem_retireUnit ..⟩

/-- What the end of a sweep writes. -/
def sweepFields : List Fld := E.HEALTH_MARGIN_LOW.fields ++ E.HEALTH_RETIRED.fields

theorem swept_frame (s : State) (ps : List Int) (bad : Bool) (r : Replan) : s.Frame sweepFields [] (s.swept ps bad r) := by
  have hlow : s.Frame sweepFields [] (s.lowTile r) := (raise_frame ..).mono
  unfold swept
  dsimp only
  split
  · split
    · exact hlow.trans (badTile_frame ..).mono
    · exact (badTile_frame ..).mono
  · split
    · exact hlow.trans .others
    · exact .others

/-- A tile past OFFSET_MAX raises MARGIN_LOW (R444). -/
theorem swept_raises (w : mrising s.regs = true) (h : s.aboveMax ps = true) :
    s.raised (s.swept ps bad r) E.HEALTH_MARGIN_LOW := by
  rw [swept_bad (.inr h), if_pos h]
  exact raised_then (raised_raise w (by decide)) (badTile_frame (s.lowTile r) r) (by decide) (by decide)
    (List.not_mem_nil) (List.not_mem_nil)

/-- What the end of a sweep that has run its time leaves (R443, R444). -/
theorem sweepEnd_leaves {ps : List Int} {bad : Bool} {r : Replan} (w : mrising s.regs = true)
    (ws : mrising s.health.slack = true) :
    let t := (s.swept ps bad r).setReplan (s.afterSweep r)
    let above := ∃ x, ps[17]? = some x ∧ s.rd R.HEALTH_FLOOR_OFFSET_MAX < s.needed x
    t.health.replan = some { r with stage := 3, since := s.bar, swept := true } ∧
      t.rd R.HEALTH_REPLAN_STAGE = 3 ∧ s.sameMem t ∧
      (bad = false → ¬above → t.layout = s.layout ∧ t.log = s.log ∧
        ∀ c < 23, ∀ x, ps[c]? = some x → -65536 < x → t.slackOf c r.tile = some x) ∧
      (bad = true ∨ above → (∀ c < 32, t.slackOf c r.tile = none) ∧ t.layout.retired.contains (0x11, r.phys) = true) ∧
      (above → s.raised t E.HEALTH_MARGIN_LOW) := by
  intro t above
  obtain ⟨hreplan, hlayout, hlog, hslack⟩ := setReplan_same (s.swept ps bad r) (s.afterSweep r)
  have hswept := swept_frame s ps bad r
  have hshow := setReplan_frame (s.swept ps bad r) (s.afterSweep r)
  refine ⟨hreplan, setReplan_stage (hswept.rising w) rfl, fun a => ?_, fun hb ha => ?_, fun hbad => ?_, fun ha => ?_⟩
  · exact (hswept.mono.trans (fs := sweepFields ++ replanFields) (ns := []) hshow.mono).sameMem a
  · have hgood : s.swept ps bad r = s.setSlack r.tile ps := swept_good hb (Bool.eq_false_iff.2 (mt aboveMax_iff.1 ha))
    refine ⟨hlayout.trans (by rw [hgood]; rfl), hlog.trans (by rw [hgood]; rfl), fun c hc x hx hmin => ?_⟩
    rw [slackOf_of_slack hslack, hgood]
    exact slackOf_setSlack ws hc hx hmin
  · obtain ⟨hnone, hretired⟩ := swept_retires (r := r) (hbad.imp_right aboveMax_iff.2)
    refine ⟨fun c hc => (slackOf_of_slack hslack ..).trans (hnone c hc), ?_⟩
    rw [hlayout]
    exact List.contains_iff_mem.2 hretired
  · exact raised_then (swept_raises w (aboveMax_iff.2 ha)) hshow (by decide) (by decide) (List.not_mem_nil) (List.not_mem_nil)

end State
end Sys2Proof.Machine
end

section
namespace Sys2Proof.Machine
namespace State
variable {s s₀ t u v : State} {p l q n : Nat} {m : Monitor}

/-! ### What a lost lane leaves of the health core's record -/

/-- The health core's own record is as it was. -/
def SameHealth (s t : State) : Prop := t.health = s.health

/-- A change that leaves the health core's record alone. -/
theorem SameHealth.others (h : s₀.SameHealth s) (hh : t.health = s.health := by rfl) : s₀.SameHealth t := hh.trans h

theorem SameHealth.ite {c : Prop} {_ : Decidable c} (hs : s₀.SameHealth s) (ht : s₀.SameHealth t) :
    s₀.SameHealth (if c then s else t) := by
  split <;> assumption

theorem SameHealth.foldl {β : Type} {f : State → β → State} {l : List β} (h : s₀.SameHealth s)
    (hf : ∀ {t b}, s₀.SameHealth t → s₀.SameHealth (f t b)) : s₀.SameHealth (l.foldl f s) :=
  foldl_keeps (P := s₀.SameHealth) (fun _ _ => hf) l s h

theorem SameHealth.wr (h : s₀.SameHealth s) {f : Fld} {v i k j : Nat} : s₀.SameHealth (s.wr f v i k j) := h.others

theorem SameHealth.raise (h : s₀.SameHealth s) {e : EvFlag} {i k : Nat} {args : List Nat} :
    s₀.SameHealth (s.raise e i args k) := h.others (by rw [raise_only])

theorem SameHealth.emit (h : s₀.SameHealth s) {o : Out} : s₀.SameHealth (s.emit o) := h.others

theorem SameHealth.withLayout (h : s₀.SameHealth s) {y : Layout} : s₀.SameHealth { s with layout := y } := h.others

theorem SameHealth.badLane (h : s₀.SameHealth s) {x : Nat × Nat} :
    s₀.SameHealth { s with fab := { s.fab with bad := mset (0, 0) l x s.fab.bad } } := h.others

theorem SameHealth.setPort (h : s₀.SameHealth s) {x : PortSt} : s₀.SameHealth (s.setPort p x) := h.others

theorem SameHealth.transmit (h : s₀.SameHealth s) {ports : List Nat} {p : Pkt} : s₀.SameHealth (s.transmit ports p) :=
  h.foldl fun h => h.others

theorem SameHealth.setLanes (h : s₀.SameHealth s) {st : Nat} : s₀.SameHealth (s.setLanes p st) := h.foldl fun h => h.wr

theorem SameHealth.sendOn (h : s₀.SameHealth s) {ports : List Nat} {typ : Nat} {bcast : Bool} {data : List Byte} :
    s₀.SameHealth (s.sendOn ports typ bcast data) := .ite h h.transmit.emit

theorem SameHealth.updatePlanes (h : s₀.SameHealth s) : s₀.SameHealth s.updatePlanes :=
  have h1 := h.wr.wr.wr
  (h1.raise.ite h1).others

theorem SameHealth.castPorts (h : s₀.SameHealth s) : s₀.SameHealth s.castPorts := h.others.sendOn

theorem SameHealth.countSent (h : s₀.SameHealth s) {o : Op} : s₀.SameHealth (s.countSent o) := by
  unfold State.countSent
  split
  · exact .ite h.others h
  · exact h

theorem SameHealth.usedPort (h : s₀.SameHealth s) {unit : Nat} {p : Pkt} {q : Option Nat} :
    s₀.SameHealth (s.usedPort unit p q) := by
  unfold State.usedPort
  split
  · exact .ite h.others h
  · exact h

theorem SameHealth.resendOp (h : s₀.SameHealth s) {o : Op} : s₀.SameHealth (s.resendOp o) := by
  unfold State.resendOp
  extract_lets us bad pkt p q lost s1
  have h1 : s₀.SameHealth s1 := h.others
  clear_value s1 q lost bad
  refine .ite h.others ?_
  split
  · exact ((h1.countSent.ite h1).usedPort.transmit).emit
  · exact h1

theorem SameHealth.moveTo (h : s₀.SameHealth s) {st : Nat} : s₀.SameHealth (s.moveTo p st) :=
  have h2 := h.wr.ite h.wr.wr
  have h3 := h2.ite h2.wr
  .ite h3 (h3.updatePlanes.castPorts.foldl fun h => h.resendOp)

theorem SameHealth.portDown (h : s₀.SameHealth s) : s₀.SameHealth (s.portDown p) :=
  (((h.others.foldl fun h => h.wr).setPort).setLanes).moveTo

theorem SameHealth.linkDown (h : s₀.SameHealth s) : s₀.SameHealth (s.linkDown p) := h.raise.portDown

theorem SameHealth.fitWidth (h : s₀.SameHealth s) : s₀.SameHealth (s.fitWidth p) :=
  .ite h.moveTo (.ite h.raise.moveTo (.ite h.raise.moveTo.wr h.linkDown))

theorem SameHealth.laneMap (h : s₀.SameHealth s) {on : Bool} : s₀.SameHealth (s.laneMap l q on) := h.sendOn

theorem SameHealth.retireUnit (h : s₀.SameHealth s) {cause cls : Nat} : s₀.SameHealth (s.retireUnit cause cls q) :=
  .ite h h.others.raise

theorem SameHealth.endTest (h : s₀.SameHealth s) {x : LaneTest} : s₀.SameHealth (s.endTest x) := h.others.wr.wr

theorem SameHealth.stopTest (h : s₀.SameHealth s) : s₀.SameHealth (s.stopTest n) := by
  unfold State.stopTest
  split
  · exact h.laneMap.endTest
  · exact h

theorem SameHealth.retireLane (h : s₀.SameHealth s) : s₀.SameHealth (s.retireLane l) := by
  unfold State.retireLane
  extract_lets mine s1 old s2
  have h1 : s₀.SameHealth s1 := by
    unfold s1 mine
    split
    · exact h
    · exact h.stopTest
  have h2 : s₀.SameHealth s2 := .ite h1 h1.retireUnit
  clear_value s2
  split
  · exact h2.endTest.withLayout
  · exact h2.withLayout.laneMap
  · exact h2.withLayout.wr

theorem SameHealth.loseLane (h : s₀.SameHealth s) : s₀.SameHealth (s.loseLane l) :=
  have h1 := h.raise.retireLane.badLane
  .ite h1 (.ite h1 h1.fitWidth)

/-- A lane's eye, low or not, leaves the health core's record (R442). -/
theorem SameHealth.sampleEye (h : s₀.SameHealth s) {mv : Nat} : s₀.SameHealth (s.sampleEye l mv) :=
  .ite (.ite h.wr.raise.loseLane h.wr.raise) h.wr

/-! ### Monitors -/

/-- The dies whose drift has used half the floor (R442). -/
def farDies (s : State) (m : Monitor) : List (Nat × Nat) :=
  (m.drift.take 4).zipIdx.filter (fun e => decide (s.rd R.HEALTH_FLOOR_SLACK_PS ≤ 2 * e.1))

/-- Raise MARGIN_LOW for dies. -/
def lowDies (s : State) (l : List (Nat × Nat)) : State :=
  l.foldl (fun (t : State) e => t.raise E.HEALTH_MARGIN_LOW 0 [0x01, e.2]) s

/-- Keep the largest drifts. -/
def keepDrift (s : State) (m : Monitor) : State :=
  (m.drift.take 4).zipIdx.foldl (fun (t : State) e =>
    { t with health := { t.health with drift := mset 0 e.2 (max e.1 (mget 0 t.health.drift e.2)) t.health.drift } }) s

/-- Bring dies forward. -/
def bringForward (s : State) (l : List (Nat × Nat)) : State :=
  { s with health := { s.health with
    forward := (List.range 4).filter (fun d => s.health.forward.contains d || l.any (fun e => e.2 = d)) } }

/-- Sample lanes' eyes. -/
def sampleEyes (s : State) (l : List (Nat × Nat)) : State := l.foldl (fun t e => t.sampleEye e.2 e.1) s

theorem monitorSample_eq (h : s.healthOn = true) : monitorSampleEffect m s =
    ((((s.lowDies (s.farDies m)).keepDrift m).bringForward (s.farDies m)).sampleEyes (m.eyes.take 192).zipIdx) := if_pos h

theorem sampleEyes_health (s : State) (l : List (Nat × Nat)) : (s.sampleEyes l).health = s.health :=
  foldl_keeps (P := s.SameHealth) (fun _ _ h => SameHealth.sampleEye h) l s rfl

/-- Drift of half the floor brings the die's re-plan forward (R442). -/
theorem monitorSample_forward (h : s.healthOn = true) {d x : Nat} (hd : d < 4) (hx : m.drift[d]? = some x)
    (hfar : s.rd R.HEALTH_FLOOR_SLACK_PS ≤ 2 * x) : d ∈ (monitorSampleEffect m s).health.forward := by
  have hmem : (x, d) ∈ s.farDies m := by
    refine List.mem_filter.2 ⟨List.mem_zipIdx_iff_getElem?.2 ?_, decide_eq_true hfar⟩
    rw [List.getElem?_take_of_lt hd, hx]
  rw [monitorSample_eq h, sampleEyes_health]
  refine List.mem_filter.2 ⟨List.mem_range.2 hd, ?_⟩
  rw [Bool.or_eq_true]
  exact .inr (List.any_eq_true.2 ⟨(x, d), hmem, decide_eq_true rfl⟩)

/-- Write eyes into the lanes' registers. -/
def writeEyes (s : State) (l : List (Nat × Nat)) : State :=
  l.foldl (fun t e => t.wr R.LANE_STATUS_EYE_MV (min 65535 e.1) e.2) s

theorem writeEyes_regsOnly (s : State) (l : List (Nat × Nat)) : s.RegsOnly (s.writeEyes l) :=
  foldl_keeps (P := s.RegsOnly) (fun _ _ h => h.trans (wr_regsOnly ..)) l s rfl

theorem writeEyes_frame {ns : List Nat} {l : List (Nat × Nat)} (s : State) (h : ∀ e ∈ l, fkey R.LANE_STATUS_EYE_MV e.2 0 0 ∈ ns) :
    s.Frame [] ns (s.writeEyes l) := by
  induction l generalizing s with
  | nil => exact .refl s
  | cons e l ih =>
    exact (Frame.wr (.inr (h e (List.mem_cons_self ..)))).trans (ih _ fun e' he => h e' (List.mem_cons_of_mem _ he))

/-- Each lane's register reads its eye. -/
theorem writeEyes_rd {mv : Nat} : ∀ (l : List Nat) (c i : Nat) (s : State), mrising s.regs = true → c + l.length ≤ 2 ^ 16 →
    l[i]? = some mv → (s.writeEyes (l.zipIdx c)).rd R.LANE_STATUS_EYE_MV (c + i) = min 65535 mv := by
  intro l
  induction l with
  | nil => intro c i s _ _ h; cases h
  | cons y l ih =>
    intro c i s w hc h
    rw [List.length_cons] at hc
    cases i with
    | zero =>
      cases h
      have hlater : fkey R.LANE_STATUS_EYE_MV c 0 0 ∉
          (l.zipIdx (c + 1)).map (fun e => fkey R.LANE_STATUS_EYE_MV e.2 0 0) := fun hm => by
        obtain ⟨e, he, hkey⟩ := List.mem_map.1 hm
        have hle := List.le_snd_of_mem_zipIdx he
        have hlt := List.snd_lt_of_mem_zipIdx he
        exact fkey_ne_of_inst rfl (by rw [Nat.mod_eq_of_lt (by omega), Nat.mod_eq_of_lt (by omega)]; omega) hkey
      have hrest := writeEyes_frame (s.wr R.LANE_STATUS_EYE_MV (min 65535 mv) c) (l := l.zipIdx (c + 1))
        (fun e he => List.mem_map_of_mem (f := fun e : Nat × Nat => fkey R.LANE_STATUS_EYE_MV e.2 0 0) he)
      have hself : (s.wr R.LANE_STATUS_EYE_MV (min 65535 mv) c).rd R.LANE_STATUS_EYE_MV c = min 65535 mv :=
        (rd_wr_self w ..).trans (Nat.mod_eq_of_lt (Nat.lt_of_le_of_lt (Nat.min_le_left ..) (by decide)))
      exact (hrest.rd rfl hlater).trans hself
    | succ i =>
      have hnext := ih (c + 1) i (s.wr R.LANE_STATUS_EYE_MV (min 65535 y) c) (mrising_wr w ..) (by omega) h
      rw [show c + (i + 1) = c + 1 + i by omega]
      exact hnext

/-- Eyes at or above the floor are latched, and that is all (R442). -/
theorem sampleEyes_open {l : List (Nat × Nat)} (h : ∀ e ∈ l, s.rd R.HEALTH_FLOOR_EYE_MV ≤ e.1) :
    s.sampleEyes l = s.writeEyes l := by
  induction l generalizing s with
  | nil => rfl
  | cons e l ih =>
    have hfloor : (s.wr R.LANE_STATUS_EYE_MV (min 65535 e.1) e.2).rd R.HEALTH_FLOOR_EYE_MV = s.rd R.HEALTH_FLOOR_EYE_MV :=
      rd_wr_ne _ _ _ (Fld.fkey_ne (by decide))
    have hopen : s.sampleEye e.2 e.1 = s.wr R.LANE_STATUS_EYE_MV (min 65535 e.1) e.2 :=
      if_neg (by rw [hfloor]; exact fun hlow => Nat.not_le.2 hlow.1 (h e (List.mem_cons_self ..)))
    unfold sampleEyes writeEyes at ih ⊢
    rw [List.foldl_cons, List.foldl_cons, hopen]
    exact ih fun e' he => by rw [hfloor]; exact h e' (List.mem_cons_of_mem _ he)

theorem keepDrift_only (s : State) (m : Monitor) :
    s.keepDrift m = { s with health := { s.health with drift := (s.keepDrift m).health.drift } } :=
  foldl_keeps (P := fun t : State => t = { s with health := { s.health with drift := t.health.drift } })
    (fun t e ht => by rw [ht]) (m.drift.take 4).zipIdx s rfl

end State
end Sys2Proof.Machine
end

section
namespace Sys2Proof.Machine
namespace State
variable {s t u v : State} {m : Monitor} {core : Nat}

theorem farDies_near (h : m.drift.all (fun d => decide (2 * d < s.rd R.HEALTH_FLOOR_SLACK_PS)) = true) : s.farDies m = [] := by
  refine List.filter_eq_nil_iff.2 fun e he => ?_
  have hmem : e.1 ∈ m.drift := List.mem_of_mem_take (List.fst_mem_of_mem_zipIdx he)
  have hlt := of_decide_eq_true (List.all_eq_true.1 h e.1 hmem)
  simp only [decide_eq_true_eq]
  omega

/-- The record of a day's drift, with no die brought forward by it. -/
def driftKept (s : State) (m : Monitor) : State := (s.keepDrift m).bringForward []

theorem driftKept_only (s : State) (m : Monitor) : s.driftKept m = { s with health := { s.health with
    drift := (s.driftKept m).health.drift, forward := (List.range 4).filter s.health.forward.contains } } := by
  have hforward : (List.range 4).filter (fun d => (s.keepDrift m).health.forward.contains d ||
      ([] : List (Nat × Nat)).any (fun e => e.2 = d)) = (List.range 4).filter s.health.forward.contains := by
    rw [keepDrift_only]
    exact List.filter_congr fun d _ => Bool.or_false _
  unfold driftKept bringForward
  rw [hforward, keepDrift_only]

/-- A sample without drift to speak of and with open eyes (R442). -/
theorem monitorSample_quiet (hon : s.healthOn = true)
    (hd : m.drift.all (fun d => decide (2 * d < s.rd R.HEALTH_FLOOR_SLACK_PS)) = true)
    (he : m.eyes.all (fun e => decide (s.rd R.HEALTH_FLOOR_EYE_MV ≤ e)) = true) :
    monitorSampleEffect m s = (s.driftKept m).writeEyes (m.eyes.take 192).zipIdx := by
  have hregs : (s.driftKept m).rd R.HEALTH_FLOOR_EYE_MV = s.rd R.HEALTH_FLOOR_EYE_MV :=
    rd_eq_of_regs (by rw [driftKept_only]) ..
  rw [monitorSample_eq hon, farDies_near hd]
  refine sampleEyes_open (s := s.driftKept m) fun e hmem => ?_
  rw [hregs]
  exact of_decide_eq_true (List.all_eq_true.1 he e.1 (List.mem_of_mem_take (List.fst_mem_of_mem_zipIdx hmem)))

theorem lanes_of_zipIdx {e : Nat × Nat} (h : e ∈ (m.eyes.take 192).zipIdx) : e.2 < 192 := by
  have hlt := List.snd_lt_of_mem_zipIdx h
  rw [List.length_take] at hlt
  omega

theorem RegsOnly.of_driftKept (h : (s.driftKept m).RegsOnly t) : t = { s with regs := t.regs, health := { s.health with
    drift := t.health.drift, forward := (List.range 4).filter s.health.forward.contains } } := by
  rw [h, driftKept_only]

/-- What such a sample leaves (R442). -/
theorem driftKept_eyes (w : mrising s.regs = true) :
    let t := (s.driftKept m).writeEyes (m.eyes.take 192).zipIdx
    t = { s with regs := t.regs, health := { s.health with
      drift := t.health.drift, forward := (List.range 4).filter s.health.forward.contains } } ∧
    (∀ l < 192, ∀ mv, m.eyes[l]? = some mv → t.rd R.LANE_STATUS_EYE_MV l = min 65535 mv) ∧
    s.regsBut t ((List.range 192).map (fun l => fkey R.LANE_STATUS_EYE_MV l 0 0)) := by
  have hregs : (s.driftKept m).regs = s.regs := by rw [driftKept_only]
  have hw : mrising (s.driftKept m).regs = true := hregs ▸ w
  refine ⟨?_, fun l hl mv hmv => ?_, fun f i k j hn => ?_⟩
  · exact (writeEyes_regsOnly (s.driftKept m) (m.eyes.take 192).zipIdx).of_driftKept
  · have hread := writeEyes_rd (m.eyes.take 192) 0 l (s.driftKept m) hw (by rw [List.length_take]; omega)
      (by rw [List.getElem?_take_of_lt hl, hmv])
    rwa [Nat.zero_add] at hread
  · have hframe := writeEyes_frame (s.driftKept m) (l := (m.eyes.take 192).zipIdx)
      (ns := (List.range 192).map (fun l => fkey R.LANE_STATUS_EYE_MV l 0 0))
      (fun e he => List.mem_map.2 ⟨e.2, List.mem_range.2 (lanes_of_zipIdx he), rfl⟩)
    exact (hframe.rd rfl hn).trans (rd_eq_of_regs hregs ..)

/-! ### Core resets, case by case -/

theorem coreWatchdog_reset (w : mrising s.regs = true) (core : Nat) (hl : s.losesCores core = false) :
    s.raisedBy (coreWatchdogEffect core s) (srcUnit 0x02 core) E.HEALTH_CORE_WDOG ∧
      CoreReset core s (coreWatchdogEffect core s) ∧
      (¬s.ThirdReset core → s.regsBut (coreWatchdogEffect core s) (flagKeys E.HEALTH_CORE_WDOG) ∧
        coreWatchdogEffect core s = { s with regs := (coreWatchdogEffect core s).regs, log := (coreWatchdogEffect core s).log
                                             health := (coreWatchdogEffect core s).health }) := by
  have hpre := raiseAs_preReset w (srcUnit 0x02 core) core
  have heq : coreWatchdogEffect core s = (s.raiseAs (srcUnit 0x02 core) E.HEALTH_CORE_WDOG 0 [core]).resetCore core :=
    afterCore_stands ((hpre.loses core).trans hl)
  rw [heq]
  refine ⟨raisedBy_resetCore (raisedBy_raiseAs w (by decide)), hpre.coreReset core, fun h3 => ?_⟩
  obtain ⟨hregs, honly⟩ := hpre.noted h3
  exact ⟨fun f i k j hn => (rd_eq_of_regs hregs ..).trans ((raiseAs_frame ..).rd rfl hn), honly⟩

/-- A core whose code check fails (R441). -/
def failedCode (s : State) (core : Nat) (ecc : Bool) : State :=
  s.note (srcUnit 0x02 core) (if ecc then .coreEcc core else .coreReload core)

theorem coreCodeCheck_good {crc : BitVec 32}
    (h : crc = Config.coreCrc core (crc32c (mgetList 0 s.boot.bundleCopy 0 s.bundleLen))) :
    coreCodeCheckEffect core crc false s = s := if_pos h

theorem coreCodeCheck_bad {crc : BitVec 32} {ecc : Bool}
    (h : ¬(ecc = false ∧ crc = Config.coreCrc core (crc32c (mgetList 0 s.boot.bundleCopy 0 s.bundleLen)))) :
    coreCodeCheckEffect core crc ecc s = ((s.failedCode core ecc).resetCore core).afterCore := by
  unfold coreCodeCheckEffect failedCode
  cases ecc with
  | true => rfl
  | false => exact if_neg fun hcrc => h ⟨rfl, hcrc⟩

theorem failedCode_reset (w : mrising s.regs = true) (ecc : Bool) (hl : s.losesCores core = false) :
    let t := ((s.failedCode core ecc).resetCore core).afterCore
    CoreReset core s t ∧
      (∃ r ∈ t.log.drop s.log.length, r.what = .note (if ecc then .coreEcc core else .coreReload core) ∧
        r.unit = srcUnit 0x02 core) ∧
      (¬s.ThirdReset core → t.regs = s.regs ∧ t = { s with regs := t.regs, log := t.log, health := t.health }) := by
  intro t
  have hpre : s.PreReset (s.failedCode core ecc) := note_preReset w ..
  have ht : t = (s.failedCode core ecc).resetCore core := afterCore_stands ((hpre.loses core).trans hl)
  rw [ht]
  refine ⟨hpre.coreReset core, ?_, hpre.noted⟩
  let r : LogRec := ⟨s.stamp, s.holdover, srcUnit 0x02 core, .note (if ecc then .coreEcc core else .coreReload core), []⟩
  have hlog : (s.failedCode core ecc).log = s.log ++ [r] := rfl
  have hr : r ∈ (s.failedCode core ecc).log.drop s.log.length := by
    rw [hlog, List.drop_left]
    exact List.mem_singleton_self r
  exact ⟨r, ((resetCore_log ..).drop _).subset hr, rfl, rfl⟩

/-- With every core of X0 lost, the package resets itself (R441, R457). -/
theorem coreWatchdog_boots (w : mrising s.regs = true) (hl : s.losesCores core = true) :
    Booting s.nv (coreWatchdogEffect core s) := by
  have hpre := raiseAs_preReset w (srcUnit 0x02 core) core
  have hboot := afterCore_boots ((hpre.loses core).trans hl)
  rw [congrArg State.nv hpre.only] at hboot
  exact hboot

theorem failedCode_boots (w : mrising s.regs = true) (ecc : Bool) (hl : s.losesCores core = true) :
    Booting s.nv ((s.failedCode core ecc).resetCore core).afterCore := by
  have hpre : s.PreReset (s.failedCode core ecc) := note_preReset w ..
  have hboot := afterCore_boots ((hpre.loses core).trans hl)
  rw [congrArg State.nv hpre.only] at hboot
  exact hboot

end State

open State

/-- Settles O59, clause by clause: records, failed roles, cores and log commits; re-plans and monitors. -/
theorem healthAndReplans : Obligations.HealthAndReplans := by
  refine ⟨fun s hwf => ⟨fun hoff => ?_, fun hdue => ?_, ?_, fun core crc ecc => ?_, fun hsag => ?_, fun hsag => ?_⟩,
    fun s hwf => ⟨fun hdue hnone => ?_, fun d ds hdue hmay hf => ?_, fun hnone => ?_, fun c hc => ?_,
      fun ps bad => ?_, fun m => ?_⟩⟩
  all_goals obtain ⟨w, -⟩ := rising_of_wf hwf
  · exact congrArg Host.Outcome.next (if_neg (by simp [hoff]))
  · obtain ⟨heligible, hframe, honly⟩ := healthRecord_due w s.eligible
    have hhealth := congrArg State.health honly
    exact ⟨_, congrArg Host.Outcome.next (if_pos hdue), heligible, hframe.regsBut, hhealth, (sendHealth_sends s s.eligible).2,
      by rw [hhealth]; exact honly⟩
  · have honly := clearFailed_only s
    have hhealth := congrArg State.health honly
    exact ⟨_, rfl, hhealth, clearFailed_clears w, fun hs => by rw [clearFailed_standing hs]; rfl, (clearFailed_frame s).regsBut,
      by rw [hhealth]; exact honly⟩
  · refine ⟨fun ⟨he, hcrc⟩ => ?_, fun hl => ⟨⟨_, rfl, ?_⟩,
      fun hbad => ⟨_, congrArg Host.Outcome.next (coreCodeCheck_bad hbad), ?_⟩⟩,
      fun hl c hc => ?_⟩
    · subst he
      exact congrArg Host.Outcome.next (coreCodeCheck_good hcrc)
    · obtain ⟨hraised, ⟨hresets, hthird⟩, hown⟩ := coreWatchdog_reset w core.val hl
      exact ⟨hraised, ⟨hresets, hthird⟩, hown⟩
    · obtain ⟨⟨hresets, hthird⟩, hlog, hown⟩ := failedCode_reset w ecc hl
      exact ⟨⟨hresets, hthird⟩, hlog, hown⟩
    · have hboots : ∃ t, exec c s = .next t ∧ Booting s.nv t := by
        rcases List.mem_append.1 hc with hc | hc
        · rw [List.mem_singleton.1 hc]
          exact ⟨_, rfl, coreWatchdog_boots w hl⟩
        · split at hc
          · cases hc
          · rename_i hbad
            rw [List.mem_singleton.1 hc]
            exact ⟨_, congrArg Host.Outcome.next (coreCodeCheck_bad hbad), failedCode_boots w ecc hl⟩
      obtain ⟨t, ht, hboot⟩ := hboots
      exact ⟨t, ht, hboot.mem, hboot.nv, hboot.perst, hboot.stage⟩
  · exact congrArg Host.Outcome.next (commitLog_sag hsag)
  · obtain ⟨hretired, hchannels, hdata⟩ := committedNv_keeps s
    have hwr : s.Frame [] [fkey R.HEALTH_LOG_COMMIT_STAMP 0 0 0] (s.wr R.HEALTH_LOG_COMMIT_STAMP s.stamp) :=
      .wr (.inr (List.mem_singleton_self _))
    exact ⟨_, congrArg Host.Outcome.next (commitLog_eq hsag), rfl, hretired, hchannels, rfl, hdata, rfl, rd_wr_self w ..,
      hwr.regsBut, rfl⟩
  · exact congrArg Host.Outcome.next (replanStart_none hdue hnone)
  · obtain ⟨hon, hbut⟩ := replan_begun w (t := s.startDie d) rfl
    exact ⟨_, congrArg Host.Outcome.next (replanStart_forward hdue hmay hf), hon, hbut, rfl⟩
  · exact congrArg Host.Outcome.next (replanNow_none hnone)
  · intro hyes
    obtain ⟨hon, hbut⟩ := replan_begun w (t := s.startReplan) rfl
    have hexec : exec c.1 s = .next s.startReplan := by
      rcases List.mem_pair.1 hc with rfl | rfl
      · exact congrArg Host.Outcome.next (replanStart_due hyes)
      · exact congrArg Host.Outcome.next (replanNow_starts hyes)
    exact ⟨_, hexec, hon, hbut, rfl⟩
  · refine ⟨fun hr => congrArg Host.Outcome.next (sweepEnd_none hr), fun r hr =>
      ⟨fun hearly => congrArg Host.Outcome.next (sweepEnd_early hr hearly), fun h2 hover =>
        ⟨_, congrArg Host.Outcome.next (sweepEnd_eq hr h2 hover), ?_⟩⟩⟩
    exact sweepEnd_leaves w ((mwf_iff _ _).1 ((wf_iff s).1 hwf).slack).1
  · refine ⟨fun hoff => congrArg Host.Outcome.next (if_neg (by simp [hoff])), fun hon => ⟨fun hd he =>
      ⟨_, congrArg Host.Outcome.next (monitorSample_quiet hon hd he), driftKept_eyes w⟩, _, rfl, fun d hd x hx hfar => ?_⟩⟩
    exact monitorSample_forward hon hd hx hfar

end Sys2Proof.Machine
end

section
namespace Sys2Proof.Machine
namespace State
variable {s : State} {set : Nat} {is : Cmd → Bool} {g : Go}

/-! ### When a command waits -/

/-- Why the command at a Set's issue point may not issue: its Set, its position, its token or its shape register (R76, R101,
R178). -/
def Waits (s : State) (set : Nat) (c : Cmd) : Prop :=
  s.setState set ≠ 2 ∨ (s.st set).repair ≠ [] ∨ (s.timed set = true ∧ s.tempo.now < (s.st set).start + c.pos) ∨
    (∃ b, c.wsb = some b ∧ (s.rd R.SCHED_SB_SB set).testBit b = false) ∨
    (∃ k, c.sh = some k ∧ (s.st set).loaded.testBit k = false)

/-- The command that the issue point stands at. -/
theorem nextCmd_some {c : Cmd} (h : s.nextCmd set = some c) : s.setState set = 2 ∧ (s.st set).repair = [] ∧
    c = s.cmdAt (s.rd R.SCHED_STREAM_ADDR set + 32 * s.rd R.SCHED_STATUS_ISSUE_IDX set) := by
  unfold nextCmd at h
  dsimp only at h
  split at h
  case isTrue hrun =>
    obtain ⟨hstate, -, -, -, hrepair, -⟩ := hrun
    exact ⟨hstate, hrepair, (Option.some.inj h).symm⟩
  case isFalse => cases h

/-- What a ready command is, and that its position, token and shape register have come. -/
theorem ready_some (h : s.ready set is = some g) :
    s.nextCmd set = some g.c ∧ s.inputsReady set g.c = true := by
  unfold ready at h
  split at h
  case h_1 => cases h
  case h_2 c hc =>
    dsimp only at h
    split at h
    case isTrue hin =>
      obtain ⟨-, hin, -⟩ := hin
      cases h
      exact ⟨hc, hin⟩
    case isFalse => cases h

theorem inputsReady_iff {c : Cmd} : s.inputsReady set c = true ↔
    (s.timed set = true → (s.st set).start + c.pos ≤ s.tempo.now) ∧
    (∀ b, c.wsb = some b → (s.rd R.SCHED_SB_SB set).testBit b = true) ∧
    (∀ k, c.sh = some k → (s.st set).loaded.testBit k = true) := by
  simp only [inputsReady, Bool.and_eq_true, and_assoc]
  refine and_congr ?_ (and_congr ?_ ?_)
  · cases s.timed set <;> simp
  · cases c.wsb <;> simp
  · cases c.sh <;> simp

/-- No event finds a command ready that waits. -/
theorem ready_of_waits (h : s.Waits set (s.cmdAt (s.rd R.SCHED_STREAM_ADDR set + 32 * s.rd R.SCHED_STATUS_ISSUE_IDX set))) :
    s.ready set is = none := by
  rw [Option.eq_none_iff_forall_ne_some]
  intro g hg
  obtain ⟨hnext, hin⟩ := ready_some hg
  obtain ⟨hstate, hrepair, hc⟩ := nextCmd_some hnext
  obtain ⟨hpos, htok, hshape⟩ := inputsReady_iff.1 hin
  rw [← hc] at h
  rcases h with h | h | ⟨ht, hlate⟩ | ⟨b, hb, hoff⟩ | ⟨k, hk, hoff⟩
  · exact h hstate
  · exact h hrepair
  · exact absurd (hpos ht) (by omega)
  · exact absurd (htok b hb) (by simp [hoff])
  · exact absurd (hshape k hk) (by simp [hoff])

theorem issueEvent_none (h : s.ready set is = none) (eff : State → Go → State × FlightKind × Eff) :
    s.issueEvent set is eff = s := by
  unfold issueEvent
  rw [h]

/-- What the gate does not let through stays at the issue point, and the gate remembers it (R76, R409). -/
theorem issueEvent_held (h : s.ready set is = some g) (hb : g.bad = false) (hi : g.idle = false)
    (hg : s.gate.closed = true ∨ ((s.charge set g.c g.n).2 ≠ 0 ∧
      s.gate.opens (set / 12) (s.sharesOf set (s.charge set g.c g.n).1 (s.charge set g.c g.n).2) = false))
    (eff : State → Go → State × FlightKind × Eff) :
    s.issueEvent set is eff = { s with gate := s.gate.hold set (s.charge set g.c g.n).2 s.tempo.now } := by
  unfold issueEvent
  rw [h]
  dsimp only
  rw [if_neg (by simp [hb])]
  exact if_pos ⟨hi, hg⟩

end State

/-- The rows of the table that issue a Set's command, each with the commands that it names. -/
def issueRows (set : SetId) (x : Ecc) : List (Instr × (Cmd → Bool)) :=
  [(.fetch set, isOp 1), (.mpass set x, isOp 2), (.check set x, isOp 4), (.store set x, isOp 5), (.handoff set x, isOp 6),
    (.fcopy set x, isOp 7), (.wait set, isOp 8), (.sread set, isOp 9), (.swrite set x, isOp 10), (.endBar set, isOp 0x3F),
    (.copy set x, isVop 0x00 0x00), (.add set x, isVop 0x01 0x01), (.sub set x, isVop 0x02 0x02), (.mul set x, isVop 0x03 0x03),
    (.fma set x, isVop 0x04 0x04), (.max set x, isVop 0x05 0x05), (.min set x, isVop 0x06 0x06), (.exp set x, isVop 0x08 0x08),
    (.recip set x, isVop 0x09 0x09), (.rsqrt set x, isVop 0x0A 0x0A), (.sqrt set x, isVop 0x0B 0x0B),
    (.silu set x, isVop 0x0C 0x0C), (.rowmax set x, isVop 0x10 0x10), (.rowsum set x, isVop 0x11 0x11),
    (.cvtBf16 set x, isVop 0x18 0x18), (.cvtFp32 set x, isVop 0x19 0x19), (.quant set x, isVop 0x20 0x29),
    (.dequant set x, isVop 0x2A 0x2A), (.amax set x, isVop 0x2B 0x2B), (.qdiverge set x, isVop 0x2F 0x2F),
    (.rot set x, isVop 0x30 0x32), (.irot set x, isVop 0x34 0x36), (.lsrnd set x, isVop 0x38 0x38),
    (.lspack set x, isVop 0x39 0x39), (.lsadd set x, isVop 0x3A 0x3A), (.lsaddrnd set x, isVop 0x3B 0x3B),
    (.lsclear set x, isVop 0x3C 0x3C)]

/-- Each of them is an issue event of its commands. -/
theorem exec_issueRow {set : SetId} {x : Ecc} {e : Instr × (Cmd → Bool)} (h : e ∈ issueRows set x) (s : State) :
    ∃ eff, exec e.1 s = .next (s.issueEvent set e.2 eff) := by
  fin_cases h <;> exact ⟨_, rfl⟩

/-- Settles O12: every row that issues a command is an issue event, which finds nothing ready while the command waits, and
leaves it to the gate where the gate holds it. -/
theorem issueWaits : Obligations.IssueWaits := by
  refine ⟨fun set x s hwait c hc => ?_, fun set x s g e he hready hbad hidle hgate => ?_⟩
  · obtain ⟨e, he, rfl⟩ : ∃ e ∈ issueRows set x, e.1 = c := List.mem_map.1 hc
    obtain ⟨eff, hexec⟩ := exec_issueRow he s
    rw [hexec, State.issueEvent_none (State.ready_of_waits hwait)]
  · have hrow : e ∈ issueRows set x := by
      clear hready hbad hidle hgate
      revert e
      simp [issueRows]
    obtain ⟨eff, hexec⟩ := exec_issueRow hrow s
    rw [hexec, State.issueEvent_held hready hbad hidle hgate]
    exact ⟨_, rfl, rfl, rfl⟩

end Sys2Proof.Machine
end

section
namespace Sys2Proof.Machine

/-- Fields that begin at different bits have different keys, repeated or not. -/
theorem fkey_ne_of_lo {f g : Fld} (hf : f.lo < 64) (hg : g.lo < 64) (h : f.lo ≠ g.lo) {i k j i' k' j' : Nat} :
    fkey f i k j ≠ fkey g i' k' j' := by
  unfold fkey
  omega

/-- A Set's record with the command at an index completed (R79). -/
def SetSt.finished (x : SetSt) (i : Nat) : SetSt :=
  let fs := x.flights.map (fun g => if g.idx = i then { g with done := true } else g)
  { x with flights := fs, passes := keepPasses fs x.passes }

namespace State
variable {s t u : State} {set idx : Nat} {f : Flight}

/-! ### Completion -/

/-- The state with a command's working state written (R82). -/
def worked (s : State) (set : Nat) (f : Flight) : State := f.work.foldl (fun t w => t.applyWork set w) s

/-- Set a command's token, if it has one (R79). -/
def setToken (s : State) (set : Nat) (b : Option Nat) : State :=
  match b with
  | some b => s.wr R.SCHED_SB_SB (s.rd R.SCHED_SB_SB set ||| 2 ^ b) set
  | none => s

theorem completeFlight_eq (s : State) (set : Nat) (f : Flight) : s.completeFlight set f =
    ((s.worked set f).setSt set (((s.worked set f).st set).finished f.idx)).setToken set f.ssb := by
  cases f
  rfl

theorem setToken_frame (s : State) (set : Nat) (b : Option Nat) : s.Frame [R.SCHED_SB_SB] [] (s.setToken set b) := by
  cases b with
  | some b => exact .wr (.inl (List.mem_singleton_self _))
  | none => exact .refl s

theorem setToken_setsOnly (s : State) (set : Nat) (b : Option Nat) : s.SetsOnly (s.setToken set b) := by
  cases b <;> rfl

theorem st_setToken (s : State) (set n : Nat) (b : Option Nat) : (s.setToken set b).st n = s.st n := by
  cases b <;> rfl

/-- The token of a command reads 1 once it is set. -/
theorem setToken_on (w : mrising s.regs = true) {b : Nat} (hb : b < 64) :
    ((s.setToken set (some b)).rd R.SCHED_SB_SB set).testBit b = true := by
  have hself : (s.setToken set (some b)).rd R.SCHED_SB_SB set = (s.rd R.SCHED_SB_SB set ||| 2 ^ b) % 2 ^ 64 := rd_wr_self w ..
  rw [hself, Nat.testBit_mod_two_pow]
  simp [hb]

/-- Beyond its working state, a completion writes the Set's record and tokens. -/
theorem completeFlight_frame (s : State) (set : Nat) (f : Flight) :
    (s.worked set f).Frame [R.SCHED_SB_SB] [] (s.completeFlight set f) := by
  rw [completeFlight_eq]
  exact Frame.trans .others (setToken_frame ..)

theorem completeFlight_setsOnly (s : State) (set : Nat) (f : Flight) :
    (s.worked set f).SetsOnly (s.completeFlight set f) := by
  rw [completeFlight_eq]
  exact (setSt_setsOnly ..).trans (setToken_setsOnly ..)

theorem st_completeFlight (w : mrising (s.worked set f).sets = true) :
    (s.completeFlight set f).st set = ((s.worked set f).st set).finished f.idx := by
  rw [completeFlight_eq, st_setToken, st_setSt w]

theorem flightAt_idx (h : s.flightAt set idx = some f) : f.idx = idx := by
  have hp := List.find?_some h
  simp only [Bool.and_eq_true, decide_eq_true_eq] at hp
  exact hp.1

/-- The command is no longer in flight at its index. -/
theorem flightAt_completeFlight (w : mrising (s.worked set f).sets = true) :
    (s.completeFlight set f).flightAt set f.idx = none := by
  unfold flightAt
  rw [st_completeFlight w]
  simp only [SetSt.finished, List.find?_eq_none, List.mem_map]
  rintro _ ⟨g, -, rfl⟩
  by_cases hg : g.idx = f.idx <;> simp [hg]

theorem sb_completeFlight (w : mrising (s.worked set f).regs = true) {b : Nat} (hb : b < 64) (hs : f.ssb = some b) :
    ((s.completeFlight set f).rd R.SCHED_SB_SB set).testBit b = true := by
  rw [completeFlight_eq, hs]
  exact setToken_on (by exact w) hb

theorem worked_of_nil (h : f.work = []) (s : State) (set : Nat) : s.worked set f = s := by
  rw [worked, h, List.foldl_nil]

theorem worked_sram {key : Nat} {d : List MarkByte} (h : f.work = [.sram key d]) (s : State) (set : Nat) :
    s.worked set f = s.sramPut key d := by
  rw [worked, h]
  rfl

/-- A shape register loaded with a value and its MAX (R75, R90). -/
def loadShape (s : State) (set k v m : Nat) : State :=
  ((s.wr R.SCHED_SHAPE_VALUE v set k).wr R.SCHED_SHAPE_MAX m set k).setSt set
    { s.st set with loaded := (s.st set).loaded ||| 2 ^ k }

theorem worked_shape {k v m : Nat} (h : f.work = [.shape k v m]) (s : State) (set : Nat) :
    s.worked set f = s.loadShape set k v m := by
  rw [worked, h]
  rfl

/-- MAX of the shape register reads what the load wrote, whatever token the command sets. -/
theorem shapeMax_completeFlight {k v m : Nat} (w : mrising s.regs = true) (h : f.work = [.shape k v m]) :
    (s.completeFlight set f).rd R.SCHED_SHAPE_MAX set k = m % 2 ^ R.SCHED_SHAPE_MAX.wid := by
  have hload : (s.loadShape set k v m).rd R.SCHED_SHAPE_MAX set k = m % 2 ^ R.SCHED_SHAPE_MAX.wid :=
    rd_wr_self (mrising_wr w ..) ..
  have htok : ∀ (t : State) (b : Option Nat), (t.setToken set b).rd R.SCHED_SHAPE_MAX set k = t.rd R.SCHED_SHAPE_MAX set k := by
    rintro t (_ | b)
    · rfl
    · exact rd_wr_ne _ _ _ (fkey_ne_of_lo (by decide) (by decide) (by decide))
  rw [completeFlight_eq, htok, worked_shape h, rd_setSt, hload]

theorem commandComplete_completes (h : s.flightAt set idx = some f) (hm : s.mayComplete set f = true) :
    commandCompleteEffect set idx s = s.completeFlight set f := by
  unfold commandCompleteEffect
  rw [h]
  exact if_pos hm

theorem commandComplete_waits (h : s.flightAt set idx = some f) (hm : s.mayComplete set f = false) :
    commandCompleteEffect set idx s = s := by
  unfold commandCompleteEffect
  rw [h]
  exact if_neg (by simp [hm])

theorem mayComplete_plain (h : f.kind = .plain) : s.mayComplete set f = true := by
  unfold mayComplete
  rw [h]

theorem mayComplete_wait {arr target : Nat} {d : Option Nat} (h : f.kind = .wait arr target d) :
    s.mayComplete set f = decide (target ≤ s.rd R.SCHED_ARR_COUNT set arr) := by
  unfold mayComplete
  rw [h]

theorem mayComplete_fcopy {k : FcopySt} (h : f.kind = .fcopy k) : s.mayComplete set f = k.left.isEmpty := by
  unfold mayComplete
  rw [h]

theorem overdue_wait {arr target d : Nat} (h : f.kind = .wait arr target (some d)) :
    s.overdue set f = (decide (d ≤ s.tempo.now) && decide (s.rd R.SCHED_ARR_COUNT set arr < target)) := by
  unfold overdue
  rw [h]

/-- The Set in poison, its WAIT timed out (R81). -/
def timedOut (s : State) (set idx : Nat) : State := (s.raise E.SCHED_ARR_TIMEOUT set [idx]).wr R.SCHED_STATUS_POISON 1 set

theorem arrTimeout_fires (h : s.flightAt set idx = some f) (ho : s.overdue set f = true) :
    arrTimeoutEffect set idx s = (s.timedOut set idx).completeFlight set f := by
  unfold arrTimeoutEffect
  rw [h]
  exact if_pos ho

theorem arrTimeout_early (h : s.flightAt set idx = some f) (ho : s.overdue set f = false) :
    arrTimeoutEffect set idx s = s := by
  unfold arrTimeoutEffect
  rw [h]
  exact if_neg (by simp [ho])

theorem timedOut_frame (s : State) (set idx : Nat) :
    s.Frame (R.SCHED_STATUS_POISON :: E.SCHED_ARR_TIMEOUT.fields) [] (s.timedOut set idx) :=
  (((Link.refl s).raise (by decide)).wr (.inl (List.mem_cons_self ..))).toFrame

theorem timedOut_raised (w : mrising s.regs = true) (set idx : Nat) : s.raised (s.timedOut set idx) E.SCHED_ARR_TIMEOUT set :=
  raised_then (raised_raise w (by decide)) (.wr (fs := [R.SCHED_STATUS_POISON]) (ns := []) (.inl (List.mem_singleton_self _)))
    (by decide) (by decide) List.not_mem_nil List.not_mem_nil

theorem timedOut_poison (w : mrising s.regs = true) (set idx : Nat) :
    (s.timedOut set idx).on R.SCHED_STATUS_POISON set = true := by
  have hself : (s.timedOut set idx).rd R.SCHED_STATUS_POISON set = 1 % 2 ^ 1 := rd_wr_self (mrising_raise w ..) ..
  rw [State.on, hself]
  rfl

end State

/-- Settles O21: what a completion writes is the command's working state, the Set's record and its token; a WAIT and an
FCOPY whose condition does not hold stay in flight, and a WAIT that is overdue completes in poison. -/
theorem completions : Obligations.Completions := by
  refine ⟨fun set idx s f hwf hf => ?_, fun set idx s f arr target d hwf hf hkind hwork hssb hlt => ?_⟩
  · obtain ⟨w, -⟩ := State.rising_of_wf hwf
    have ws := State.rising_sets hwf
    obtain rfl := State.flightAt_idx hf
    refine ⟨fun key d hkind hwork => ?_, fun k v m hkind hwork => ?_, fun arr target d hkind hlt => ?_, fun k hkind hleft => ?_⟩
    · have hput := State.worked_sram hwork s set
      have hframe := State.completeFlight_frame s set f
      rw [hput] at hframe
      have hlog := congrArg State.log (State.completeFlight_setsOnly s set f)
      refine ⟨_, congrArg Host.Outcome.next (State.commandComplete_completes hf (State.mayComplete_plain hkind)),
        fun a => hframe.sameMem a, fun i hi => ?_, fun k hk => ?_, fun b hb hs => State.sb_completeFlight ?_ hb hs,
        State.flightAt_completeFlight ?_, hlog.trans ?_⟩
      · rw [hframe.tileMem]
        exact State.tileMem_sramPut_in (State.memWf_of_wf hwf) hi
      · rw [hframe.tileMem]
        exact State.tileMem_sramPut_out hk
      · rw [hput]; exact w
      · rw [hput]; exact ws
      · rw [hput]; rfl
    · have hload := State.worked_shape hwork s set
      have hframe := State.completeFlight_frame s set f
      rw [hload] at hframe
      have wl : mrising (s.worked set f).sets = true := by
        rw [hload]
        exact State.rising_setSt (by exact ws) ..
      refine ⟨_, congrArg Host.Outcome.next (State.commandComplete_completes hf (State.mayComplete_plain hkind)),
        fun a => hframe.sameMem a, fun a => hframe.sameTiles a, State.shapeMax_completeFlight w hwork, ?_⟩
      have hst : (s.loadShape set k v m).st set = { s.st set with loaded := (s.st set).loaded ||| 2 ^ k } :=
        State.st_setSt (by exact ws) ..
      rw [State.st_completeFlight wl, hload, hst]
      simp [SetSt.finished]
    · exact congrArg Host.Outcome.next (State.commandComplete_waits hf (by
        rw [State.mayComplete_wait hkind, decide_eq_false_iff_not]; omega))
    · exact congrArg Host.Outcome.next (State.commandComplete_waits hf (by
        rw [State.mayComplete_fcopy hkind]; simpa using hleft))
  · obtain ⟨w, -⟩ := State.rising_of_wf hwf
    have hover := State.overdue_wait (s := s) (set := set) hkind
    obtain rfl := State.flightAt_idx hf
    refine ⟨fun hdue => ?_, fun hearly => ?_⟩
    · have hframe := State.completeFlight_frame (s.timedOut set f.idx) set f
      rw [State.worked_of_nil hwork] at hframe
      have hall : s.Frame (R.SCHED_SB_SB :: R.SCHED_STATUS_POISON :: E.SCHED_ARR_TIMEOUT.fields) [] _ :=
        (State.timedOut_frame s set f.idx).mono.trans hframe.mono
      refine ⟨_, congrArg Host.Outcome.next (State.arrTimeout_fires hf (by rw [hover]; simp [hdue, hlt])), ?_,
        State.raised_then (State.timedOut_raised w set f.idx) hframe (by decide) (by decide) List.not_mem_nil List.not_mem_nil,
        State.flightAt_completeFlight ?_, hall.sameMem, hall.sameTiles⟩
      · rw [hframe.on (by decide) List.not_mem_nil]
        exact State.timedOut_poison w set f.idx
      · rw [State.worked_of_nil hwork, State.timedOut, State.wr_sets, State.raise_sets]
        exact State.rising_sets hwf
    · exact congrArg Host.Outcome.next (State.arrTimeout_early hf (by rw [hover]; simp; omega))

end Sys2Proof.Machine
end

section
namespace Sys2Proof.Machine

/-! ### Marks of a write (R148) -/

theorem mrising_mset {α : Type} [DecidableEq α] {d v : α} {k : Nat} {m : SMap α} (h : mrising m = true) :
    mrising (mset d k v m) = true := by
  unfold mset
  split
  · exact mrising_mdel h
  · exact mrising_mins h

/-- A key that a list of writes touches reads what its writes give it. -/
theorem mget_foldl_mset {α : Type} [DecidableEq α] (d : α) (v : Nat → α) {k : Nat} :
    ∀ (l : List Nat) (m : SMap α), mrising m = true → (k ∈ l ∨ mget d m k = v k) →
      mget d (l.foldl (fun m j => mset d j (v j) m) m) k = v k := by
  intro l
  induction l with
  | nil => exact fun m _ h => h.resolve_left List.not_mem_nil
  | cons j r ih =>
    intro m hm h
    refine ih _ (mrising_mset hm) ?_
    by_cases hj : j = k
    · subst hj
      exact .inr (mget_mset_self d _ _ hm)
    · rw [mget_mset_ne d _ hj]
      exact h.imp_left fun hk => (List.mem_cons.1 hk).resolve_left (Ne.symm hj)

/-- A write of marked bytes marks every line that it touches. -/
theorem lineMarkAfter_marked {old : Bool} {a i : Nat} {d : List MarkByte} (hd : ∀ b ∈ d, b.2 = true) (hi : i < d.length) :
    lineMarkAfter old a d ((a + i) / 64) = true := by
  unfold lineMarkAfter
  dsimp only
  generalize hpart : (d.drop ((a + i) / 64 * 64 - a)).take ((a + i) / 64 * 64 + 64 - max ((a + i) / 64 * 64) a) = part
  have hne : part ≠ [] := by
    intro hnil
    have hlen := congrArg List.length (hpart.trans hnil)
    simp only [List.length_take, List.length_drop, List.length_nil] at hlen
    omega
  have hany : part.any (·.2) = true := by
    obtain ⟨b, hb⟩ := List.exists_mem_of_ne_nil part hne
    exact List.any_eq_true.2 ⟨b, hb, hd b (List.mem_of_mem_drop (List.mem_of_mem_take (hpart ▸ hb)))⟩
  simp [hany]

theorem mem_poisoned {d : List MarkByte} : ∀ b ∈ poisoned true d, b.2 = true := by
  simp [poisoned]

theorem length_poisoned (bad : Bool) (d : List MarkByte) : (poisoned bad d).length = d.length := by
  cases bad <;> simp [poisoned]

theorem fst_getElem_poisoned {bad : Bool} {d : List MarkByte} {i : Nat} (h : i < d.length) :
    ((poisoned bad d)[i]'(by rwa [length_poisoned])).1 = d[i].1 := by
  cases bad <;> simp [poisoned]

namespace State
variable {s t u : State} {set : Nat} {f : Flight} {a : Nat} {d : List MarkByte}

theorem lineMark_devPut_marked (h : s.memWf = true) (hd : ∀ b ∈ d, b.2 = true) {i : Nat} (hi : i < d.length) :
    (s.devPut a d).lineMark (a + i) = true := by
  obtain ⟨-, hmark, -⟩ := memWf_iff.1 h
  have hempty : d.isEmpty = false := by
    cases d with
    | nil => cases hi
    | cons => rfl
  unfold lineMark devPut
  dsimp only
  rw [hempty, if_neg (by decide), mget_foldl_mset false (fun l => lineMarkAfter (mget false s.memMark l) a d l) _ _
    ((mwf_iff _ _).1 hmark).1 (.inl ?_)]
  · exact lineMarkAfter_marked hd hi
  · exact List.mem_map.2 ⟨(a + i) / 64 - a / 64, List.mem_range.2 (by omega), by omega⟩

/-! ### Commits -/

/-- A Set whose oldest command leaves it for memory: its token is kept and the commit point is past it (R83, R85). -/
def retired (s : State) (set : Nat) (f : Flight) : State :=
  (s.setSt set { s.st set with
    flights := (s.st set).flights.drop 1
    sbHeld := match f.ssb with
      | some b => (s.st set).sbHeld ||| 2 ^ b
      | none => (s.st set).sbHeld }).wr R.SCHED_STATUS_COMMIT_IDX (f.idx + 1) set

/-- Whether a command commits poisoned: its group failed twice, or the Set is in poison (R81, R86). -/
def commitsBad (s : State) (set : Nat) (f : Flight) : Bool :=
  (s.st set).failed.contains f.grp || s.on R.SCHED_STATUS_POISON set

theorem groupCommit_none (h : s.readyGroup set = none) : groupCommitEffect set s = s := by
  unfold groupCommitEffect
  rw [h]

/-- A group of one command commits, and reports it where the group failed twice (R83, R86). -/
theorem groupCommit_single (h : s.readyGroup set = some [f]) : groupCommitEffect set s =
    let t := (s.retired set f).commitFlight set (s.commitsBad set f) f
    if (s.st set).failed.contains f.grp then t.raise E.SCHED_RERUN_FAIL set else t := by
  unfold groupCommitEffect
  rw [h]
  rfl

theorem retired_frame (s : State) (set : Nat) (f : Flight) : s.Frame [R.SCHED_STATUS_COMMIT_IDX] [] (s.retired set f) :=
  Frame.trans (t := s.setSt set _) .others (.wr (.inl (List.mem_singleton_self _)))

theorem retired_commitIdx (w : mrising s.regs = true) :
    (s.retired set f).rd R.SCHED_STATUS_COMMIT_IDX set = (f.idx + 1) % 2 ^ R.SCHED_STATUS_COMMIT_IDX.wid := rd_wr_self w ..

theorem retired_flights (w : mrising s.sets = true) : ((s.retired set f).st set).flights = (s.st set).flights.drop 1 := by
  rw [retired, st_wr, st_setSt w]

theorem commitFlight_plain_nil (hk : f.kind = .plain) (hh : f.held = []) (bad : Bool) : s.commitFlight set bad f = s := by
  unfold commitFlight
  rw [hk, hh]
  rfl

theorem commitFlight_store (hk : f.kind = .plain) (hh : f.held = [.mem a d]) (bad : Bool) :
    s.commitFlight set bad f = s.devWrite a (poisoned bad d) := by
  unfold commitFlight
  rw [hk, hh]
  rfl

theorem commitFlight_end (hk : f.kind = .endOfBar) (hh : f.held = []) (bad : Bool) : s.commitFlight set bad f = s.commitEnd set := by
  unfold commitFlight
  rw [hk, hh]
  rfl

theorem windowsOff_iff : s.windowsOff = true ↔ ∀ w < 16, s.on R.CHECK_WIN_BASE_EN 0 w = false := by
  simp [windowsOff]

/-- The registers that the end of a timed Set's bar writes (R93, R101, R103). -/
def endRegs (s : State) (set : Nat) : State :=
  ((s.wr R.SCHED_STATUS_STATE 4 set).wr R.SCHED_DONE_STAMP_STAMP s.stamp set).wr R.SCHED_SLACK_TICKS
    ((s.st set).start + s.rd R.TEMPO_BAR_CFG_BAR_LEN * 1024 - s.tempo.now) set

theorem commitEnd_timed (h : s.timed set = true) :
    s.commitEnd set = (s.endRegs set).wr R.SCHED_LATE_MAX_LAST (min 0xFFFF (s.st set).late) set := by
  have hdone : ((s.wr R.SCHED_STATUS_STATE 4 set).wr R.SCHED_DONE_STAMP_STAMP s.stamp set).timed set = true := by
    rw [← h]
    unfold timed State.on
    rw [rd_wr_ne _ _ _ (Fld.fkey_ne (by decide)), rd_wr_ne _ _ _ (Fld.fkey_ne (by decide))]
  have hlate : ((s.endRegs set).wr R.SCHED_LATE_MAX_LAST (min 0xFFFF (s.st set).late) set).timed set = true := by
    rw [← hdone]
    unfold timed State.on
    rw [rd_wr_ne _ _ _ (Fld.fkey_ne (by decide)), endRegs, rd_wr_ne _ _ _ (Fld.fkey_ne (by decide))]
  unfold commitEnd
  dsimp only
  rw [if_pos hdone]
  exact if_pos hlate

theorem setState_commitEnd (w : mrising s.regs = true) (h : s.timed set = true) : (s.commitEnd set).setState set = 4 := by
  rw [commitEnd_timed h]
  unfold setState endRegs
  rw [rd_wr_ne _ _ _ (Fld.fkey_ne (by decide)), rd_wr_ne _ _ _ (Fld.fkey_ne (by decide)),
    rd_wr_ne _ _ _ (Fld.fkey_ne (by decide))]
  exact rd_wr_self w ..

theorem doneStamp_commitEnd (w : mrising s.regs = true) (h : s.timed set = true) :
    (s.commitEnd set).rd R.SCHED_DONE_STAMP_STAMP set = s.stamp % 2 ^ R.SCHED_DONE_STAMP_STAMP.wid := by
  rw [commitEnd_timed h]
  unfold endRegs
  rw [rd_wr_ne _ _ _ (Fld.fkey_ne (by decide)), rd_wr_ne _ _ _ (Fld.fkey_ne (by decide))]
  exact rd_wr_self (mrising_wr w ..) ..

end State

/-- Settles O22: a group of one command leaves the Set, and what it holds is written: a STORE's bytes, the end of a bar, or
nothing but the report of a second failure. -/
theorem groupCommits : Obligations.GroupCommits := by
  intro set s hwf
  obtain ⟨w, -⟩ := State.rising_of_wf hwf
  have ws := State.rising_sets hwf
  refine ⟨fun hnone => congrArg Host.Outcome.next (State.groupCommit_none hnone), fun f a d hg hkind hheld hd hfail hoff => ?_,
    fun f hg hkind hheld hfail => ?_, fun f hg hkind hheld htimed hfail => ?_⟩
  all_goals have hframe := State.retired_frame s set f
  all_goals have hcommit := State.groupCommit_single hg
  · have hwin : (s.retired set f).windowsOff = true := State.windowsOff_iff.2 fun n hn =>
      (hframe.on (by decide) List.not_mem_nil).trans (hoff n hn)
    rw [State.commitFlight_store hkind hheld, State.devWrite_off hwin, if_neg (by rw [hfail]; decide)] at hcommit
    have hmem : (s.retired set f).memWf = true := State.memWf_of_wf (s := s) hwf
    have hlen := length_poisoned (s.commitsBad set f) d
    refine ⟨_, congrArg Host.Outcome.next hcommit, fun i hi => ?_, fun b hb => ?_, hframe.sameTiles, fun hp i hi => ?_,
      State.retired_commitIdx w, State.retired_flights ws⟩
    · rw [State.devByte_devPut_in hmem (by rwa [hlen])]
      exact fst_getElem_poisoned hi
    · rw [State.devByte_devPut_out (by rwa [hlen])]
      exact (hframe.sameMem b).1
    · refine State.lineMark_devPut_marked hmem ?_ (by rwa [hlen])
      rw [State.commitsBad, hp, Bool.or_true]
      exact mem_poisoned
  · rw [State.commitFlight_plain_nil hkind hheld, if_pos hfail] at hcommit
    exact ⟨_, congrArg Host.Outcome.next hcommit,
      State.then_raised hframe (State.raised_raise (hframe.rising w) (by decide)) (by decide) List.not_mem_nil⟩
  · rw [State.commitFlight_end hkind hheld, if_neg (by rw [hfail]; decide)] at hcommit
    have htimed' : (s.retired set f).timed set = true := (hframe.on (by decide) List.not_mem_nil).trans htimed
    have hstamp : (s.retired set f).stamp = s.stamp := by
      unfold State.stamp
      rw [hframe.on (by decide) List.not_mem_nil]
      rfl
    refine ⟨_, congrArg Host.Outcome.next hcommit, State.setState_commitEnd (hframe.rising w) htimed', ?_⟩
    rw [State.doneStamp_commitEnd (hframe.rising w) htimed', hstamp]

end Sys2Proof.Machine
end

section
namespace Sys2Proof.Machine

/-! O49 says that the start of a pass changes registers, the records of Sets and the list of runs alone. It also forgets by how
much the gate has delayed each Set that starts (R412). -/

/-- RUN_FIGURE of Set 0 in the image of index 0. -/
def runSet0 : Req := ⟨0, 0, 5, 9, 0, [0, 1]⟩

/-- An active untimed image of Set 0 alone, its stream one command at 0x8000. -/
def imageOfSet0 : Image := ⟨0, 0, 0x8000, 0, false, 0, 600, 1, [⟨0, 0, 1⟩], [], 0, true, 0, 0, 0, 0, []⟩

/-- Partition 0 is locked, its group and completion ring are open, Set 0 is ARMED, and the request is open; in its last pass
the gate delayed Set 0 by one tick. -/
def delayedBefore : State :=
  let s := (((((State.reset.wr R.PCIE_GRP_CTL_EN 1).wr R.PCIE_CQ_CFG_EN 1).wr R.PART_STATUS_LOCKED 1).wr R.PART_SETS_SETS 1).wr
    R.SCHED_CTL_EN 1).wr R.SCHED_STATUS_STATE 1
  { s with
    host := { s.host with bme := 1, reqs := [⟨runSet0, 0x11, 0⟩] }
    gate := { s.gate with byGate := [(0, 1)] }
    figs := [imageOfSet0] }

theorem delayedBefore_wf : delayedBefore.wf = true := by decide +kernel

theorem delayedBefore_ringOpen : delayedBefore.ringOpen 0 0 := by
  unfold State.ringOpen
  decide +kernel

theorem delayedBefore_passReady : ∀ n < 48, (runSet0.f 4 47 0).testBit n = true → delayedBefore.passReady n = true := by
  decide +kernel

theorem exec_runFigure (r : Req) (s : State) : exec (.runFigure r) s = .next (runFigureEffect r s) := rfl

/-- The pass starts with no delay on the gate's account. -/
theorem delayedBefore_runs : (runFigureEffect runSet0 delayedBefore).gate.byGate = [] := by decide +kernel

/-- Refutes O49: the RUN_FIGURE that starts Set 0 of `delayedBefore` clears the delay that the gate kept for it, so more
than registers, Sets and runs changes. -/
theorem not_figuresLoadRun : ¬ Obligations.FiguresLoadRun := by
  intro h
  obtain ⟨-, hrun⟩ := h runSet0 delayedBefore delayedBefore_wf delayedBefore_ringOpen
  obtain ⟨-, himage⟩ := hrun (by decide +kernel) (by decide +kernel)
  obtain ⟨-, hstart⟩ := himage imageOfSet0 (by decide +kernel)
  obtain ⟨t, ht, -, -, -, honly⟩ :=
    hstart (by decide +kernel) (by decide +kernel) rfl rfl delayedBefore_passReady
  have hgate : t.gate.byGate = [(0, 1)] := congrArg (fun u : State => u.gate.byGate) honly
  rw [← Host.Outcome.next.inj ((exec_runFigure runSet0 delayedBefore).symm.trans ht), delayedBefore_runs] at hgate
  exact absurd hgate (by decide)

end Sys2Proof.Machine
end

section
namespace Sys2Proof.Machine
namespace State
variable {s t u : State} {g c : Nat} {w : List Nat} {r : Req} {status handle : Nat} {rest : List Nat} {poison : Bool}

/-! ### What posting an entry changes -/

/-- Between two states entries of completion rings were posted, and the flags and marks that this raises: nothing changes but
registers, device memory, the host's side, the fault log and the output. -/
def PostsOnly (s t : State) : Prop :=
  t = { s with regs := t.regs, mem := t.mem, memMark := t.memMark, host := t.host, log := t.log, out := t.out }

theorem PostsOnly.refl (s : State) : s.PostsOnly s := rfl

theorem PostsOnly.trans (h : s.PostsOnly t) (g : t.PostsOnly u) : s.PostsOnly u := Eq.trans g (by rw [h])

theorem PostsOnly.ite {p : Prop} {_ : Decidable p} (ht : s.PostsOnly t) (hu : s.PostsOnly u) :
    s.PostsOnly (if p then t else u) := by
  split <;> assumption

theorem PostsOnly.raise (h : s.PostsOnly t) {e : EvFlag} {i k : Nat} {args : List Nat} : s.PostsOnly (t.raise e i args k) := by
  refine h.trans ?_
  unfold PostsOnly
  rw [raise_only t]

theorem PostsOnly.setMem (h : s.PostsOnly t) {m : List Host.Cell} : s.PostsOnly { t with mem := m } := h.trans rfl

theorem PostsOnly.markRange (h : s.PostsOnly t) {a n : Nat} : s.PostsOnly (t.markRange a n) := h.trans rfl

theorem PostsOnly.wr (h : s.PostsOnly t) {f : Fld} {v i k j : Nat} : s.PostsOnly (t.wr f v i k j) := h.trans rfl

theorem PostsOnly.emit (h : s.PostsOnly t) {o : Out} : s.PostsOnly (t.emit o) := h.trans rfl

theorem PostsOnly.withHost (h : s.PostsOnly t) {x : Hostif} : s.PostsOnly { t with host := x } := h.trans rfl

theorem PostsOnly.crcUpdate (h : s.PostsOnly t) {v : State} {o a n : Nat} : s.PostsOnly (State.crcUpdate v t o a n) :=
  have hpart := h.raise.markRange.ite h
  .ite h.setMem.wr (.ite hpart.setMem.wr hpart)

theorem PostsOnly.generatorCheck (h : s.PostsOnly t) {die o : Nat} : s.PostsOnly (t.generatorCheck die o) :=
  .ite h.raise.markRange h

theorem PostsOnly.devWrite (h : s.PostsOnly t) {a : Nat} {d : List MarkByte} : s.PostsOnly (t.devWrite a d) :=
  foldl_keeps (P := s.PostsOnly) (fun _ _ h => h.crcUpdate.generatorCheck) _ _ (h.trans (u := t.devPut a d) rfl)

theorem PostsOnly.cqDrop (h : s.PostsOnly t) : s.PostsOnly (t.cqDrop g) := h.wr.raise

theorem PostsOnly.cqDefer (h : s.PostsOnly t) : s.PostsOnly (t.cqDefer g c w) :=
  .ite h.withHost.devWrite.raise (.ite h.withHost h.cqDrop)

theorem PostsOnly.signal (h : s.PostsOnly t) {v : Nat} : s.PostsOnly (t.signal g v) := .ite (.ite h.emit h) (.ite h h.withHost)

theorem PostsOnly.noteEntry (h : s.PostsOnly t) : s.PostsOnly (t.noteEntry g c) :=
  .ite (.ite h.withHost.withHost.signal h.withHost) h

theorem PostsOnly.cqWrite (h : s.PostsOnly t) : s.PostsOnly (t.cqWrite g c w) := h.emit.emit.wr.wr.noteEntry

theorem PostsOnly.cqPost (h : s.PostsOnly t) : s.PostsOnly (t.cqPost g c w) := .ite h.cqDrop (.ite h.cqDefer h.cqWrite)

theorem PostsOnly.complete (h : s.PostsOnly t) : s.PostsOnly (t.complete r status handle rest poison) :=
  .ite h.withHost.wr.cqPost h

theorem PostsOnly.finish (h : s.PostsOnly t) : s.PostsOnly (t.finish r status) := h.complete

theorem PostsOnly.threads (h : s.PostsOnly t) : t.threads = s.threads := (congrArg State.threads h :)

theorem PostsOnly.turns (h : s.PostsOnly t) : t.turns = s.turns := (congrArg State.turns h :)

theorem PostsOnly.roles (h : s.PostsOnly t) : t.roles = s.roles := (congrArg State.roles h :)

theorem PostsOnly.rolePend (h : s.PostsOnly t) : t.rolePend = s.rolePend := (congrArg State.rolePend h :)

/-! ### A ring with room -/

/-- The fields that say whether a ring takes an entry, and where it goes (R358, R364, R380). -/
def ringFields : List Fld :=
  [R.PCIE_GRP_CTL_EN, R.PCIE_GRP_CTL_VF, R.PCIE_CQ_CFG_EN, R.PCIE_CQ_CFG_LOG2N, R.PCIE_CQ_CFG_TAIL, R.PCIE_CQ_CFG_HEAD,
    R.PCIE_CQ_BASE_BASE]

/-- Between two states nothing that a ring's entries depend on changed, and nothing went out. -/
structure RingSame (s t : State) : Prop where
  rd : ∀ f ∈ ringFields, ∀ k j, t.rd f 0 k j = s.rd f 0 k j
  host : t.host = { s.host with reqs := t.host.reqs }
  out : t.out = s.out

theorem RingSame.fnOf (h : s.RingSame t) (g : Nat) : t.fnOf g = s.fnOf g := by
  unfold State.fnOf State.on
  rw [h.rd _ (by simp [ringFields])]

theorem RingSame.hostOk (h : s.RingSame t) (g : Nat) : t.hostOk g = s.hostOk g := by
  unfold State.hostOk State.busOk State.fnOk State.on
  rw [h.fnOf, h.rd _ (by simp [ringFields]), h.host]

theorem RingSame.cq (h : s.RingSame t) (g c : Nat) : t.cq g c = s.cq g c := by
  unfold State.cq
  rw [h.host]

theorem RingSame.ringOpen (h : s.RingSame t) (ho : s.ringOpen g c) : t.ringOpen g c := by
  have hen : t.on R.PCIE_CQ_CFG_EN 0 g c = s.on R.PCIE_CQ_CFG_EN 0 g c := by
    unfold State.on
    rw [h.rd _ (by simp [ringFields])]
  have hsize : t.cqSize g c = s.cqSize g c := by
    unfold cqSize
    rw [h.rd _ (by simp [ringFields])]
  have hheld : t.cqHeld g c = s.cqHeld g c := by
    unfold cqHeld
    rw [hsize, h.rd _ (by simp [ringFields]), h.rd _ (by simp [ringFields])]
  unfold State.ringOpen
  rw [h.hostOk, h.cq, hen, hsize, hheld]
  exact ho

/-- An entry written after such a change is one written since before it. -/
theorem RingSame.entryAt (h : s.RingSame t) {w0 : Nat} (he : t.entryAt u g c w0 w) : s.entryAt u g c w0 w := by
  unfold State.entryAt at he ⊢
  rw [h.fnOf, h.out, h.rd _ (by simp [ringFields])] at he
  exact he

/-- Raising a flag of another block leaves the rings alone. -/
theorem raise_ringSame {e : EvFlag} (he : ∀ f ∈ ringFields, e.fields.all (·.apart f) = true) (s : State) (i : Nat) (args : List Nat)
    (k : Nat) : s.RingSame (s.raise e i args k) where
  rd f hf _ _ := ((Link.refl s).raise (fs := e.fields) (ns := []) (List.Subset.refl _)).toFrame.rd (he f hf) List.not_mem_nil
  host := by rw [raise_host]
  out := raise_out ..

/-- Between two states an entry was counted, and a message sent or held for it: the host's side and the output change alone, no
request opens or ends, and what went out stays. -/
structure Signals (s t : State) : Prop where
  only : t = { s with host := t.host, out := t.out }
  reqs : t.host.reqs = s.host.reqs
  out : s.out <+: t.out

theorem Signals.refl (s : State) : s.Signals s := ⟨rfl, rfl, List.prefix_rfl⟩

theorem Signals.trans (h : s.Signals t) (k : t.Signals u) : s.Signals u where
  only := k.only.trans (by rw [h.only])
  reqs := k.reqs.trans h.reqs
  out := h.out.trans k.out

theorem Signals.ite {p : Prop} {_ : Decidable p} (ht : s.Signals t) (hu : s.Signals u) : s.Signals (if p then t else u) := by
  split <;> assumption

theorem Signals.setCq (h : s.Signals t) {x : CqSt} : s.Signals (t.setCq g c x) := h.trans ⟨rfl, rfl, List.prefix_rfl⟩

theorem Signals.emit (h : s.Signals t) {o : Out} : s.Signals (t.emit o) := h.trans ⟨rfl, rfl, List.prefix_append ..⟩

theorem Signals.setPending (h : s.Signals t) {x : List Nat} : s.Signals { t with host := { t.host with pba := x } } :=
  h.trans ⟨rfl, rfl, List.prefix_rfl⟩

theorem Signals.signal (h : s.Signals t) {v : Nat} : s.Signals (t.signal g v) := .ite (.ite h.emit h) (.ite h h.setPending)

/-- Counting an entry (R383). -/
theorem noteEntry_signals (s : State) (g c : Nat) : s.Signals (s.noteEntry g c) :=
  .ite (.ite (Signals.refl s).setCq.setCq.signal (Signals.refl s).setCq) (.refl s)

theorem Signals.frame (h : s.Signals t) {fs : List Fld} {ns : List Nat} : s.Frame fs ns t := by
  rw [h.only]
  exact .others

/-- Word 0 of an entry as it is written: its PHASE, HQ and SQHD are the ring's (R372, R376). -/
def stampedWord (s : State) (g c : Nat) (w : List Nat) : Nat :=
  bits (w.headD 0) 32 1 * 2 + s.rd R.PCIE_CQ_CFG_PHASE 0 g c + b2n s.holdover * 2 ^ 33 + s.rd R.PCIE_GRP_SQ_CFG_HEAD 0 g * 2 ^ 48

/-- An entry written to its slot, in two posted writes, and the ring's TAIL and PHASE moved on (R364, R376). -/
def written (s : State) (g c : Nat) (w : List Nat) : State :=
  let a := 4096 * s.rd R.PCIE_CQ_BASE_BASE 0 g c + 128 * s.rd R.PCIE_CQ_CFG_TAIL 0 g c
  let n := (s.rd R.PCIE_CQ_CFG_TAIL 0 g c + 1) % s.cqSize g c
  let t := (s.emit (.cqWrite (s.fnOf g) (a + 8) (s.stamp :: w.drop 2) false)).emit
    (.cqWrite (s.fnOf g) a [s.stampedWord g c w] false)
  (t.wr R.PCIE_CQ_CFG_TAIL n 0 g c).wr R.PCIE_CQ_CFG_PHASE
    (if n = 0 then 1 - s.rd R.PCIE_CQ_CFG_PHASE 0 g c else s.rd R.PCIE_CQ_CFG_PHASE 0 g c) 0 g c

theorem cqWrite_eq (s : State) (g c : Nat) (w : List Nat) : s.cqWrite g c w = (s.written g c w).noteEntry g c := rfl

theorem written_entryAt (s : State) (g c : Nat) (w : List Nat) :
    s.entryAt (s.written g c w) g c (s.stampedWord g c w) (s.stamp :: w.drop 2) := by
  refine ⟨s.rd R.PCIE_CQ_CFG_TAIL 0 g c, ?_⟩
  unfold written
  simp [State.emit]

theorem cqWrite_entryAt (s : State) (g c : Nat) (w : List Nat) :
    s.entryAt (s.cqWrite g c w) g c (s.stampedWord g c w) (s.stamp :: w.drop 2) := by
  obtain ⟨slot, hbody, hhead⟩ := s.written_entryAt g c w
  have hout := ((s.written g c w).noteEntry_signals g c).out.drop s.out.length
  exact ⟨slot, hout.subset hbody, hout.subset hhead⟩

theorem cqWrite_reqs (s : State) (g c : Nat) (w : List Nat) : (s.cqWrite g c w).host.reqs = s.host.reqs :=
  ((s.written g c w).noteEntry_signals g c).reqs

/-- Writing an entry moves TAIL and PHASE of its ring. -/
theorem cqWrite_frame (s : State) (g c : Nat) (w : List Nat) :
    s.Frame [R.PCIE_CQ_CFG_TAIL, R.PCIE_CQ_CFG_PHASE] [] (s.cqWrite g c w) :=
  ((Link.refl s).emit.emit.wr (.inl (by decide)) |>.wr (.inl (by decide))).toFrame.trans (noteEntry_signals ..).frame

theorem cqPost_open (h : s.ringOpen g c) (w : List Nat) : s.cqPost g c w = s.cqWrite g c w := by
  obtain ⟨hok, hen, hbl, hwait, hroom⟩ := h
  unfold cqPost
  dsimp only
  rw [if_neg (by simp [hok, hen]), if_neg (by simp [hbl, hwait]; omega)]

/-! ### Completed requests -/

/-- The first of an entry's words, whatever follows its header. -/
theorem headD_header (a b x y : Nat) (l m : List Nat) : (([a, b, x, y] ++ l) ++ m).headD 0 = a := rfl

theorem kindOf_singleton (x : Nat) : kindOf [x] = bits x 7 1 := rfl

/-- Where KIND, STATUS and CID stand in word 0, whatever PHASE, HQ and SQHD are (R372). -/
theorem bits_entryWord {st cid p ph hq head : Nat} (hst : st < 256) (hcid : cid < 65536) (hph : ph < 2) :
    let w0 := bits (1 * 2 + st * 2 ^ 8 + cid * 2 ^ 16 + p * 2 ^ 32) 32 1 * 2 + ph + hq * 2 ^ 33 + head * 2 ^ 48
    bits w0 7 1 = 1 ∧ bits w0 15 8 = st ∧ bits w0 31 16 = cid := by
  simp only [bits, Nat.shiftRight_eq_div_pow]
  omega

/-- KIND, STATUS and CID of a completion entry as it is written (R372). -/
theorem bits_stampedWord (s : State) (g c : Nat) {st : Nat} (hst : st < 256) (r : Req) (poison : Bool) (tag handle : Nat)
    (rest : List Nat) :
    let w0 := s.stampedWord g c (entryWords 1 st r.cid.toNat poison tag handle rest)
    kindOf [w0] = 1 ∧ bits w0 15 8 = st ∧ bits w0 31 16 = r.cid.toNat := by
  have hhead : (entryWords 1 st r.cid.toNat poison tag handle rest).headD 0 =
    1 * 2 + st * 2 ^ 8 + r.cid.toNat * 2 ^ 16 + b2n poison * 2 ^ 32 := headD_header ..
  unfold stampedWord
  dsimp only
  rw [hhead, kindOf_singleton]
  exact bits_entryWord hst r.cid.isLt (rd_lt s R.PCIE_CQ_CFG_PHASE 0 g c)

/-- The state in which a request is no longer open (R367). -/
def withdrawn (s : State) (r : Req) : State :=
  let t := { s with host := { s.host with reqs := s.host.reqs.eraseP (fun o => o.req = r) } }
  t.wr R.PCIE_GRP_SQ_CFG_OPEN (t.openIn r.grp.val).length 0 r.grp.val

theorem withdrawn_ringSame (s : State) (r : Req) : s.RingSame (s.withdrawn r) where
  rd f hf k j := by
    have hlo : f.lo < 64 ∧ R.PCIE_GRP_SQ_CFG_OPEN.lo ≠ f.lo := by
      revert f
      decide
    exact rd_wr_ne _ _ _ (fkey_ne_of_lo (by decide) hlo.1 hlo.2)
  host := rfl
  out := rfl

theorem complete_open (ho : s.isOpen r = true) (hr : s.ringOpen r.grp.val r.cq.val) :
    s.complete r status handle rest poison = (s.withdrawn r).cqWrite r.grp.val r.cq.val
      (entryWords 1 status r.cid.toNat poison r.tag.toNat handle rest) := by
  unfold complete
  rw [if_pos ho]
  exact cqPost_open ((s.withdrawn_ringSame r).ringOpen hr) _

theorem isOpen_of_openAs {typ : Nat} (h : s.openAs typ r = true) : s.isOpen r = true := by
  obtain ⟨o, ho, hreq⟩ := List.any_eq_true.1 h
  simp only [Bool.and_eq_true, decide_eq_true_eq] at hreq
  exact List.any_eq_true.2 ⟨o, ho, by simpa using hreq.1⟩

/-- With room in its ring, an open request that is completed is over, and its entry goes out (R367, R372). -/
theorem complete_completed (ho : s.isOpen r = true) (hr : s.ringOpen r.grp.val r.cq.val) (hst : status < 256) :
    s.completed (s.complete r status handle rest poison) r status := by
  rw [complete_open ho hr]
  obtain ⟨hkind, hstatus, hcid⟩ := (s.withdrawn r).bits_stampedWord r.grp.val r.cq.val hst r poison r.tag.toNat handle rest
  exact ⟨cqWrite_reqs .., _, _, (s.withdrawn_ringSame r).entryAt (cqWrite_entryAt ..), hkind, hstatus, hcid, rfl⟩

/-- So is one that is completed after a change that leaves the rings and the requests alone. -/
theorem RingSame.completed (h : s.RingSame t) (hreqs : t.host.reqs = s.host.reqs) (hc : t.completed u r status) :
    s.completed u r status := by
  obtain ⟨hgone, w0, ws, hentry, hbits⟩ := hc
  exact ⟨hreqs ▸ hgone, w0, ws, h.entryAt hentry, hbits⟩

end State
end Sys2Proof.Machine
end

section
namespace Sys2Proof.Machine
namespace State
variable {s t u : State} {r : Req} {status : Nat}

/-- Completing a request in a ring with room writes OPEN, and moves TAIL and PHASE. -/
theorem complete_frame {handle : Nat} {rest : List Nat} {poison : Bool} (ho : s.isOpen r = true)
    (hr : s.ringOpen r.grp.val r.cq.val) :
    s.Frame [R.PCIE_GRP_SQ_CFG_OPEN, R.PCIE_CQ_CFG_TAIL, R.PCIE_CQ_CFG_PHASE] [] (s.complete r status handle rest poison) := by
  rw [complete_open ho hr]
  have hwd : s.Frame [R.PCIE_GRP_SQ_CFG_OPEN] [] (s.withdrawn r) :=
    Frame.trans (t := { s with host := _ }) .others (.wr (.inl (List.mem_singleton_self _)))
  exact hwd.mono.trans (cqWrite_frame ..).mono

/-! ### Role changes -/

/-- A role change whose table is well formed offers it (R95). -/
theorem roleChange_offers (ho : s.openAs 0x20 r = true) (hp : s.rolePend = none) (hg : s.roleGood (r.f 3 47 0) = true) :
    roleChangeEffect r s = s.offerRole ⟨s.roleTable (r.f 3 47 0), some r⟩ := by
  unfold roleChangeEffect
  rw [if_neg (by simp [ho, hp]), if_neg (by simp [hg])]

theorem roleChange_badTable (ho : s.openAs 0x20 r = true) (hp : s.rolePend = none) (hg : s.roleGood (r.f 3 47 0) = false) :
    roleChangeEffect r s = s.complete r stBadTable r.handle.toNat [(s.roleTable (r.f 3 47 0)).gen] := by
  unfold roleChangeEffect
  rw [if_neg (by simp [ho, hp]), if_pos hg]

variable {x : RolePend}

theorem offerRole_late (h : s.barBegun x.tab.eff = true) :
    s.offerRole x = (s.raise E.SCHED_ROLE_LATE).endRole x stLate := if_pos h

theorem offerRole_superseded (h : s.barBegun x.tab.eff = false)
    (hg : x.tab.gen ≤ s.roles.gen ∨ (s.tableHere = true ∧ x.tab.gen ≤ s.tableGen)) :
    s.offerRole x = s.endRole x stSuperseded := by
  unfold offerRole
  rw [if_neg (by simp [h]), if_pos hg]

theorem offerRole_pends (h : s.barBegun x.tab.eff = false) (hg : s.roles.gen < x.tab.gen)
    (ht : s.tableHere = true → s.tableGen < x.tab.gen) (hp : s.rolePend = none) :
    s.offerRole x = State.copyMirror { s with rolePend := some x } := by
  have hnew : ¬(x.tab.gen ≤ s.roles.gen ∨ (s.tableHere = true ∧ x.tab.gen ≤ s.tableGen)) := by
    rintro (hle | ⟨hhere, hle⟩)
    · omega
    · have := ht hhere
      omega
  unfold offerRole
  rw [if_neg (by simp [h]), if_neg hnew, hp]

theorem roleLate_apart : ∀ f ∈ ringFields, E.SCHED_ROLE_LATE.fields.all (·.apart f) = true := by decide

/-! ### Launches of threads -/

/-- The contexts of a tile start, and its turn is context 0's (R341; log 66). -/
def startTile (x : Thread) (s : State) (tile : Nat) : State :=
  ((List.range 16).foldl (fun t th => t.setThread tile th x) s).setTurn tile 1

/-- The thread that a launch starts in each context. -/
def launched (r : Req) : Thread := ⟨some r, r.f 3 47 0, r.f 5 47 0, false, [], false⟩

/-- The tiles of the Sets of a mask. -/
def maskTiles (mask : Nat) : List Nat := (maskBits 48 mask).flatMap (fun set => (List.range 8).map (8 * set + ·))

theorem launchThreads_eq (s : State) (r : Req) (mask : Nat) :
    s.launchThreads r mask = (maskTiles mask).foldl (startTile (launched r)) s := by
  rw [maskTiles, List.foldl_flatMap]
  simp only [List.foldl_map]
  rfl

/-- Threads and turns are kept as rising lists. -/
def TurnsRise (s : State) : Prop := mrising s.threads = true ∧ mrising s.turns = true

theorem turnsRise_of_wf (h : s.wf = true) : s.TurnsRise :=
  have hc := (wf_iff s).1 h
  ⟨((mwf_iff _ _).1 hc.threads).1, ((mwf_iff _ _).1 hc.turns).1⟩

theorem TurnsRise.setThread (h : s.TurnsRise) (tile th : Nat) (x : Thread) : (s.setThread tile th x).TurnsRise :=
  ⟨mrising_mset h.1, h.2⟩

theorem TurnsRise.setTurn (h : s.TurnsRise) (tile v : Nat) : (s.setTurn tile v).TurnsRise := ⟨h.1, mrising_mset h.2⟩

theorem turn_setTurn (h : s.TurnsRise) (tile v : Nat) : mget 0 (s.setTurn tile v).turns tile = v := mget_mset_self _ _ _ h.2

/-- Every context of a tile holds a thread, and the turn is context 0's. -/
def Started (x : Thread) (s : State) (tile : Nat) : Prop :=
  mget 0 s.turns tile = 1 ∧ ∀ c < 16, s.thread tile c = x

theorem setThreads_thread (h : s.TurnsRise) (x : Thread) (tile n : Nat) (hn : n ≤ 16)
    (ht : (List.range n).foldl (fun t th => t.setThread tile th x) s = t) :
    t.TurnsRise ∧ t.turns = s.turns ∧ (∀ c < n, t.thread tile c = x) ∧
      ∀ tile', tile' ≠ tile → ∀ c < 16, t.thread tile' c = s.thread tile' c := by
  induction n generalizing t with
  | zero =>
    subst ht
    exact ⟨h, rfl, fun c hc => absurd hc (Nat.not_lt_zero c), fun _ _ _ _ => rfl⟩
  | succ n ih =>
    obtain ⟨hrise, hturns, hin, hout⟩ := ih (by omega) rfl
    rw [List.range_succ, List.foldl_append] at ht
    subst ht
    refine ⟨hrise.setThread .., hturns, fun c hc => ?_, fun tile' ht c hc => ?_⟩
    · by_cases hcn : c = n
      · subst hcn
        exact thread_setThread hrise.1 ..
      · exact (thread_setThread_ne (by omega) (by omega) (by simpa using Ne.symm hcn) x).trans (hin c (by omega))
    · exact (thread_setThread_ne (by omega) hc (by simp [Ne.symm ht]) x).trans (hout tile' ht c hc)

/-- A tile is started, and a tile started before stays so. -/
theorem startTile_started (h : s.TurnsRise) (x : Thread) (tile : Nat) :
    (startTile x s tile).TurnsRise ∧ Started x (startTile x s tile) tile ∧
      ∀ tile', Started x s tile' → Started x (startTile x s tile) tile' := by
  unfold startTile
  generalize hfold : (List.range 16).foldl (fun t th => t.setThread tile th x) s = t
  obtain ⟨hrise, hturns, hin, hout⟩ := setThreads_thread h x tile 16 le_rfl hfold
  have hown : Started x (t.setTurn tile 1) tile := ⟨turn_setTurn hrise tile 1, hin⟩
  refine ⟨hrise.setTurn tile 1, hown, fun tile' ht => ?_⟩
  by_cases heq : tile' = tile
  · exact heq ▸ hown
  · refine ⟨?_, fun c hc => (hout tile' heq c hc).trans (ht.2 c hc)⟩
    rw [setTurn, mget_mset_ne 0 1 (Ne.symm heq), hturns]
    exact ht.1

theorem startTiles_started (x : Thread) {tile : Nat} : ∀ (l : List Nat) (s : State), s.TurnsRise → (tile ∈ l ∨ Started x s tile) →
    Started x (l.foldl (startTile x) s) tile := by
  intro l
  induction l with
  | nil => exact fun s _ h => h.resolve_left List.not_mem_nil
  | cons a l ih =>
    intro s hs h
    obtain ⟨hrise, hown, hkeep⟩ := startTile_started hs x a
    rw [List.foldl_cons]
    refine ih _ hrise ?_
    rcases h with h | h
    · refine (List.mem_cons.1 h).symm.imp_right fun ha => ?_
      rw [ha]
      exact hown
    · exact .inr (hkeep tile h)

/-- Between two states thread contexts and turns alone change. -/
def ThreadsOnly (s t : State) : Prop := t = { s with threads := t.threads, turns := t.turns }

theorem ThreadsOnly.trans (h : s.ThreadsOnly t) (g : t.ThreadsOnly u) : s.ThreadsOnly u := Eq.trans g (by rw [h])

theorem startTile_threadsOnly (x : Thread) (s : State) (tile : Nat) : s.ThreadsOnly (startTile x s tile) := by
  have hset := foldl_keeps (P := s.ThreadsOnly) (f := fun t th => t.setThread tile th x)
    (fun t th h => h.trans (u := t.setThread tile th x) rfl) (List.range 16) s rfl
  exact hset.trans rfl

theorem launchThreads_threadsOnly (s : State) (r : Req) (mask : Nat) : s.ThreadsOnly (s.launchThreads r mask) := by
  rw [launchThreads_eq]
  exact foldl_keeps (P := s.ThreadsOnly) (fun t tile h => h.trans (startTile_threadsOnly (launched r) t tile)) _ s rfl

theorem mem_maskTiles {mask n i : Nat} (hn : n < 48) (hb : mask.testBit n = true) (hi : i < 8) : 8 * n + i ∈ maskTiles mask :=
  List.mem_flatMap.2 ⟨n, List.mem_filter.2 ⟨List.mem_range.2 hn, hb⟩, List.mem_map.2 ⟨i, List.mem_range.2 hi, rfl⟩⟩

theorem qlaunch_refused (ho : s.openAs 0x14 r = true) (hn : s.threads.any (fun e => e.2.run = some r) = false)
    (h : s.qlaunchStatus r ≠ 0) : qlaunchEffect r s = s.finish r (s.qlaunchStatus r) := by
  unfold qlaunchEffect
  rw [if_neg (by simp only [ho, hn]; decide), if_pos h]

theorem qlaunch_starts (ho : s.openAs 0x14 r = true) (hn : s.threads.any (fun e => e.2.run = some r) = false)
    (h : s.qlaunchStatus r = 0) : qlaunchEffect r s = s.launchThreads r (r.f 4 47 0) := by
  unfold qlaunchEffect
  rw [if_neg (by simp only [ho, hn]; decide), if_neg (by simp [h])]

theorem qlaunchStatus_lt (s : State) (r : Req) : s.qlaunchStatus r < 256 := by
  unfold qlaunchStatus
  dsimp only
  split_ifs <;> decide

/-! ### Remote operations of a thread -/

theorem transmit_ops (s : State) (ports : List Nat) (p : Pkt) : (s.transmit ports p).fab.ops = s.fab.ops :=
  foldl_keeps (P := fun t : State => t.fab.ops = s.fab.ops) (f := fun t q => t.transmitOn q p) (fun _ _ h => h) ports s rfl

theorem usedPort_ops (s : State) (unit : Nat) (p : Pkt) (q : Option Nat) : (s.usedPort unit p q).fab.ops = s.fab.ops := by
  unfold usedPort
  split
  · split <;> rfl
  · rfl

theorem countSent_ops (s : State) (o : Op) : (s.countSent o).fab.ops = s.fab.ops := by
  unfold countSent
  split
  · split <;> rfl
  · rfl

/-- Sending an operation leaves those under way, and what the operation is. -/
theorem launchOp_same (s : State) (o : Op) : (s.launchOp o).2.fab.ops = s.fab.ops ∧
    (s.launchOp o).1.typ = o.typ ∧ (s.launchOp o).1.dst = o.dst ∧ (s.launchOp o).1.owner = o.owner ∧
    (s.launchOp o).1.pkt = o.pkt := by
  unfold launchOp
  dsimp only
  split
  · exact ⟨countSent_ops .., rfl, rfl, rfl, rfl⟩
  · split
    · refine ⟨?_, rfl, rfl, rfl, rfl⟩
      rw [emit, transmit_ops, usedPort_ops, countSent_ops]
    · exact ⟨rfl, rfl, rfl, rfl, rfl⟩

/-- The operation that a unit begins joins those under way (R325, R332). -/
theorem issueOp_adds (s : State) (unit : Nat) (p : Pkt) (owner : Owner) :
    ∃ o, (s.issueOp unit p owner).fab.ops = s.fab.ops ++ [o] ∧ o.typ = p.typ.toNat ∧ o.dst = p.dst.val ∧ o.owner = owner ∧
      o.pkt.key = p.key ∧ o.pkt.off = p.off := by
  unfold issueOp
  extract_lets id p' op fab s1
  split
  rename_i op' s2 he
  refine ⟨op', ?_⟩
  split at he
  · cases he
    exact ⟨rfl, rfl, rfl, rfl, rfl, rfl⟩
  · obtain ⟨hops, htyp, hdst, howner, hpkt⟩ := launchOp_same s1 op
    rw [he] at hops htyp hdst howner hpkt
    exact ⟨congrArg (· ++ [op']) hops, htyp, hdst, howner, (congrArg Pkt.key hpkt :), (congrArg Pkt.off hpkt :)⟩

variable {tile th : Nat}

theorem executes_true (h : s.executes tile th = true) :
    (s.thread tile th).waits = false ∧ mget 0 s.turns tile = th + 1 := by
  simp only [executes, Thread.ready, Bool.and_eq_true, decide_eq_true_eq, Bool.not_eq_true'] at h
  exact ⟨h.1.1.1.2, h.1.1.2⟩

theorem nextReady_of_threads (h : t.threads = s.threads) (tile th : Nat) : t.nextReady tile th = s.nextReady tile th := by
  unfold nextReady thread
  rw [h]

theorem Sends.threads (h : s.Sends t) : t.threads = s.threads ∧ t.turns = s.turns :=
  ⟨(congrArg State.threads h.only :), (congrArg State.turns h.only :)⟩

/-- What a remote operation of a context does: its operation joins those under way, and where it waits for the answer the
context is suspended and the turn passes on (R341). -/
theorem threadOp_spec (hr : s.TurnsRise) (hw : (s.thread tile th).waits = false) (ht : mget 0 s.turns tile = th + 1)
    {f : Pkt → Pkt} (hf : ∀ p : Pkt, (f p).typ = p.typ ∧ (f p).dst = p.dst ∧ (f p).key = p.key ∧ (f p).off = p.off)
    (typ pkg part key off : Nat) (waits : Bool) (htf : s.threadOp tile th typ pkg part key off f waits = t) :
    (∃ o, t.fab.ops = s.fab.ops ++ [o] ∧ o.typ = typ % 2 ^ 5 ∧ o.dst = pkg % 4096 ∧ o.owner = .thread tile th waits ∧
      o.pkt.key = BitVec.ofNat 16 key ∧ o.pkt.off = BitVec.ofNat 40 off) ∧
    (t.thread tile th).waits = waits ∧ mget 0 t.turns tile = (if waits then t.nextReady tile th else th + 1) ∧
    s.regsBut t txKeys ∧
    t = { s with
      regs := t.regs, fab := t.fab, threads := t.threads, turns := t.turns, gate := { s.gate with flits := t.gate.flits }
      out := t.out } := by
  obtain ⟨htyp, hdst, hkey, hoff⟩ := hf (s.toRemote 3 typ pkg part key off (s.partOf (tile / 8)))
  unfold threadOp at htf
  dsimp only at htf
  generalize f (s.toRemote 3 typ pkg part key off (s.partOf (tile / 8))) = p at *
  have hop : ∀ v u : State, v.fab = s.fab → v.issueOp (srcUnit 0x11 tile) p (.thread tile th waits) = u →
      ∃ o, u.fab.ops = s.fab.ops ++ [o] ∧ o.typ = typ % 2 ^ 5 ∧ o.dst = pkg % 4096 ∧ o.owner = .thread tile th waits ∧
        o.pkt.key = BitVec.ofNat 16 key ∧ o.pkt.off = BitVec.ofNat 40 off := by
    rintro v u hv rfl
    obtain ⟨o, hops, hot, hod, how, hok, hoo⟩ := issueOp_adds v (srcUnit 0x11 tile) p (.thread tile th waits)
    rw [htyp] at hot
    rw [hdst] at hod
    exact ⟨o, hv ▸ hops, hot.trans (BitVec.toNat_ofNat ..), hod, how, hok.trans hkey, hoo.trans hoff⟩
  cases waits with
  | false =>
    have hsends := (issueOp_sends (owner := .thread tile th false) rfl s (srcUnit 0x11 tile) p).1
    simp only [Bool.false_eq_true, if_false] at htf
    rw [htf] at hsends
    obtain ⟨hthreads, hturns⟩ := hsends.threads
    refine ⟨hop s t rfl htf, ?_, hturns ▸ ht, hsends.regsBut, ?_⟩
    · unfold thread
      rw [hthreads]
      exact hw
    · rw [hthreads, hturns]
      exact hsends.only
  | true =>
    have hsends := (issueOp_sends (owner := .thread tile th true) rfl
      (s.setThread tile th { s.thread tile th with waits := true }) (srcUnit 0x11 tile) p).1
    simp only [if_true] at htf
    generalize hu : (s.setThread tile th { s.thread tile th with waits := true }).issueOp (srcUnit 0x11 tile) p
      (.thread tile th true) = u at hsends htf
    obtain ⟨hthreads, hturns⟩ := hsends.threads
    subst htf
    refine ⟨hop _ u ?_ hu, ?_, ?_, hsends.regsBut, ?_⟩
    · rfl
    · have hself : u.thread tile th = { s.thread tile th with waits := true } := by
        unfold State.thread
        rw [hthreads]
        exact thread_setThread hr.1 ..
      exact congrArg Thread.waits hself
    · exact mget_mset_self _ _ _ (hturns ▸ hr.2)
    · have honly := hsends.only
      unfold setTurn
      rw [honly]
      rfl

/-- The context empty, its turn with the next that is ready (R341). -/
def exited (s : State) (tile th : Nat) : State :=
  let t := s.setThread tile th Thread.init
  t.setTurn tile (t.nextReady tile th)

theorem threadExit_postsOnly (s : State) (tile th : Nat) : (s.exited tile th).PostsOnly (s.threadExit tile th) := by
  unfold threadExit exited
  dsimp only
  split
  · exact .ite (.refl _) (PostsOnly.refl _).finish
  · exact .refl _

/-- What the exit of a context leaves (R341). -/
theorem threadExit_spec (hr : s.TurnsRise) (htf : s.threadExit tile th = t) :
    t.thread tile th = .init ∧ mget 0 t.turns tile = t.nextReady tile th ∧
      ∀ a c, 16 * a + c ≠ 16 * tile + th → t.thread a c = s.thread a c := by
  have hposts := htf ▸ s.threadExit_postsOnly tile th
  have hthreads := hposts.threads
  have hturns := hposts.turns
  refine ⟨?_, ?_, fun a c hac => ?_⟩
  · unfold State.thread
    rw [hthreads]
    exact thread_setThread (s := s) hr.1 tile th Thread.init
  · rw [hturns, nextReady_of_threads hthreads]
    exact turn_setTurn (hr.setThread ..) ..
  · unfold State.thread
    rw [hthreads]
    exact mget_mset_ne Thread.init Thread.init hac.symm s.threads

end State

/-- A load, a store and an atomic of a context are remote operations, each with its packet's own fields (R341). -/
theorem exec_remote {tile : TileId} {th : Fin 16} {s : State} (h : s.executes tile th = true) {q : PkgId} {part : PartId}
    {key : BitVec 16} {off : BitVec 40} {len : BitVec 13} {data : List Byte} {aop : BitVec 4} {wide uns : Bool} {x y : Word}
    {e : QOp × Nat × Bool} (he : e ∈ [(QOp.load q part key off len, 0x18, true),
      (.atomic q part key off aop wide uns x y, 0x1A, true), (.store q part key off data, 0x19, false)]) :
    e.2.1 < 32 ∧ ∃ f : Pkt → Pkt,
      (∀ p : Pkt, (f p).typ = p.typ ∧ (f p).dst = p.dst ∧ (f p).key = p.key ∧ (f p).off = p.off) ∧
      exec (.quinbingoInstruction tile th e.1) s =
        .next (s.threadOp tile th e.2.1 q part key.toNat off.toNat f e.2.2) := by
  simp only [List.mem_cons, List.not_mem_nil, or_false] at he
  rcases he with rfl | rfl | rfl
  · exact ⟨Nat.lt_of_sub_pos (Nat.zero_lt_succ 7), fun p => { p with len := len }, fun _ => ⟨rfl, rfl, rfl, rfl⟩, if_pos h⟩
  · exact ⟨Nat.lt_of_sub_pos (Nat.zero_lt_succ 5), fun p => { p with
      aop := aop, wide := wide, uns := uns, data := toLE 8 x.toNat ++ toLE 8 y.toNat },
      fun _ => ⟨rfl, rfl, rfl, rfl⟩, if_pos h⟩
  · exact ⟨Nat.lt_of_sub_pos (Nat.zero_lt_succ 6), fun p => withData p (clean data), fun _ => ⟨rfl, rfl, rfl, rfl⟩, if_pos h⟩

/-- Settles O50: a request that is turned away completes with its status; a launch starts tile by tile; and a thread's
instruction is its remote operation or its exit. -/
theorem launchesAndThreads : Obligations.LaunchesAndThreads := by
  refine ⟨fun r s hwf hring => ⟨fun hopen hpend => ?_, fun hopen hall => ?_⟩, fun tile th s hwf => ⟨fun hnot op => ?_,
    fun hexec => ⟨fun code => if_pos hexec, fun q part key off len data aop wide uns x y e he => ?_, ?_⟩⟩⟩
  · obtain ⟨w, -⟩ := State.rising_of_wf hwf
    have hisOpen := State.isOpen_of_openAs hopen
    have hposts : ∀ st rest, s.PostsOnly (s.complete r st r.handle.toNat rest) := fun _ _ => (State.PostsOnly.refl s).complete
    refine ⟨fun hbad => ⟨_, congrArg Host.Outcome.next (State.roleChange_badTable hopen hpend hbad),
      State.complete_completed hisOpen hring (by decide), (hposts ..).rolePend.trans hpend, (hposts ..).roles⟩,
      fun hgood hlate => ?_, fun hgood hbar hold => ⟨_, congrArg Host.Outcome.next ((State.roleChange_offers hopen hpend hgood).trans
        (State.offerRole_superseded hbar hold)), State.complete_completed hisOpen hring (by decide), (hposts ..).rolePend.trans hpend⟩,
      fun hgood hbar hnew hpast => congrArg Host.Outcome.next ((State.roleChange_offers hopen hpend hgood).trans
        (State.offerRole_pends hbar hnew hpast hpend))⟩
    have hraise := State.raise_ringSame State.roleLate_apart s 0 [] 0
    have hopen' : (s.raise E.SCHED_ROLE_LATE).isOpen r = true := by
      rw [State.isOpen, State.raise_host]
      exact hisOpen
    refine ⟨_, congrArg Host.Outcome.next ((State.roleChange_offers hopen hpend hgood).trans (State.offerRole_late hlate)),
      hraise.completed (by rw [State.raise_host]) (State.complete_completed hopen' (hraise.ringOpen hring) (by decide)),
      State.raised_then (State.raised_raise w (by decide)) (State.complete_frame hopen' (hraise.ringOpen hring)) (by decide)
        (by decide) List.not_mem_nil List.not_mem_nil, ?_⟩
    exact (((State.PostsOnly.refl s).raise (e := E.SCHED_ROLE_LATE)).complete.rolePend).trans hpend
  · have hnone : s.threads.any (fun e => e.2.run = some r) = false := by simpa using hall
    refine ⟨fun hst => ⟨_, congrArg Host.Outcome.next (State.qlaunch_refused hopen hnone hst),
      State.complete_completed (State.isOpen_of_openAs hopen) hring (s.qlaunchStatus_lt r),
      (State.PostsOnly.refl s).finish.threads⟩, fun hst =>
      ⟨_, congrArg Host.Outcome.next (State.qlaunch_starts hopen hnone hst), fun n hn hbit i hi => ?_,
        State.launchThreads_threadsOnly ..⟩⟩
    rw [State.launchThreads_eq]
    exact State.startTiles_started (State.launched r) _ s (State.turnsRise_of_wf hwf) (.inl (State.mem_maskTiles hn hbit hi))
  · exact if_neg (by simp [hnot])
  · obtain ⟨hwaits, hturn⟩ := State.executes_true hexec
    obtain ⟨htyp, f, hf, hexec'⟩ := exec_remote hexec he
    obtain ⟨⟨o, hops, hot, hod, how, hok, hoo⟩, hrest⟩ :=
      State.threadOp_spec (State.turnsRise_of_wf hwf) hwaits hturn hf e.2.1 q part key.toNat off.toNat e.2.2 rfl
    exact ⟨_, o, hexec', hops, hot.trans (Nat.mod_eq_of_lt htyp), hod.trans (Nat.mod_eq_of_lt q.isLt), how,
      hok.trans (BitVec.ofNat_toNat ..), hoo.trans (BitVec.ofNat_toNat ..), hrest⟩
  · exact ⟨_, if_pos hexec, State.threadExit_spec (State.turnsRise_of_wf hwf) rfl⟩

end Sys2Proof.Machine
end

section
namespace Sys2Proof.Machine

/-! ### Numbers and bits -/

/-- A bit of a mask built bit by bit. -/
theorem testBit_sumOf_range (f : Nat → Bool) (i : Nat) : ∀ n : Nat,
    (sumOf ((List.range n).map (fun j => b2n (f j) * 2 ^ j))).testBit i = (decide (i < n) && f i) ∧
      sumOf ((List.range n).map (fun j => b2n (f j) * 2 ^ j)) < 2 ^ n
  | 0 => by simp [sumOf]
  | n + 1 => by
    obtain ⟨hbit, hlt⟩ := testBit_sumOf_range f i n
    rw [List.range_succ, List.map_append, sumOf_append]
    generalize sumOf ((List.range n).map (fun j => b2n (f j) * 2 ^ j)) = x at hbit hlt
    have hone : sumOf ([n].map (fun j => b2n (f j) * 2 ^ j)) = 2 ^ n * (f n).toNat := by
      cases h : f n <;> simp [sumOf, b2n, h]
    rw [hone, Nat.add_comm, Nat.testBit_two_pow_mul_add _ hlt, hbit,
      Nat.testBit_bool_toNat]
    refine ⟨?_, ?_⟩
    · rcases Nat.lt_trichotomy i n with h | rfl | h
      · simp [h, Nat.lt_succ_of_lt h]
      · simp
      · simp [show ¬ i < n by omega, show ¬ i < n + 1 by omega, show i - n ≠ 0 by omega]
    · cases f n <;> simp [Nat.pow_succ] <;> omega

theorem lt_ceilDiv_64 {i n : Nat} : i < ceilDiv n 64 ↔ 64 * i < n := by
  unfold ceilDiv
  omega

namespace State
variable {s t u : State} {fs : List Fld} {k a : Pkt} {typ st : Nat}

/-! ### What a packet changes before its answer goes out -/

/-- Between two states a packet was looked at: registers in the listed fields, the fault log and the entries of the regions
change alone, and nothing goes out. -/
structure Looks (fs : List Fld) (s t : State) : Prop extends Frame fs [] s t where
  only : t = { s with regs := t.regs, log := t.log, fab := { s.fab with cache := t.fab.cache, keys := t.fab.keys, invs := t.fab.invs } }

theorem Looks.refl (s : State) : s.Looks fs s := ⟨.refl s, rfl⟩

theorem Looks.trans (h : s.Looks fs t) (g : t.Looks fs u) : s.Looks fs u :=
  ⟨h.toFrame.trans g.toFrame, g.only.trans (by rw [h.only])⟩

theorem Looks.mono {fs' : List Fld} (h : s.Looks fs t) (hf : fs ⊆ fs' := by decide) : s.Looks fs' t :=
  ⟨h.toFrame.mono hf, h.only⟩

theorem Looks.ite {p : Prop} {_ : Decidable p} (ht : s.Looks fs t) (hu : s.Looks fs u) : s.Looks fs (if p then t else u) := by
  split <;> assumption

theorem Looks.wr (h : s.Looks fs t) {f : Fld} {v i k j : Nat} (hf : f ∈ fs := by decide) : s.Looks fs (t.wr f v i k j) :=
  h.trans ⟨.wr (.inl hf), rfl⟩

theorem Looks.bump (h : s.Looks fs t) {f : Fld} {v i k j : Nat} (hf : f ∈ fs := by decide) : s.Looks fs (t.bump f v i k j) :=
  h.wr hf

theorem Looks.raiseAs (h : s.Looks fs t) {unit : Nat} {e : EvFlag} {i k : Nat} {args : List Nat}
    (he : e.fields ⊆ fs := by decide) : s.Looks fs (t.raiseAs unit e i args k) := by
  obtain ⟨r, -, -, heq⟩ := raiseAs_eq t unit e i args k
  have hraise : t.Frame fs [] (t.raise e i args k) := ((Link.refl t).raise he).toFrame
  refine h.trans ⟨?_, by rw [heq]⟩
  rw [heq]
  exact ⟨hraise.rd, hraise.rising, List.prefix_append .., rfl, rfl, rfl, rfl, rfl⟩

theorem Looks.pkgId (h : s.Looks fs t) : t.pkgId = s.pkgId := (congrArg State.pkgId h.only :)

theorem Looks.kept (h : s.Looks fs t) : t.fab.kept = s.fab.kept := (congrArg (·.fab.kept) h.only :)

theorem Looks.reports (h : s.Looks fs t) : s.Reports fs t :=
  h.toFrame.reports (by rw [h.only]) (by rw [h.only]) (by rw [h.only])

theorem invalidate_only (f : Fab) (v : Inval) :
    f.invalidate v = { f with cache := (f.invalidate v).cache, keys := (f.invalidate v).keys } := by
  unfold Fab.invalidate
  split <;> rfl

theorem settleKeys_looks (s : State) : s.Looks fs s.settleKeys := by
  have hinv := foldl_keeps (P := fun f : Fab => f = { s.fab with cache := f.cache, keys := f.keys })
    (fun f v h => (invalidate_only f v).trans (by rw [h])) (s.fab.invs.filter (fun v => s.passed v.stamp 1024)) s.fab rfl
  exact ⟨.others, by unfold settleKeys; dsimp only; rw [hinv]⟩

theorem region_looks (s : State) (unit part idx : Nat) : s.Looks E.FAB_KEY_BAD.fields (s.region unit part idx).1 := by
  unfold region
  split
  · exact .refl s
  · exact ((Looks.refl s).raiseAs.ite (.refl s)).trans ⟨.others, rfl⟩

/-- The checks of a packet change the entry looked up, and may report it (R328, R329). -/
theorem checkPkt_looks (s : State) (typ : Nat) (k : Pkt) : s.Looks E.FAB_KEY_BAD.fields (s.checkPkt typ k).1 := by
  unfold checkPkt
  dsimp only
  split
  · exact settleKeys_looks s
  · split
    · exact settleKeys_looks s
    · exact (settleKeys_looks s).trans (region_looks ..)

theorem earlyStatus_le (s : State) (typ : Nat) (k : Pkt) : s.earlyStatus typ k ≤ 8 := by
  unfold earlyStatus
  dsimp only
  repeat' split
  all_goals decide

theorem regionStatus_le (typ : Nat) (k : Pkt) (en : Bool) (r : Region) : regionStatus typ k en r ≤ 8 := by
  unfold regionStatus
  repeat' split
  all_goals decide

theorem checkPkt_status_le (s : State) (typ : Nat) (k : Pkt) : (s.checkPkt typ k).2.1 ≤ 8 := by
  unfold checkPkt
  dsimp only
  split
  · exact earlyStatus_le ..
  · split
    · exact Nat.le_add_left 1 7
    · exact regionStatus_le ..

/-! ### Answers -/

theorem carries_of_inService {q cls : Nat} (h : s.inService q = true) : s.carries q cls = true := by
  rw [carries, h, Bool.true_or]

theorem inService_of_carries {q : Nat} (h : s.carries q 3 = true) : s.inService q = true := by
  simpa [carries] using h

/-- An answer to a packet on its link may go out: its port, unless there is none, is in service. -/
def answers (s : State) (a : Pkt) : Prop := ∀ q, a.via = some q → s.inService q = true

theorem answers_of_onLink (h : s.onLink k = true) (ha : a.via = k.via) : s.answers a := by
  intro q hq
  rw [ha] at hq
  rw [onLink, hq, Bool.and_eq_true] at h
  exact inService_of_carries h.2

theorem hears_of_answers (h : s.answers a) : s.hears a = true := by
  unfold hears
  split
  · next q hq => exact carries_of_inService (h q hq)
  · rfl

theorem answers_congr (hp : ∀ q, t.portState q = s.portState q) (h : s.answers a) : t.answers a := fun q hq => by
  unfold inService
  rw [hp]
  exact h q hq

/-- An answer goes out on its port, or into the loopback (R325, R326). -/
theorem respond_only (s : State) (a : Pkt) : s.respond a = { s with
    regs := (s.respond a).regs, fab := { s.fab with loop := (s.respond a).fab.loop, ports := (s.respond a).fab.ports }
    gate := { s.gate with flits := (s.respond a).gate.flits }, out := (s.respond a).out } := by
  unfold respond
  split
  · rfl
  · split
    · cases a.via <;> rfl
    · rfl

theorem respond_sends (s : State) (a : Pkt) : s.Sends (s.respond a) := by
  unfold respond
  split
  · exact ⟨.others, rfl, List.prefix_rfl⟩
  · split
    · cases a.via with
      | none => exact (Sends.refl s).emit
      | some q => exact ((Sends.refl s).transmit q.isLt).emit
    · exact .refl s

theorem respond_reports (s : State) (a : Pkt) : s.Reports [R.FAB_TX_FLITS_TX] (s.respond a) :=
  (respond_sends s a).reports (List.mem_singleton_self _)

theorem Frame.respond (h : s.Frame fs [] t) (a : Pkt) : s.Frame fs txKeys (t.respond a) :=
  (h.mono (List.Subset.refl _)).trans ((respond_sends t a).toFrame.mono (List.nil_subset _))

theorem Frame.keep (h : s.Frame fs [] t) (k a : Pkt) : s.Frame fs [] (t.keep k a) := h.trans .others

theorem Looks.memWf (h : s.Looks fs t) (hm : s.memWf = true) : t.memWf = true :=
  memWf_of_eq hm h.mem h.memMark h.tileMem h.tileMark h.tags (congrArg State.parked h.only :) (congrArg State.parkedMark h.only :)

/-- Nothing went out between two states, and the ports are as they were. -/
structure Silent (s t : State) : Prop where
  pkgId : t.pkgId = s.pkgId
  loop : t.fab.loop = s.fab.loop
  out : t.out = s.out
  ports : ∀ q, t.portState q = s.portState q

theorem Looks.silent (h : s.Looks fs t) (hf : fs.all (·.apart R.FAB_STATUS_STATE) = true := by decide) : s.Silent t where
  pkgId := h.pkgId
  loop := (congrArg (·.fab.loop) h.only :)
  out := (congrArg State.out h.only :)
  ports _ := h.rd hf List.not_mem_nil

theorem Silent.refl (s : State) : s.Silent s := ⟨rfl, rfl, rfl, fun _ => rfl⟩

theorem Silent.trans (h : s.Silent t) (g : t.Silent u) : s.Silent u where
  pkgId := g.pkgId.trans h.pkgId
  loop := g.loop.trans h.loop
  out := g.out.trans h.out
  ports q := (g.ports q).trans (h.ports q)

theorem Silent.keep (h : s.Silent t) (k a : Pkt) : s.Silent (t.keep k a) := h.trans ⟨rfl, rfl, rfl, fun _ => rfl⟩

theorem out_transmit (s : State) (l : List Nat) (a : Pkt) : (s.transmit l a).out = s.out :=
  foldl_keeps (P := fun t : State => t.out = s.out) (f := fun t q => t.transmitOn q a) (fun _ _ h => h) l s rfl

/-- A packet on its link is answered. -/
theorem Silent.replied (h : s.Silent t) (hk : s.onLink k = true) (ha : a.via = k.via) : s.replied (t.respond a) a := by
  have hears : t.hears a = true := hears_of_answers (answers_congr h.ports (answers_of_onLink hk ha))
  unfold State.replied
  split
  next hown =>
    rw [respond, if_pos (hown.trans h.pkgId.symm), ← h.loop, List.drop_left]
    exact List.mem_singleton_self a
  next hown =>
    rw [respond, if_neg (fun e => hown (e.trans h.pkgId)), if_pos hears, State.emit, out_transmit, h.out, List.drop_left]
    exact List.mem_singleton_self _

theorem answerTo_congr (h : t.pkgId = s.pkgId) (k : Pkt) (typ st : Nat) : t.answerTo k typ st = s.answerTo k typ st := by
  unfold answerTo blank
  rw [h]

/-! ### Refusals -/

theorem Looks.then_raisedBy {unit : Nat} {e : EvFlag} {i j : Nat} (g : s.Looks fs t) (h : t.raisedBy u unit e i j)
    (hc : fs.all (·.apart e.cnt) = true := by decide) : s.raisedBy u unit e i j := by
  obtain ⟨hon, hcnt, r, hr, hwhat⟩ := h
  refine ⟨hon, by rw [hcnt, g.rd hc List.not_mem_nil], r, ?_, hwhat⟩
  obtain ⟨l, hl⟩ := g.log
  rw [← hl, List.length_append, ← List.drop_drop] at hr
  exact List.mem_of_mem_drop hr

/-- What a refusal writes beside its own flag: the counts of what is stale, and whom it refused last (R80, R328, R351). -/
def refusalFields : List Fld :=
  [R.FAB_LAST_REFUSED_PKG, R.FAB_LAST_REFUSED_STATUS] ++ E.FAB_STALE_IN.fields ++ E.SCHED_ARR_STALE.fields

/-- The state with a refusal counted in its port's name (R351). -/
def refusedIn (s : State) (k : Pkt) (st : Nat) : State :=
  s.raiseAs k.portUnit E.FAB_REFUSED_IN 0 [k.src.val * 256 + k.unit.toNat, st]

/-- The state with the counts of what is stale (R80, R328). -/
def staleCounted (s : State) (typ : Nat) (k : Pkt) (st : Nat) : State :=
  let s := if st = 7 then s.raiseAs k.portUnit E.FAB_STALE_IN 0 [k.src.val * 256 + k.unit.toNat] else s
  if st = 7 ∧ (typ = 0x09 ∨ typ = 0x1C) ∧ k.arrEn = true then s.raise E.SCHED_ARR_STALE k.dset.toNat else s

theorem noteRefusal_eq (s : State) (typ : Nat) (k : Pkt) (st : Nat) : s.noteRefusal typ k st =
    (((s.refusedIn k st).staleCounted typ k st).wr R.FAB_LAST_REFUSED_PKG k.src.val).wr R.FAB_LAST_REFUSED_STATUS st := rfl

theorem staleCounted_looks (s : State) (typ : Nat) (k : Pkt) (st : Nat) : s.Looks refusalFields (s.staleCounted typ k st) :=
  have h := (Looks.refl s).raiseAs.ite (.refl s)
  h.raiseAs.ite h

/-- Beyond the count in its port's name, a refusal counts what is stale and latches whom it refused. -/
theorem noteRefusal_looks_refusedIn (s : State) (typ : Nat) (k : Pkt) (st : Nat) :
    (s.refusedIn k st).Looks refusalFields (s.noteRefusal typ k st) :=
  (staleCounted_looks ..).wr.wr

theorem noteRefusal_looks (s : State) (typ : Nat) (k : Pkt) (st : Nat) :
    s.Looks (E.FAB_REFUSED_IN.fields ++ refusalFields) (s.noteRefusal typ k st) :=
  (Looks.refl s).raiseAs.trans (noteRefusal_looks_refusedIn s typ k st).mono

theorem lastRefused_noteRefusal (w : mrising s.regs = true) (hst : st ≤ 8) :
    (s.noteRefusal typ k st).rd R.FAB_LAST_REFUSED_PKG = k.src.val ∧
      (s.noteRefusal typ k st).rd R.FAB_LAST_REFUSED_STATUS = st := by
  have wc : mrising ((s.refusedIn k st).staleCounted typ k st).regs = true :=
    (staleCounted_looks ..).rising (((Looks.refl s).raiseAs (fs := E.FAB_REFUSED_IN.fields)).rising w)
  rw [noteRefusal_eq]
  refine ⟨?_, (rd_wr_self (mrising_wr wc ..) ..).trans (Nat.mod_eq_of_lt (show st < 2 ^ 8 by omega))⟩
  rw [rd_wr_ne _ _ _ (Fld.fkey_ne (by decide)), rd_wr_self wc]
  exact Nat.mod_eq_of_lt k.src.isLt

/-- A packet whose checks give a status is refused: counted, latched, answered, and nothing of it lands (R324, R328). -/
theorem refuse_turnedAway (w : mrising s.regs = true) (hk : s.onLink k = true) (h : s.Looks E.FAB_KEY_BAD.fields t)
    (hst : st ≤ 8) : s.turnedAway (t.refuse typ k st) typ k st := by
  have wt := h.rising w
  have hnote := noteRefusal_looks t typ k st
  have hsends := respond_reports (t.noteRefusal typ k st) (t.refusal typ k st)
  obtain ⟨hpkg, hstatus⟩ := lastRefused_noteRefusal (typ := typ) (k := k) wt hst
  have hall : s.Frame (E.FAB_KEY_BAD.fields ++ (E.FAB_REFUSED_IN.fields ++ refusalFields)) txKeys (t.refuse typ k st) :=
    ((h.toFrame.mono (List.subset_append_left ..)).trans (hnote.toFrame.mono (List.subset_append_right ..))).respond _
  refine ⟨raisedBy_then (raisedBy_then (h.then_raisedBy (raisedBy_raiseAs wt (by decide)))
      (noteRefusal_looks_refusedIn t typ k st).reports) hsends,
    (hsends.rd (by decide)).trans hpkg, (hsends.rd (by decide)).trans hstatus,
    ⟨t.refusal typ k st, (h.silent.trans hnote.silent).replied hk rfl, ?_, BitVec.toNat_ofNat .., rfl, rfl⟩,
    hall.sameMem, hall.sameTiles⟩
  show (BitVec.ofNat 5 (refusalType typ)).toNat = _
  unfold refusalType
  split <;> rfl

end State
end Sys2Proof.Machine
end

section
namespace Sys2Proof.Machine
namespace State
variable {s t u v : State} {fs : List Fld} {k : Pkt} {typ a b o n : Nat} {x : Kept} {bs : List MarkByte}

/-! ### Commits -/

theorem landCommit_kept (h : s.keptFor k = some x) : s.landCommit typ k = s.respond { x.ans with via := k.via } := by
  unfold landCommit
  rw [h]

theorem landCommit_refused (h : s.keptFor k = none) (hst : (s.checkPkt typ k).2.1 ≠ 0) :
    s.landCommit typ k = (s.checkPkt typ k).1.refuse typ k (s.checkPkt typ k).2.1 := by
  unfold landCommit
  rw [h]
  exact if_pos hst

/-- The state with the arrival that a commit carries counted (R80). -/
def countArrival (s : State) (k : Pkt) : State := if k.arrEn then s.arrive k.dset.toNat k.arr.toNat else s

theorem countArrival_looks (s : State) (k : Pkt) :
    s.Looks [R.SCHED_ARR_COUNT, R.COPY_ARR_IN_INCREMENTS] (s.countArrival k) :=
  (Looks.refl s).bump.bump.ite (.refl s)

theorem arrCount_countArrival (w : mrising s.regs = true) :
    (s.countArrival k).rd R.SCHED_ARR_COUNT k.dset.toNat k.arr.toNat =
      if k.arrEn then (s.rd R.SCHED_ARR_COUNT k.dset.toNat k.arr.toNat + 1) % 2 ^ R.SCHED_ARR_COUNT.wid
      else s.rd R.SCHED_ARR_COUNT k.dset.toNat k.arr.toNat := by
  unfold countArrival
  split
  · exact (rd_wr_ne _ _ _ (Fld.fkey_ne (by decide))).trans (rd_wr_self w ..)
  · rfl

/-- A commit performed is counted, kept and answered (R80, R332). -/
theorem landCommit_performed (h : s.keptFor k = none) (hst : (s.checkPkt typ k).2.1 = 0) :
    s.landCommit typ k = (((s.checkPkt typ k).1.countArrival k).keep k (s.answerTo k 0x10 0)).respond (s.answerTo k 0x10 0) := by
  unfold landCommit
  rw [h, ← answerTo_congr (checkPkt_looks s typ k).pkgId]
  exact if_neg (not_not_intro hst)

theorem kept_respond (s : State) (p : Pkt) : (s.respond p).fab.kept = s.fab.kept := (congrArg (·.fab.kept) (respond_only s p) :)

/-- What a commit performed leaves: its counter, its answer and its outcome kept, and memory as it was. -/
theorem landCommit_lands (w : mrising s.regs = true) (hk : s.onLink k = true) (h : s.keptFor k = none)
    (hst : (s.checkPkt typ k).2.1 = 0) (ht : s.landCommit typ k = t) :
    s.replied t (s.answerTo k 0x10 0) ∧ s.sameMem t ∧ s.sameTiles t ∧
      t.rd R.SCHED_ARR_COUNT k.dset.toNat k.arr.toNat =
        (if k.arrEn then (s.rd R.SCHED_ARR_COUNT k.dset.toNat k.arr.toNat + 1) % 2 ^ R.SCHED_ARR_COUNT.wid
        else s.rd R.SCHED_ARR_COUNT k.dset.toNat k.arr.toNat) ∧
      t.fab.kept = s.fab.kept ++ [⟨k.src.val, k.unit.toNat, k.reqid.toNat, s.tempo.now + 2048 * s.rd R.FAB_DEAD_BEATS,
        s.answerTo k 0x10 0⟩] := by
  rw [landCommit_performed h hst] at ht
  subst ht
  have hlook := checkPkt_looks s typ k
  have hcount := countArrival_looks (s.checkPkt typ k).1 k
  have hboth : s.Looks (E.FAB_KEY_BAD.fields ++ [R.SCHED_ARR_COUNT, R.COPY_ARR_IN_INCREMENTS])
      ((s.checkPkt typ k).1.countArrival k) := hlook.mono.trans hcount.mono
  have hframe := (hboth.toFrame.keep k (s.answerTo k 0x10 0)).respond (s.answerTo k 0x10 0)
  refine ⟨(hboth.silent.keep ..).replied hk rfl, hframe.sameMem, hframe.sameTiles, ?_, ?_⟩
  · refine ((respond_reports _ _).rd (by decide)).trans ((arrCount_countArrival (hlook.rising w)).trans ?_)
    rw [hlook.rd (by decide) List.not_mem_nil]
  · have hdead := hboth.rd (f := R.FAB_DEAD_BEATS) (i := 0) (k := 0) (j := 0) (by decide) List.not_mem_nil
    rw [kept_respond, keep, hdead, hboth.kept, congrArg (·.tempo.now) hboth.only]

/-! ### Loads -/

theorem landLoad_refused (hst : (s.checkPkt 0x18 k).2.1 ≠ 0) :
    s.landLoad k = (s.checkPkt 0x18 k).1.refuse 0x18 k (s.checkPkt 0x18 k).2.1 := if_pos hst

/-- The marks of the lines of a region, a bit for each (R338). -/
def lineMarks (s : State) (a n : Nat) : Word :=
  BitVec.ofNat 64 (sumOf ((List.range (ceilDiv n 64)).map (fun i => b2n (s.lineMark (a + 64 * i)) * 2 ^ i)))

theorem getLsbD_lineMarks {i : Nat} (hi : i < 64) :
    (s.lineMarks a n).getLsbD i = (decide (64 * i < n) && s.lineMark (a + 64 * i)) := by
  rw [lineMarks, BitVec.getLsbD_ofNat, (testBit_sumOf_range (fun i => s.lineMark (a + 64 * i)) i _).1]
  simp only [hi, decide_true, Bool.true_and, lt_ceilDiv_64]

theorem devBytes_congr (h : t.mem = s.mem) (a n : Nat) : t.devBytes a n = s.devBytes a n := by
  unfold devBytes
  rw [h]

theorem landLoad_performed (hst : (s.checkPkt 0x18 k).2.1 = 0) :
    s.landLoad k = (s.checkPkt 0x18 k).1.respond { s.answerTo k 0x11 0 with
      len := k.len, data := s.devBytes (s.checkPkt 0x18 k).2.2 k.len.toNat,
      poison := s.lineMarks (s.checkPkt 0x18 k).2.2 k.len.toNat } := by
  have hlook := checkPkt_looks s 0x18 k
  have hmarks : s.lineMarks = (s.checkPkt 0x18 k).1.lineMarks := by
    funext a n
    simp only [lineMarks, lineMark, hlook.memMark]
  rw [← answerTo_congr hlook.pkgId, ← devBytes_congr hlook.mem, hmarks]
  exact if_neg (not_not_intro hst)

/-! ### Committed writes beside objects of CHECK windows -/

theorem Silent.setMem (h : s.Silent t) {m : List Host.Cell} : s.Silent { t with mem := m } := h.trans ⟨rfl, rfl, rfl, fun _ => rfl⟩

theorem Silent.markRange (h : s.Silent t) : s.Silent (t.markRange a n) := h.trans ⟨rfl, rfl, rfl, fun _ => rfl⟩

theorem Silent.ite {p : Prop} {_ : Decidable p} (ht : s.Silent t) (hu : s.Silent u) : s.Silent (if p then t else u) := by
  split <;> assumption

theorem Silent.bump (h : s.Silent t) {f : Fld} {v i k j : Nat} (hf : f.apart R.FAB_STATUS_STATE = true := by decide) :
    s.Silent (t.bump f v i k j) :=
  h.trans (((Looks.refl t).bump (List.mem_singleton_self f)).silent (by rw [List.all_cons, hf]; rfl))

theorem Silent.raise (h : s.Silent t) {e : EvFlag} {i k : Nat} {args : List Nat}
    (he : e.fields.all (·.apart R.FAB_STATUS_STATE) = true := by decide) : s.Silent (t.raise e i args k) :=
  h.trans (((Looks.refl t).raiseAs (List.Subset.refl _)).silent he)

theorem Silent.crcUpdate (h : s.Silent t) : s.Silent (State.crcUpdate v t o a n) :=
  have hpart := h.raise.markRange.ite h
  .ite h.setMem.bump (.ite hpart.setMem.bump hpart)

theorem Silent.generatorCheck (h : s.Silent t) {die : Nat} : s.Silent (t.generatorCheck die o) := .ite h.raise.markRange h

theorem devWrite_silent (s : State) (a : Nat) (bs : List MarkByte) : s.Silent (s.devWrite a bs) :=
  foldl_keeps (P := s.Silent) (fun _ _ h => h.crcUpdate.generatorCheck) _ _ ⟨rfl, rfl, rfl, fun _ => rfl⟩

theorem memBut_trans (h : s.memBut t a n) (g : t.memBut u a n) : s.memBut u a n := fun b hb => (g b hb).trans (h b hb)

theorem memBut_report (t : State) (e : EvFlag) (i : Nat) (args : List Nat) (o m : Nat) :
    t.memBut ((t.raise e i args).markRange o m) a n := fun b _ => congrArg (mget 0 · b) (raise_mem t e i args 0)

theorem memBut_ite {p : Prop} {_ : Decidable p} (ht : s.memBut t a n) (hu : s.memBut u a n) :
    s.memBut (if p then t else u) a n := by
  split <;> assumption

/-- A checksum is written and counted. -/
theorem memBut_setCrc (h : s.memBut t o 4) (c : Nat) (f : Fld) (n i : Nat) :
    s.memBut (({ t with mem := msetList 0 o (toLE 4 c) t.mem } : State).bump f n i) o 4 :=
  memBut_trans h fun b hb => mget_msetList_out 0 _ _ _ _ (by rw [length_toLE]; exact hb)

/-- A write of bytes of an object moves, beside them, its checksum (R174). -/
theorem memBut_crcUpdate (v t : State) (o a n : Nat) : t.memBut (State.crcUpdate v t o a n) o 4 :=
  have hsame : t.memBut t o 4 := fun _ _ => rfl
  have hpart := memBut_ite (memBut_report t E.CHECK_HDR_PARTIAL (v.ownerDie o) [o] o 32) hsame
  memBut_ite (memBut_setCrc hsame _ _ _ _) (memBut_ite (memBut_setCrc hpart _ _ _ _) hpart)

theorem memBut_generatorCheck (t : State) (die o : Nat) : t.memBut (t.generatorCheck die o) o 4 :=
  memBut_ite (memBut_report t E.CHECK_GEN_FAULT die [o] o 32) fun _ _ => rfl

/-- A committed write stores its bytes, and moves beside them the checksums of the objects that it touches (R148, R174). -/
theorem stored_devWrite (hm : s.memWf = true) (a : Nat) (bs : List MarkByte) : s.stored (s.devWrite a bs) a bs := by
  intro b hb
  have hcrc : ∀ (l : List Nat) (t : State), (∀ o ∈ l, b < o ∨ o + 4 ≤ b) →
      (l.foldl (fun t o => (s.crcUpdate t o a bs.length).generatorCheck (s.ownerDie o) o) t).devByte b = t.devByte b := by
    intro l
    induction l with
    | nil => exact fun _ _ => rfl
    | cons o l ih =>
      intro t hl
      rw [List.foldl_cons, ih _ fun o' ho' => hl o' (List.mem_cons_of_mem _ ho'),
        memBut_trans (memBut_crcUpdate s t o a bs.length) (memBut_generatorCheck _ _ o) b (hl o (List.mem_cons_self ..))]
  refine (hcrc _ (s.devPut a bs) hb).trans ?_
  split
  next hin =>
    obtain ⟨i, rfl⟩ := Nat.exists_eq_add_of_le hin.1
    have hi : i < bs.length := by omega
    rw [devByte_devPut_in hm hi, Nat.add_sub_cancel_left, List.getElem?_eq_getElem hi]
    rfl
  next hout => exact devByte_devPut_out (by omega)

theorem Looks.touchedBy (h : s.Looks E.FAB_KEY_BAD.fields t) (a n : Nat) : t.touchedBy a n = s.touchedBy a n := by
  unfold State.touchedBy touched State.on
  simp only [h.rd (f := R.CHECK_WIN_BASE_BASE) (by decide) List.not_mem_nil, h.rd (f := R.CHECK_WIN_SLOT_SLOT) (by decide) List.not_mem_nil,
    h.rd (f := R.CHECK_WIN_LIMIT_LIMIT) (by decide) List.not_mem_nil, h.rd (f := R.CHECK_WIN_BASE_EN) (by decide) List.not_mem_nil]

theorem Looks.stored (h : s.Looks E.FAB_KEY_BAD.fields t) (hs : t.stored u a bs) : s.stored u a bs := by
  intro b hb
  rw [← (h.toFrame.sameMem b).1]
  exact hs b (by rw [h.touchedBy]; exact hb)

theorem stored_congr (h : t.sameMem u) (hs : s.stored t a bs) : s.stored u a bs := fun b hb => (h b).1.trans (hs b hb)

/-! ### Atomics -/

/-- Bytes that an atomic works on (R330). -/
def atomicWidth (k : Pkt) : Nat := if k.wide then 8 else 4

/-- An operand of an atomic, in its width (R330). -/
def atomicOperand (k : Pkt) (i : Nat) : Nat := ofLE ((k.data.drop i).take 8) % 2 ^ (8 * atomicWidth k)

/-- What an atomic at an address writes there, if it writes (R330). -/
def atomicResult (s : State) (k : Pkt) (a : Nat) : Option Nat :=
  atomicNew k.aop.toNat (atomicWidth k) k.uns (s.devNat a (atomicWidth k)) (atomicOperand k 0) (atomicOperand k 8)

/-- The state with an atomic's result written, if it writes. -/
def atomicWrite (s : State) (k : Pkt) (a : Nat) : Option Nat → State
  | some v => s.devWrite a (clean (toLE (atomicWidth k) v))
  | none => s

/-- The answer of an atomic at an address: the old value (R330). -/
def atomicAnswer (s : State) (k : Pkt) (a : Nat) : Pkt :=
  { s.answerTo k 0x12 0 with data := toLE 8 (s.devNat a (atomicWidth k)) }

theorem landAtomic_kept (h : s.keptFor k = some x) : s.landAtomic k = s.respond { x.ans with via := k.via } := by
  unfold landAtomic
  rw [h]

theorem landAtomic_refused (h : s.keptFor k = none) (hst : (s.checkPkt 0x1A k).2.1 ≠ 0) :
    s.landAtomic k = (s.checkPkt 0x1A k).1.refuse 0x1A k (s.checkPkt 0x1A k).2.1 := by
  unfold landAtomic
  rw [h]
  exact if_pos hst

theorem Looks.atomicResult (h : s.Looks fs t) (k : Pkt) (a : Nat) : t.atomicResult k a = s.atomicResult k a := by
  unfold State.atomicResult devNat
  rw [devBytes_congr h.mem]

theorem Looks.atomicAnswer (h : s.Looks fs t) (k : Pkt) (a : Nat) : t.atomicAnswer k a = s.atomicAnswer k a := by
  unfold State.atomicAnswer devNat
  rw [devBytes_congr h.mem, answerTo_congr h.pkgId]

/-- An atomic performed writes its result, is kept and is answered with the old value (R330, R332). -/
theorem landAtomic_performed (h : s.keptFor k = none) (hst : (s.checkPkt 0x1A k).2.1 = 0) :
    s.landAtomic k = (((s.checkPkt 0x1A k).1.atomicWrite k (s.checkPkt 0x1A k).2.2 (s.atomicResult k (s.checkPkt 0x1A k).2.2)).keep k
      (s.atomicAnswer k (s.checkPkt 0x1A k).2.2)).respond (s.atomicAnswer k (s.checkPkt 0x1A k).2.2) := by
  have hlook := checkPkt_looks s 0x1A k
  rw [← hlook.atomicResult, ← hlook.atomicAnswer]
  unfold landAtomic
  rw [h]
  refine (if_neg (not_not_intro hst)).trans ?_
  unfold State.atomicResult atomicWrite
  rfl

theorem atomicWrite_silent (s : State) (k : Pkt) (a : Nat) (r : Option Nat) : s.Silent (s.atomicWrite k a r) := by
  cases r with
  | some v => exact devWrite_silent ..
  | none => exact .refl s

theorem landAtomic_replied (hk : s.onLink k = true) (h : s.keptFor k = none) (hst : (s.checkPkt 0x1A k).2.1 = 0) :
    s.replied (s.landAtomic k) (s.atomicAnswer k (s.checkPkt 0x1A k).2.2) := by
  rw [landAtomic_performed h hst]
  exact (((checkPkt_looks s 0x1A k).silent.trans (atomicWrite_silent ..)).keep ..).replied hk rfl

theorem landAtomic_stored (hm : s.memWf = true) (h : s.keptFor k = none) (hst : (s.checkPkt 0x1A k).2.1 = 0) {r : Nat}
    (hr : s.atomicResult k (s.checkPkt 0x1A k).2.2 = some r) :
    s.stored (s.landAtomic k) (s.checkPkt 0x1A k).2.2 (clean (toLE (atomicWidth k) r)) := by
  have hlook := checkPkt_looks s 0x1A k
  rw [landAtomic_performed h hst, hr]
  refine stored_congr (respond_sends ..).sameMem (hlook.stored ?_)
  exact stored_devWrite (hlook.memWf hm) _ _

theorem landAtomic_sameMem (h : s.keptFor k = none) (hst : (s.checkPkt 0x1A k).2.1 = 0)
    (hr : s.atomicResult k (s.checkPkt 0x1A k).2.2 = none) : s.sameMem (s.landAtomic k) := by
  rw [landAtomic_performed h hst, hr]
  exact (((checkPkt_looks s 0x1A k).toFrame.keep ..).respond _).sameMem

/-! ### The operations of an atomic (R330) -/

theorem atomicResult_of_aop (v : BitVec 4) (h : k.aop = v) (a : Nat) : s.atomicResult k a =
    atomicNew v.toNat (atomicWidth k) k.uns (s.devNat a (atomicWidth k)) (atomicOperand k 0) (atomicOperand k 8) := by
  rw [atomicResult, h]

end State

/-- An SCOMMIT or UCOMMIT that may be taken lands (R334, R335). -/
theorem exec_commit {k : Pkt} {e : Instr × Nat} (he : e ∈ [(Instr.scommit k, 0x09), (.ucommit k, 0x1C)]) (s : State) :
    exec e.1 s = .next (if s.hears k then s.landCommit e.2 k else s) := by
  simp only [List.mem_cons, List.not_mem_nil, or_false] at he
  rcases he with rfl | rfl <;> rfl

theorem hears_of_onLink {s : State} {k : Pkt} (h : s.onLink k = true) : s.hears k = true := by
  rw [State.onLink, Bool.and_eq_true] at h
  exact h.1

theorem atomicNew_least (w old x cmp : Nat) : atomicNew 1 w true old x cmp = some (min x old) := by
  simp only [atomicNew, if_true, decide_eq_true_eq, min_def_lt]

theorem atomicNew_greatest (w old x cmp : Nat) : atomicNew 2 w true old x cmp = some (max x old) := by
  simp only [atomicNew, if_true, decide_eq_true_eq, max_comm x, max_def_lt]

theorem atomicNew_signedLeast (w old x cmp : Nat) :
    atomicNew 1 w false old x cmp = some (if signed (8 * w) x < signed (8 * w) old then x else old) := by
  simp only [atomicNew, Bool.false_eq_true, if_false, decide_eq_true_eq]

theorem atomicNew_signedGreatest (w old x cmp : Nat) :
    atomicNew 2 w false old x cmp = some (if signed (8 * w) old < signed (8 * w) x then x else old) := by
  simp only [atomicNew, Bool.false_eq_true, if_false, decide_eq_true_eq]

/-- Settles O40: each packet is its kept answer, its refusal, or its operation with an answer; an atomic's result is read off
its operation. -/
theorem commitsLoadsAtomics : Obligations.CommitsLoadsAtomics := by
  refine ⟨fun k s hwf e he => ?_, fun k s hwf => ⟨fun hno => ⟨congrArg Host.Outcome.next (if_neg (by simp [hno])),
    congrArg Host.Outcome.next (if_neg (by simp [hno]))⟩, fun hk => ?_, fun hk => ?_⟩⟩
  all_goals obtain ⟨w, -⟩ := State.rising_of_wf hwf
  · have hexec := exec_commit he s
    refine ⟨fun hno => by rw [hexec, if_neg (by simp [hno])], fun hk => ?_⟩
    rw [if_pos (hears_of_onLink hk)] at hexec
    refine ⟨fun o ho => ⟨_, hexec, ?_⟩, fun hnone => ⟨fun hst => ⟨_, hexec, ?_⟩, fun hst => ⟨_, hexec, ?_⟩⟩⟩
    · rw [State.landCommit_kept ho]
      exact ⟨(State.Silent.refl s).replied hk rfl, (State.respond_sends ..).regsBut, State.respond_only ..⟩
    · rw [State.landCommit_refused hnone hst]
      exact State.refuse_turnedAway w hk (State.checkPkt_looks ..) (State.checkPkt_status_le ..)
    · obtain ⟨hreplied, hmem, htiles, hcount, hkept⟩ := State.landCommit_lands w hk hnone hst rfl
      exact ⟨hreplied, hmem, htiles, hcount, _, by rw [hkept, List.drop_left]; exact List.mem_singleton_self _, rfl, rfl, rfl, rfl, rfl⟩
  · have hexec : exec (.fabricLoad k) s = .next (s.landLoad k) := congrArg Host.Outcome.next (if_pos (hears_of_onLink hk))
    refine ⟨fun hst => ⟨_, hexec, ?_⟩, fun hst => ⟨_, s.lineMarks (s.checkPkt 0x18 k).2.2 k.len.toNat, hexec, ?_⟩⟩
    · rw [State.landLoad_refused hst]
      exact State.refuse_turnedAway w hk (State.checkPkt_looks ..) (State.checkPkt_status_le ..)
    · have hlook := State.checkPkt_looks s 0x18 k
      rw [State.landLoad_performed hst]
      exact ⟨(hlook.toFrame.respond _).sameMem, (hlook.toFrame.respond _).sameTiles, hlook.silent.replied hk rfl,
        fun i hi => State.getLsbD_lineMarks hi⟩
  · have hexec : exec (.fabricAtomic k) s = .next (s.landAtomic k) := congrArg Host.Outcome.next (if_pos (hears_of_onLink hk))
    refine ⟨fun o ho => ⟨_, hexec, ?_⟩, fun hnone hst => ⟨_, hexec, ?_⟩, fun hnone hst => ⟨_, hexec,
      State.landAtomic_replied hk hnone hst, ?_⟩⟩
    · rw [State.landAtomic_kept ho]
      exact ⟨(State.Silent.refl s).replied hk rfl, (State.respond_sends ..).sameMem⟩
    · rw [State.landAtomic_refused hnone hst]
      exact State.refuse_turnedAway w hk (State.checkPkt_looks ..) (State.checkPkt_status_le ..)
    · have hstored := fun r => State.landAtomic_stored (State.memWf_of_wf hwf) hnone hst (r := r)
      have haop := fun v hv => State.atomicResult_of_aop (s := s) (k := k) v hv (s.checkPkt 0x1A k).2.2
      refine ⟨fun h0 => hstored _ (haop _ h0), fun h1 hu => hstored _ ?_, fun h2 hu => hstored _ ?_, fun h1 hu => hstored _ ?_,
        fun h2 hu => hstored _ ?_, fun h3 heq => hstored _ ?_, fun h3 hne => State.landAtomic_sameMem hnone hst ?_⟩
      · rw [haop _ h1, hu]
        exact atomicNew_least ..
      · rw [haop _ h2, hu]
        exact atomicNew_greatest ..
      · rw [haop _ h1, hu]
        exact atomicNew_signedLeast ..
      · rw [haop _ h2, hu]
        exact atomicNew_signedGreatest ..
      · exact (haop _ h3).trans (if_pos heq)
      · exact (haop _ h3).trans (if_neg hne)

end Sys2Proof.Machine
end

section
namespace Sys2Proof.Machine

/-! O16 to O19, like the second half of O13, do not ask for canonical maps (`State.wf`), which every reachable state has (O3,
O4). Where the map of Sets holds two entries for one Set, the lateness that a timed issue notes, 0, writes the reset record: it
deletes the first entry and uncovers the second, with a command in flight. What the commands compute has no part in it. -/

/-- Set 0 of a package at reset runs a timed stream of the one command with these words, at address 0, and has the two records
of `copyOfNone`. -/
def runsTwiceRecorded (words : List Nat) : State :=
  { ((((State.reset.wr R.SCHED_STATUS_STATE 2).wr R.SCHED_STREAM_LEN_LEN 1).wr R.SCHED_IMG_TIMED 1).devSet 0
      (words.flatMap (toLE 8))) with sets := copyOfNone.sets }

/-- The first command of Set 0's stream at address 0, as it issues with a count. -/
def firstGo (s : State) (n : Nat) : Go := ⟨0, s.cmdAt 0, 0, n, 0, false, false⟩

/-- A command that goes in flight where none was is in flight alone. -/
theorem not_two_flights_of_wentIn {c : Instr} {s t u : State} {g : Go} {kind : FlightKind} {work : List Wk} {held : List Held}
    (hin : s.wentIn t g kind work held) (hnone : (s.st g.set).flights = []) (ht : exec c s = .next t)
    (hu : exec c s = .next u) : (u.st g.set).flights.length ≠ 2 := by
  obtain ⟨⟨f, hf, -⟩, -⟩ := hin
  cases hu.symm.trans ht
  rw [hf, hnone]
  simp

/-- An MPASS of one row and one K-block on tile 0, its weights at 0 and its activations at 0x8000; both headers carry the
poison mark, so that neither object has a fault (R173). -/
def passOfOneRow : State :=
  let marked : List MarkByte := List.replicate 32 (0, true)
  ((runsTwiceRecorded [0x102, 0x8000 * 2 ^ 32, 1 * 2 ^ 32, 1]).sramPut (tileKey 0 false 0) marked).sramPut
    (tileKey 0 false 0x8000) marked

/-- ADD of one element: SRC0 at 0, SRC1 at 0x1000, DST at 0x2000. -/
def addOfOne : State := runsTwiceRecorded [0x103, 0x01, 0x1000 + 0x2000 * 2 ^ 32, 1]

/-- ROT of one chunk of 128 elements from 0 to 0x2000. -/
def rotOfOneChunk : State := runsTwiceRecorded [0x103, 0x30, 0x2000 * 2 ^ 32, 128]

/-- LSCLEAR of one record at 0x2000. -/
def clearOfOneRecord : State := runsTwiceRecorded [0x103, 0x3C, 0x2000 * 2 ^ 32, 1]

theorem passOfOneRow_issues : passOfOneRow.issues 0 (isOp 2) (firstGo passOfOneRow 1) := by
  unfold State.issues
  decide +kernel

theorem passOfOneRow_noFault :
    ∀ tile ∈ (firstGo passOfOneRow 1).c.tiles 0,
      (passOfOneRow.passEff tile (firstGo passOfOneRow 1).c 1 false false).causes = [] := by
  decide +kernel

theorem addOfOne_issues : addOfOne.issues 0 (isVop 0x01 0x01) (firstGo addOfOne 1) := by
  unfold State.issues
  decide +kernel

theorem rotOfOneChunk_issues : rotOfOneChunk.issues 0 (isVop 0x30 0x32) (firstGo rotOfOneChunk 128) := by
  unfold State.issues
  decide +kernel

theorem clearOfOneRecord_issues : clearOfOneRecord.issues 0 (isVop 0x3C 0x3C) (firstGo clearOfOneRecord 1) := by
  unfold State.issues
  decide +kernel

theorem passOfOneRow_flights : ((mpassEffect 0 ⟨0, 0⟩ passOfOneRow).st 0).flights.length = 2 := by decide +kernel

theorem addOfOne_flights : ((vopEffect 0x01 0x01 0 ⟨0, 0⟩ addOfOne).st 0).flights.length = 2 := by decide +kernel

theorem rotOfOneChunk_flights : ((vopEffect 0x30 0x32 0 ⟨0, 0⟩ rotOfOneChunk).st 0).flights.length = 2 := by decide +kernel

theorem clearOfOneRecord_flights : ((vopEffect 0x3C 0x3C 0 ⟨0, 0⟩ clearOfOneRecord).st 0).flights.length = 2 := by decide +kernel

/-- Refutes O16: after the MPASS of `passOfOneRow` issues, two commands are in flight where there was none. -/
theorem not_mpassLongSums : ¬ Obligations.MpassLongSums := by
  intro h
  obtain ⟨t, work, ht, hin, -⟩ :=
    h 0 ⟨0, 0⟩ passOfOneRow (firstGo passOfOneRow 1) passOfOneRow_issues (by decide) rfl (by decide +kernel) passOfOneRow_noFault
  exact not_two_flights_of_wentIn hin rfl ht rfl passOfOneRow_flights

/-- Refutes O17: after the ADD of `addOfOne` issues, two commands are in flight where there was none. -/
theorem not_vopElementwise : ¬ Obligations.VopElementwise := by
  rintro ⟨h, -⟩
  obtain ⟨t, out, ht, hin, -⟩ :=
    h 0 ⟨0, 0⟩ addOfOne (firstGo addOfOne 1) (.add 0 ⟨0, 0⟩, 0x01, fAdd) (by simp) addOfOne_issues (by decide) rfl
  exact not_two_flights_of_wentIn hin rfl ht rfl addOfOne_flights

/-- Refutes O18: after the ROT of `rotOfOneChunk` issues, two commands are in flight where there was none. -/
theorem not_vopRotations : ¬ Obligations.VopRotations := by
  intro h
  obtain ⟨t, out, ht, hin, -⟩ :=
    h 0 ⟨0, 0⟩ rotOfOneChunk (firstGo rotOfOneChunk 128) (.rot 0 ⟨0, 0⟩, 0x30, false) (by simp) rotOfOneChunk_issues (by decide) rfl
  exact not_two_flights_of_wentIn hin rfl ht rfl rotOfOneChunk_flights

/-- Refutes O19: after the LSCLEAR of `clearOfOneRecord` issues, two commands are in flight where there was none. -/
theorem not_vopLongSums : ¬ Obligations.VopLongSums := by
  intro h
  obtain ⟨-, -, -, -, hclear⟩ := h 0 ⟨0, 0⟩ clearOfOneRecord (firstGo clearOfOneRecord 1) rfl (by decide)
  obtain ⟨t, work, ht, hin, -⟩ := hclear clearOfOneRecord_issues
  exact not_two_flights_of_wentIn hin rfl ht rfl clearOfOneRecord_flights

end Sys2Proof.Machine
end

section
namespace Sys2Proof.Machine

/-! O20, like O16 to O19, does not ask for canonical maps (`State.wf`), and fails in the same way. -/

/-- AMAX of 32 elements at 0, its context at 0x1000. -/
def amaxOfBlock : State := runsTwiceRecorded [0x103, 0x2B, 0x1000, 32]

theorem amaxOfBlock_issues : amaxOfBlock.issues 0 (isVop 0x2B 0x2B) (firstGo amaxOfBlock 32) := by
  unfold State.issues
  decide +kernel

theorem amaxOfBlock_flights : ((vopEffect 0x2B 0x2B 0 ⟨0, 0⟩ amaxOfBlock).st 0).flights.length = 2 := by decide +kernel

/-- Refutes O20: after the AMAX of `amaxOfBlock` issues, two commands are in flight where there was none. -/
theorem not_vopQuantisers : ¬ Obligations.VopQuantisers := by
  intro h
  obtain ⟨-, -, hamax, -⟩ := h 0 ⟨0, 0⟩ amaxOfBlock (firstGo amaxOfBlock 32) rfl (by decide)
  obtain ⟨t, ht, hin⟩ := hamax amaxOfBlock_issues
  exact not_two_flights_of_wentIn hin rfl ht rfl amaxOfBlock_flights

end Sys2Proof.Machine
end

section
namespace Sys2Proof.Machine

/-! O36 lets the reference tiles of a sample wait in Q2 whatever the state of debug. While KIND 1 debug is unlocked, the NV slots
that they are read from are shut, and none of their moves is queued (R470). -/

theorem two_le_refTiles (fmt : Nat) : 2 ≤ refTiles fmt := by
  unfold refTiles
  split_ifs <;> decide

namespace State

@[simp] theorem nvShut_queueMove (s : State) (m : Move) (rs : List (Nat × Nat)) : (s.queueMove m rs).nvShut = s.nvShut := by
  unfold queueMove
  split <;> rfl

/-- While the NV slots are shut, no move of a sample that reads one is queued. -/
theorem foldl_queueMove_of_nvShut {s : State} (hshut : s.nvShut = true) {ms : List Move}
    (hms : ∀ m ∈ ms, m.byLine = true ∧ m.kind = 1) :
    ms.foldl (fun u m => u.queueMove m [(m.dst, m.size)]) s = s :=
  List.foldlRecOn (motive := fun u => u = s) ms _ rfl fun _ hu m hm => by
    obtain ⟨hline, hkind⟩ := hms m hm
    rw [hu]
    exact if_pos ⟨hline, hkind, hshut⟩

/-- A sample has its narrow tile and two or more reference tiles. -/
theorem two_lt_length_sampleMoves (s : State) (p l n k g slot : Nat) : 2 < (s.sampleMoves p l n k g slot).length := by
  simpa [sampleMoves] using two_le_refTiles _

/-- While the NV slots are shut, one move of a sample is queued, that of its narrow tile. -/
theorem length_moves_queue_sample_of_nvShut {s : State} (hshut : s.nvShut = true) (p l n k g slot : Nat) :
    ((s.sampleMoves p l n k g slot).foldl (fun u m => u.queueMove m [(m.dst, m.size)]) s).moves.length =
      s.moves.length + 1 := by
  unfold sampleMoves
  rw [List.foldl_cons, foldl_queueMove_of_nvShut]
  · simp [queueMove]
  · exact (nvShut_queueMove ..).trans hshut
  · intro m hm
    obtain ⟨i, -, rfl⟩ := List.mem_map.mp hm
    exact ⟨rfl, rfl⟩

/-- A layer of no slices has no cells to close. -/
theorem closeCells_of_noSlices {s : State} {p l : Nat} (h : bits (s.devWord (s.fmtEntry p l + 80)) 15 0 = 0) (par : Nat) :
    s.closeCells p l par = s := by
  simp [closeCells, h]

/-- While the NV slots are shut, the sample of a layer of no slices that every bar picks queues one move. -/
theorem length_moves_sampleLayer_of_nvShut {s : State} (hshut : s.nvShut = true) {p n l slot : Nat}
    (hnone : bits (s.devWord (s.fmtEntry p l + 80)) 15 0 = 0) (hon : (s.devWord (s.fmtEntry p l + 72)).testBit 17 = true)
    (hcut : bits (s.devWord (s.fmtEntry p l + 72)) 16 0 = 65536) (hslot : s.activeSlot = some slot)
    (href : s.hasReference l = true) (hholes : ∀ a n, s.inHole slot a n = false) :
    (s.sampleLayer p n l).moves.length = s.moves.length + 1 := by
  have hpick : ∀ h, h % 65536 < 65536 := fun h => Nat.mod_lt h (by decide)
  simp [sampleLayer, closeCells_of_noSlices hnone, length_moves_queue_sample_of_nvShut hshut, hon, hcut, hslot, href, hholes, hpick]

/-- A sample of a Format Area with one layer is that of layer 0 for the next bar. -/
theorem shadowSampleEffect_of_oneLayer {s : State} {p : Nat} (hlocked : s.locked p = true) (harea : s.fmtArea p ≠ 0)
    (hlayers : s.fmtLayers p = [0]) : shadowSampleEffect p s = s.sampleLayer p (s.bar + 1) 0 := by
  simp [shadowSampleEffect, hlocked, harea, hlayers]

end State

/-- Partition 0 is locked, and its Format Area at 0x20000 has one layer, of no slices, which every bar samples; NV slot A is
active, the manifest of region 0 names one object, a reference copy of layer 0, and KIND 1 debug is unlocked. -/
def sampledWhileShut : State :=
  let s := ((((State.reset.wr R.PART_STATUS_LOCKED 1).wr R.PART_FORMAT_BASE 0x20000).wr R.SEC_STATUS_DEBUG 1).wr
    R.SEC_STATUS_DEBUG_KIND 1)
  let s := (s.devSet 0x20008 [1]).devSet 0x20148 (toLE 8 (2 ^ 16 + 2 ^ 17))
  { s with
    nv := { s.nv with recA := ⟨3, 1, 1, 0, 1, 1, []⟩ }
    weights := { s.weights with
      manifests := [List.replicate 32 0 ++ [2 ^ 16, 48 * 2 ^ 32, 2 ^ 50].flatMap (toLE 8), []] } }

theorem sampledWhileShut_area :
    sampledWhileShut.wf = true ∧ sampledWhileShut.locked 0 = true ∧ sampledWhileShut.fmtArea 0 ≠ 0 ∧
    sampledWhileShut.fmtLayers 0 = [0] ∧ bits (sampledWhileShut.devWord (sampledWhileShut.fmtEntry 0 0 + 80)) 15 0 = 0 := by
  decide +kernel

theorem sampledWhileShut_picked :
    (sampledWhileShut.devWord (sampledWhileShut.fmtEntry 0 0 + 72)).testBit 17 = true ∧
    bits (sampledWhileShut.devWord (sampledWhileShut.fmtEntry 0 0 + 72)) 16 0 = 65536 ∧
    sampledWhileShut.activeSlot = some 0 ∧ sampledWhileShut.hasReference 0 = true ∧ sampledWhileShut.nvShut = true := by
  decide +kernel

/-- Refutes O36: of the sample of `sampledWhileShut`, which has two or more reference tiles, only the narrow tile's move waits
in Q2. -/
theorem not_shadowAndRecipe : ¬ Obligations.ShadowAndRecipe := by
  intro h
  obtain ⟨hwf, hlocked, harea, hlayers, hnone⟩ := sampledWhileShut_area
  obtain ⟨hon, hcut, hslot, href, hshut⟩ := sampledWhileShut_picked
  obtain ⟨-, hsample, -⟩ := h 0 sampledWhileShut hwf hlocked harea hlayers
  obtain ⟨t, ht, hmoves, -⟩ := hsample hon
  have hone : t.moves.length = 1 := by
    rw [← Host.Outcome.next.inj ht]
    exact (congrArg (·.moves.length) (State.shadowSampleEffect_of_oneLayer hlocked harea hlayers)).trans
      (State.length_moves_sampleLayer_of_nvShut hshut hnone hon hcut hslot href fun _ _ => rfl)
  rw [hmoves 0 hslot (hcut ▸ Nat.mod_lt _ (by decide)) href fun _ _ => .inr rfl, List.length_append, List.length_map] at hone
  exact absurd ((Nat.le_add_left _ _).trans_eq hone)
    (Nat.not_le.mpr (Nat.lt_trans (by decide) (State.two_lt_length_sampleMoves ..)))

end Sys2Proof.Machine
end

section
/-! The proofs from here on are elaborated one at a time (`Elab.async false` in each section): all at once they take more
threads than the check's memory limit has room for. -/

set_option Elab.async false

namespace Sys2Proof.Machine

/-! O14 says that an FCOPY to a rank that nobody holds leaves device memory alone, whatever its source. A source in the KV view is
a second cause of the same abort, and its refusal is counted in the KV descriptor of the partition, in device memory (R242). -/

/-- Set 0 of partition 0 runs an untimed stream of one FCOPY of one row of 64 bytes from the KV view to rank 0, which nobody
holds; the partition's KV descriptor stands at 0. -/
def fcopyFromView : State :=
  (((((State.reset.wr R.PART_STATUS_LOCKED 1).wr R.PART_SETS_SETS 1).wr R.SCHED_STATUS_STATE 2).wr R.SCHED_STREAM_LEN_LEN 1).wr
    R.SCHED_STREAM_ADDR 0x1000).devSet 0x1000 ([0x7, 0x1000 + 64 * 2 ^ 33, 0, 0x800000000000].flatMap (toLE 8))

/-- What issues in it. -/
def fcopyFromViewGo : Go := ⟨0, fcopyFromView.cmdAt 0x1000, 0, 1, 0, false, false⟩

theorem fcopyFromView_issues : fcopyFromView.issues 0 (isOp 7) fcopyFromViewGo := by
  unfold State.issues
  decide +kernel

theorem fcopyFromView_wf : fcopyFromView.wf = true ∧ fcopyFromView.fcopyDst fcopyFromViewGo.c = none := by decide +kernel

/-- The count of refused view accesses, word 17 of the KV descriptor, goes from 0 to 1. -/
theorem fcopyFromView_counts :
    fcopyFromView.devByte (8 * 17) = 0 ∧ (fcopyEffect 0 ⟨0, 0⟩ fcopyFromView).devByte (8 * 17) = 1 := by decide +kernel

/-- Refutes O14: the abort of the FCOPY of `fcopyFromView`, to a rank that nobody holds, writes a byte of device memory. -/
theorem not_dataMoves : ¬ Obligations.DataMoves := by
  rintro ⟨-, -, -, hfcopy⟩
  obtain ⟨hwf, hnobody⟩ := fcopyFromView_wf
  obtain ⟨hbefore, hafter⟩ := fcopyFromView_counts
  obtain ⟨t, ht, -, -, hmem⟩ := (hfcopy 0 ⟨0, 0⟩ fcopyFromView fcopyFromViewGo hwf fcopyFromView_issues rfl).2 hnobody
  cases ht
  have hkept : (fcopyEffect 0 ⟨0, 0⟩ fcopyFromView).devByte (8 * 17) = fcopyFromView.devByte (8 * 17) := (hmem _).1
  rw [hbefore, hafter] at hkept
  exact absurd hkept (by decide)

end Sys2Proof.Machine
end

section
set_option Elab.async false

namespace Sys2Proof.Machine

/-! ### Effects of a command on all its tiles -/

theorem Eff.all_proj {α : Type} (p : Eff → List α) (hand : ∀ a b, p (a.and b) = p a ++ p b) (hnone : p .none = [])
    (l : List Eff) : p (Eff.all l) = l.flatMap p := by
  have hfold : ∀ (l : List Eff) (a : Eff), p (l.foldl Eff.and a) = p a ++ l.flatMap p := by
    intro l
    induction l with
    | nil => intro a; simp
    | cons b r ih => intro a; rw [List.foldl_cons, ih, hand, List.flatMap_cons, List.append_assoc]
  rw [Eff.all, hfold, hnone, List.nil_append]

theorem Eff.all_causes (l : List Eff) : (Eff.all l).causes = l.flatMap (·.causes) := Eff.all_proj _ (fun _ _ => rfl) rfl l

theorem Eff.all_notes (l : List Eff) : (Eff.all l).notes = l.flatMap (·.notes) := Eff.all_proj _ (fun _ _ => rfl) rfl l

theorem Eff.all_bumps (l : List Eff) : (Eff.all l).bumps = l.flatMap (·.bumps) := Eff.all_proj _ (fun _ _ => rfl) rfl l

theorem Eff.all_work (l : List Eff) : (Eff.all l).work = l.flatMap (·.work) := Eff.all_proj _ (fun _ _ => rfl) rfl l

theorem Eff.all_held (l : List Eff) : (Eff.all l).held = l.flatMap (·.held) := Eff.all_proj _ (fun _ _ => rfl) rfl l

/-- Without an uncorrectable error on any tile, SRAM errors are no cause of an abort (R107). -/
theorem eccEff_causes {x : Ecc} (h : x.uncorr = 0) (tiles : List Nat) : (eccEff tiles x).causes = [] := by
  simp [eccEff, eccBad, h]

/-! ### Commands that no row names -/

theorem Cmd.unknown_of_legal {c : Cmd} (h : c.legal = true) : c.unknown = false := by
  simp only [Cmd.legal, Bool.and_eq_true] at h
  obtain ⟨⟨⟨-, hbody⟩, -⟩, -⟩ := h
  unfold Cmd.bodyLegal at hbody
  unfold Cmd.unknown
  split at hbody
  case h_3 hop =>
    simp only [Bool.and_eq_true] at hbody
    obtain ⟨-, hvfn⟩ := hbody
    simp [hop, hvfn]
  case h_12 => cases hbody
  all_goals rename_i hop; simp [hop]

namespace State
variable {s t u : State} {set : Nat} {is : Cmd → Bool} {g : Go} {e : Eff} {fs : List Fld}

/-! ### What issues -/

/-- A ready command is one that the event names, unless it is malformed; it stands for its own Set. -/
theorem ready_names (h : s.ready set is = some g) (hbad : g.bad = false) : g.set = set ∧ is g.c = true := by
  unfold ready at h
  split at h
  case h_1 => cases h
  case h_2 c hc =>
    dsimp only at h
    split at h
    case isFalse => cases h
    case isTrue hin =>
      obtain ⟨hnames, -⟩ := hin
      cases h
      have hlegal : c.legal = true := by
        simp only [malformed, Bool.or_eq_false_iff, Bool.not_eq_false'] at hbad
        obtain ⟨⟨⟨⟨⟨⟨hlegal, -⟩, -⟩, -⟩, -⟩, -⟩, -⟩ := hbad
        exact hlegal
      exact ⟨rfl, hnames.resolve_right (by rw [Cmd.unknown_of_legal hlegal]; decide)⟩

theorem issues_op {k : Nat} (h : s.issues set (isOp k) g) : g.c.op = k := by
  obtain ⟨hready, hbad, -⟩ := h
  exact of_decide_eq_true (ready_names hready hbad).2

/-- The gate's forecast with a command's charge taken (R409). -/
def charged (s : State) (set : Nat) (g : Go) : State :=
  { s with gate := s.gate.take (set / 12) (s.sharesOf set (s.charge set g.c g.n).1 (s.charge set g.c g.n).2) }

/-- What issues is charged to the gate, and takes its effect (R76, R409). -/
theorem issueEvent_issues (h : s.issues set is g) (eff : State → Go → State × FlightKind × Eff) :
    s.issueEvent set is eff =
      (eff (s.charged set g) g).1.issue g (eff (s.charged set g) g).2.1 (eff (s.charged set g) g).2.2 := by
  obtain ⟨hready, hbad, -, hgate⟩ := h
  unfold issueEvent
  rw [hready]
  dsimp only
  rw [if_neg (by simp [hbad]), if_neg]
  · rfl
  · rintro ⟨hidle, hheld⟩
    rcases hgate with hidle' | ⟨hclosed, hfree | hopens⟩
    · rw [hidle] at hidle'; cases hidle'
    · rcases hheld with hheld | ⟨hcost, -⟩
      · rw [hclosed] at hheld; cases hheld
      · exact hcost hfree
    · rcases hheld with hheld | ⟨-, hheld⟩
      · rw [hclosed] at hheld; cases hheld
      · rw [hheld] at hopens; cases hopens

/-! ### Before a command goes in flight -/

/-- A command is charged, its lateness is noted, and what its effect finds is reported (R76, R77, R107). -/
def noted (s : State) (set : Nat) (g : Go) (e : Eff) : State := ((s.charged set g).noteLate g.set g.c).applyNotes e

/-- Between two states registers, the fault log, the gate and the records of Sets alone change. -/
def IssueOnly (s t : State) : Prop := t = { s with regs := t.regs, log := t.log, gate := t.gate, sets := t.sets }

theorem IssueOnly.refl (s : State) : s.IssueOnly s := rfl

theorem IssueOnly.trans (h : s.IssueOnly t) (g : t.IssueOnly u) : s.IssueOnly u := Eq.trans g (by rw [h])

theorem SetsOnly.issueOnly (h : s.SetsOnly t) : s.IssueOnly t := by
  rw [IssueOnly, h]

theorem raise_issueOnly (s : State) (f : EvFlag) (i : Nat) (args : List Nat) (k : Nat) : s.IssueOnly (s.raise f i args k) := by
  rw [IssueOnly, raise_only]

theorem IssueOnly.sameMem (h : s.IssueOnly t) : s.sameMem t := fun a => by
  rw [h]
  exact ⟨rfl, rfl⟩

theorem IssueOnly.sameTiles (h : s.IssueOnly t) : s.sameTiles t := fun k => by
  rw [h]
  exact ⟨rfl, rfl, rfl⟩

theorem st_of_sets (h : t.sets = s.sets) (n : Nat) : t.st n = s.st n := by
  unfold st
  rw [h]

theorem applyNotes_sets (s : State) (e : Eff) : (s.applyNotes e).sets = s.sets := by
  have hraised := foldl_keeps (P := fun t : State => t.sets = s.sets) (f := fun t (n : EvFlag × Nat) => t.raise n.1 n.2)
    (fun t n h => (raise_sets t ..).trans h) e.notes s rfl
  exact foldl_keeps (P := fun t : State => t.sets = s.sets) (f := fun t (b : Fld × Nat × Nat) => t.bump b.1 b.2.2 b.2.1)
    (fun t b h => h) e.bumps _ hraised

theorem applyNotes_issueOnly (s : State) (e : Eff) : s.IssueOnly (s.applyNotes e) := by
  have hraised := foldl_keeps (P := s.IssueOnly) (f := fun t (n : EvFlag × Nat) => t.raise n.1 n.2)
    (fun t n h => h.trans (raise_issueOnly t ..)) e.notes s (.refl s)
  exact foldl_keeps (P := s.IssueOnly) (f := fun t (b : Fld × Nat × Nat) => t.bump b.1 b.2.2 b.2.1)
    (fun t b h => h.trans (wr_setsOnly ..).issueOnly) e.bumps _ hraised

/-- A state with its gate, in which a Set is as late as its next command (R77, R412). -/
def lateAs (s : State) (set : Nat) (c : Cmd) (gate : Gate) : State :=
  ({ s with gate := gate } : State).setSt set
    { s.st set with late := max (s.st set).late (s.tempo.now - ((s.st set).start + c.pos)) }

/-- The lateness of an issue, where there is one to note: in the Set's record, in LATE_MAX, and as a flag past the limit (R77). -/
theorem noteLate_cases (s : State) (set : Nat) (c : Cmd) :
    s.noteLate set c = s ∨ ∃ gate v args, let t := (s.lateAs set c gate).wr R.SCHED_LATE_MAX_EVER v set
      s.noteLate set c = t ∨ s.noteLate set c = t.raise E.SCHED_LATE set args := by
  unfold noteLate
  dsimp only
  split
  · refine .inr ?_
    split
    · exact ⟨_, _, _, .inr rfl⟩
    · exact ⟨_, _, [], .inl rfl⟩
  · exact .inl rfl

theorem noteLate_issueOnly (s : State) (set : Nat) (c : Cmd) : s.IssueOnly (s.noteLate set c) := by
  obtain h | ⟨gate, v, args, h | h⟩ := s.noteLate_cases set c <;> rw [h]
  · rfl
  · rfl
  · exact IssueOnly.trans (t := (s.lateAs set c gate).wr R.SCHED_LATE_MAX_EVER v set) rfl (raise_issueOnly ..)

/-- Its Set keeps its flights, and every other Set its record. -/
theorem noteLate_st (w : mrising s.sets = true) (set : Nat) (c : Cmd) :
    ((s.noteLate set c).st set).flights = (s.st set).flights ∧ ∀ n, n ≠ set → (s.noteLate set c).st n = s.st n := by
  have hlate : ∀ (t : State) gate, t.sets = (s.lateAs set c gate).sets →
      (t.st set).flights = (s.st set).flights ∧ ∀ n, n ≠ set → t.st n = s.st n := by
    intro t gate ht
    refine ⟨?_, fun n hn => ?_⟩
    · rw [st_of_sets ht, lateAs, st_setSt (by exact w)]
    · rw [st_of_sets ht, lateAs, st_setSt_ne hn.symm]
      rfl
  obtain h | ⟨gate, v, args, h | h⟩ := s.noteLate_cases set c <;> rw [h]
  · exact ⟨rfl, fun _ _ => rfl⟩
  · exact hlate _ gate rfl
  · exact hlate _ gate (raise_sets ..)

theorem noted_wf (w : s.wf = true) : (s.noted set g e).wf = true :=
  (((Keeps.refl s).others (t := s.charged set g)).noteLate.applyNotes).2 w

theorem noted_issueOnly (s : State) (set : Nat) (g : Go) (e : Eff) : s.IssueOnly (s.noted set g e) :=
  (IssueOnly.trans (t := s.charged set g) rfl (noteLate_issueOnly ..)).trans (applyNotes_issueOnly ..)

theorem noted_st (w : s.wf = true) : ((s.noted set g e).st g.set).flights = (s.st g.set).flights ∧
    ∀ n, n ≠ g.set → (s.noted set g e).st n = s.st n := by
  obtain ⟨hflights, hrest⟩ := noteLate_st (s := s.charged set g) (rising_sets w) g.set g.c
  have hst := st_of_sets (applyNotes_sets ((s.charged set g).noteLate g.set g.c) e)
  exact ⟨(congrArg SetSt.flights (hst g.set)).trans hflights, fun n hn => (hst n).trans (hrest n hn)⟩

/-! ### Commands that go in flight -/

/-- Beside passes and vector operations, no command's cycles are counted (R113, R129). -/
theorem countCycles_other (h2 : g.c.op ≠ 2) (h3 : g.c.op ≠ 3) : s.countCycles g = s := by
  simp [countCycles, h2, h3]

/-- Such a command in flight, and the issue point behind it; END starts draining (R76, R101). -/
theorem launch_other (h2 : g.c.op ≠ 2) (h3 : g.c.op ≠ 3) (kind : FlightKind) (work : List Wk) (held : List Held) :
    ∃ f : Flight, (f.idx = g.idx ∧ f.grp = g.grp ∧ f.cp = g.c.cp ∧ f.ssb = g.c.ssb ∧ f.done = false ∧ f.kind = kind ∧
        f.work = work ∧ f.held = held) ∧
      s.launch g kind work held =
        let t := (s.setSt g.set { s.st g.set with flights := (s.st g.set).flights ++ [f] }).wr R.SCHED_STATUS_ISSUE_IDX
          (g.idx + 1) g.set
        if g.c.op = 0x3F then t.wr R.SCHED_STATUS_STATE 3 g.set else t := by
  unfold launch
  simp only [countCycles_other h2 h3, ite_self]
  exact ⟨_, ⟨rfl, rfl, rfl, rfl, rfl, rfl, rfl, rfl⟩, rfl⟩

theorem launch_frame (h2 : g.c.op ≠ 2) (h3 : g.c.op ≠ 3) {kind : FlightKind} {work : List Wk} {held : List Held} :
    s.Frame [R.SCHED_STATUS_ISSUE_IDX, R.SCHED_STATUS_STATE] [] (s.launch g kind work held) := by
  obtain ⟨f, -, heq⟩ := launch_other (s := s) h2 h3 kind work held
  have hissue : s.Frame [R.SCHED_STATUS_ISSUE_IDX, R.SCHED_STATUS_STATE] []
      ((s.setSt g.set { s.st g.set with flights := (s.st g.set).flights ++ [f] }).wr R.SCHED_STATUS_ISSUE_IDX (g.idx + 1) g.set) :=
    Frame.trans (t := s.setSt g.set _) .others (.wr (.inl (by decide)))
  rw [heq]
  dsimp only
  split
  · exact hissue.trans (.wr (.inl (by decide)))
  · exact hissue

/-- A command whose effect has been noted goes in flight (R76, R82). -/
theorem launch_wentIn (w : s.wf = true) (h2 : g.c.op ≠ 2) (h3 : g.c.op ≠ 3) {kind : FlightKind} {work : List Wk}
    {held : List Held} : s.wentIn ((s.noted set g e).launch g kind work held) g kind work held := by
  have wn := noted_wf (set := set) (g := g) (e := e) w
  obtain ⟨hflights, hrest⟩ := noted_st (set := set) (g := g) (e := e) w
  have honly := noted_issueOnly s set g e
  generalize s.noted set g e = u at *
  obtain ⟨f, hf, heq⟩ := launch_other (s := u) h2 h3 kind work held
  let v := u.setSt g.set { u.st g.set with flights := (u.st g.set).flights ++ [f] }
  have hidx : (v.wr R.SCHED_STATUS_ISSUE_IDX (g.idx + 1) g.set).rd R.SCHED_STATUS_ISSUE_IDX g.set =
      (g.idx + 1) % 2 ^ R.SCHED_STATUS_ISSUE_IDX.wid := rd_wr_self (rising_of_wf wn).1 ..
  have hall : ∀ t : State, t.sets = v.sets → v.IssueOnly t →
      t.rd R.SCHED_STATUS_ISSUE_IDX g.set = (g.idx + 1) % 2 ^ R.SCHED_STATUS_ISSUE_IDX.wid → s.wentIn t g kind work held := by
    intro t hsets hto hrd
    have hso : s.IssueOnly t := (honly.trans (t := u) (setSt_setsOnly ..).issueOnly).trans hto
    refine ⟨⟨f, ?_, hf⟩, hrd, hso.sameMem, hso.sameTiles, fun n hn => ?_⟩
    · rw [st_of_sets hsets, st_setSt (rising_sets wn), hflights]
    · rw [st_of_sets hsets, st_setSt_ne hn.symm, hrest n hn]
  rw [heq]
  dsimp only
  split
  · exact hall _ rfl rfl ((rd_wr_ne _ _ _ (Fld.fkey_ne (by decide))).trans hidx)
  · exact hall _ rfl rfl hidx

/-- END leaves its Set DRAINING (R101). -/
theorem setState_launch_end (w : mrising s.regs = true) (hop : g.c.op = 0x3F) {kind : FlightKind} {work : List Wk}
    {held : List Held} : (s.launch g kind work held).setState g.set = 3 := by
  obtain ⟨f, -, heq⟩ := launch_other (s := s) (g := g) (by omega) (by omega) kind work held
  rw [heq]
  dsimp only
  rw [if_pos hop]
  exact rd_wr_self (mrising_wr (by exact w) ..) ..

/-! ### A first abort -/

/-- A Set after a first abort, its causes raised: nothing is in flight, and it runs on from the oldest uncommitted group (R86). -/
def backOff (s : State) (g : Go) (cs : List Cause) : State :=
  ((s.discard g.set).setSt g.set { (s.discard g.set).st g.set with
    aborted := ((s.discard g.set).st g.set).aborted ++ [g.grp]
    repair := repairItems ((s.discard g.set).st g.set).recs cs }).wr R.SCHED_STATUS_STATE 2 g.set

theorem abortOnce_eq (s : State) (g : Go) (cs : List Cause) :
    s.abortOnce g cs = ((s.raise E.SCHED_ABORT g.set [g.idx]).raiseCauses g.set (s.st g.set).recs cs).backOff g cs := rfl

/-- What a discard and the return to RUNNING write. -/
def backFields : List Fld := [R.SCHED_STATUS_STATE, R.SCHED_STATUS_ISSUE_IDX, R.SCHED_SB_SB]

theorem backOff_frame (s : State) (g : Go) (cs : List Cause) : s.Frame backFields [] (s.backOff g cs) := by
  have hdiscard : s.Frame backFields [] (s.discard g.set) :=
    (Frame.trans (t := s.setSt g.set { s.st g.set with flights := [], passes := [] }) .others (.wr (.inl (by decide)))).trans
      (.wr (.inl (by decide)))
  exact (hdiscard.trans .others).trans (.wr (.inl (by decide)))

theorem backOff_leaves (w : s.wf = true) (g : Go) (cs : List Cause) :
    ((s.backOff g cs).st g.set).flights = [] ∧ (s.backOff g cs).setState g.set = 2 := by
  have wd : (s.discard g.set).wf = true := (Keeps.refl s).discard.2 w
  refine ⟨?_, rd_wr_self (rising_of_wf wd).1 ..⟩
  rw [backOff, st_wr, st_setSt (rising_sets wd), st_discard (rising_sets w)]

/-- What noting the lateness of an issue writes. -/
def lateFields : List Fld := R.SCHED_LATE_MAX_EVER :: E.SCHED_LATE.fields

theorem noteLate_frame (s : State) (set : Nat) (c : Cmd) : s.Frame lateFields [] (s.noteLate set c) := by
  have hlate : ∀ gate v, s.Link lateFields [] ((s.lateAs set c gate).wr R.SCHED_LATE_MAX_EVER v set) := fun gate v =>
    ((Link.refl s).others (t := s.lateAs set c gate)).wr (.inl (by decide))
  obtain h | ⟨gate, v, args, h | h⟩ := s.noteLate_cases set c <;> rw [h]
  · exact .refl s
  · exact (hlate gate v).toFrame
  · exact ((hlate gate v).raise (by decide)).toFrame

theorem applyNotes_frame (hnotes : ∀ n ∈ e.notes, n.1.fields ⊆ fs) (hbumps : ∀ b ∈ e.bumps, b.1 ∈ fs) :
    s.Frame fs [] (s.applyNotes e) :=
  (((Link.refl s).foldl fun hn h => h.raise (hnotes _ hn)).foldl fun hb h => h.bump (.inl (hbumps _ hb))).toFrame

theorem noted_frame (hnotes : ∀ n ∈ e.notes, n.1.fields ⊆ fs) (hbumps : ∀ b ∈ e.bumps, b.1 ∈ fs) :
    s.Frame (lateFields ++ fs) [] (s.noted set g e) :=
  ((Frame.others (t := s.charged set g)).trans ((noteLate_frame ..).mono (List.subset_append_left ..))).trans
    ((applyNotes_frame hnotes hbumps).mono (List.subset_append_right ..))

/-- The effect of a command that issues without a cause to abort (R76, R82). -/
theorem issues_goes (h : s.issues set is g) {eff : State → Go → State × FlightKind × Eff} {kind : FlightKind}
    (heff : eff (s.charged set g) g = (s.charged set g, kind, e)) (hnone : e.causes = []) :
    s.issueEvent set is eff = (s.noted set g e).launch g kind e.work e.held := by
  rw [issueEvent_issues h, heff]
  exact if_pos hnone

/-- The first abort of a command that issues (R86). -/
theorem issues_aborts (h : s.issues set is g) {eff : State → Go → State × FlightKind × Eff} {kind : FlightKind}
    (heff : eff (s.charged set g) g = (s.charged set g, kind, e)) (hsome : e.causes ≠ []) :
    s.issueEvent set is eff = (s.noted set g e).abortOnce g e.causes := by
  obtain ⟨-, -, hfirst, -⟩ := id h
  rw [issueEvent_issues h, heff]
  refine (if_neg hsome).trans (if_neg ?_)
  rw [hfirst]
  decide

/-- What an abort leaves whose causes raise flags of the listed fields alone. -/
theorem abortOnce_leaves (w : s.wf = true) {cs : List Cause} (hnoted : s.Frame fs [] t) (wt : t.wf = true)
    (hcauses : ∀ u : State, u.Frame fs [] (u.raiseCauses g.set (t.st g.set).recs cs))
    (hflag : fs.all (·.apart E.SCHED_ABORT.flag) = true) (hcnt : fs.all (·.apart E.SCHED_ABORT.cnt) = true) :
    s.raised (t.abortOnce g cs) E.SCHED_ABORT g.set ∧ ((t.abortOnce g cs).st g.set).flights = [] ∧
      (t.abortOnce g cs).setState g.set = 2 ∧ s.sameMem (t.abortOnce g cs) ∧ s.sameTiles (t.abortOnce g cs) := by
  have hraise : t.Frame E.SCHED_ABORT.fields [] (t.raise E.SCHED_ABORT g.set [g.idx]) :=
    ((Link.refl t).raise (List.Subset.refl _)).toFrame
  have hraised : t.raised (t.raise E.SCHED_ABORT g.set [g.idx]) E.SCHED_ABORT g.set :=
    raised_raise (hnoted.rising (rising_of_wf w).1) (by decide)
  have hcause := hcauses (t.raise E.SCHED_ABORT g.set [g.idx])
  have wv : ((t.raise E.SCHED_ABORT g.set [g.idx]).raiseCauses g.set (t.st g.set).recs cs).wf = true :=
    (Keeps.refl t).raise.raiseCauses.2 wt
  rw [abortOnce_eq]
  generalize (t.raise E.SCHED_ABORT g.set [g.idx]).raiseCauses g.set (t.st g.set).recs cs = v at hcause wv
  have hback := backOff_frame v g cs
  have hall : s.Frame (fs ++ E.SCHED_ABORT.fields ++ backFields) [] (v.backOff g cs) := by
    have h1 : s.Frame (fs ++ E.SCHED_ABORT.fields ++ backFields) [] (t.raise E.SCHED_ABORT g.set [g.idx]) :=
      (hnoted.mono (by simp)).trans (hraise.mono (by simp))
    exact (h1.trans (hcause.mono (by simp))).trans (hback.mono (by simp))
  obtain ⟨hflights, hstate⟩ := backOff_leaves wv g cs
  refine ⟨then_raised hnoted ?_ hcnt (List.not_mem_nil), hflights, hstate, hall.sameMem, hall.sameTiles⟩
  exact raised_then (raised_then hraised hcause hflag hcnt (List.not_mem_nil) (List.not_mem_nil)) hback (by decide) (by decide)
    (List.not_mem_nil) (List.not_mem_nil)

end State

/-- Whether a cause of an abort is a faulted object. -/
def Cause.isObject : Cause → Bool
  | .object .. => true
  | _ => false

namespace State
variable {s : State} {set tile : Nat} {g : Go} {x : Ecc}

/-! ### Faulted objects -/

/-- What faulted objects write (R175, R176, R180). -/
def objectFields : List Fld :=
  [R.EXPAND_FAULT_SRC_SRC, R.EXPAND_FAULT_INFO_SP_OFF, R.EXPAND_FAULT_INFO_CAUSE, R.EXPAND_FAULT_INFO_GROUP] ++
    (List.range 6).flatMap (fun k => (expandFlag k).fields)

theorem expandFlag_fields {k : Nat} (h : k ∈ List.range 6) : (expandFlag k).fields ⊆ objectFields :=
  fun _ hf => List.mem_append_right _ (List.mem_flatMap.2 ⟨k, h, hf⟩)

theorem Link.raiseObject {s₀ : State} (h : s₀.Link objectFields [] s) {off : Nat} {faults : List (Nat × Nat)} :
    s₀.Link objectFields [] (s.raiseObject tile off faults) :=
  h.foldl fun hk h => h.raise (expandFlag_fields (List.mem_of_mem_filter hk))

theorem Link.latchFault {s₀ : State} (h : s₀.Link objectFields [] s) {recs : List FetchRec} {os : List BadObj} :
    s₀.Link objectFields [] (s.latchFault recs tile os) := by
  unfold State.latchFault
  split
  · exact h
  · split
    · exact h
    · exact (((h.wr (.inl (by decide))).wr (.inl (by decide))).wr (.inl (by decide))).wr (.inl (by decide))

theorem raiseCauses_objects {cs : List Cause} (h : ∀ c ∈ cs, c.isObject = true) (s : State) (set : Nat)
    (recs : List FetchRec) : s.Frame objectFields [] (s.raiseCauses set recs cs) := by
  have hraise : s.Link objectFields [] (cs.foldl (fun t c => t.raiseCause set c) s) := (Link.refl s).foldl fun hc ht => by
    have hobject := h _ hc
    unfold Cause.isObject at hobject
    split at hobject
    · exact ht.raiseObject
    · cases hobject
  exact (hraise.foldl fun _ ht => ht.latchFault).toFrame

/-! ### CHECK (R172) -/

/-- The object that a CHECK finds on a tile (R172, R173). -/
def checked (s : State) (c : Cmd) (tile : Nat) : ObjView :=
  viewObj (s.sram tile false (bits c.w1 31 0) (bits c.w2 31 0))
    ⟨none, none, none, false, some (bits c.w2 31 0), true, bits c.w3 31 0⟩

theorem checkEff_causes (s : State) (c : Cmd) (tile : Nat) : (s.checkEff c tile).causes =
    if (s.checked c tile).faults.isEmpty then [] else
      [.object tile false (bits c.w1 31 0) (s.checked c tile).faults (bits c.w3 31 0)] := rfl

/-- The effect of a CHECK on all its tiles. -/
def checkAll (s : State) (c : Cmd) (tiles : List Nat) (x : Ecc) : Eff :=
  (eccEff tiles x).and (Eff.all (tiles.map (s.checkEff c)))

theorem checkAll_causes (h : x.uncorr = 0) (c : Cmd) (tiles : List Nat) :
    (s.checkAll c tiles x).causes = tiles.flatMap (fun t => (s.checkEff c t).causes) := by
  have hand : (s.checkAll c tiles x).causes = (eccEff tiles x).causes ++ (Eff.all (tiles.map (s.checkEff c))).causes := rfl
  rw [hand, eccEff_causes h, List.nil_append, Eff.all_causes, List.flatMap_map]

theorem checkAll_writes (c : Cmd) (tiles : List Nat) : (s.checkAll c tiles x).work = [] ∧ (s.checkAll c tiles x).held = [] := by
  have hwork : (s.checkAll c tiles x).work = (Eff.all (tiles.map (s.checkEff c))).work := rfl
  have hheld : (s.checkAll c tiles x).held = (Eff.all (tiles.map (s.checkEff c))).held := rfl
  rw [hwork, hheld, Eff.all_work, Eff.all_held, List.flatMap_map, List.flatMap_map]
  simp [checkEff, Eff.none]

/-- What a CHECK reports of SRAM errors and counts of objects and blocks (R107, R180). -/
def checkFields : List Fld :=
  [R.EXPAND_OBJ_CNT_OBJECTS, R.EXPAND_BLK_CODED_CODED, R.EXPAND_BLK_RAW_RAW] ++ E.TILE_ECC_CORR.fields

theorem checkAll_notes (c : Cmd) (tiles : List Nat) : ∀ n ∈ (s.checkAll c tiles x).notes, n.1.fields ⊆ checkFields := by
  have hnotes : (s.checkAll c tiles x).notes = (eccEff tiles x).notes ++ (Eff.all (tiles.map (s.checkEff c))).notes := rfl
  have hnone : (Eff.all (tiles.map (s.checkEff c))).notes = [] := by
    rw [Eff.all_notes, List.flatMap_map]
    simp [checkEff, Eff.none]
  have hecc : E.TILE_ECC_CORR.fields ⊆ checkFields := by decide
  rw [hnotes, hnone, List.append_nil]
  intro n hn
  obtain ⟨t, -, rfl⟩ := List.mem_map.1 hn
  exact hecc

theorem checkAll_bumps (c : Cmd) (tiles : List Nat) : ∀ b ∈ (s.checkAll c tiles x).bumps, b.1 ∈ checkFields := by
  have hbumps : (s.checkAll c tiles x).bumps = (Eff.all (tiles.map (s.checkEff c))).bumps := rfl
  rw [hbumps, Eff.all_bumps, List.flatMap_map]
  intro b hb
  obtain ⟨t, -, hb⟩ := List.mem_flatMap.1 hb
  simp only [checkEff, List.mem_cons, List.not_mem_nil, or_false] at hb
  rcases hb with rfl | rfl | rfl <;> simp [checkFields]

theorem checkEffect_eq (set : Nat) (x : Ecc) (s : State) : checkEffect set x s =
    s.issueEvent set (isOp 4) (fun s g => (s, .plain, s.checkAll g.c (g.c.tiles set) x)) := rfl

/-- A CHECK of objects that verify completes without a write (R172). -/
theorem checkEffect_verifies (w : s.wf = true) (h : s.issues set (isOp 4) g) (hx : x.uncorr = 0)
    (hgood : ∀ tile ∈ g.c.tiles set, (s.checked g.c tile).faults = []) : s.wentIn (checkEffect set x s) g .plain [] [] := by
  have hop := issues_op h
  have hnone : (s.checkAll g.c (g.c.tiles set) x).causes = [] := by
    rw [checkAll_causes hx, List.flatMap_eq_nil_iff]
    intro tile ht
    rw [checkEff_causes, if_pos (List.isEmpty_iff.2 (hgood tile ht))]
  obtain ⟨hwork, hheld⟩ := checkAll_writes (s := s) (x := x) g.c (g.c.tiles set)
  rw [checkEffect_eq, issues_goes h (e := s.checkAll g.c (g.c.tiles set) x) rfl hnone, hwork, hheld]
  exact launch_wentIn w (by omega) (by omega)

/-- A faulted object aborts it (R172, R175). -/
theorem checkEffect_aborts (w : s.wf = true) (h : s.issues set (isOp 4) g) (hx : x.uncorr = 0)
    (hbad : ∃ tile ∈ g.c.tiles set, (s.checked g.c tile).faults ≠ []) :
    let t := checkEffect set x s
    s.raised t E.SCHED_ABORT set ∧ (t.st set).flights = [] ∧ t.setState set = 2 ∧ s.sameMem t ∧ s.sameTiles t := by
  obtain ⟨hready, hlegal, -⟩ := id h
  obtain ⟨hset, -⟩ := ready_names hready hlegal
  have hcauses := checkAll_causes (s := s) hx g.c (g.c.tiles set)
  have hsome : (s.checkAll g.c (g.c.tiles set) x).causes ≠ [] := by
    obtain ⟨tile, ht, hfault⟩ := hbad
    rw [hcauses]
    intro hnil
    have htile := List.flatMap_eq_nil_iff.1 hnil tile ht
    rw [checkEff_causes, if_neg (fun hempty => hfault (List.isEmpty_iff.1 hempty))] at htile
    cases htile
  have hobjects : ∀ c ∈ (s.checkAll g.c (g.c.tiles set) x).causes, c.isObject = true := by
    intro c hc
    rw [hcauses] at hc
    obtain ⟨tile, -, hc⟩ := List.mem_flatMap.1 hc
    rw [checkEff_causes] at hc
    split at hc
    · cases hc
    · rw [List.mem_singleton.1 hc]
      rfl
  have hnoted : s.Frame (lateFields ++ checkFields) [] (s.noted set g (s.checkAll g.c (g.c.tiles set) x)) :=
    noted_frame (checkAll_notes _ _) (checkAll_bumps _ _)
  rw [checkEffect_eq, issues_aborts h (e := s.checkAll g.c (g.c.tiles set) x) rfl hsome]
  subst hset
  exact abortOnce_leaves (fs := lateFields ++ checkFields ++ objectFields) w hnoted.mono (noted_wf w)
    (fun u => (raiseCauses_objects hobjects u ..).mono) (by decide) (by decide)

/-! ### WAIT, shape cells and END (R81, R89, R90, R101) -/

theorem waitEffect_goes (w : s.wf = true) (h : s.issues set (isOp 8) g) :
    s.wentIn (waitEffect set s) g (.wait (bits g.c.w1 4 0) (bits g.c.w1 63 32) (s.waitDeadline set g.c)) [] [] := by
  have hop := issues_op h
  rw [waitEffect, issues_goes h (e := .none) rfl rfl]
  exact launch_wentIn w (by omega) (by omega)

theorem endBarEffect_drains (w : s.wf = true) (h : s.issues set (isOp 0x3F) g) :
    s.wentIn (endBarEffect set s) g .endOfBar [] [] ∧ (endBarEffect set s).setState set = 3 := by
  have hop := issues_op h
  obtain ⟨hready, hlegal, -⟩ := id h
  obtain ⟨hset, -⟩ := ready_names hready hlegal
  rw [endBarEffect, issues_goes h (e := .none) rfl rfl]
  refine ⟨launch_wentIn w (by omega) (by omega), ?_⟩
  subst hset
  exact setState_launch_end (rising_of_wf (noted_wf w)).1 hop

/-- A Set that has an owner, and whose owner allows an access, is not refused it. -/
theorem not_refused {owner : Option Nat} {allowed : Bool} (ho : owner.isSome = true) (ha : allowed = true) :
    ¬(owner.isNone = true ∨ allowed = false) := by
  rw [Option.isSome_iff_ne_none] at ho
  simp [ho, ha]

/-- What an SREAD finds in a cell that its Set may read (R90). -/
def cellRead (s : State) (set a k : Nat) : Eff :=
  { Eff.none with
    notes := if s.cellStale a then [(E.SCHED_SHAPE_STALE, set)] else []
    work := [.shape k (if s.cellStale a then 0 else bits (s.devWord a) 31 0) (bits (s.devWord a) 63 32)] }

theorem sreadEff_allowed {a : Nat} (hview : inView a = false) (howner : (s.ownerOf set).isSome = true)
    (hmay : s.mayRead (s.partOf set) a 64 = true) (k : Nat) : s.sreadEff set a k = s.cellRead set a k := by
  unfold sreadEff
  rw [if_neg (by simp [hview]), if_neg (not_refused howner hmay)]
  rfl

theorem sreadEffect_goes (w : s.wf = true) (h : s.issues set (isOp 9) g) (hview : inView (bits g.c.w1 47 0) = false)
    (howner : (s.ownerOf set).isSome = true) (hmay : s.mayRead (s.partOf set) (bits g.c.w1 47 0) 64 = true) :
    s.wentIn (sreadEffect set s) g .plain (s.cellRead set (bits g.c.w1 47 0) (bits g.c.w2 2 0)).work [] ∧
      (s.cellStale (bits g.c.w1 47 0) = true → s.raised (sreadEffect set s) E.SCHED_SHAPE_STALE set) := by
  have hop := issues_op h
  have heff := sreadEff_allowed hview howner hmay (bits g.c.w2 2 0)
  rw [sreadEffect, issues_goes h (congrArg (fun e => (_, _, e)) heff) rfl]
  refine ⟨launch_wentIn w (by omega) (by omega), fun hstale => ?_⟩
  have hlate : s.Frame lateFields [] ((s.charged set g).noteLate g.set g.c) :=
    (Frame.others (t := s.charged set g)).trans (noteLate_frame ..)
  have hraised : s.noted set g (s.cellRead set (bits g.c.w1 47 0) (bits g.c.w2 2 0)) =
      ((s.charged set g).noteLate g.set g.c).raise E.SCHED_SHAPE_STALE set := by
    unfold noted cellRead
    rw [if_pos hstale]
    rfl
  rw [hraised]
  exact raised_then (then_raised hlate (raised_raise (hlate.rising (rising_of_wf w).1) (by decide)) (by decide) (List.not_mem_nil))
    (launch_frame (by omega) (by omega)) (by decide) (by decide) (List.not_mem_nil) (List.not_mem_nil)

/-- An SWRITE of a value of its own to a cell that its Set may write (R89). -/
theorem swriteEff_allowed (hown : g.c.w2.testBit 63 = false) (hview : inView (bits g.c.w1 47 0) = false)
    (howner : (s.ownerOf g.set).isSome = true) (hmay : s.inPart (s.partOf g.set) (bits g.c.w1 47 0) 64 = true) (x : Ecc) :
    s.swriteEff g x = if s.devNat (bits g.c.w1 47 0 + 4) 4 < bits g.c.w2 31 0 then Eff.abort .bound
      else { Eff.none with held := [.cell (bits g.c.w1 47 0) (bits g.c.w2 31 0) false] } := by
  unfold swriteEff
  simp only [hown, hview, Bool.false_eq_true, if_false, Bool.false_and, if_neg (not_refused howner hmay)]
  rfl

theorem swriteEffect_goes (w : s.wf = true) (h : s.issues set (isOp 10) g) (hown : g.c.w2.testBit 63 = false)
    (hview : inView (bits g.c.w1 47 0) = false) (howner : (s.ownerOf set).isSome = true)
    (hmay : s.inPart (s.partOf set) (bits g.c.w1 47 0) 64 = true)
    (hfits : bits g.c.w2 31 0 ≤ s.devNat (bits g.c.w1 47 0 + 4) 4) :
    s.wentIn (swriteEffect set x s) g .plain [] [.cell (bits g.c.w1 47 0) (bits g.c.w2 31 0) false] := by
  have hop := issues_op h
  obtain ⟨hready, hlegal, -⟩ := id h
  obtain ⟨rfl, -⟩ := ready_names hready hlegal
  have heff := swriteEff_allowed hown hview howner hmay x
  rw [if_neg (by omega)] at heff
  rw [swriteEffect, issues_goes h (congrArg (fun e => (_, _, e)) heff) rfl]
  exact launch_wentIn w (by omega) (by omega)

theorem swriteEffect_aborts (w : s.wf = true) (h : s.issues set (isOp 10) g) (hown : g.c.w2.testBit 63 = false)
    (hview : inView (bits g.c.w1 47 0) = false) (howner : (s.ownerOf set).isSome = true)
    (hmay : s.inPart (s.partOf set) (bits g.c.w1 47 0) 64 = true)
    (hover : s.devNat (bits g.c.w1 47 0 + 4) 4 < bits g.c.w2 31 0) :
    let t := swriteEffect set x s
    s.raised t E.SCHED_SHAPE_BOUND set ∧ s.raised t E.SCHED_ABORT set ∧ (t.st set).flights = [] ∧ s.sameMem t := by
  obtain ⟨hready, hlegal, -⟩ := id h
  obtain ⟨rfl, -⟩ := ready_names hready hlegal
  have heff := swriteEff_allowed hown hview howner hmay x
  rw [if_pos hover] at heff
  rw [swriteEffect, issues_aborts h (congrArg (fun e => (_, _, e)) heff) (List.cons_ne_nil _ _)]
  have hnoted : s.Frame lateFields [] (s.noted g.set g (.abort .bound)) :=
    (noted_frame (fs := []) (by simp [Eff.abort, Eff.none]) (by simp [Eff.abort, Eff.none])).mono
  have wn := noted_wf (set := g.set) (g := g) (e := .abort .bound) w
  generalize s.noted g.set g (.abort .bound) = u at *
  have hbound : ∀ t : State, t.raiseCauses g.set (u.st g.set).recs (Eff.abort .bound).causes =
      t.raise E.SCHED_SHAPE_BOUND g.set := fun _ => rfl
  obtain ⟨habort, hflights, -, hmem, -⟩ := abortOnce_leaves (fs := lateFields ++ E.SCHED_SHAPE_BOUND.fields)
    (cs := (Eff.abort .bound).causes) (g := g) w hnoted.mono wn
    (fun t => by rw [hbound]; exact ((Link.refl t).raise (by decide)).toFrame) (by decide) (by decide)
  refine ⟨?_, habort, hflights, hmem⟩
  rw [abortOnce_eq, hbound]
  have hraise : u.Frame E.SCHED_ABORT.fields [] (u.raise E.SCHED_ABORT g.set [g.idx]) :=
    ((Link.refl u).raise (List.Subset.refl _)).toFrame
  refine then_raised (hnoted.mono.trans hraise.mono : s.Frame (lateFields ++ E.SCHED_ABORT.fields) [] _) ?_ (by decide)
    (List.not_mem_nil)
  exact raised_then (raised_raise (hraise.rising (rising_of_wf wn).1) (by decide)) (backOff_frame ..) (by decide) (by decide)
    (List.not_mem_nil) (List.not_mem_nil)

end State

/-- Settles O15, command by command: what each finds decides whether it goes in flight, and with what, or aborts. -/
theorem checksAndCells : Obligations.ChecksAndCells := by
  refine ⟨fun set x s g w h hx => ⟨fun hgood => ⟨_, rfl, State.checkEffect_verifies w h hx hgood⟩,
      fun hbad => ⟨_, rfl, State.checkEffect_aborts w h hx hbad⟩⟩,
    fun set x s g w _ => ⟨fun h => ⟨_, rfl, State.waitEffect_goes w h⟩, fun h hview howner hmay =>
      ⟨_, rfl, State.sreadEffect_goes w h hview howner hmay⟩, fun h hown hview howner hmay =>
      ⟨fun hfits => ⟨_, rfl, State.swriteEffect_goes w h hown hview howner hmay hfits⟩,
        fun hover => ⟨_, rfl, State.swriteEffect_aborts w h hown hview howner hmay hover⟩⟩,
      fun h => ⟨_, rfl, State.endBarEffect_drains w h⟩⟩⟩

end Sys2Proof.Machine
end

section
set_option Elab.async false

namespace Sys2Proof.Machine
namespace State
variable {s t u : State} {c : Nat}

/-! ### Channels (R429, R430, R442) -/

theorem reportFailed_layout (s : State) (c : Nat) : (s.reportFailed c).layout = s.layout := by
  have hposts : (s.failedAs c).PostsOnly (((s.failedAs c).raise E.HEALTH_ROLE_FAILED 0 [c]).mgmtTray 0x0201 [c]) :=
    (PostsOnly.refl _).raise.cqPost.emit
  obtain ⟨hsends, -⟩ := sendHealth_sends (((s.failedAs c).raise E.HEALTH_ROLE_FAILED 0 [c]).mgmtTray 0x0201 [c]) false
  rw [reportFailed_eq, hsends.only]
  exact (congrArg State.layout hposts :)

/-- A channel out of service, with the note of it, before it is reported (R430). -/
def channelOut (s : State) (c : Nat) : State :=
  { s with
    layout := { s.layout with channels := s.layout.channels ++ [c] }
    card := { s.card with waiting := s.card.waiting ++ [(⟨4, 0x20, c / 32⟩ : CardChange)] } }.note (srcUnit 0x20 (c / 32))
      (.unitRetired 4 0x20 (c / 32))

theorem retireChannel_eq (h : s.layout.channels.contains c = false) : s.retireChannel c =
    ((s.channelOut c).raise E.HEALTH_RETIRED 0 [0x20, c / 32]).reportFailed 0x07 := by
  unfold retireChannel
  rw [h]
  rfl

theorem channelOut_frame (s : State) (c : Nat) : s.Frame [] [] (s.channelOut c) :=
  .others (hl := List.prefix_append ..)

/-- A flag stays raised when the role is reported failed. -/
theorem raised_reportFailed {e : EvFlag} {i k : Nat} (h : s.raised t e i k)
    (hf : ([R.HEALTH_STATUS_FAILED, R.HEALTH_STATUS_CAUSE] ++ failFields).all (·.apart e.flag) = true := by decide)
    (hc : ([R.HEALTH_STATUS_FAILED, R.HEALTH_STATUS_CAUSE] ++ failFields).all (·.apart e.cnt) = true := by decide) :
    s.raised (t.reportFailed c) e i k := raisedBy_then (t := t.withCause c) h (reportFailed_whole t c) hf hc

/-- A channel that retires leaves the layout, and the role is reported failed (R430, R431). -/
theorem retireChannel_retires (w : mrising s.regs = true) (h : s.layout.channels.contains c = false) :
    (s.retireChannel c).layout.channels = s.layout.channels ++ [c] ∧ s.raised (s.retireChannel c) E.HEALTH_RETIRED ∧
      (s.retireChannel c).on R.HEALTH_STATUS_FAILED = true ∧ (s.retireChannel c).rd R.HEALTH_STATUS_CAUSE = 7 := by
  have wout : mrising (s.channelOut c).regs = true := w
  obtain ⟨hfailed, hcause, -⟩ :=
    reportFailed_shows (s := (s.channelOut c).raise E.HEALTH_RETIRED 0 [0x20, c / 32]) (mrising_raise wout ..) (c := 7) (by decide)
  rw [retireChannel_eq h]
  refine ⟨?_, ?_, hfailed, hcause⟩
  · rw [reportFailed_layout, raise_layout]
    rfl
  · exact then_raised (channelOut_frame s c)
      (raised_reportFailed (raised_raise wout (by decide)))
      (by decide) (List.not_mem_nil)

/-- The margin of a channel kept for the forecast (R446). -/
def withMargin (s : State) (c steps : Nat) : State :=
  { s with health := { s.health with hbm := mset 0 c (steps + 1) s.health.hbm } }

theorem hbmSweep_eq (hon : s.healthOn = true) (hin : s.layout.channels.contains c = false) (steps : Nat) (repaired : Bool) :
    hbmMarginSweepEffect c steps repaired s =
      if steps < s.rd R.HEALTH_FLOOR_HBM_STEPS then
        if repaired then (s.withMargin c steps).raise E.HEALTH_MARGIN_LOW 0 [0x20, c]
        else ((s.withMargin c steps).raise E.HEALTH_MARGIN_LOW 0 [0x20, c]).retireChannel c
      else s.withMargin c steps := if_pos ⟨hon, hin⟩

/-- A margin under its floor is flagged; with a repair nothing else changes (R442). -/
theorem marginLow_raised (w : mrising s.regs = true) (c steps : Nat) :
    let t := (s.withMargin c steps).raise E.HEALTH_MARGIN_LOW 0 [0x20, c]
    s.raised t E.HEALTH_MARGIN_LOW ∧ s.regsBut t (flagKeys E.HEALTH_MARGIN_LOW) ∧
      t = { s with regs := t.regs, log := t.log, health := (s.withMargin c steps).health } := by
  refine ⟨raised_raise (s := s.withMargin c steps) w (by decide), ?_, ?_⟩
  · exact fun f i k j hn => (raiseAs_frame (s := s.withMargin c steps) ..).rd rfl hn
  · exact raise_only (s.withMargin c steps) ..

theorem marginLow_retires (w : mrising s.regs = true) (hin : s.layout.channels.contains c = false) (steps : Nat) :
    let t := ((s.withMargin c steps).raise E.HEALTH_MARGIN_LOW 0 [0x20, c]).retireChannel c
    s.raised t E.HEALTH_MARGIN_LOW ∧ t.layout.channels = s.layout.channels ++ [c] ∧ s.raised t E.HEALTH_RETIRED ∧
      t.on R.HEALTH_STATUS_FAILED = true ∧ t.rd R.HEALTH_STATUS_CAUSE = 7 := by
  intro t
  let u := (s.withMargin c steps).raise E.HEALTH_MARGIN_LOW 0 [0x20, c]
  obtain ⟨hlow, -, -⟩ := marginLow_raised w c steps
  have hframe : s.Frame E.HEALTH_MARGIN_LOW.fields [] u :=
    (Frame.others (t := s.withMargin c steps)).trans (raise_frame ..)
  have hlayout : u.layout = s.layout := raise_layout (s.withMargin c steps) ..
  have hu : u.layout.channels.contains c = false := by rw [hlayout, hin]
  obtain ⟨hchannels, hretired, hfailed, hcause⟩ := retireChannel_retires (hframe.rising w) hu
  refine ⟨?_, by rw [hchannels, hlayout], then_raised hframe hretired (by decide) (List.not_mem_nil), hfailed, hcause⟩
  have hout : s.raised ((u.channelOut c).raise E.HEALTH_RETIRED 0 [0x20, c / 32]) E.HEALTH_MARGIN_LOW :=
    raised_then (raised_then hlow (channelOut_frame u c) rfl rfl (List.not_mem_nil) (List.not_mem_nil))
      (raise_frame (u.channelOut c) ..) (by decide) (by decide) (List.not_mem_nil) (List.not_mem_nil)
  have ht : t = ((u.channelOut c).raise E.HEALTH_RETIRED 0 [0x20, c / 32]).reportFailed 7 := retireChannel_eq hu
  rw [ht]
  exact raised_reportFailed hout

/-! ### Die-to-die lanes (R461, R462) -/

theorem lanesNoted_note (s : State) (unit link lane : Nat) :
    (s.note unit (.d2dLane link lane)).lanesNoted = s.lanesNoted ++ [(link, lane)] := by
  simp [lanesNoted, note, logAs, List.filterMap_append]

theorem lanesOut_note (s : State) (unit link lane : Nat) :
    (s.note unit (.d2dLane link lane)).lanesOut = s.lanesOut ++ [(link, lane)] := by
  unfold lanesOut
  rw [lanesNoted_note, ← List.append_assoc]
  rfl

/-- Spares that the 64-lane group of a lane has used (R461). -/
def sparesUsed (s : State) (link lane : Nat) : Nat :=
  (s.lanesOut.filter (fun e => e.1 = link && e.2 / 64 = lane / 64)).eraseDups.length

theorem d2dLaneReplace_eq {link lane : Nat} (h : s.lanesOut.contains (link, lane) = false) :
    d2dLaneReplaceEffect link lane s =
      if link < 30 ∧ s.sparesUsed link lane < 2 then s.note (srcUnit 0x45 0) (.d2dLane link lane) else s.reportFailed 0x01 := by
  unfold d2dLaneReplaceEffect
  rw [h]
  rfl

/-! ### CHECK windows (R182, R391) -/

theorem checkWindow_eq {n : Nat} (h : s.on R.CHECK_WIN_BASE_EN 0 n = false) :
    checkWindowEnableEffect n s =
      if s.locked (s.rd R.CHECK_WIN_SLOT_PART 0 n) then s.raise E.PART_LOCK_VIOL (s.rd R.CHECK_WIN_SLOT_PART 0 n)
      else if s.windowGood n then s.wr R.CHECK_WIN_BASE_EN 1 0 n else s.raise E.CHECK_WIN_BAD 0 [n] := by
  unfold checkWindowEnableEffect
  dsimp only
  rw [h]
  rfl

theorem enabled_window (w : mrising s.regs = true) (n : Nat) :
    let t := s.wr R.CHECK_WIN_BASE_EN 1 0 n
    t.on R.CHECK_WIN_BASE_EN 0 n = true ∧ s.regsBut t [fkey R.CHECK_WIN_BASE_EN 0 n 0] ∧ t = { s with regs := t.regs } := by
  refine ⟨?_, fun f i k j hn => (Frame.wr (fs := []) (.inr (List.mem_singleton_self _))).rd rfl hn, rfl⟩
  rw [State.on, rd_wr_self w]
  rfl

/-- A flag raised, and nothing else (R11). -/
theorem raise_flagged (w : mrising s.regs = true) {e : EvFlag} (he : e.sound = true) (i : Nat) (args : List Nat) :
    let t := s.raise e i args
    s.raised t e i ∧ s.regsBut t (flagKeys e i) ∧ t = { s with regs := t.regs, log := t.log } :=
  ⟨raised_raise w he, fun _ _ _ _ hn => (raiseAs_frame ..).rd rfl hn, raise_only ..⟩


end State
end Sys2Proof.Machine
end

section
set_option Elab.async false

namespace Sys2Proof.Machine
namespace State
variable {s t u : State} {set : Nat} {x : RepairItem} {remote : List (List Byte)}

/-! ### What a repair step reads (R177, R296)

The refetch is flagged before the object is read. What a Set may read, and what stands there, does not depend on that flag. -/

/-- Between two states the flag of a refetch alone changes, and the fault log. -/
structure Flagged (s t : State) : Prop extends Frame E.EXPAND_REFETCH.fields [] s t where
  only : t = { s with regs := t.regs, log := t.log }

theorem Flagged.raise (s : State) (i : Nat) (args : List Nat) : s.Flagged (s.raise E.EXPAND_REFETCH i args) :=
  ⟨((Link.refl s).raise (List.Subset.refl _)).toFrame, raise_only ..⟩

namespace Flagged
variable (h : s.Flagged t)
include h

theorem reads (f : Fld) (hf : E.EXPAND_REFETCH.fields.all (·.apart f) = true := by decide) (i k j : Nat) :
    t.rd f i k j = s.rd f i k j := h.rd hf (List.not_mem_nil)

theorem devBytes (a n : Nat) : t.devBytes a n = s.devBytes a n := by rw [h.only]; rfl

theorem devWord (a : Nat) : t.devWord a = s.devWord a := congrArg ofLE (h.devBytes a 8)

theorem devMarked (a n : Nat) : t.devMarked a n = s.devMarked a n := by rw [h.only]; rfl

/-! Partitions (R387, R388) -/

theorem ownerOf (set : Nat) : t.ownerOf set = s.ownerOf set := by
  simp only [State.ownerOf, State.locked, State.on, h.reads R.PART_STATUS_LOCKED, h.reads R.PART_SETS_SETS]

theorem partOf (set : Nat) : t.partOf set = s.partOf set := congrArg (·.getD 0) (h.ownerOf set)

theorem epochBase : t.epochBase = s.epochBase := by
  simp only [State.epochBase, State.regionBase, h.reads R.PROM_EPOCH_REGION, h.reads R.PROM_REGION0_BASE,
    h.reads R.PROM_REGION1_BASE]

theorem mayRead (p a n : Nat) : t.mayRead p a n = s.mayRead p a n := by
  simp only [State.mayRead, State.inPart, State.hbmLen, State.channels, State.inScratch, h.epochBase, h.reads R.PART_HBM_BASE,
    h.reads R.PART_CHAN_CHAN, h.reads R.PART_WAYS_WAYS, h.reads R.PART_SCRATCH_SCRATCH, h.reads R.PART_SHELF_BASE,
    h.reads R.PART_SHELF_LEN_LEN, h.reads R.PROM_REGION_LEN_LEN]

/-! The KV view (R241, R242) -/

theorem kvDesc (p : Nat) : t.kvDesc p = s.kvDesc p := by
  simp only [State.kvDesc, h.reads R.PART_KVDESC_BASE, h.devWord]

theorem wlHalf (p b : Nat) : t.wlHalf p b = s.wlHalf p b := by
  simp only [State.wlHalf, h.reads R.CALLER_PART_WL_WL_BASE]

theorem slotEntry (a : Nat) : t.slotEntry a = s.slotEntry a := by
  simp only [State.slotEntry, h.devWord]

theorem slotPos (p b i : Nat) : t.slotPos p b i = s.slotPos p b i := by
  simp only [State.slotPos, h.wlHalf, h.slotEntry, h.devWord]

theorem viewSlot (p a : Nat) : t.viewSlot p a = s.viewSlot p a := by
  have hbar : t.bar = s.bar := h.reads R.TEMPO_BAR_NUM_BAR ..
  have hnf : ∀ root, t.ptNf root = s.ptNf root := fun root => congrArg (bits · 9 0) (h.devWord root)
  unfold State.viewSlot
  dsimp only
  rw [hbar, h.wlHalf, h.slotEntry, h.kvDesc, h.slotPos, hnf]

theorem viewPart (v : ViewSlot) (o n : Nat) : t.viewPart v o n = s.viewPart v o n := by
  rw [h.only]
  rfl

theorem viewRun (v : ViewSlot) (k : Nat) : ∀ o n, t.viewRun v k o n = s.viewRun v k o n := by
  induction k with
  | zero => exact fun _ _ => rfl
  | succ k ih =>
    intro o n
    simp only [State.viewRun, h.viewPart, ih]

theorem readFor (set a n : Nat) : t.readFor set a n = s.readFor set a n := by
  simp only [State.readFor, State.viewRead, h.viewRun, h.viewSlot, h.partOf, h.ownerOf, h.mayRead, h.devMarked]

/-! Origins (R296) -/

theorem regionSlot : t.regionSlot = s.regionSlot := by
  have hweights : t.weights = s.weights := by rw [h.only]
  have hslot : t.activeSlot = s.activeSlot := by rw [h.only]; rfl
  simp only [State.regionSlot, hweights, hslot, h.reads R.PROM_EPOCH_REGION]

theorem nvBytes (slot a n : Nat) : t.nvBytes slot a n = s.nvBytes slot a n := by rw [h.only]; rfl

theorem mapOrigin (a n : Nat) : t.mapOrigin a n = s.mapOrigin a n := by
  simp only [State.mapOrigin, h.epochBase, h.devWord, h.regionSlot, h.nvBytes]

theorem hostObjs : t.hostObjs = s.hostObjs := by
  have hweights : t.weights = s.weights := by rw [h.only]
  have hown : ∀ m l e, t.ownExpert m l e = s.ownExpert m l e := fun m l e => by rw [h.only]; rfl
  simp only [State.hostObjs, State.hostsOf, hweights, hown, h.reads R.PROM_EPOCH_REGION]

theorem originOf (a n : Nat) : t.originOf a n = s.originOf a n := by
  simp only [State.originOf, h.mapOrigin, h.hostObjs]

end Flagged

/-! ### What a repair step writes (R177) -/

/-- Between two states registers, the fault log, device memory and tile SRAM alone change, marks included. -/
def RepairOnly (s t : State) : Prop :=
  t = { s with
    regs := t.regs, log := t.log, mem := t.mem, memMark := t.memMark, tileMem := t.tileMem, tileMark := t.tileMark }

theorem RepairOnly.refl (s : State) : s.RepairOnly s := rfl

theorem RepairOnly.trans (h : s.RepairOnly t) (g : t.RepairOnly u) : s.RepairOnly u := Eq.trans g (by rw [h])

theorem RepairOnly.raise (h : s.RepairOnly t) {e : EvFlag} {i k : Nat} {args : List Nat} : s.RepairOnly (t.raise e i args k) := by
  refine h.trans ?_
  unfold RepairOnly
  rw [raise_only t]

theorem RepairOnly.sramPut (h : s.RepairOnly t) {key : Nat} {d : List MarkByte} : s.RepairOnly (t.sramPut key d) := h.trans rfl

theorem RepairOnly.markRange (h : s.RepairOnly t) {a n : Nat} : s.RepairOnly (t.markRange a n) := h.trans rfl

theorem RepairOnly.rewrite (h : s.RepairOnly t) {o : Origin} {bs : List Byte} : s.RepairOnly (t.rewrite x o bs) := by
  unfold State.rewrite
  split
  · exact (h.trans (u := t.devLoad x.src bs) rfl).raise
  · exact h

theorem RepairOnly.refetch (h : s.RepairOnly t) : s.RepairOnly (t.refetch set x).1 := by
  unfold State.refetch
  split
  · exact h.sramPut
  · exact h

theorem RepairOnly.giveUp (h : s.RepairOnly t) : s.RepairOnly (t.giveUp set x) := by
  unfold State.giveUp
  dsimp only
  split
  · exact h.markRange.sramPut.raise
  · exact h.sramPut.raise

theorem RepairOnly.repairOne (h : s.RepairOnly t) : s.RepairOnly (t.repairOne set remote x).1 := by
  have hfetched := (h.raise (e := E.EXPAND_REFETCH) (i := x.tile) (k := 0) (args := [x.src])).refetch (set := set) (x := x)
  unfold State.repairOne
  dsimp only
  split
  · exact hfetched
  · split
    · exact hfetched.giveUp
    · split
      all_goals
        dsimp only
        split
        · exact hfetched.rewrite.refetch
        · exact hfetched.rewrite.refetch.giveUp

/-- The objects of a Set's repair, one after the other. -/
def repaired (s : State) (set : Nat) (remote : List (List Byte)) : State :=
  ((s.st set).repair.foldl (fun (t : State × List (List Byte)) x => t.1.repairOne set t.2 x) (s, remote)).1

theorem repaired_only (s : State) (set : Nat) (remote : List (List Byte)) : s.RepairOnly (s.repaired set remote) :=
  foldl_keeps (P := fun t : State × List (List Byte) => s.RepairOnly t.1) (fun _ _ h => h.repairOne) _ (s, remote) (.refl s)

theorem repairComplete_eq (s : State) (set : Nat) (remote : List (List Byte)) :
    repairCompleteEffect set remote s =
      (s.repaired set remote).setSt set { (s.repaired set remote).st set with repair := [] } := rfl

/-- The repair step leaves nothing to repair, and no other Set's record changes (R86, R177). -/
theorem repairComplete_leaves (w : mrising s.sets = true) :
    let t := repairCompleteEffect set remote s
    (t.st set).repair = [] ∧ (∀ n, n ≠ set → t.st n = s.st n) ∧
      t = { s with
        regs := t.regs, log := t.log, mem := t.mem, memMark := t.memMark, tileMem := t.tileMem, tileMark := t.tileMark
        sets := t.sets } := by
  intro t
  have honly := repaired_only s set remote
  have hsets : (s.repaired set remote).sets = s.sets := by rw [honly]
  refine ⟨?_, fun n hn => ?_, ?_⟩
  · have hst : t.st set = { (s.repaired set remote).st set with repair := [] } := st_setSt (hsets ▸ w) ..
    rw [hst]
  · exact (st_setSt_ne hn.symm _).trans (st_of_sets hsets n)
  · exact (congrArg (fun u : State => { u with sets := t.sets }) honly :)

theorem repairComplete_one (h : (s.st set).repair = [x]) :
    repairCompleteEffect set remote s =
      (s.repairOne set remote x).1.setSt set { (s.repairOne set remote x).1.st set with repair := [] } := by
  have hone : s.repaired set remote = (s.repairOne set remote x).1 := by
    unfold repaired
    rw [h, List.foldl_cons, List.foldl_nil]
  rw [repairComplete_eq, hone]

/-- A flag that was raised shows in every state of the same registers and log. -/
theorem raised_of_same {e : EvFlag} {i k : Nat} (h : s.raised t e i k) (hr : u.regs = t.regs) (hl : u.log = t.log) :
    s.raised u e i k := by
  obtain ⟨hon, hcnt, hlog⟩ := h
  exact ⟨(on_of_regs hr ..).trans hon, (rd_of_regs hr ..).trans hcnt, hl ▸ hlog⟩

/-- The flag of a refetch, and the state that the object is read in. -/
def refetching (s : State) (x : RepairItem) : State := s.raise E.EXPAND_REFETCH x.tile [x.src]

/-! ### An object that verifies -/

theorem repairOne_verifies {bs : List MarkByte} (hread : s.readFor set x.src x.len = .ok bs)
    (hgood : verifies bs x.len x.crc = true) :
    (s.repairOne set remote x).1 = (s.refetching x).sramPut (tileKey x.tile false x.off) bs := by
  have hread' : (s.refetching x).readFor set x.src x.len = .ok bs := ((Flagged.raise s ..).readFor ..).trans hread
  unfold refetching at hread'
  unfold repairOne refetch refetching
  simp only [hread', hgood]
  rfl

theorem sram_sramPut (h : s.memWf = true) {tile off : Nat} (bs : List MarkByte) :
    ((s.sramPut (tileKey tile false off) bs).sram tile false off bs.length).map (·.1) = bs.map (·.1) := by
  refine List.ext_getElem (by simp [sram]) fun i hi hj => ?_
  have hlt : i < bs.length := by simpa using hj
  simp only [sram, List.map_map, List.getElem_map, List.getElem_range, Function.comp_apply]
  exact tileMem_sramPut_in h hlt

/-- An object that verifies when fetched again stands in its place, and device memory stays (R177). -/
theorem repairComplete_verifies (w : s.wf = true) (h : (s.st set).repair = [x]) {bs : List MarkByte}
    (hread : s.readFor set x.src x.len = .ok bs) (hlen : bs.length = x.len) (hgood : verifies bs x.len x.crc = true) :
    let t := repairCompleteEffect set remote s
    s.raised t E.EXPAND_REFETCH x.tile ∧ s.sameMem t ∧ (t.sram x.tile false x.off x.len).map (·.1) = bs.map (·.1) := by
  intro t
  have ht : t = _ := repairComplete_one h
  rw [repairOne_verifies hread hgood] at ht
  have hflag : s.raised (s.refetching x) E.EXPAND_REFETCH x.tile := raised_raise (rising_of_wf w).1 (by decide)
  have hmem : s.sameMem (s.refetching x) := (Flagged.raise s x.tile [x.src]).sameMem
  have wr : (s.refetching x).memWf = true := memWf_of_wf ((Keeps.refl s).raise.2 w)
  rw [ht]
  exact ⟨raised_of_same hflag rfl rfl, hmem, hlen ▸ sram_sramPut wr bs⟩

/-! ### An object that cannot be repaired -/

theorem repairOne_fails {e : Cause} (hread : s.readFor set x.src x.len = .error e) (hnone : s.originOf x.src x.len = none) :
    (s.repairOne set remote x).1 = (s.refetching x).giveUp set x := by
  have hread' : (s.refetching x).readFor set x.src x.len = .error e := ((Flagged.raise s ..).readFor ..).trans hread
  have hnone' : (s.refetching x).originOf x.src x.len = none := ((Flagged.raise s ..).originOf ..).trans hnone
  unfold refetching at hread' hnone'
  unfold repairOne refetch refetching
  simp only [hread', hnone']
  rfl

/-- A write of marked bytes marks every word that it touches (R148). -/
theorem wordMarkAfter_marked {old : Bool} {key i : Nat} {d : List MarkByte} (hd : ∀ b ∈ d, b.2 = true) (hi : i < d.length) :
    wordMarkAfter old key d ((key + i) / 8) = true := by
  have hmem : d[i] ∈ (d.drop ((key + i) / 8 * 8 - key)).take ((key + i) / 8 * 8 + 8 - max ((key + i) / 8 * 8) key) := by
    refine List.mem_iff_getElem.2 ⟨i - ((key + i) / 8 * 8 - key), ?_, ?_⟩
    · simp only [List.length_take, List.length_drop]
      omega
    · simp only [List.getElem_take, List.getElem_drop]
      congr 1
      omega
  have hany := List.any_eq_true.2 ⟨_, hmem, hd _ (List.getElem_mem hi)⟩
  unfold wordMarkAfter
  dsimp only
  rw [hany, Bool.or_true, ite_self]

theorem tileMark_sramPut_marked (h : s.memWf = true) {key : Nat} {d : List MarkByte} (hd : ∀ b ∈ d, b.2 = true) {i : Nat}
    (hi : i < d.length) : mget false (s.sramPut key d).tileMark ((key + i) / 8) = true := by
  obtain ⟨-, -, -, hmark, -⟩ := memWf_iff.1 h
  have hempty : d.isEmpty = false := by
    cases d with
    | nil => cases hi
    | cons => rfl
  unfold State.sramPut
  dsimp only
  rw [hempty, if_neg (by decide), mget_foldl_mset false (fun v => wordMarkAfter (mget false s.tileMark v) key d v) _ _
    ((mwf_iff _ _).1 hmark).1 (.inl ?_)]
  · exact wordMarkAfter_marked hd hi
  · exact List.mem_map.2 ⟨(key + i) / 8 - key / 8, List.mem_range.2 (by omega), by omega⟩

theorem sram_marked (h : s.memWf = true) {tile off n : Nat} {d : List MarkByte} (hd : ∀ b ∈ d, b.2 = true) (hn : n = d.length) :
    ∀ b ∈ (s.sramPut (tileKey tile false off) d).sram tile false off n, b.2 = true := by
  intro b hb
  obtain ⟨i, hi, rfl⟩ := List.mem_map.1 hb
  exact tileMark_sramPut_marked h hd (hn ▸ List.mem_range.1 hi)

/-- The copy of an object that stays bad, each byte marked (R177). -/
def spoiled (s : State) (x : RepairItem) : List MarkByte := (s.sram x.tile false x.off x.len).map (fun b => (b.1, true))

/-- An object that stays bad: its lines may be marked, its copy is, and REPAIR_FAIL is raised (R177). -/
theorem giveUp_cases (s : State) (set : Nat) (x : RepairItem) : ∃ u : State, (u = s ∨ ∃ a n, u = s.markRange a n) ∧
    s.giveUp set x =
      (u.sramPut (tileKey x.tile false x.off) (s.spoiled x)).raise E.EXPAND_REPAIR_FAIL x.tile [x.src] := by
  unfold giveUp
  dsimp only
  split
  · exact ⟨_, .inr ⟨_, _, rfl⟩, rfl⟩
  · exact ⟨s, .inl rfl, rfl⟩

/-- An object that cannot be fetched and has no recorded origin is marked, with REPAIR_FAIL (R177). -/
theorem repairComplete_fails (w : s.wf = true) (h : (s.st set).repair = [x]) {e : Cause}
    (hread : s.readFor set x.src x.len = .error e) (hnone : s.originOf x.src x.len = none) :
    let t := repairCompleteEffect set remote s
    s.raised t E.EXPAND_REFETCH x.tile ∧ s.raised t E.EXPAND_REPAIR_FAIL x.tile ∧
      ∀ b ∈ t.sram x.tile false x.off x.len, b.2 = true := by
  intro t
  have ht : t = _ := repairComplete_one h
  obtain ⟨u, hu, hgive⟩ := giveUp_cases (s.refetching x) set x
  rw [repairOne_fails hread hnone, hgive] at ht
  let v := u.sramPut (tileKey x.tile false x.off) ((s.refetching x).spoiled x)
  have hmarked : ∀ fs, (s.refetching x).Reports fs u := by
    rcases hu with rfl | ⟨a, n, rfl⟩
    · exact fun _ => .refl _
    · exact fun _ => (Reports.refl _).markRange
  have hput : ∀ fs, (s.refetching x).Reports fs v := fun fs => (hmarked fs).others
  have hflag : s.Reports E.EXPAND_REFETCH.fields (s.refetching x) := (Reports.refl s).raise
  have hrefetch : s.raised (s.refetching x) E.EXPAND_REFETCH x.tile := raised_raise (rising_of_wf w).1 (by decide)
  have hfail : v.raised (v.raise E.EXPAND_REPAIR_FAIL x.tile [x.src]) E.EXPAND_REPAIR_FAIL x.tile :=
    raised_raise ((hput []).rising (hflag.rising (rising_of_wf w).1)) (by decide)
  have wu : u.memWf = true := by
    have wr : (s.refetching x).memWf = true := memWf_of_wf ((Keeps.refl s).raise.2 w)
    rcases hu with rfl | ⟨a, n, rfl⟩
    · exact wr
    · exact memWf_markRange wr a n
  have hgiven : (s.refetching x).Reports E.EXPAND_REPAIR_FAIL.fields (v.raise E.EXPAND_REPAIR_FAIL x.tile [x.src]) :=
    (hput _).raise
  rw [ht]
  refine ⟨raised_of_same (raisedBy_then hrefetch hgiven) rfl rfl,
    raised_of_same (hflag.then_raised ((hput []).then_raised hfail)) rfl rfl, ?_⟩
  have hsram : ∀ y, ((v.raise E.EXPAND_REPAIR_FAIL x.tile [x.src]).setSt set y).sram x.tile false x.off x.len =
      v.sram x.tile false x.off x.len := fun y => by
    simp only [sram, setSt_tileMem, setSt_tileMark, raise_tileMem, raise_tileMark]
  rw [hsram]
  exact sram_marked wu (by simp [spoiled]) (by simp [spoiled, sram])

end State

open State

/-- Settles O60, part by part: margins, lanes, retraining and windows; the repair step. -/
theorem ageingAndRepair : Obligations.AgeingAndRepair := by
  refine ⟨fun s wf => ⟨fun c steps repaired => ?_, fun link lane => ?_, fun _ _ => ⟨rfl, rfl, rfl⟩, fun n => ?_⟩,
    fun set remote s wf => ⟨⟨_, rfl, repairComplete_leaves (rising_sets wf)⟩, fun x hx _ =>
      ⟨fun bs hread hlen hgood => ⟨_, rfl, repairComplete_verifies wf hx hread hlen hgood⟩,
        fun e hread hnone => ⟨_, rfl, repairComplete_fails wf hx hread hnone⟩⟩⟩⟩
  all_goals obtain ⟨w, -⟩ := rising_of_wf wf
  · refine ⟨fun hnot => congrArg Host.Outcome.next (if_neg hnot), fun ⟨hon, hin⟩ hhigh => ?_,
      fun ⟨⟨hon, hin⟩, hlow⟩ => ?_⟩
    · exact congrArg Host.Outcome.next
        ((hbmSweep_eq hon hin steps repaired).trans (if_neg fun hlow => hhigh ⟨⟨hon, hin⟩, hlow⟩))
    · have heq := (hbmSweep_eq hon hin steps repaired).trans (if_pos hlow)
      cases repaired with
      | true =>
        obtain ⟨hraised, hown⟩ := marginLow_raised w c.val steps
        exact ⟨_, congrArg Host.Outcome.next (heq.trans (if_pos rfl)), hraised, fun _ => hown, nofun⟩
      | false =>
        obtain ⟨hraised, hretires⟩ := marginLow_retires w hin steps
        exact ⟨_, congrArg Host.Outcome.next (heq.trans (if_neg nofun)), hraised, nofun, fun _ => hretires⟩
  · refine ⟨fun hout => congrArg Host.Outcome.next (if_pos hout), fun hin => ⟨fun hspare => ?_, fun hspent => ?_⟩⟩
    · exact ⟨_, congrArg Host.Outcome.next ((d2dLaneReplace_eq hin).trans (if_pos hspare)), lanesOut_note .., rfl⟩
    · obtain ⟨hfailed, hcause, -⟩ := reportFailed_shows (s := s) w (c := 1) (by decide)
      exact ⟨_, congrArg Host.Outcome.next ((d2dLaneReplace_eq hin).trans (if_neg hspent)), hfailed, hcause⟩
  · refine ⟨fun hon => congrArg Host.Outcome.next (if_pos hon), fun hoff =>
      ⟨fun hlock => ⟨_, congrArg Host.Outcome.next ((checkWindow_eq hoff).trans (if_pos hlock)),
          raise_flagged w (by decide) ..⟩,
        fun hfree hgood => ?_, fun hfree hbad => ?_⟩⟩
    all_goals have heq := (checkWindow_eq hoff).trans (if_neg (by simp [hfree]))
    · exact ⟨_, congrArg Host.Outcome.next (heq.trans (if_pos hgood)), enabled_window w n.val⟩
    · exact ⟨_, congrArg Host.Outcome.next (heq.trans (if_neg (by simp [hbad]))), raise_flagged w (by decide) ..⟩

end Sys2Proof.Machine
end

section
set_option Elab.async false

namespace Sys2Proof.Machine

/-! ### The end of a move whose sequence has closed

O27 says that a sequence with no Cancel is PAUSED once its move to the warm shelf is over. A sequence that closed while the move
ran, as LOST, goes on to FREE (R188). -/

/-- Sequence 0 is CLOSING, with no Cancel, while its move to the warm shelf runs; the engines have nothing of it left to write. -/
def closedOnTheMove : State :=
  { State.reset with caller := { Caller.init with
      seqs := [(0, { Entry.init with state := 7 })], fresh := 1, cached := [0], moves := [⟨0, true, 0x010000000000, []⟩] } }

theorem closedOnTheMove_pausing :
    closedOnTheMove.wf = true ∧ closedOnTheMove.on R.CALLER_JOURNAL_EN = false ∧ closedOnTheMove.caller.waits = [] ∧
    closedOnTheMove.caller.cached.contains 0 = true ∧ (closedOnTheMove.seq 0).again = false ∧
    closedOnTheMove.caller.moves.find? (fun m => m.index = 0 && m.toShelf) = some ⟨0, true, 0x010000000000, []⟩ ∧
    (closedOnTheMove.runJob (.pause 0)).2 = true ∧ (closedOnTheMove.seq 0).cancelled = false := by decide +kernel

theorem closedOnTheMove_freed : ((pauseMoveCompleteEffect 0 closedOnTheMove).seq 0).state = 0 := by decide +kernel

/-- Refutes O27: the sequence of `closedOnTheMove` is FREE after its move, not PAUSED. -/
theorem not_callerUpkeep : ¬ Obligations.CallerUpkeep := by
  rintro ⟨hmoves, -⟩
  obtain ⟨hwf, hjournal, hwaits, hcached, hagain, hfind, hdone, hlive⟩ := closedOnTheMove_pausing
  obtain ⟨hpause, -⟩ := hmoves 0 closedOnTheMove hwf hjournal hwaits hcached hagain
  obtain ⟨t, ht, -, -, hstate⟩ := (hpause _ hfind).2 hdone
  cases ht
  rw [hlive, if_neg Bool.false_ne_true, closedOnTheMove_freed] at hstate
  exact absurd hstate.1 (by decide)

end Sys2Proof.Machine
end

section
set_option Elab.async false

namespace Sys2Proof.Machine
namespace State
variable {s t u : State} {g c typ status handle : Nat} {w rest : List Nat} {r : Req} {poison : Bool}

/-! ### What a completion in a ring with room changes -/

/-- Writing an entry changes registers, the host's side and the output alone. -/
theorem cqWrite_only (s : State) (g c : Nat) (w : List Nat) : s.cqWrite g c w = { s with
    regs := (s.cqWrite g c w).regs, host := (s.cqWrite g c w).host, out := (s.cqWrite g c w).out } := by
  have hsig := ((s.written g c w).noteEntry_signals g c).only
  rw [← cqWrite_eq] at hsig
  have hregs : (s.cqWrite g c w).regs = (s.written g c w).regs := (congrArg State.regs hsig :)
  rw [hregs]
  exact hsig

theorem cqWrite_regsBut (s : State) (g c : Nat) (w : List Nat) :
    s.regsBut (s.cqWrite g c w) [fkey R.PCIE_CQ_CFG_TAIL 0 g c, fkey R.PCIE_CQ_CFG_PHASE 0 g c] := by
  have hwr : s.Frame [] [fkey R.PCIE_CQ_CFG_TAIL 0 g c, fkey R.PCIE_CQ_CFG_PHASE 0 g c] (s.written g c w) :=
    ((Link.refl s).emit.emit.wr (.inr (by simp)) |>.wr (.inr (by simp))).toFrame
  exact (hwr.trans ((s.written g c w).noteEntry_signals g c).frame).regsBut

theorem complete_only (ho : s.isOpen r = true) (hr : s.ringOpen r.grp.val r.cq.val) :
    s.complete r status handle rest poison = { s with
      regs := (s.complete r status handle rest poison).regs, host := (s.complete r status handle rest poison).host
      out := (s.complete r status handle rest poison).out } := by
  rw [complete_open ho hr]
  exact (cqWrite_only ..).trans rfl

theorem complete_regsBut (ho : s.isOpen r = true) (hr : s.ringOpen r.grp.val r.cq.val) :
    s.regsBut (s.complete r status handle rest poison) [fkey R.PCIE_GRP_SQ_CFG_OPEN 0 r.grp 0,
      fkey R.PCIE_CQ_CFG_TAIL 0 r.grp r.cq, fkey R.PCIE_CQ_CFG_PHASE 0 r.grp r.cq] := by
  intro f i k j hf
  rw [List.mem_cons, not_or] at hf
  rw [complete_open ho hr, cqWrite_regsBut _ _ _ _ f i k j hf.2]
  exact rd_wr_ne _ _ _ (Ne.symm hf.1)

/-! ### Requests on a sequence in their turn (R184, R189) -/

theorem isOpen_of_seqTurn (h : s.seqTurn typ r = true) : s.isOpen r = true := by
  rw [seqTurn, Bool.and_eq_true] at h
  exact isOpen_of_openAs h.1

/-- A request whose handle names no live entry completes at once, and has no effect. -/
theorem onSeq_unknown {f : State → Nat → State} (ht : s.seqTurn typ r = true) (hc : s.callerOn = true)
    (hl : s.lookup r.grp.val r.handle.toNat = .error status) : s.onSeq typ r f = s.finish r status := by
  unfold onSeq
  rw [if_neg (by simp [ht, hc]), hl]

theorem lookup_notFound {g h : Nat} (hu : bits h 45 34 ≠ s.pkgId ∨ (s.seq (bits h 17 0)).part ≠ g ∨ (s.seq (bits h 17 0)).state = 0) :
    s.lookup g h = .error stNotFound := by
  unfold lookup
  exact if_pos (by tauto)

theorem lookup_stale {g h : Nat} (hu : ¬(bits h 45 34 ≠ s.pkgId ∨ (s.seq (bits h 17 0)).part ≠ g ∨ (s.seq (bits h 17 0)).state = 0))
    (hg : bits h 33 18 ≠ (s.seq (bits h 17 0)).gen) : s.lookup g h = .error stStale := by
  unfold lookup
  exact (if_neg (by tauto)).trans (if_pos hg)

/-- Where INDEX, GEN and PKG stand in a handle (R184). -/
theorem bits_handle {i gen pkg : Nat} (hi : i < 2 ^ 18) (hg : gen < 2 ^ 16) (hp : pkg < 2 ^ 12) :
    let h := i + gen * 2 ^ 18 + pkg * 2 ^ 34
    bits h 17 0 = i ∧ bits h 33 18 = gen ∧ bits h 45 34 = pkg ∧ h < 2 ^ 46 := by
  simp only [bits, Nat.shiftRight_eq_div_pow]
  omega

end State

/-- Settles O25: the fields of a handle stand apart, and a request that names no live entry is one completion. -/
theorem handles : Obligations.Handles := by
  refine ⟨fun i s => State.bits_handle, ?_⟩
  intro r s _ hon hr e he ht h x unknown st hst
  have hl : s.lookup r.grp.val h = .error st := by
    rcases hst with ⟨hu, rfl⟩ | ⟨hu, hg, rfl⟩
    · exact State.lookup_notFound hu
    · exact State.lookup_stale hu hg
  have hlt : st < 256 := by
    rcases hst with ⟨-, rfl⟩ | ⟨-, -, rfl⟩ <;> decide
  have ho := State.isOpen_of_seqTurn ht
  refine ⟨s.finish r st, ?_, State.complete_completed ho hr hlt, State.complete_regsBut ho hr, State.complete_only ho hr⟩
  simp only [List.mem_cons, List.not_mem_nil, or_false] at he
  obtain rfl | rfl | rfl | rfl := he
  all_goals exact congrArg Host.Outcome.next (State.onSeq_unknown ht hon hl)

end Sys2Proof.Machine
end

section
set_option Elab.async false

namespace Sys2Proof.Machine

/-! ### Fields in rows -/

/-- Whether a repeated field stands at one place of every row of 64 bytes. -/
def Fld.rows (f : Fld) : Bool := decide (f.s1 % 64 = 0) && decide (f.s2 % 64 = 0)

/-- Two fields that share no bit, whatever their instances and rows: apart, beginning at different bits, or at different places
of rows of 64 bytes. -/
def Fld.clear (f g : Fld) : Bool :=
  f.apart g || decide (f.lo < 64) && decide (g.lo < 64) &&
    (decide (f.lo ≠ g.lo) || f.rows && g.rows && decide (f.off % 64 ≠ g.off % 64))

theorem Fld.place_of_rows {f : Fld} (h : f.rows = true) (k j : Nat) :
    (f.off + f.s1 * k + f.s2 * j) % 2 ^ 32 % 64 = f.off % 64 := by
  simp only [Fld.rows, Bool.and_eq_true, decide_eq_true_eq] at h
  obtain ⟨a, ha⟩ := Nat.dvd_of_mod_eq_zero h.1
  obtain ⟨b, hb⟩ := Nat.dvd_of_mod_eq_zero h.2
  rw [ha, hb, Nat.mul_assoc, Nat.mul_assoc]
  omega

theorem Fld.fkey_ne_of_clear {f g : Fld} (h : f.clear g = true) {i k j i' k' j' : Nat} : fkey f i k j ≠ fkey g i' k' j' := by
  simp only [Fld.clear, Bool.or_eq_true, Bool.and_eq_true, decide_eq_true_eq] at h
  obtain h | ⟨⟨hf, hg⟩, hlo | ⟨⟨hrf, hrg⟩, hoff⟩⟩ := h
  · exact Fld.fkey_ne h
  · exact fkey_ne_of_lo hf hg hlo
  · have hfp := Fld.place_of_rows hrf k j
    have hgp := Fld.place_of_rows hrg k' j'
    unfold fkey
    omega

/-- What the Caller's work on sequences writes beside its counts of requests and of the plan: the counts and flags of committed
writes, KV_USED, MISMATCH and SHAPE_BOUND. -/
def callerFields : List Fld :=
  [R.CHECK_CREATE_CNT_CREATES, R.CHECK_UPDATE_CNT_UPDATES, R.CALLER_PART_KVUSE_KV_USED] ++
    E.CHECK_HDR_PARTIAL.fields ++ E.CHECK_GEN_FAULT.fields ++ E.CALLER_MISMATCH.fields ++ E.CALLER_SHAPE_BOUND.fields

/-- An entry of the table replaced. -/
def Caller.put (c : Caller) (i : Nat) (x : Entry) : Caller := { c with seqs := mset Entry.init i x c.seqs }

namespace State
variable {s₀ s t u : State} {c c' : Caller} {f : Fld} {e : EvFlag} {i j k n a p root : Nat} {β : Type}

/-! ### The Caller's work on sequences -/

/-- Between two states the Caller worked on sequences, and its record became `c`: registers change in `callerFields` alone, the
fault log goes on, and beside them only device memory and the engines' queues change. -/
structure Wrote (s : State) (c : Caller) (t : State) : Prop where
  only : t = { s with regs := t.regs, mem := t.mem, memMark := t.memMark, log := t.log, moves := t.moves, caller := c }
  rd : ∀ {f i k j}, callerFields.all (·.clear f) = true → t.rd f i k j = s.rd f i k j
  rising : mrising s.regs = true → mrising t.regs = true
  log : s.log <+: t.log

theorem Wrote.refl (s : State) : s.Wrote s.caller s := ⟨rfl, fun _ => rfl, id, List.prefix_rfl⟩

theorem Wrote.trans (h : s.Wrote c t) (g : t.Wrote c' u) : s.Wrote c' u where
  only := g.only.trans (by rw [h.only])
  rd hf := (g.rd hf).trans (h.rd hf)
  rising w := g.rising (h.rising w)
  log := h.log.trans g.log

theorem Wrote.caller (h : s.Wrote c t) : t.caller = c := (congrArg State.caller h.only :)

theorem Wrote.host (h : s.Wrote c t) : t.host = s.host := (congrArg State.host h.only :)

theorem Wrote.out (h : s.Wrote c t) : t.out = s.out := (congrArg State.out h.only :)

theorem Wrote.tempo (h : s.Wrote c t) : t.tempo = s.tempo := (congrArg State.tempo h.only :)

theorem Wrote.on (h : s.Wrote c t) (hf : callerFields.all (·.clear f) = true := by decide) : t.on f i k j = s.on f i k j := by
  unfold State.on
  rw [h.rd hf]

theorem Wrote.bar (h : s.Wrote c t) : t.bar = s.bar := h.rd (by decide)

/-- A change that moves no register and no record of the fault log. -/
theorem Wrote.others (h : s.Wrote c t)
    (ho : u = { t with mem := u.mem, memMark := u.memMark, moves := u.moves, caller := c' } := by rfl) : s.Wrote c' u :=
  have hregs : u.regs = t.regs := (congrArg State.regs ho :)
  have hlog : u.log = t.log := (congrArg State.log ho :)
  h.trans ⟨by rw [hregs, hlog]; exact ho, fun _ => rd_eq_of_regs hregs _ _ _ _, fun w => hregs ▸ w, hlog ▸ List.prefix_rfl⟩

theorem Wrote.withCaller (h : s.Wrote c t) (c' : Caller) : s.Wrote c' { t with caller := c' } := h.others

theorem Wrote.withMem (h : s.Wrote c t) {m} : s.Wrote c { t with mem := m } := by
  have hc := h.caller
  subst hc
  exact h.others

theorem Wrote.withMemMark (h : s.Wrote c t) {m} : s.Wrote c { t with memMark := m } := by
  have hc := h.caller
  subst hc
  exact h.others

theorem Wrote.withMemory (h : s.Wrote c t) {m l} : s.Wrote c { t with mem := m, memMark := l } := by
  have hc := h.caller
  subst hc
  exact h.others

theorem Wrote.withMoves (h : s.Wrote c t) {m} : s.Wrote c { t with moves := m } := by
  have hc := h.caller
  subst hc
  exact h.others

theorem Wrote.ite {q : Prop} {_ : Decidable q} (ht : s.Wrote c t) (hu : s.Wrote c u) : s.Wrote c (if q then t else u) := by
  split <;> assumption

theorem Wrote.foldl {f : State → β → State} {l : List β} (h : s.Wrote c t)
    (hf : ∀ {t b}, s.Wrote c t → s.Wrote c (f t b)) : s.Wrote c (l.foldl f t) :=
  foldl_keeps (P := s.Wrote c) (fun _ _ => hf) l t h

theorem Wrote.wr (h : s.Wrote c t) {v} (hf : f ∈ callerFields := by decide) : s.Wrote c (t.wr f v i k j) := by
  have hc := h.caller
  subst hc
  exact h.trans ⟨rfl, fun hg => rd_wr_ne _ _ _ (Fld.fkey_ne_of_clear (List.all_eq_true.1 hg f hf)),
    fun w => mrising_wr w .., List.prefix_rfl⟩

theorem Wrote.bump (h : s.Wrote c t) {v} (hf : f ∈ callerFields := by decide) : s.Wrote c (t.bump f v i k j) := h.wr hf

theorem Wrote.logAs (h : s.Wrote c t) {unit w args} : s.Wrote c (t.logAs unit w args) := by
  have hc := h.caller
  subst hc
  exact h.trans ⟨rfl, fun _ => rfl, id, List.prefix_append ..⟩

theorem Wrote.raise (h : s.Wrote c t) {args} (he : e.fields ⊆ callerFields := by decide) : s.Wrote c (t.raise e i args k) := by
  have h1 : s.Wrote c ((t.wr e.flag 1 i k).bump e.cnt 1 i k) :=
    (h.wr (he (by simp [EvFlag.fields]))).bump (he (by simp [EvFlag.fields]))
  unfold State.raise State.raiseAs
  dsimp only
  refine .logAs ?_
  split
  case h_1 f hf => exact h1.wr (he (by simp [EvFlag.fields, hf]))
  case h_2 => exact h1

/-! ### Memory and the engines' queues -/

theorem Wrote.devPut (h : s.Wrote c t) {d} : s.Wrote c (t.devPut a d) := h.withMemory

theorem Wrote.markRange (h : s.Wrote c t) : s.Wrote c (t.markRange a n) := h.withMemMark

theorem Wrote.zeroRange (h : s.Wrote c t) : s.Wrote c (t.zeroRange a n) := h.withMemory

theorem Wrote.crcUpdate (h : s.Wrote c t) {o} : s.Wrote c (State.crcUpdate u t o a n) :=
  have h1 := h.raise.markRange.ite h
  .ite h.withMem.bump (.ite h1.withMem.bump h1)

theorem Wrote.generatorCheck (h : s.Wrote c t) {die o} : s.Wrote c (t.generatorCheck die o) := .ite h.raise.markRange h

theorem Wrote.committed (h : s.Wrote c t) : s.Wrote c (State.committed u t a n) := h.foldl fun h => h.crcUpdate.generatorCheck

theorem Wrote.devWrite (h : s.Wrote c t) {d} : s.Wrote c (t.devWrite a d) := h.devPut.committed

theorem Wrote.devZero (h : s.Wrote c t) : s.Wrote c (t.devZero a n) := h.zeroRange.committed

theorem Wrote.devSet (h : s.Wrote c t) {bs} : s.Wrote c (t.devSet a bs) := h.devWrite

theorem Wrote.devSetNat (h : s.Wrote c t) {v} : s.Wrote c (t.devSetNat a n v) := h.devSet

theorem Wrote.queueMove (h : s.Wrote c t) {m rs} : s.Wrote c (t.queueMove m rs) := .ite h h.withMoves

theorem Wrote.kvCount (h : s.Wrote c t) {word} : s.Wrote c (t.kvCount p word n) := h.devSetNat

theorem Wrote.popFrames (h : s.Wrote c t) : s.Wrote c (t.popFrames p n).1 := h.devSetNat

theorem Wrote.pushFrames (h : s.Wrote c t) {fs} : s.Wrote c (t.pushFrames p fs) := h.devSet.devSetNat

theorem Wrote.clearTags (h : s.Wrote c t) {x} : s.Wrote c (t.clearTags p x) := h.devSet

theorem Wrote.quarantine (h : s.Wrote c t) {fs} : s.Wrote c (t.quarantine p fs) :=
  h.devSet.devSetNat.kvCount.foldl fun h => h.queueMove

theorem Wrote.newTable (h : s.Wrote c t) : s.Wrote c (t.newTable p root n) := (h.popFrames.foldl fun h => h.clearTags).devSet

theorem Wrote.growTable (h : s.Wrote c t) : s.Wrote c (t.growTable p root n) :=
  (((h.popFrames.foldl fun h => h.clearTags).devSet).devSet).devSetNat

/-- A position mapped (R245, R246). -/
theorem Wrote.mapOne (h : s.Wrote c t) {n' q} (hu : t.mapOne p root n n' q = some u) : s.Wrote c u := by
  unfold State.mapOne at hu
  dsimp only at hu
  split at hu
  · cases hu; exact h.devSetNat.devSetNat
  · split at hu
    · cases hu; exact h.devSetNat.devSetNat.kvCount
    · cases hu

theorem Wrote.mapMany (h : s.Wrote c t) {n' q m} : s.Wrote c (t.mapMany p root n n' q m).1 := by
  induction m generalizing t q with
  | zero => exact h
  | succ m ih =>
    unfold State.mapMany
    split
    · exact ih (h.mapOne ‹_›)
    · exact h

theorem Wrote.mapTo (h : s.Wrote c t) {n' hi} : s.Wrote c (t.mapTo p root n n' hi).1 := by
  unfold State.mapTo
  exact h.mapMany.devSetNat

/-! ### The table and the ledger -/

/-- With the journal off the mirror stays as it is. -/
theorem Wrote.journalOff (h : s.Wrote c t) (hj : s.on R.CALLER_JOURNAL_EN = false) : t.on R.CALLER_JOURNAL_EN = false :=
  h.on.trans hj

theorem Wrote.putSeq (h : s.Wrote c t) (hj : s.on R.CALLER_JOURNAL_EN = false) {x : Entry} :
    s.Wrote (c.put i x) (t.putSeq i x) := by
  have hc := h.caller
  subst hc
  have hset : s.Wrote (t.caller.put i x) (State.devSet { t with caller := t.caller.put i x } (t.seqAt i) x.image) :=
    (h.withCaller _).devSet
  have heq : t.putSeq i x = State.devSet { t with caller := t.caller.put i x } (t.seqAt i) x.image :=
    mirrorWrite_off i (256 * i) x.image (hset.journalOff hj)
  rw [heq]
  exact hset

theorem Wrote.standby (h : s.Wrote c t) (op : Nat) : ∃ b, s.Wrote { c with switch := b } (t.standby op) := by
  have hc := h.caller
  subst hc
  have hraise : s.Wrote t.caller (t.callerRaise E.CALLER_MISMATCH [op]) := h.raise
  unfold State.standby
  split
  · dsimp only
    split
    · exact ⟨true, hraise.others (by rw [hraise.caller])⟩
    · exact ⟨t.caller.switch, hraise⟩
  · exact ⟨t.caller.switch, h⟩

end State
end Sys2Proof.Machine
end

section
set_option Elab.async false

namespace Sys2Proof.Machine

/-! ### The Caller's record -/

namespace Caller
variable {c : Caller} {i j u : Nat} {x : Entry} {v : Resv}

/-- The entry at an index. -/
def seq (c : Caller) (i : Nat) : Entry := mget Entry.init c.seqs i

theorem seq_put (h : mrising c.seqs = true) : (c.put i x).seq i = x := mget_mset_self _ _ _ h

theorem seq_put_ne (h : j ≠ i) : (c.put i x).seq j = c.seq j := mget_mset_ne _ _ h.symm _

theorem rising_put (h : mrising c.seqs = true) : mrising (c.put i x).seqs = true := mrising_mset h

/-- An entry's reservation ends at a bar. -/
def cut (c : Caller) (i u : Nat) : Caller :=
  { c with ledger := c.ledger.map (fun v => if v.index = i then { v with hi := min v.hi u } else v) }

/-- An entry's reservation counts no KV position. -/
def unheld (c : Caller) (i : Nat) : Caller :=
  { c with ledger := c.ledger.map (fun v => if v.index = i then { v with kv := 0 } else v) }

/-- An entry's reservation released from a bar on, and its KV with it, unless its set is to go to quarantine (R200, R240). -/
def released (c : Caller) (i u : Nat) : Caller := if (c.seq i).dirty then c.cut i u else (c.cut i u).unheld i

theorem released_eq (c : Caller) (i u : Nat) : c.released i u = { c with ledger := (c.released i u).ledger } := by
  unfold released
  split <;> rfl

theorem mem_cut (hv : v ∈ (c.cut i u).ledger) (hi : v.index = i) : v.hi ≤ u := by
  obtain ⟨w, -, rfl⟩ := List.mem_map.1 hv
  by_cases hw : w.index = i
  · rw [if_pos hw]
    exact Nat.min_le_right ..
  · rw [if_neg hw] at hi
    contradiction

theorem mem_unheld (hv : v ∈ (c.unheld i).ledger) (hi : v.index = i) : v.kv = 0 ∧ ∃ w ∈ c.ledger, w.index = i ∧ w.hi = v.hi := by
  obtain ⟨w, hw, rfl⟩ := List.mem_map.1 hv
  by_cases hwi : w.index = i
  · rw [if_pos hwi]
    exact ⟨rfl, w, hw, hwi, rfl⟩
  · rw [if_neg hwi] at hi
    contradiction

theorem mem_released (hv : v ∈ (c.released i u).ledger) (hi : v.index = i) : v.hi ≤ u ∧ ((c.seq i).dirty = true ∨ v.kv = 0) := by
  unfold released at hv
  split at hv
  case isTrue hd => exact ⟨mem_cut hv hi, .inl hd⟩
  case isFalse =>
    obtain ⟨hkv, w, hw, hwi, hhi⟩ := mem_unheld hv hi
    exact ⟨hhi ▸ mem_cut hw hwi, .inr hkv⟩

/-- A FREE entry with what it leaves (R185, R202). -/
def freedEntry (e : Entry) : Entry := { e with
  state := 0, gen := if e.cancelled then e.gen else (e.gen + 1) % 65536, slot := 0x1FFF, shelfRoot := 0, cancelled := false
  dirty := false, framed := false, lastPlan := 0, again := false }

/-- An entry becomes FREE. -/
def free (c : Caller) (i : Nat) : Caller :=
  { Caller.put { c with shelf := c.shelf.filter (fun x => x.index ≠ i) } i (freedEntry (c.seq i)) with
    freed := c.freed ++ [i], cached := c.cached.filter (· ≠ i), ledger := c.ledger.filter (fun v => v.index ≠ i) }

theorem seq_free (h : mrising c.seqs = true) : (c.free i).seq i = freedEntry (c.seq i) := mget_mset_self _ _ _ h

theorem seq_free_ne (h : j ≠ i) : (c.free i).seq j = c.seq j := mget_mset_ne _ _ h.symm _

theorem mem_free (hv : v ∈ (c.free i).ledger) : v ∈ c.ledger ∧ v.index ≠ i := by
  simpa [free] using hv

end Caller

namespace State
variable {s t u : State} {c c' : Caller} {i j status handle op : Nat} {r : Req} {rest : List Nat} {w : SeqWait}

theorem rising_seqs (h : s.wf = true) : mrising s.caller.seqs = true := ((mwf_iff _ _).1 ((wf_iff s).1 h).seqs).1

theorem rising_regs (h : s.wf = true) : mrising s.regs = true := ((mwf_iff _ _).1 ((wf_iff s).1 h).regs).1

/-! ### Completions amid the Caller's work -/

theorem Wrote.ringSame (h : s.Wrote c t) : s.RingSame t where
  rd f hf _ _ := h.rd (by
    revert f
    decide)
  host := by rw [h.host]
  out := h.out

theorem Wrote.ringOpen (h : s.Wrote c t) {g k : Nat} (ho : s.ringOpen g k) : t.ringOpen g k := h.ringSame.ringOpen ho

theorem Wrote.isOpen (h : s.Wrote c t) : t.isOpen r = s.isOpen r := by
  unfold State.isOpen
  rw [h.host]

/-- A completion after the Caller's work is one since before it. -/
theorem Wrote.completed (h : s.Wrote c t) (hc : t.completed u r status) : s.completed u r status :=
  h.ringSame.completed (by rw [h.host]) hc

/-- A completion stays one through the Caller's work. -/
theorem completed_then (hc : s.completed t r status) (h : t.Wrote c u) : s.completed u r status := by
  unfold State.completed entryOut entryAt at hc ⊢
  rw [h.host, h.out]
  exact hc

theorem complete_caller (ho : s.isOpen r = true) (hr : s.ringOpen r.grp.val r.cq.val) {poison : Bool} :
    (s.complete r status handle rest poison).caller = s.caller :=
  (congrArg State.caller (complete_only ho hr) :)

theorem complete_rd (ho : s.isOpen r = true) (hr : s.ringOpen r.grp.val r.cq.val) {poison : Bool} {f : Fld} {k l : Nat}
    (hf : [R.PCIE_GRP_SQ_CFG_OPEN, R.PCIE_CQ_CFG_TAIL, R.PCIE_CQ_CFG_PHASE].all (·.apart f) = true := by decide) :
    (s.complete r status handle rest poison).rd f i k l = s.rd f i k l :=
  (complete_frame ho hr).rd hf List.not_mem_nil

/-! ### The ledger -/

theorem Wrote.unplanned (h : s.Wrote c t) (hp : c.planned = s.caller.planned) : t.unplanned = s.unplanned := by
  unfold State.unplanned
  rw [h.bar, h.caller, hp]

theorem Wrote.release (h : s.Wrote c t) : s.Wrote (c.released i t.unplanned) ((t.releaseBars i).releaseKv i) := by
  have hc := h.caller
  subst hc
  have hcut : s.Wrote (t.caller.cut i t.unplanned) (t.releaseBars i) := h.others
  unfold State.releaseKv Caller.released
  show s.Wrote (if (t.seq i).dirty then _ else _) (if (t.seq i).dirty then _ else _)
  split
  · exact hcut
  · exact hcut.wr.withCaller _

/-! ### The end of a sequence -/

theorem endPause_none (h : ∀ w ∈ s.caller.waits, w.cancel = true) : s.endPause i status rest = s := by
  unfold endPause
  rw [List.find?_eq_none.2 (fun w hw => by simp [h w hw])]

theorem Wrote.startClose (h : s.Wrote c t) (hj : s.on R.CALLER_JOURNAL_EN = false) (hw : ∀ w ∈ c.waits, w.cancel = true) :
    s.Wrote ((c.released i t.unplanned).put i { c.seq i with state := 7 }) (t.startClose i) := by
  have hrel := (h.release (i := i)).putSeq hj (i := i) (x := { ((t.releaseBars i).releaseKv i).seq i with state := 7 })
  have hseq : ((t.releaseBars i).releaseKv i).seq i = c.seq i := by
    unfold State.seq
    rw [h.release.caller, Caller.released_eq]
    rfl
  unfold State.startClose
  dsimp only
  rw [endPause_none]
  · rw [hseq] at hrel ⊢
    exact hrel
  · intro w hm
    rw [hrel.caller, Caller.released_eq] at hm
    exact hw w hm

theorem Wrote.dropFrames (h : s.Wrote c t) : s.Wrote c (t.dropFrames i) := .ite (.ite h.wr.quarantine h.pushFrames) h

theorem Wrote.dropShelf (h : s.Wrote c t) :
    s.Wrote { c with shelf := c.shelf.filter (fun x => x.index ≠ i) } (t.dropShelf i) := by
  have hc := h.caller
  subst hc
  exact h.others

theorem Wrote.freeSeq (h : s.Wrote c t) (hj : s.on R.CALLER_JOURNAL_EN = false) : s.Wrote (c.free i) (t.freeSeq i) := by
  have hdrop := (h.dropFrames (i := i)).dropShelf (i := i)
  have hseq : ((t.dropFrames i).dropShelf i).seq i = c.seq i := by
    unfold State.seq
    rw [hdrop.caller]
    rfl
  have hput := hdrop.putSeq hj (i := i) (x := Caller.freedEntry (((t.dropFrames i).dropShelf i).seq i))
  obtain ⟨u, hu⟩ : ∃ u, u = ((t.dropFrames i).dropShelf i).putSeq i (Caller.freedEntry (((t.dropFrames i).dropShelf i).seq i)) :=
    ⟨_, rfl⟩
  have hfree : t.freeSeq i = { u with caller := { u.caller with
      freed := u.caller.freed ++ [i], cached := u.caller.cached.filter (· ≠ i)
      ledger := u.caller.ledger.filter (fun v => v.index ≠ i) } } := by
    rw [hu]
    rfl
  rw [← hu] at hput
  rw [hfree, hput.caller, hseq]
  exact hput.withCaller _

theorem Wrote.tryFree (h : s.Wrote c t) (hj : s.on R.CALLER_JOURNAL_EN = false) :
    s.Wrote (if t.closable i then c.free i else c) (t.tryFree i) := by
  unfold State.tryFree
  split
  · exact h.freeSeq hj
  · exact h

/-! ### Cancels that wait -/

theorem settleCancels_nil (h : s.caller.waits = []) : s.settleCancels = s := by
  unfold settleCancels
  rw [h]
  rfl

/-- With one request waiting, a Cancel that nothing holds completes (R188, R202). -/
theorem settleCancels_one (h : s.caller.waits = [w]) : s.settleCancels =
    if w.cancel ∧ s.moving w.index = false ∧ s.recordWaits w.req.handle.toNat = false then
      State.complete { s with caller := { s.caller with waits := [] } } w.req 0 w.req.handle.toNat [w.generated]
    else s := by
  have hdrop : s.caller.waits.filter (fun x => x ≠ w) = [] := by
    rw [h]
    simp
  unfold settleCancels
  rw [h, List.foldl_cons, List.foldl_nil, hdrop]

end State
end Sys2Proof.Machine
end

section
set_option Elab.async false

namespace Sys2Proof.Machine

/-! ### CANCEL (R200, R202, R203) -/

/-- What the Caller keeps of an entry that a Cancel has been taken for, and of its request. -/
def Caller.cancelling (c : Caller) (r : Req) (i : Nat) : Caller :=
  { c.put i { c.seq i with gen := ((c.seq i).gen + 1) % 65536, cancelled := true } with
    waits := c.waits ++ [⟨i, true, r, (c.seq i).generated⟩] }

/-- The Caller's record once a cancelled entry closes from a bar on. -/
def Caller.closing (c : Caller) (r : Req) (i u : Nat) : Caller :=
  ((c.cancelling r i).released i u).put i { (c.cancelling r i).seq i with state := 7 }

namespace Caller
variable {c : Caller} {r : Req} {i j u : Nat} {l : List SeqWait} {v : Resv}

theorem seq_cancelling (h : mrising c.seqs = true) :
    (c.cancelling r i).seq i = { c.seq i with gen := ((c.seq i).gen + 1) % 65536, cancelled := true } :=
  mget_mset_self _ _ _ h

theorem rising_cancelling (h : mrising c.seqs = true) : mrising (c.cancelling r i).seqs = true := rising_put h

theorem rising_released (h : mrising c.seqs = true) : mrising (c.released i u).seqs = true := by
  rw [released_eq]
  exact h

theorem seq_released : (c.released i u).seq j = c.seq j := by
  rw [released_eq]
  rfl

theorem seq_closing (h : mrising c.seqs = true) :
    (c.closing r i u).seq i = { c.seq i with gen := ((c.seq i).gen + 1) % 65536, cancelled := true, state := 7 } := by
  rw [closing, seq_put (rising_released (rising_cancelling h)), seq_cancelling h]

theorem rising_closing (h : mrising c.seqs = true) : mrising (c.closing r i u).seqs = true :=
  rising_put (rising_released (rising_cancelling h))

theorem seq_closing_ne (h : j ≠ i) : (c.closing r i u).seq j = c.seq j := by
  rw [closing, seq_put_ne h, seq_released]
  exact seq_put_ne h

theorem closing_waits (h : c.waits = []) : (c.closing r i u).waits = [⟨i, true, r, (c.seq i).generated⟩] := by
  rw [closing, released_eq]
  show c.waits ++ _ = _
  rw [h, List.nil_append]

theorem closing_eq (c : Caller) (r : Req) (i u : Nat) : c.closing r i u =
    { c with seqs := (c.closing r i u).seqs, ledger := (c.closing r i u).ledger, waits := (c.closing r i u).waits } := by
  unfold closing
  rw [released_eq]
  rfl

theorem mem_closing (h : mrising c.seqs = true) (hv : v ∈ (c.closing r i u).ledger) (hi : v.index = i) :
    v.hi ≤ u ∧ ((c.seq i).dirty = true ∨ v.kv = 0) := by
  have hrel := mem_released (c := c.cancelling r i) hv hi
  rwa [seq_cancelling h] at hrel

end Caller

namespace State
variable {s t u : State} {c : Caller} {i j typ status : Nat} {r : Req}

/-- A request in its turn on a live sequence that the Caller holds in its cache (R184, R187, R189). -/
theorem onSeq_live {f : State → Nat → State} (ht : s.seqTurn typ r = true) (hc : s.callerOn = true)
    (hl : s.lookup r.grp.val r.handle.toNat = .ok i) (hin : s.caller.cached.contains i = true) :
    ∃ l, s.onSeq typ r f = (f { s with caller := { s.caller with cached := l } } i).standby i := by
  have hlive : (s.seq i).state ≠ 0 := by
    unfold lookup at hl
    dsimp only at hl
    split at hl
    · cases hl
    · split at hl
      · cases hl
      · cases hl; tauto
  have hload : s.loadEntry i = s.useEntry i := by
    unfold loadEntry
    rw [if_neg hlive, if_pos hin]
  obtain ⟨l, huse⟩ : ∃ l, s.useEntry i = { s with caller := { s.caller with cached := l } } := ⟨_, rfl⟩
  refine ⟨l, ?_⟩
  have hagain : State.lookup { s with caller := { s.caller with cached := l } } r.grp.val r.handle.toNat = .ok i := hl
  unfold onSeq
  rw [if_neg (by simp [ht, hc]), hl]
  dsimp only
  rw [hload, huse, hagain]

/-- A sequence whose Cancel has been taken. -/
def cancelNoted (s : State) (r : Req) (i : Nat) : State :=
  let t := s.putSeq i { s.seq i with gen := ((s.seq i).gen + 1) % 65536, cancelled := true }
  { t with caller := { t.caller with waits := t.caller.waits ++ [⟨i, true, r, (s.seq i).generated⟩] } }

theorem cancelSeq_eq (s : State) (r : Req) (i : Nat) : s.cancelSeq r i =
    if (s.cancelNoted r i).moving i then (((s.cancelNoted r i).releaseBars i).releaseKv i).endPause i stClosed []
    else (((s.cancelNoted r i).startClose i).settleCancels).tryFree i := rfl

section
variable (hj : s.on R.CALLER_JOURNAL_EN = false) (hw : s.caller.waits = [])
include hj

theorem cancelNoted_wrote : s.Wrote (s.caller.cancelling r i) (s.cancelNoted r i) := by
  have hput := (Wrote.refl s).putSeq hj (i := i)
    (x := { s.seq i with gen := ((s.seq i).gen + 1) % 65536, cancelled := true })
  unfold cancelNoted
  dsimp only
  rw [hput.caller]
  exact hput.withCaller _

theorem cancelNoted_unplanned : (s.cancelNoted r i).unplanned = s.unplanned := (cancelNoted_wrote hj).unplanned rfl

theorem cancelNoted_moving : (s.cancelNoted r i).moving i = s.moving i := by
  unfold State.moving
  rw [(cancelNoted_wrote hj).caller]
  rfl

/-- Outside a move the sequence closes. -/
theorem cancelSeq_still (hm : s.moving i = false) :
    s.cancelSeq r i = (((s.cancelNoted r i).startClose i).settleCancels).tryFree i :=
  (cancelSeq_eq ..).trans (if_neg (by rw [cancelNoted_moving hj, hm]; decide))

omit hj in
include hw in
theorem cancelNoted_waits : ∀ w ∈ (s.caller.cancelling r i).waits, w.cancel = true := by
  intro w hm
  rw [show (s.caller.cancelling r i).waits = s.caller.waits ++ _ from rfl, hw, List.nil_append, List.mem_singleton] at hm
  rw [hm]

include hw

/-- Amid a move the sequence keeps its state, and its Cancel waits. -/
theorem cancelSeq_moving (hm : s.moving i = true) :
    s.Wrote ((s.caller.cancelling r i).released i s.unplanned) (s.cancelSeq r i) := by
  have hrel := (cancelNoted_wrote hj (r := r) (i := i)).release (i := i)
  rw [cancelNoted_unplanned hj] at hrel
  rw [cancelSeq_eq, cancelNoted_moving hj, if_pos hm, endPause_none]
  · exact hrel
  · rw [hrel.caller, Caller.released_eq]
    exact cancelNoted_waits hw

/-- Otherwise it closes. -/
theorem cancelNoted_closes : s.Wrote (s.caller.closing r i s.unplanned) ((s.cancelNoted r i).startClose i) := by
  have hclose := (cancelNoted_wrote hj (r := r) (i := i)).startClose hj (cancelNoted_waits hw) (i := i)
  rwa [cancelNoted_unplanned hj] at hclose

/-- A Cancel behind a record that waits goes on waiting. -/
theorem cancelSeq_waits (hm : s.moving i = false) (hrec : s.recordWaits r.handle.toNat = true) :
    s.Wrote (if ((s.cancelNoted r i).startClose i).closable i then (s.caller.closing r i s.unplanned).free i
      else s.caller.closing r i s.unplanned) (s.cancelSeq r i) := by
  have hclose := cancelNoted_closes hj hw (r := r) (i := i)
  have hsettle : ((s.cancelNoted r i).startClose i).settleCancels = (s.cancelNoted r i).startClose i := by
    rw [settleCancels_one (by rw [hclose.caller, Caller.closing_waits hw])]
    refine if_neg fun h => ?_
    have hnow := h.2.2
    unfold State.recordWaits at hnow hrec
    rw [hclose.caller, Caller.closing_eq] at hnow
    exact absurd (hrec.symm.trans hnow) (by decide)
  rw [cancelSeq_still hj hm, hsettle]
  exact hclose.tryFree hj

/-- A Cancel that nothing holds completes. -/
theorem cancelSeq_completes (hm : s.moving i = false) (hrec : s.recordWaits r.handle.toNat = false) (ho : s.isOpen r = true)
    (hr : s.ringOpen r.grp.val r.cq.val) : ∃ u b, s.completed u r 0 ∧
      u.Wrote (if b = true then Caller.free { s.caller.closing r i s.unplanned with waits := [] } i
        else { s.caller.closing r i s.unplanned with waits := [] }) (s.cancelSeq r i) := by
  have hclose := cancelNoted_closes hj hw (r := r) (i := i)
  obtain ⟨t, ht⟩ : ∃ t, t = (s.cancelNoted r i).startClose i := ⟨_, rfl⟩
  rw [← ht] at hclose
  have hmov : t.moving i = false := by
    rw [← hm]
    unfold State.moving
    rw [hclose.caller, Caller.closing_eq]
  have hrec' : t.recordWaits r.handle.toNat = false := by
    rw [← hrec]
    unfold State.recordWaits
    rw [hclose.caller, Caller.closing_eq]
  have hdrop : s.Wrote { s.caller.closing r i s.unplanned with waits := [] }
      { t with caller := { s.caller.closing r i s.unplanned with waits := [] } } := hclose.withCaller _
  have ho' := hdrop.isOpen.trans ho
  have hr' := hdrop.ringOpen hr
  obtain ⟨u, hu⟩ : ∃ u, u = t.settleCancels := ⟨_, rfl⟩
  have hsettle : u = State.complete { t with caller := { s.caller.closing r i s.unplanned with waits := [] } }
      r 0 r.handle.toNat [(s.seq i).generated] := by
    rw [hu, settleCancels_one (by rw [hclose.caller, Caller.closing_waits hw]), if_pos ⟨rfl, hmov, hrec'⟩, hclose.caller]
    rfl
  have huc : u.caller = { s.caller.closing r i s.unplanned with waits := [] } := by
    rw [hsettle]
    exact complete_caller ho' hr'
  have huj : u.on R.CALLER_JOURNAL_EN = false := by
    rw [hsettle, State.on, complete_rd ho' hr']
    exact hdrop.journalOff hj
  refine ⟨u, u.closable i, ?_, ?_⟩
  · rw [hsettle]
    exact hdrop.completed (complete_completed ho' hr' (by decide))
  · rw [cancelSeq_still hj hm, ← ht, ← hu, ← huc]
    exact (Wrote.refl u).tryFree huj

end
end State
end Sys2Proof.Machine
end

section
set_option Elab.async false

namespace Sys2Proof.Machine

namespace Caller
variable {c : Caller} {i j g : Nat} {e : Entry} {b q : Bool} {v : Resv}

/-- What a cancelled entry that closes has become, freed or not. -/
theorem seq_ended (h : mrising c.seqs = true) (hc : c.seq i = { e with gen := g, cancelled := true, state := 7 }) :
    ((if q = true then c.free i else c).seq i).gen = g ∧
    (((if q = true then c.free i else c).seq i).state = 7 ∨ ((if q = true then c.free i else c).seq i).state = 0) := by
  cases q
  · rw [if_neg (by decide), hc]
    exact ⟨rfl, .inl rfl⟩
  · rw [if_pos rfl, seq_free h, hc]
    exact ⟨rfl, .inr rfl⟩

theorem seq_ended_ne (h : j ≠ i) : (if q = true then c.free i else c).seq j = c.seq j := by
  split
  · exact seq_free_ne h
  · rfl

theorem mem_ended (hv : v ∈ (if q = true then c.free i else c).ledger) : v ∈ c.ledger := by
  split at hv
  · exact (mem_free hv).1
  · exact hv

/-- A move of an entry to the warm shelf begins (R204). -/
def toShelf (c : Caller) (i base : Nat) : Caller :=
  { c.put i { c.seq i with shelfRoot := base } with moves := c.moves ++ [⟨i, true, base, []⟩] }

/-- An entry that a Pause has been taken for, with its place on the shelf. -/
def pausing (c : Caller) (r : Req) (i u base n : Nat) : Caller :=
  { (c.cut i u).put i { c.seq i with state := 4, ttl := r.f 3 31 0 } with
    waits := c.waits ++ [⟨i, false, r, 0⟩], shelf := c.shelf ++ [⟨i, base, n⟩] }

theorem seqs_pausing {r : Req} {u base n : Nat} :
    (c.pausing r i u base n).seqs = mset Entry.init i { c.seq i with state := 4, ttl := r.f 3 31 0 } c.seqs := rfl

theorem seq_pausing (h : mrising c.seqs = true) {r : Req} {u base n : Nat} :
    (c.pausing r i u base n).seq i = { c.seq i with state := 4, ttl := r.f 3 31 0 } := by
  rw [seq, seqs_pausing, mget_mset_self _ _ _ h]

theorem seq_pausing_ne (h : j ≠ i) {r : Req} {u base n : Nat} : (c.pausing r i u base n).seq j = c.seq j := by
  rw [seq, seqs_pausing, mget_mset_ne _ _ h.symm]
  rfl

theorem rising_pausing (h : mrising c.seqs = true) {r : Req} {u base n : Nat} : mrising (c.pausing r i u base n).seqs = true := by
  rw [seqs_pausing]
  exact mrising_mset h

/-- An entry's reservation with `n` more bars and `kv` more KV positions. -/
def stretched (c : Caller) (i n kv : Nat) : Caller :=
  { c with ledger := c.ledger.map (fun (v : Resv) => if v.index = i then { v with hi := v.hi + n, kv := v.kv + kv } else v) }

/-- An entry with `n` more bars and tokens, and KV for `kv` positions. -/
def longer (e : Entry) (n kv : Nat) : Entry := { e with kvRes := max kv e.kvRes, maxNew := e.maxNew + n, endBar := e.endBar + n }

/-- An entry and its reservation with `n` more bars and tokens, and KV for `kv` positions (R200). -/
def extended (c : Caller) (i n kv : Nat) : Caller := (c.stretched i n (kv - (c.seq i).kvRes)).put i (longer (c.seq i) n kv)

theorem seq_extended (h : mrising c.seqs = true) {n kv : Nat} : (c.extended i n kv).seq i = longer (c.seq i) n kv :=
  mget_mset_self _ _ _ h

theorem seq_extended_ne (h : j ≠ i) {n kv : Nat} : (c.extended i n kv).seq j = c.seq j := mget_mset_ne _ _ h.symm _

end Caller

namespace State
variable {s t u : State} {c : Caller} {i j typ status : Nat} {r : Req}

/-- What the closing of a cancelled entry leaves, freed or not, whatever waits then. -/
theorem closing_effect (hseqs : mrising s.caller.seqs = true) {b q : Bool}
    (hcl : c = { s.caller.closing r i s.unplanned with waits := c.waits })
    (hc : t.caller = { (if q = true then c.free i else c) with switch := b }) :
    (t.seq i).gen = ((s.seq i).gen + 1) % 65536 ∧ ((t.seq i).state = 7 ∨ (t.seq i).state = 0) ∧ t.caller.waits = c.waits ∧
      (∀ v ∈ t.caller.ledger, v.index = i → v.hi ≤ s.unplanned ∧ ((s.seq i).dirty = true ∨ v.kv = 0)) ∧
      ∀ j, j ≠ i → t.seq j = s.seq j := by
  have hrise : mrising c.seqs = true := by
    rw [hcl]
    exact Caller.rising_closing hseqs
  have hseq : c.seq i = { s.seq i with gen := ((s.seq i).gen + 1) % 65536, cancelled := true, state := 7 } := by
    rw [hcl]
    exact Caller.seq_closing hseqs
  have hends := Caller.seq_ended (q := q) hrise hseq
  have hread : ∀ j, t.seq j = (if q = true then c.free i else c).seq j := by
    intro j
    unfold State.seq
    rw [hc]
    rfl
  refine ⟨by rw [hread]; exact hends.1, by rw [hread]; exact hends.2, ?_, ?_, ?_⟩
  · rw [hc]
    dsimp only
    split <;> rfl
  · intro v hv hi
    rw [hc] at hv
    have hmem := Caller.mem_ended hv
    rw [hcl] at hmem
    exact Caller.mem_closing hseqs hmem hi
  · intro j hne
    rw [hread, Caller.seq_ended_ne hne, hcl]
    exact Caller.seq_closing_ne hne

/-- What a Cancel amid a move leaves. -/
theorem cancelling_effect (hseqs : mrising s.caller.seqs = true) {b : Bool}
    (hc : t.caller = { (s.caller.cancelling r i).released i s.unplanned with switch := b }) :
    t.seq i = { s.seq i with gen := ((s.seq i).gen + 1) % 65536, cancelled := true } ∧
      (⟨i, true, r, (s.seq i).generated⟩ : SeqWait) ∈ t.caller.waits ∧
      (∀ v ∈ t.caller.ledger, v.index = i → v.hi ≤ s.unplanned ∧ ((s.seq i).dirty = true ∨ v.kv = 0)) ∧
      ∀ j, j ≠ i → t.seq j = s.seq j := by
  have hread : ∀ j, t.seq j = (s.caller.cancelling r i).seq j := by
    intro j
    unfold State.seq
    rw [hc, Caller.released_eq]
    rfl
  refine ⟨(hread i).trans (Caller.seq_cancelling hseqs), ?_, ?_, fun j hne => (hread j).trans (Caller.seq_put_ne hne)⟩
  · rw [hc, Caller.released_eq]
    exact List.mem_append_right _ (List.mem_singleton_self _)
  · intro v hv hi
    rw [hc] at hv
    have hrel := Caller.mem_released hv hi
    rwa [Caller.seq_cancelling hseqs] at hrel

/-- What a Cancel leaves (R200, R202). -/
theorem cancelSeq_effect (hseqs : mrising s.caller.seqs = true) (hj : s.on R.CALLER_JOURNAL_EN = false)
    (hw : s.caller.waits = []) (ho : s.isOpen r = true) (hr : s.ringOpen r.grp.val r.cq.val) :
    let t := (s.cancelSeq r i).standby i
    (t.seq i).gen = ((s.seq i).gen + 1) % 65536 ∧
      (if s.moving i = true then (t.seq i).state = (s.seq i).state ∧ (t.seq i).cancelled = true
        else (t.seq i).state = 7 ∨ (t.seq i).state = 0) ∧
      (if s.moving i = true ∨ s.recordWaits r.handle.toNat = true then t.host.reqs = s.host.reqs ∧
          (⟨i, true, r, (s.seq i).generated⟩ : SeqWait) ∈ t.caller.waits
        else s.completed t r 0) ∧
      (∀ v ∈ t.caller.ledger, v.index = i → v.hi ≤ s.unplanned ∧ ((s.seq i).dirty = true ∨ v.kv = 0)) ∧
      ∀ j, j ≠ i → t.seq j = s.seq j := by
  intro t
  cases hm : s.moving i with
  | true =>
    obtain ⟨b, h⟩ := (cancelSeq_moving hj hw hm (r := r)).standby i
    obtain ⟨hseq, hmem, hledger, hothers⟩ := cancelling_effect hseqs h.caller
    rw [if_pos rfl, if_pos (.inl rfl), hseq]
    exact ⟨rfl, ⟨rfl, rfl⟩, ⟨congrArg Hostif.reqs h.host, hmem⟩, hledger, hothers⟩
  | false =>
    rw [if_neg (by decide)]
    cases hrec : s.recordWaits r.handle.toNat with
    | true =>
      obtain ⟨b, h⟩ := (cancelSeq_waits hj hw hm hrec).standby i
      obtain ⟨hgen, hstate, hwaits, hledger, hothers⟩ := closing_effect (c := s.caller.closing r i s.unplanned) hseqs rfl h.caller
      rw [Caller.closing_waits hw] at hwaits
      rw [if_pos (.inr rfl)]
      exact ⟨hgen, hstate, ⟨congrArg Hostif.reqs h.host, hwaits ▸ List.mem_singleton_self _⟩, hledger, hothers⟩
    | false =>
      obtain ⟨u, q, hdone, h⟩ := cancelSeq_completes hj hw hm hrec ho hr (i := i)
      obtain ⟨b, h⟩ := h.standby i
      obtain ⟨hgen, hstate, -, hledger, hothers⟩ := closing_effect (c := { s.caller.closing r i s.unplanned with waits := [] })
        hseqs rfl h.caller
      rw [if_neg (by simp)]
      exact ⟨hgen, hstate, completed_then hdone h, hledger, hothers⟩

end State
end Sys2Proof.Machine
end

section
set_option Elab.async false

namespace Sys2Proof.Machine
namespace State
variable {s t u : State} {c : Caller} {i j n base status : Nat} {r : Req} {x : ShelfUse}

/-! ### PAUSE (R203, R204) -/

/-- A sequence whose Pause has been taken, with its place on the shelf. -/
def pauseNoted (s : State) (r : Req) (i base n : Nat) : State :=
  let t := (s.releaseBars i).putSeq i { s.seq i with state := 4, ttl := r.f 3 31 0 }
  { t with caller := { t.caller with
    waits := t.caller.waits ++ [⟨i, false, r, 0⟩], shelf := t.caller.shelf ++ [⟨i, base, n⟩] } }

theorem pauseNoted_wrote (hj : s.on R.CALLER_JOURNAL_EN = false) :
    s.Wrote (s.caller.pausing r i s.unplanned base n) (s.pauseNoted r i base n) := by
  have hcut : s.Wrote (s.caller.cut i s.unplanned) (s.releaseBars i) := (Wrote.refl s).others
  have hput := hcut.putSeq hj (i := i) (x := { s.seq i with state := 4, ttl := r.f 3 31 0 })
  unfold pauseNoted
  dsimp only
  rw [hput.caller]
  exact hput.withCaller _

theorem pauseSeq_admits (hst : (s.seq i).state = 2 ∨ (s.seq i).state = 3) (harg : r.f 3 31 0 ≠ 0)
    (hroom : s.shelfRoom (s.seq i).part ((s.kvDesc (s.seq i).part).setLen (s.ptNf (s.seq i).kvRoot)) = some base) :
    s.pauseSeq r i =
      (s.pauseNoted r i base ((s.kvDesc (s.seq i).part).setLen (s.ptNf (s.seq i).kvRoot))).startPauseMove i := by
  unfold pauseSeq
  dsimp only
  rw [if_neg (by omega), if_neg harg, hroom]
  rfl

/-- The move to the warm shelf begins, or does not yet (R204). -/
theorem Wrote.startPauseMove (h : s.Wrote c t) (hj : s.on R.CALLER_JOURNAL_EN = false)
    (hx : c.shelf.find? (fun x => x.index = i) = some x) :
    s.Wrote (if (c.seq i).state = 4 ∧ (c.seq i).lastPlan ≤ c.harvested ∧ t.moving i = false then c.toShelf i x.base else c)
      (t.startPauseMove i) := by
  have hc := h.caller
  subst hc
  unfold State.startPauseMove
  dsimp only
  rw [hx]
  show s.Wrote (if (t.seq i).state = 4 ∧ (t.seq i).lastPlan ≤ t.caller.harvested ∧ t.moving i = false then _ else _)
    (if (t.seq i).state = 4 ∧ (t.seq i).lastPlan ≤ t.caller.harvested ∧ t.moving i = false then _ else _)
  split
  · have hq := (h.putSeq hj (i := i) (x := { t.seq i with shelfRoot := x.base })).queueMove
      (m := jobMove 1 (t.seq i).part true false (.pause i)) (rs := [(x.base, x.len)])
    rw [hq.caller]
    exact hq.withCaller _
  · exact h

/-- What a Pause leaves (R203, R204). -/
theorem pauseSeq_effect (hseqs : mrising s.caller.seqs = true) (hj : s.on R.CALLER_JOURNAL_EN = false)
    (hst : (s.seq i).state = 2 ∨ (s.seq i).state = 3) (harg : r.f 3 31 0 ≠ 0)
    (hroom : s.shelfRoom (s.seq i).part ((s.kvDesc (s.seq i).part).setLen (s.ptNf (s.seq i).kvRoot)) = some base) :
    let t := (s.pauseSeq r i).standby i
    (t.seq i).state = 4 ∧ (t.seq i).ttl = r.f 3 31 0 ∧ t.host.reqs = s.host.reqs ∧
      (⟨i, false, r, 0⟩ : SeqWait) ∈ t.caller.waits ∧ ((s.seq i).lastPlan ≤ s.caller.harvested → t.moving i = true) ∧
      (∀ v ∈ t.caller.ledger, v.index = i → v.hi ≤ s.unplanned) ∧ ∀ j, j ≠ i → t.seq j = s.seq j := by
  obtain ⟨n, hn⟩ : ∃ n, n = (s.kvDesc (s.seq i).part).setLen (s.ptNf (s.seq i).kvRoot) := ⟨_, rfl⟩
  obtain ⟨c, hc⟩ : ∃ c, c = s.caller.pausing r i s.unplanned base n := ⟨_, rfl⟩
  have hseq : c.seq i = { s.seq i with state := 4, ttl := r.f 3 31 0 } := by
    rw [hc]
    exact Caller.seq_pausing hseqs
  have hrise : mrising c.seqs = true := by
    rw [hc]
    exact Caller.rising_pausing hseqs
  have hothers : ∀ j, j ≠ i → c.seq j = s.seq j := by
    rw [hc]
    exact fun j hne => Caller.seq_pausing_ne hne
  obtain ⟨x, hx⟩ : ∃ x, c.shelf.find? (fun x => x.index = i) = some x := by
    refine Option.isSome_iff_exists.1 (List.find?_isSome.2 ⟨⟨i, base, n⟩, ?_, decide_eq_true rfl⟩)
    rw [hc]
    exact List.mem_append_right _ (List.mem_singleton_self _)
  have hnoted := pauseNoted_wrote hj (r := r) (i := i) (base := base) (n := n)
  rw [← hc] at hnoted
  obtain ⟨b, h⟩ := (hnoted.startPauseMove hj hx).standby i
  rw [pauseSeq_admits hst harg hroom, ← hn]
  intro t
  have hread : ∀ j, j ≠ i → t.seq j = s.seq j := by
    intro j hne
    rw [← hothers j hne]
    unfold State.seq
    rw [h.caller]
    dsimp only
    split
    · exact Caller.seq_put_ne hne
    · rfl
  have hown : (t.seq i).state = (c.seq i).state ∧ (t.seq i).ttl = (c.seq i).ttl := by
    unfold State.seq
    rw [h.caller]
    dsimp only
    split
    · rw [Caller.toShelf, Caller.put, mget_mset_self _ _ _ hrise]
      exact ⟨rfl, rfl⟩
    · exact ⟨rfl, rfl⟩
  rw [hseq] at hown
  have hkept : t.caller.waits = c.waits ∧ t.caller.ledger = c.ledger := by
    rw [h.caller]
    dsimp only
    split <;> exact ⟨rfl, rfl⟩
  refine ⟨hown.1, hown.2, congrArg Hostif.reqs h.host, ?_, ?_, ?_, hread⟩
  · rw [hkept.1, hc]
    exact List.mem_append_right _ (List.mem_singleton_self _)
  · intro hlast
    unfold State.moving
    rw [h.caller, hseq]
    dsimp only
    cases hmov : (s.pauseNoted r i base n).moving i with
    | true =>
      rw [if_neg (by simp)]
      unfold State.moving at hmov
      rwa [hnoted.caller] at hmov
    | false =>
      rw [if_pos ⟨rfl, by rw [hc]; exact hlast, rfl⟩]
      exact List.any_eq_true.2 ⟨_, List.mem_append_right _ (List.mem_singleton_self _), decide_eq_true rfl⟩
  · intro v hv hi
    rw [hkept.2, hc] at hv
    exact Caller.mem_cut hv hi

/-! ### EXTEND (R200) -/

/-- The KV positions that a sequence extended by `n` tokens needs (R197). -/
def extendKv (s : State) (i n : Nat) : Nat := s.kvFor (s.seq i).part ((s.seq i).promptLen + (s.seq i).maxNew + n)

/-- An Extend's KV positions reserved. -/
def extendHeld (s : State) (i n : Nat) : State :=
  s.wr R.CALLER_PART_KVUSE_KV_USED (s.kvUsed (s.seq i).part + (s.extendKv i n - (s.seq i).kvRes)) 0 (s.seq i).part

/-- Frames added for them to the page table. -/
def extendGrown (s : State) (i n : Nat) : State :=
  if (s.seq i).kvRes < s.extendKv i n then
    (s.extendHeld i n).growTable (s.seq i).part (s.seq i).kvRoot ((s.extendKv i n - (s.seq i).kvRes) / 64)
  else s.extendHeld i n

theorem extendGrown_wrote (s : State) (i n : Nat) : s.Wrote s.caller (s.extendGrown i n) :=
  have hheld : s.Wrote s.caller (s.extendHeld i n) := (Wrote.refl s).wr
  .ite hheld.growTable hheld

/-- An Extend that fits is granted: bars and KV are reserved, frames are added, and the request completes. -/
theorem extendSeq_grants (hj : s.on R.CALLER_JOURNAL_EN = false)
    (hst : (s.seq i).state = 1 ∨ (s.seq i).state = 2 ∨ (s.seq i).state = 3) (hn : r.f 3 13 0 ≠ 0) (hmax : r.f 3 13 0 ≤ 8191)
    (hgen : (s.seq i).maxNew + r.f 3 13 0 ≤ 8192) (hhor : (s.seq i).endBar + r.f 3 13 0 ≤ s.bar + 16384)
    (hfits : s.extendFits (s.seq i) (r.f 3 13 0) = true)
    (hkv : s.kvUsed (s.seq i).part + (s.extendKv i (r.f 3 13 0) - (s.seq i).kvRes) ≤
      s.rd R.CALLER_PART_KV_KV_CAP 0 (s.seq i).part) :
    ∃ t rest, s.Wrote (s.caller.extended i (r.f 3 13 0) (s.extendKv i (r.f 3 13 0))) t ∧
      s.extendSeq r i = t.complete r 0 r.handle.toNat rest := by
  obtain ⟨u, hu⟩ : ∃ u, u = s.extendGrown i (r.f 3 13 0) := ⟨_, rfl⟩
  have hgrown : s.Wrote s.caller u := hu ▸ s.extendGrown_wrote i (r.f 3 13 0)
  have hext : s.extendSeq r i = State.complete (State.putSeq
      { u with caller := u.caller.stretched i (r.f 3 13 0) (s.extendKv i (r.f 3 13 0) - (s.seq i).kvRes) } i
      (Caller.longer (s.seq i) (r.f 3 13 0) (s.extendKv i (r.f 3 13 0)))) r 0 r.handle.toNat
      [(s.seq i).endBar + r.f 3 13 0, (s.seq i).maxNew + r.f 3 13 0] := by
    rw [hu]
    unfold extendSeq
    dsimp only
    rw [if_neg (by omega), if_neg (by omega), if_neg (by simp [hfits]; omega), if_neg (by unfold extendKv at hkv; omega)]
    rfl
  rw [hgrown.caller] at hext
  exact ⟨_, _, (hgrown.withCaller _).putSeq hj, hext⟩

/-- What an Extend that is granted leaves (R200). -/
theorem extendSeq_effect (hseqs : mrising s.caller.seqs = true)
    (ho : s.isOpen r = true) (hr : s.ringOpen r.grp.val r.cq.val) {kv : Nat}
    (hg : ∃ t rest, s.Wrote (s.caller.extended i n kv) t ∧ s.extendSeq r i = t.complete r 0 r.handle.toNat rest) :
    let t := (s.extendSeq r i).standby i
    s.completed t r 0 ∧ (t.seq i).endBar = (s.seq i).endBar + n ∧ (t.seq i).maxNew = (s.seq i).maxNew + n ∧
      (t.seq i).state = (s.seq i).state ∧ ∀ j, j ≠ i → t.seq j = s.seq j := by
  obtain ⟨u, rest, hu, heq⟩ := hg
  have ho' := hu.isOpen.trans ho
  have hr' := hu.ringOpen hr
  obtain ⟨b, h⟩ := (Wrote.refl (u.complete r 0 r.handle.toNat rest)).standby i
  rw [heq]
  intro t
  have hread : ∀ j, t.seq j = (s.caller.extended i n kv).seq j := by
    intro j
    unfold State.seq
    rw [h.caller, complete_caller ho' hr', hu.caller]
    rfl
  have hown := (hread i).trans (Caller.seq_extended hseqs)
  refine ⟨completed_then (hu.completed (complete_completed ho' hr' (by decide))) h, ?_, ?_, ?_, ?_⟩
  · rw [hown]
    rfl
  · rw [hown]
    rfl
  · rw [hown]
    rfl
  · exact fun j hne => (hread j).trans (Caller.seq_extended_ne hne)

end State
end Sys2Proof.Machine
end

section
set_option Elab.async false

namespace Sys2Proof.Machine

/-! ### RESUME back into the plan (R198, R204) -/

/-- A reservation of an entry in place of what it had. -/
def Caller.reserving (c : Caller) (i : Nat) (v : Resv) : Caller := { c with ledger := c.ledger.filter (fun x => x.index ≠ i) ++ [v] }

/-- An entry re-admitted, with its move back under way. -/
def Caller.backing (c : Caller) (i : Nat) (v : Resv) (x : Entry) (m : SeqMove) : Caller :=
  { (c.reserving i v).put i x with moves := c.moves ++ [m] }

namespace Caller
variable {c : Caller} {i j : Nat} {v : Resv} {x : Entry} {m : SeqMove}

theorem seqs_backing : (c.backing i v x m).seqs = mset Entry.init i x c.seqs := rfl

theorem seq_backing (h : mrising c.seqs = true) : (c.backing i v x m).seq i = x := by
  rw [seq, seqs_backing, mget_mset_self _ _ _ h]

theorem seq_backing_ne (h : j ≠ i) : (c.backing i v x m).seq j = c.seq j := by
  rw [seq, seqs_backing, mget_mset_ne _ _ h.symm]
  rfl

end Caller

namespace State
variable {s t u : State} {c : Caller} {i j n f l : Nat} {r : Req} {a : Ask} {d : Deal} {x : ShelfUse}

/-- The search of the ledger does not look at the cache. -/
theorem findStart_cached {ca : List Nat} :
    State.findStart { s with caller := { s.caller with cached := ca } } a l f n = s.findStart a l f n := by
  funext k
  induction n generalizing k with
  | zero => rfl
  | succ n ih =>
    unfold findStart
    simp only [ih]
    rfl

theorem decideAsk_cached {ca : List Nat} : State.decideAsk { s with caller := { s.caller with cached := ca } } a = s.decideAsk a := by
  unfold decideAsk
  simp only [findStart_cached]
  rfl

/-- What a reservation is, whatever of the Caller's work lies between. -/
theorem Wrote.resvAt (h : s.Wrote c t) {lo hi kv : Nat} : t.resvAt a i lo hi kv = s.resvAt a i lo hi kv := by
  unfold State.resvAt State.chunkOf State.dresOf
  rw [h.rd (by decide), h.rd (by decide)]

theorem Wrote.reserve (h : s.Wrote c t) : s.Wrote (c.reserving i (s.resvAt a i d.lo d.hi d.kv)) (t.reserve a i d) := by
  have hc := h.caller
  subst hc
  have hused : s.Wrote t.caller (t.wr R.CALLER_PART_KVUSE_KV_USED (t.kvUsed a.part + d.kv) 0 a.part) := h.wr
  have heq : (t.caller.reserving i (s.resvAt a i d.lo d.hi d.kv)) = (t.reserve a i d).caller := by
    rw [← hused.resvAt]
    rfl
  rw [heq]
  exact hused.others

/-- What a Resume asks for (R204). -/
def resumeAsk (s : State) (r : Req) (i : Nat) (x : ShelfUse) : Ask :=
  ⟨(s.seq i).part, (s.seq i).cls, (s.seq i).promptLen - (s.seq i).pfDone, (s.seq i).maxNew - (s.seq i).generated, r.f 3 31 0,
    s.takenAt r, s.barAfter (s.takenAt r + s.moveTicks x.len), some (s.seq i).kvRes, false⟩

theorem barAfter_congr (hfloor : t.floorBar = s.floorBar) (hbar : t.bar = s.bar) (hplan : t.planTick = s.planTick) :
    t.barAfter n = s.barAfter n := by
  unfold barAfter
  rw [hfloor, hbar, hplan]

theorem resumeAsk_cached {ca : List Nat} :
    State.resumeAsk { s with caller := { s.caller with cached := ca } } r i x = s.resumeAsk r i x := by
  have hbar : ∀ n, State.barAfter { s with caller := { s.caller with cached := ca } } n = s.barAfter n :=
    fun _ => barAfter_congr rfl rfl rfl
  have hmove : State.moveTicks { s with caller := { s.caller with cached := ca } } x.len = s.moveTicks x.len := rfl
  have htaken : State.takenAt { s with caller := { s.caller with cached := ca } } r = s.takenAt r := rfl
  unfold resumeAsk
  rw [hbar, hmove, htaken]
  rfl

/-- The entry of a sequence that is re-admitted. -/
def resumeEntry (s : State) (r : Req) (i : Nat) (d : Deal) : Entry :=
  Entry.promise { s.seq i with
    state := 6, dres := s.dresOf (s.seq i).part (s.seq i).cls, cq := r.cq.val, framed := true } d
    (s.rd R.TEMPO_BAR_CFG_BAR_LEN) (s.asStamp (s.takenAt r))

/-- Its reservation in the ledger, and the frames it takes. -/
def resumeFrames (s : State) (r : Req) (i : Nat) (x : ShelfUse) (d : Deal) : State × List Nat :=
  (s.reserve (s.resumeAsk r i x) i d).popFrames (s.seq i).part ((s.seq i).kvRes / 64)

/-- It is RESUMING, with cleared frames in its page table. -/
def resumeSeated (s : State) (r : Req) (i : Nat) (x : ShelfUse) (d : Deal) : State :=
  let (t, fs) := s.resumeFrames r i x d
  let t := fs.foldl (fun t f => t.clearTags (s.seq i).part f) t
  (t.devSet ((s.seq i).kvRoot + 0x40) (fs.flatMap (toLE 4))).putSeq i (s.resumeEntry r i d)

/-- Its move back begins. -/
def resumeQueued (s : State) (r : Req) (i : Nat) (x : ShelfUse) (d : Deal) : State :=
  (s.resumeSeated r i x d).queueMove (jobMove 1 (s.seq i).part false true (.resume i))
    (((s.seq i).kvRoot, up64 (s.kvDesc (s.seq i).part).tableLen) ::
      (s.resumeFrames r i x d).2.flatMap ((s.resumeSeated r i x d).frameParts (s.seq i).part))

/-- The move back of a sequence that is re-admitted. -/
def resumeMove (s : State) (r : Req) (i : Nat) (x : ShelfUse) (d : Deal) : SeqMove :=
  ⟨i, false, x.base, (s.resumeFrames r i x d).2⟩

/-- The Caller holds it among its moves. -/
def resumeMoving (s : State) (r : Req) (i : Nat) (x : ShelfUse) (d : Deal) : State :=
  let t := s.resumeQueued r i x d
  { t with caller := { t.caller with moves := t.caller.moves ++ [s.resumeMove r i x d] } }

/-- A Resume that fits re-admits the sequence, begins its move back, and completes. -/
theorem resumeSeq_readmits (hst : (s.seq i).state = 5) (hpre : s.preempted (s.seq i).part = false)
    (hexp : s.expiredBy i (s.takenAt r) = false) (hx : s.caller.shelf.find? (fun u => u.index = i) = some x)
    (hd : s.decideAsk (s.resumeAsk r i x) = .ok d) :
    s.resumeSeq r i =
      (s.resumeMoving r i x d).complete r 0 ((s.resumeMoving r i x d).handle i) (s.resumeEntry r i d).dealWords := by
  unfold resumeSeq
  dsimp only
  rw [if_neg (by simp [hexp]), if_neg (by simp [hst, hpre]), hx]
  unfold resumeAsk at hd
  dsimp only
  rw [hd]
  rfl

theorem resumeMoving_wrote (hj : s.on R.CALLER_JOURNAL_EN = false) :
    s.Wrote (s.caller.backing i (s.resvAt (s.resumeAsk r i x) i d.lo d.hi d.kv) (s.resumeEntry r i d) (s.resumeMove r i x d))
      (s.resumeMoving r i x d) := by
  have hframes : s.Wrote (s.caller.reserving i (s.resvAt (s.resumeAsk r i x) i d.lo d.hi d.kv)) (s.resumeFrames r i x d).1 :=
    (Wrote.refl s).reserve.popFrames
  have hseated : s.Wrote ((s.caller.reserving i (s.resvAt (s.resumeAsk r i x) i d.lo d.hi d.kv)).put i (s.resumeEntry r i d))
      (s.resumeSeated r i x d) := ((hframes.foldl fun h => h.clearTags).devSet).putSeq hj
  have hqueued : s.Wrote _ (s.resumeQueued r i x d) := hseated.queueMove
  unfold resumeMoving
  dsimp only
  rw [hqueued.caller]
  exact hqueued.withCaller _

/-- What a Resume that fits leaves (R204). -/
theorem resumeSeq_effect (hseqs : mrising s.caller.seqs = true) (hj : s.on R.CALLER_JOURNAL_EN = false)
    (ho : s.isOpen r = true) (hr : s.ringOpen r.grp.val r.cq.val) (hst : (s.seq i).state = 5)
    (hpre : s.preempted (s.seq i).part = false) (hexp : s.expiredBy i (s.takenAt r) = false)
    (hx : s.caller.shelf.find? (fun u => u.index = i) = some x) (hd : s.decideAsk (s.resumeAsk r i x) = .ok d) :
    let t := (s.resumeSeq r i).standby i
    s.completed t r 0 ∧ (t.seq i).state = 6 ∧ (t.seq i).startBar = d.lo ∧ (t.seq i).endBar = d.hi ∧ t.moving i = true ∧
      ∀ j, j ≠ i → t.seq j = s.seq j := by
  obtain ⟨u, hu⟩ : ∃ u, u = s.resumeMoving r i x d := ⟨_, rfl⟩
  obtain ⟨c, hc⟩ : ∃ c, c = s.caller.backing i (s.resvAt (s.resumeAsk r i x) i d.lo d.hi d.kv) (s.resumeEntry r i d)
    (s.resumeMove r i x d) := ⟨_, rfl⟩
  have heq := resumeSeq_readmits hst hpre hexp hx hd
  have hmoving := resumeMoving_wrote hj (r := r) (i := i) (x := x) (d := d)
  rw [← hu, ← hc] at hmoving
  rw [← hu] at heq
  have ho' := hmoving.isOpen.trans ho
  have hr' := hmoving.ringOpen hr
  obtain ⟨b, h⟩ := (Wrote.refl (u.complete r 0 (u.handle i) (s.resumeEntry r i d).dealWords)).standby i
  rw [complete_caller ho' hr', hmoving.caller] at h
  rw [heq]
  intro t
  have hread : ∀ j, t.seq j = c.seq j := by
    intro j
    unfold State.seq
    rw [h.caller]
    rfl
  have hown : t.seq i = s.resumeEntry r i d := by
    rw [hread, hc]
    exact Caller.seq_backing hseqs
  refine ⟨completed_then (hmoving.completed (complete_completed ho' hr' (by decide))) h, ?_, ?_, ?_, ?_, ?_⟩
  · rw [hown]
    rfl
  · rw [hown]
    rfl
  · rw [hown]
    rfl
  · unfold State.moving
    rw [h.caller, hc]
    exact List.any_eq_true.2 ⟨s.resumeMove r i x d, List.mem_append_right _ (List.mem_singleton_self _), decide_eq_true rfl⟩
  · intro j hne
    rw [hread, hc]
    exact Caller.seq_backing_ne hne

end State
end Sys2Proof.Machine
end

section
set_option Elab.async false

namespace Sys2Proof.Machine
namespace State
variable {s t u : State} {c : Caller} {i g k status handle : Nat} {r : Req} {w rest : List Nat}

/-! ### Requests that stay open -/

theorem toBacklog_reqs : (s.toBacklog g k w).host.reqs = s.host.reqs := by
  unfold toBacklog
  dsimp only
  rw [(Wrote.refl (s.setCq ..)).devSet.host]
  rfl

theorem PostsOnly.caller (h : s.PostsOnly t) : t.caller = s.caller := (congrArg State.caller h :)

theorem cqDefer_reqs : (s.cqDefer g k w).host.reqs = s.host.reqs := by
  unfold cqDefer
  dsimp only
  split
  · rw [raise_only]
    exact toBacklog_reqs
  · split
    · rfl
    · unfold cqDrop
      rw [raise_only]
      rfl

theorem cqPost_reqs : (s.cqPost g k w).host.reqs = s.host.reqs := by
  unfold cqPost
  dsimp only
  split
  · unfold cqDrop
    rw [raise_only]
    rfl
  · split
    · exact cqDefer_reqs
    · exact cqWrite_reqs ..

/-- A request that completes is no longer open (R367). -/
theorem complete_reqs (ho : s.isOpen r = true) : (s.complete r status handle rest).host.reqs = s.host.reqs.eraseP (fun o => o.req = r) := by
  unfold complete
  rw [if_pos ho]
  exact cqPost_reqs

/-! ### RESUME of a sequence that has expired (R203, R204) -/

/-- What the end of a paused sequence writes beside its flag. -/
def expiryFields : List Fld := postFields ++ [R.CALLER_HARVEST_BAR_BAR, R.PCIE_GRP_SQ_CFG_OPEN]

/-- A flag raised stays raised through the Caller's work. -/
theorem raised_wrote {e : EvFlag} {n m : Nat} (hr : s.raised t e n m) (h : t.Wrote c u)
    (hf : callerFields.all (·.clear e.flag) = true := by decide) (hc : callerFields.all (·.clear e.cnt) = true := by decide) :
    s.raised u e n m := by
  obtain ⟨hon, hcnt, x, hx, hwhat⟩ := hr
  exact ⟨(h.on hf).trans hon, (h.rd hc).trans hcnt, x, (h.log.drop _).subset hx, hwhat⟩

theorem Reports.post (h : s.Reports expiryFields t) : s.Reports expiryFields (t.cqPost g k w) :=
  h.trans (((Reports.refl t).cqPost).mono (by decide))

theorem Reports.completes (h : s.Reports expiryFields t) : s.Reports expiryFields (t.complete r status handle rest) :=
  .ite (h.others.wr.post) h

/-- Between two states entries were posted and HARVEST_BAR was written: the Caller's record is `c`, and the requests stay. -/
structure Posted (s : State) (c : Caller) (t : State) : Prop where
  reports : s.Reports expiryFields t
  caller : t.caller = c
  reqs : t.host.reqs = s.host.reqs

theorem Posted.post (h : s.Posted c t) : s.Posted c (t.cqPost g k w) :=
  ⟨h.reports.post, (PostsOnly.caller (PostsOnly.refl t).cqPost).trans h.caller, cqPost_reqs.trans h.reqs⟩

theorem Posted.wr (h : s.Posted c t) {f : Fld} {v i k j : Nat} (hf : f ∈ expiryFields := by decide) : s.Posted c (t.wr f v i k j) :=
  ⟨h.reports.wr hf, h.caller, h.reqs⟩

/-- With no request waiting, the entries that go out leave only the waiting ones behind. -/
theorem flushWaiting_posted (hw : s.caller.waits = []) : ∃ l, s.Posted { s.caller with waiting := l } s.flushWaiting := by
  obtain ⟨l, hl⟩ : ∃ l, l = s.caller.waiting.drop (s.caller.waiting.takeWhile (fun w => w.deps = [])).length := ⟨_, rfl⟩
  obtain ⟨t, ht⟩ : ∃ t, t = (s.caller.waiting.takeWhile (fun w => w.deps = [])).foldl
      (fun (t : State) (w : Waiting) => t.cqPost w.grp w.cq w.words)
      { s with caller := { s.caller with waiting := l } } := ⟨_, rfl⟩
  have hstart : s.Posted { s.caller with waiting := l } { s with caller := { s.caller with waiting := l } } :=
    ⟨(Reports.refl s).others, rfl, rfl⟩
  have hposts : s.Posted { s.caller with waiting := l } t := by
    rw [ht]
    exact foldl_keeps (P := s.Posted _) (fun _ _ h => h.post) _ _ hstart
  obtain ⟨u, hu⟩ : ∃ u, u = if l.isEmpty ∧ 0 < t.caller.harvested then
      t.wr R.CALLER_HARVEST_BAR_BAR (t.caller.harvested - 1) else t := ⟨_, rfl⟩
  have hbar : s.Posted { s.caller with waiting := l } u := by
    rw [hu]
    split
    · exact hposts.wr
    · exact hposts
  have hflush : s.flushWaiting = u.settleCancels := by
    rw [hu, ht, hl]
    rfl
  rw [hflush, settleCancels_nil (by rw [hbar.caller]; exact hw)]
  exact ⟨l, hbar⟩

/-- The event of a sequence that expires, with no request waiting. -/
theorem expire_event (hw : s.caller.waits = []) : ∃ t l, s.expire i = t.freeSeq i ∧
    (s.callerRaise E.CALLER_EXPIRED [i]).Posted { s.caller with waiting := l } t := by
  obtain ⟨u, hu⟩ : ∃ u, u = s.callerRaise E.CALLER_EXPIRED [i] := ⟨_, rfl⟩
  have hc : u.caller = s.caller := by
    rw [hu, callerRaise, raise_only]
  obtain ⟨v, hv⟩ : ∃ v, v = u.queueEntry i (u.seq i).part (u.seq i).cq
    (entryWords 3 stExpired 0 false (u.seq i).tag (s.handle i) []) := ⟨_, rfl⟩
  have hvc : v.caller = { s.caller with waiting := v.caller.waiting } := by
    rw [hv, ← hc]
    rfl
  obtain ⟨l, hflush⟩ := flushWaiting_posted (s := v) (by rw [hvc]; exact hw)
  have hqueued : u.Reports expiryFields v := by
    rw [hv]
    exact (Reports.refl u).others
  have hreqs : v.host.reqs = u.host.reqs := by
    rw [hv]
    rfl
  refine ⟨v.flushWaiting, l, ?_, ?_, ?_, hflush.reqs.trans (by rw [hreqs, hu])⟩
  · rw [hv, hu]
    rfl
  · rw [← hu]
    exact hqueued.trans hflush.reports
  · rw [hflush.caller, hvc]

/-- A Resume taken from the EXPIRY beat on finds the sequence expired (R203). -/
theorem resumeSeq_expired (hseqs : mrising s.caller.seqs = true) (hregs : mrising s.regs = true)
    (hj : s.on R.CALLER_JOURNAL_EN = false) (hw : s.caller.waits = []) (ho : s.isOpen r = true)
    (hst : (s.seq i).state = 5) (hexp : s.expiredBy i (s.takenAt r) = true) :
    let t := (s.resumeSeq r i).standby i
    t.host.reqs = s.host.reqs.eraseP (fun o => o.req = r) ∧ (t.seq i).state = 0 ∧
      s.raised t E.CALLER_EXPIRED s.callerInst ∧ ∀ j, j ≠ i → t.seq j = s.seq j := by
  obtain ⟨t, l, hexpire, hposted⟩ := s.expire_event (i := i) hw
  have hraised : s.raised (s.callerRaise E.CALLER_EXPIRED [i]) E.CALLER_EXPIRED s.callerInst := raised_raise hregs (by decide)
  have hraise := (Reports.refl s).raise (fs := E.CALLER_EXPIRED.fields) (e := E.CALLER_EXPIRED) (i := s.callerInst) (w := [i]) (k := 0)
    (fun _ h => h)
  have htj : t.on R.CALLER_JOURNAL_EN = false := by
    rw [State.on, hposted.reports.rd (by decide), callerRaise, hraise.rd (by decide)]
    exact hj
  have hfree := (Wrote.refl t).freeSeq htj (i := i)
  rw [hposted.caller] at hfree
  have hreqs : (t.freeSeq i).host.reqs = s.host.reqs := by
    rw [hfree.host, hposted.reqs, callerRaise, raise_only]
  have hopen : (t.freeSeq i).isOpen r = true := by
    unfold State.isOpen
    rw [hreqs]
    exact ho
  obtain ⟨u, hu⟩ : ∃ u, u = (t.freeSeq i).finish r stNotFound := ⟨_, rfl⟩
  have hfreed : s.raised (t.freeSeq i) E.CALLER_EXPIRED s.callerInst := raised_wrote (raisedBy_then hraised hposted.reports) hfree
  have hfinished : s.raised u E.CALLER_EXPIRED s.callerInst := by
    rw [hu]
    exact raisedBy_then hfreed (Reports.refl _).completes
  have huc : u.caller = Caller.free { s.caller with waiting := l } i := by
    rw [hu, PostsOnly.caller (PostsOnly.refl (t.freeSeq i)).finish, hfree.caller]
  have hureqs : u.host.reqs = s.host.reqs.eraseP (fun o => o.req = r) := by
    rw [hu, finish, complete_reqs hopen, hreqs]
  obtain ⟨b, h⟩ := (Wrote.refl u).standby i
  rw [huc] at h
  have heq : s.resumeSeq r i = u := by
    unfold resumeSeq
    dsimp only
    rw [if_pos ⟨hst, hexp⟩, hexpire, hu]
  rw [heq]
  intro w
  have hread : ∀ j, w.seq j = Caller.seq (Caller.free { s.caller with waiting := l } i) j := by
    intro j
    unfold State.seq
    rw [h.caller]
    rfl
  refine ⟨by rw [h.host, hureqs], ?_, raised_wrote hfinished h, ?_⟩
  · rw [hread]
    exact congrArg Entry.state (Caller.seq_free hseqs)
  · intro j hne
    rw [hread, Caller.seq_free_ne hne]
    rfl

end State

open State

/-- Settles O26, request by request: what each leaves of the Caller's record. -/
theorem sequenceRequests : Obligations.SequenceRequests := by
  unfold Obligations.SequenceRequests
  intro r s hwf hc hj hr
  refine fun i hl hin hw => ⟨fun ht => ?_, fun base ht hst harg hroom => ?_, fun u d ht hst hpre hexp hx hd => ?_,
    fun ht hst hexp _ => ?_, fun ht hst hn hmax hgen hhor hfits hkv => ?_⟩
  · obtain ⟨l, heq⟩ := onSeq_live (f := fun s i => s.cancelSeq r i) ht hc hl hin
    exact ⟨_, congrArg Host.Outcome.next heq, cancelSeq_effect (s := { s with caller := { s.caller with cached := l } })
      (rising_seqs hwf) hj hw (isOpen_of_seqTurn ht) hr⟩
  · obtain ⟨l, heq⟩ := onSeq_live (f := fun s i => s.pauseSeq r i) ht hc hl hin
    exact ⟨_, congrArg Host.Outcome.next heq, pauseSeq_effect (s := { s with caller := { s.caller with cached := l } })
      (rising_seqs hwf) hj hst harg hroom⟩
  · obtain ⟨l, heq⟩ := onSeq_live (f := fun s i => s.resumeSeq r i) ht hc hl hin
    have hdeal : s.decideAsk (s.resumeAsk r i u) = .ok d := hd
    exact ⟨_, congrArg Host.Outcome.next heq, resumeSeq_effect (s := { s with caller := { s.caller with cached := l } })
      (rising_seqs hwf) hj (isOpen_of_seqTurn ht) hr hst hpre hexp hx (by rw [resumeAsk_cached, decideAsk_cached]; exact hdeal)⟩
  · obtain ⟨l, heq⟩ := onSeq_live (f := fun s i => s.resumeSeq r i) ht hc hl hin
    exact ⟨_, congrArg Host.Outcome.next heq, resumeSeq_expired (s := { s with caller := { s.caller with cached := l } })
      (rising_seqs hwf) (rising_regs hwf) hj hw (isOpen_of_seqTurn ht) hst hexp⟩
  · obtain ⟨l, heq⟩ := onSeq_live (f := fun s i => s.extendSeq r i) ht hc hl hin
    exact ⟨_, congrArg Host.Outcome.next heq, extendSeq_effect (s := { s with caller := { s.caller with cached := l } })
      (rising_seqs hwf) (isOpen_of_seqTurn ht) hr (extendSeq_grants hj hst hn hmax hgen hhor hfits hkv)⟩

end Sys2Proof.Machine
end

section
set_option Elab.async false

namespace Sys2Proof.Machine

/-! ### Writes to device memory, side by side -/

/-- A field of the checksum block that stands before the object windows (R182). -/
def Fld.beforeWindows (f : Fld) : Bool :=
  decide (f.off < 0x100) && decide (f.s1 = 0) && decide (f.s2 = 0) && decide (f.lo < 64)

/-- The fields of the object windows (R182). -/
def windowFields : List Fld := [R.CHECK_WIN_BASE_EN, R.CHECK_WIN_BASE_BASE, R.CHECK_WIN_SLOT_SLOT, R.CHECK_WIN_LIMIT_LIMIT]

/-- What a committed write may write of the registers. -/
def committedFields : List Fld :=
  [R.CHECK_CREATE_CNT_CREATES, R.CHECK_UPDATE_CNT_UPDATES] ++ E.CHECK_HDR_PARTIAL.fields ++ E.CHECK_GEN_FAULT.fields

theorem fkey_ne_of_window {f g : Fld} (hf : f ∈ committedFields) (hg : g ∈ windowFields) {i k j w : Nat} (hw : w < 16) :
    fkey f i k j ≠ fkey g 0 w 0 := by
  have hbefore : f.beforeWindows = true := by
    revert f
    decide
  simp only [Fld.beforeWindows, Bool.and_eq_true, decide_eq_true_eq] at hbefore
  obtain ⟨⟨⟨hoff, hs1⟩, hs2⟩, hlo⟩ := hbefore
  have hplace : 0x100 ≤ g.off ∧ g.off < 0x120 ∧ g.s1 = 32 ∧ g.s2 = 0 ∧ g.lo < 64 := by
    revert g
    decide
  obtain ⟨hge, hlt, hgs1, hgs2, hglo⟩ := hplace
  unfold fkey
  rw [hs1, hs2, hgs1, hgs2]
  omega

namespace State
variable {s t u v s' t' : State} {f : Fld} {e : EvFlag} {x a n o p root c q m i k j : Nat} {d : List MarkByte}

/-- Two states with the same object windows and the same KV descriptors. -/
structure SameMaps (s t : State) : Prop where
  windows : ∀ f ∈ windowFields, ∀ k < 16, t.rd f 0 k = s.rd f 0 k
  desc : ∀ p, t.rd R.PART_KVDESC_BASE p = s.rd R.PART_KVDESC_BASE p

theorem SameMaps.refl (s : State) : s.SameMaps s := ⟨fun _ _ _ _ => rfl, fun _ => rfl⟩

theorem SameMaps.trans (h : s.SameMaps t) (g : t.SameMaps u) : s.SameMaps u :=
  ⟨fun f hf k hk => (g.windows f hf k hk).trans (h.windows f hf k hk), fun p => (g.desc p).trans (h.desc p)⟩

theorem SameMaps.symm (h : s.SameMaps t) : t.SameMaps s :=
  ⟨fun f hf k hk => (h.windows f hf k hk).symm, fun p => (h.desc p).symm⟩

theorem SameMaps.others (h : s.SameMaps t) (hr : u.regs = t.regs := by rfl) : s.SameMaps u :=
  h.trans ⟨fun _ _ _ _ => rd_eq_of_regs hr _ _ _ _, fun _ => rd_eq_of_regs hr _ _ _ _⟩

theorem SameMaps.ite {b : Prop} {_ : Decidable b} (ht : s.SameMaps t) (hu : s.SameMaps u) : s.SameMaps (if b then t else u) := by
  split <;> assumption

theorem SameMaps.wr (h : s.SameMaps t) (hf : f ∈ committedFields := by decide) : s.SameMaps (t.wr f x i k j) := by
  have hclass : committedFields.all (·.apart R.PART_KVDESC_BASE) = true := by decide
  exact h.trans ⟨fun g hg w hw => rd_wr_ne _ _ _ (fkey_ne_of_window hf hg hw),
    fun p => rd_wr_ne _ _ _ (Fld.fkey_ne (List.all_eq_true.1 hclass f hf))⟩

theorem SameMaps.bump (h : s.SameMaps t) (hf : f ∈ committedFields := by decide) : s.SameMaps (t.bump f x i k j) := h.wr hf

theorem SameMaps.logAs (h : s.SameMaps t) {unit : Nat} {w : LogWhat} {args : List Nat} : s.SameMaps (t.logAs unit w args) := h.others

theorem SameMaps.markRange (h : s.SameMaps t) : s.SameMaps (t.markRange a n) := h.others

theorem SameMaps.raise (h : s.SameMaps t) {args : List Nat} (he : e.fields ⊆ committedFields := by decide) :
    s.SameMaps (t.raise e i args k) := by
  have hcount : s.SameMaps ((t.wr e.flag 1 i k).bump e.cnt 1 i k) :=
    (h.wr (he (by simp [EvFlag.fields]))).bump (he (by simp [EvFlag.fields]))
  unfold State.raise State.raiseAs
  dsimp only
  refine .logAs ?_
  split
  case h_1 f hf => exact hcount.wr (he (by simp [EvFlag.fields, hf]))
  case h_2 => exact hcount

theorem SameMaps.crcUpdate (h : s.SameMaps t) : s.SameMaps (State.crcUpdate v t o a n) :=
  have hpart := SameMaps.ite h.raise.markRange h
  .ite h.others.bump (.ite hpart.others.bump hpart)

theorem SameMaps.generatorCheck (h : s.SameMaps t) : s.SameMaps (t.generatorCheck i o) := .ite h.raise.markRange h

theorem SameMaps.devWrite (h : s.SameMaps t) : s.SameMaps (t.devWrite a d) :=
  foldl_keeps (P := s.SameMaps) (fun _ _ h => h.crcUpdate.generatorCheck) _ _ h.others

/-! ### One memory -/

theorem devBytes_of_mem (h : t.mem = s.mem) : t.devBytes a n = s.devBytes a n := by
  unfold State.devBytes
  rw [h]

theorem devNat_of_mem (h : t.mem = s.mem) : t.devNat a n = s.devNat a n := by
  unfold State.devNat
  rw [devBytes_of_mem h]

theorem markRange_mem (t : State) (a n : Nat) : (t.markRange a n).mem = t.mem := rfl

theorem generatorCheck_mem : (t.generatorCheck i o).mem = t.mem := by
  unfold State.generatorCheck
  split
  · exact (markRange_mem ..).trans (raise_mem ..)
  · rfl

/-- What a committed write leaves of an object's checksum (R174). -/
theorem crcUpdate_mem : (State.crcUpdate s t o a n).mem =
    if a ≤ o ∧ o + 32 ≤ a + n then
      msetList 0 o (toLE 4 (crcOver (t.devBytes o (objHdr (t.devBytes o 32)).declLen) (objHdr (t.devBytes o 32)).declLen)) t.mem
    else if (objHdr (s.devBytes o 32)).declLen ≠ 0 ∧ overlaps a n (o + 32) ((objHdr (s.devBytes o 32)).declLen - 32) then
      msetList 0 o (toLE 4 ((objHdr (s.devBytes o 32)).crc ^^^
        crcOver (s.devBytes o (objHdr (s.devBytes o 32)).declLen) (objHdr (s.devBytes o 32)).declLen ^^^
        crcOver (t.devBytes o (objHdr (s.devBytes o 32)).declLen) (objHdr (s.devBytes o 32)).declLen)) t.mem
    else t.mem := by
  unfold State.crcUpdate
  dsimp only
  split
  · rfl
  · obtain ⟨u, hu⟩ : ∃ u, u = if (overlaps a n (o + 4) 28 && decide (s.devBytes (o + 4) 28 ≠ t.devBytes (o + 4) 28)) = true then
        (t.raise E.CHECK_HDR_PARTIAL (s.ownerDie o) [o]).markRange o 32 else t := ⟨_, rfl⟩
    have hmem : u.mem = t.mem := by
      rw [hu]
      split
      · exact (markRange_mem ..).trans (raise_mem ..)
      · rfl
    rw [← hu]
    split
    · show msetList 0 o _ u.mem = _
      rw [hmem, devBytes_of_mem hmem]
    · exact hmem

theorem crcUpdate_mem_congr (hs : s'.mem = s.mem) (ht : t'.mem = t.mem) :
    (State.crcUpdate s' t' o a n).mem = (State.crcUpdate s t o a n).mem := by
  simp only [crcUpdate_mem, devBytes_of_mem hs, devBytes_of_mem ht, ht]

/-- Two states with one device memory, the same object windows and the same KV descriptors. -/
structure Alike (s t : State) : Prop extends SameMaps s t where
  mem : t.mem = s.mem

theorem Alike.touched (h : s.Alike t) (hk : k < 16) : t.touched k a n = s.touched k a n := by
  have hw := h.windows
  unfold State.touched State.on
  rw [hw _ (by decide) k hk, hw _ (by decide) k hk, hw _ (by decide) k hk, hw _ (by decide) k hk]

theorem Alike.devWrite (h : s.Alike t) : (s.devWrite a d).Alike (t.devWrite a d) where
  toSameMaps := ((SameMaps.refl s).devWrite.symm.trans h.toSameMaps).devWrite
  mem := by
    have htouched : (List.range 16).flatMap (fun w => t.touched w a d.length) =
        (List.range 16).flatMap (fun w => s.touched w a d.length) :=
      List.flatMap_congr fun w hw => h.touched (List.mem_range.1 hw)
    have hput : (t.devPut a d).mem = (s.devPut a d).mem := by
      unfold State.devPut
      dsimp only
      rw [h.mem]
    unfold State.devWrite State.committed
    rw [htouched]
    generalize (List.range 16).flatMap (fun w => s.touched w a d.length) = l
    generalize s.devPut a d = u at hput ⊢
    generalize t.devPut a d = v at hput ⊢
    induction l generalizing u v with
    | nil => exact hput
    | cons o l ih =>
      refine ih _ _ ?_
      rw [generatorCheck_mem, generatorCheck_mem]
      exact crcUpdate_mem_congr h.mem hput

theorem Alike.devSetNat (h : s.Alike t) {y : Nat} : (s.devSetNat a n y).Alike (t.devSetNat a n y) := h.devWrite

/-! ### Mapping, side by side (R245, R246) -/

theorem Alike.kvDesc (h : s.Alike t) : t.kvDesc p = s.kvDesc p := by
  unfold State.kvDesc State.devWord
  rw [h.desc]
  simp only [devNat_of_mem h.mem]

theorem freeSlot_of_mem (h : t.mem = s.mem) {d : KvDesc} : t.freeSlot d root = s.freeSlot d root := by
  have hread : t.freeSlot d root = State.freeSlot { s with mem := t.mem } d root := rfl
  rw [hread, h]

theorem victim_of_mem (h : t.mem = s.mem) {d : KvDesc} : t.victim d root c n = s.victim d root c n := by
  have hread : t.victim d root c n = State.victim { s with mem := t.mem } d root c n := rfl
  rw [hread, h]

theorem Alike.kvCount (h : s.Alike t) {word : Nat} : (s.kvCount p word n).Alike (t.kvCount p word n) := by
  unfold State.kvCount State.devWord
  dsimp only
  rw [h.kvDesc, devNat_of_mem h.mem]
  exact h.devSetNat

/-- A position is mapped in both or in neither. -/
theorem Alike.mapOne (h : s.Alike t) : Option.Rel Alike (s.mapOne p root c n q) (t.mapOne p root c n q) := by
  unfold State.mapOne State.slotTag State.ptFrame State.devByte
  dsimp only
  rw [h.kvDesc, freeSlot_of_mem h.mem, victim_of_mem h.mem, h.mem]
  split
  · exact .some h.devSetNat.devSetNat
  · split
    · rw [devNat_of_mem h.mem]
      exact .some (Alike.kvCount h.devSetNat.devSetNat)
    · exact .none

theorem Alike.mapMany (h : s.Alike t) : (t.mapMany p root c n q m).2 = (s.mapMany p root c n q m).2 := by
  induction m generalizing s t q with
  | zero => rfl
  | succ m ih =>
    have hone := h.mapOne (p := p) (root := root) (c := c) (n := n) (q := q)
    unfold State.mapMany
    revert hone
    cases s.mapOne p root c n q <;> cases t.mapOne p root c n q
    · exact fun _ => rfl
    · nofun
    · nofun
    · rintro ⟨hone⟩
      exact ih hone

/-- Whether a slot or a victim was found for each position depends on memory, the windows and the descriptors alone. -/
theorem Alike.mapTo (h : s.Alike t) {hi : Nat} : (t.mapTo p root c n hi).2 = (s.mapTo p root c n hi).2 := by
  unfold State.mapTo State.ptMapped State.devWord
  dsimp only
  rw [devNat_of_mem h.mem, h.mapMany]

end State
end Sys2Proof.Machine
end

section
set_option Elab.async false

namespace Sys2Proof.Machine

/-! ### ADMIT (R189, R198) -/

/-- What the Caller's record has become once a new entry is seated. -/
def Caller.seating (c : Caller) (i : Nat) (v : Resv) (x : Entry) (fresh : Nat) (freed cached : List Nat) : Caller :=
  { Caller.put { c.reserving i v with fresh := fresh, freed := freed } i x with cached := cached }

namespace Caller
variable {c : Caller} {i j n : Nat} {v : Resv} {x : Entry} {l m : List Nat}

theorem seqs_seating : (c.seating i v x n l m).seqs = mset Entry.init i x c.seqs := rfl

theorem seq_seating (h : mrising c.seqs = true) : (c.seating i v x n l m).seq i = x := by
  rw [seq, seqs_seating, mget_mset_self _ _ _ h]

theorem seq_seating_ne (h : j ≠ i) : (c.seating i v x n l m).seq j = c.seq j := by
  rw [seq, seqs_seating, mget_mset_ne _ _ h.symm]
  rfl

end Caller

namespace State
variable {s t u : State} {c : Caller} {i late status : Nat} {r : Req} {d : Deal} {x : Xfer}

/-! ### Transfers from the host -/

theorem Signals.startRead (h : s.Signals t) : s.Signals (t.startRead x).2 := by
  unfold State.startRead
  split
  · exact h
  · generalize t.newTag = tag
    exact (h.trans (u := { t with host := { t.host with nextTag := (tag + 1) % 1024 } }) ⟨rfl, rfl, List.prefix_rfl⟩).emit

theorem Signals.withXfers (h : s.Signals t) {l : List Xfer} : s.Signals { t with host := { t.host with xfers := l } } :=
  h.trans ⟨rfl, rfl, List.prefix_rfl⟩

theorem Signals.pump (h : s.Signals t) : s.Signals t.pump := by
  unfold State.pump
  exact foldl_keeps (P := s.Signals) (fun _ _ h => h.startRead.withXfers) _ _ h

/-- A transfer that begins reads the host, and no request opens or ends. -/
theorem addXfer_signals (s : State) (x : Xfer) : s.Signals (s.addXfer x) :=
  (Signals.refl s).withXfers.pump

/-- A completion stays one while reads of the host go out. -/
theorem completed_signals (hc : s.completed t r status) (h : t.Signals u) : s.completed u r status := by
  obtain ⟨hreqs, w0, ws, ⟨slot, hbody, hhead⟩, hbits⟩ := hc
  have hout := (h.out.drop s.out.length).subset
  exact ⟨h.reqs.trans hreqs, w0, ws, ⟨slot, hout hbody, hout hhead⟩, hbits⟩

/-! ### Refusals -/

/-- A refused ADMIT is counted and completes. -/
theorem admitEffect_refuses (ht : s.seqTurn 0x01 r = true) (hc : s.callerOn = true) (hpre : s.preempted r.grp.val = false)
    (hm : s.admitMemory r = true) (hd : s.decideAsk (s.admitAsk r late (s.takenAt r)) = .error status) :
    admitEffect r late s = (s.bump R.CALLER_PART_ADMIT_N_REFUSED 1 0 r.grp.val).finish r status := by
  unfold admitEffect
  rw [if_neg (by simp [ht, hc])]
  dsimp only
  rw [if_neg (by simp [hpre]), if_pos hm, hd]

/-! ### Acceptances -/

/-- An accepted ask in the ledger, counted (R198). -/
def admitCounted (s : State) (r : Req) (late i : Nat) (d : Deal) : State :=
  (s.reserve (s.admitAsk r late (s.takenAt r)) i d).bump R.CALLER_PART_ADMIT_N_ACCEPTED 1 0 r.grp.val

/-- Its entry seated. -/
def admitSeated (s : State) (r : Req) (late i : Nat) (d : Deal) : State :=
  (s.admitCounted r late i d).seatEntry i (s.admitEntry r i d)

/-- Its completion. -/
def admitReported (s : State) (r : Req) (late i : Nat) (d : Deal) : State :=
  (s.admitSeated r late i d).complete r 0 ((s.admitSeated r late i d).handle i) (s.admitEntry r i d).dealWords

theorem admitEffect_accepts (ht : s.seqTurn 0x01 r = true) (hc : s.callerOn = true) (hpre : s.preempted r.grp.val = false)
    (hm : s.admitMemory r = true) (hd : s.decideAsk (s.admitAsk r late (s.takenAt r)) = .ok d) (hi : s.nextIndex = some i) :
    ∃ x, admitEffect r late s = (((s.admitReported r late i d).mapFirst i).addXfer x).standby i := by
  refine ⟨⟨.prompt i (s.admitEntry r i d).gen, r.grp.val, r.w 5, (s.admitEntry r i d).histPtr,
    4 * (s.admitEntry r i d).promptLen, [], none, 0⟩, ?_⟩
  unfold admitEffect
  rw [if_neg (by simp [ht, hc])]
  dsimp only
  rw [if_neg (by simp [hpre]), if_pos hm, hd, hi]
  rfl

theorem reserve_wrote (s : State) (r : Req) (late i : Nat) (d : Deal) :
    s.Wrote (s.caller.reserving i (s.resvAt (s.admitAsk r late (s.takenAt r)) i d.lo d.hi d.kv))
      (s.reserve (s.admitAsk r late (s.takenAt r)) i d) := (Wrote.refl s).reserve

theorem admitCounted_caller (s : State) (r : Req) (late i : Nat) (d : Deal) : (s.admitCounted r late i d).caller =
    s.caller.reserving i (s.resvAt (s.admitAsk r late (s.takenAt r)) i d.lo d.hi d.kv) := by
  show (s.reserve (s.admitAsk r late (s.takenAt r)) i d).caller = _
  exact (reserve_wrote s r late i d).caller

/-- An acceptance counts in ACCEPTED. -/
theorem admitCounted_accepted (hregs : mrising s.regs = true) :
    (s.admitCounted r late i d).rd R.CALLER_PART_ADMIT_N_ACCEPTED 0 r.grp.val =
      (s.rd R.CALLER_PART_ADMIT_N_ACCEPTED 0 r.grp.val + 1) % 2 ^ R.CALLER_PART_ADMIT_N_ACCEPTED.wid := by
  unfold admitCounted State.bump
  rw [rd_wr_self ((reserve_wrote s r late i d).rising hregs), (reserve_wrote s r late i d).rd (by decide)]

theorem admitCounted_host (s : State) (r : Req) (late i : Nat) (d : Deal) : (s.admitCounted r late i d).host = s.host := by
  show (s.reserve (s.admitAsk r late (s.takenAt r)) i d).host = _
  exact (reserve_wrote s r late i d).host

/-- A request counted moves nothing that its completion reads. -/
theorem bump_ringSame {f : Fld} (hf : ringFields.all (f.apart ·) = true) {n k : Nat} : s.RingSame (s.bump f n 0 k) where
  rd g hg _ _ := rd_wr_ne _ _ _ (Fld.fkey_ne (List.all_eq_true.1 hf g hg))
  host := rfl
  out := rfl

theorem RingSame.trans (h : s.RingSame t) (g : t.RingSame u) : s.RingSame u where
  rd f hf k j := (g.rd f hf k j).trans (h.rd f hf k j)
  host := g.host.trans (by rw [h.host])
  out := g.out.trans h.out

theorem admitCounted_ringSame : s.RingSame (s.admitCounted r late i d) := by
  unfold admitCounted
  exact (reserve_wrote s r late i d).ringSame.trans (bump_ringSame (by decide))

theorem admitCounted_on {f : Fld} (hf : R.CALLER_PART_ADMIT_N_ACCEPTED.clear f = true) (hc : callerFields.all (·.clear f) = true) :
    (s.admitCounted r late i d).on f = s.on f := by
  unfold admitCounted State.bump State.on
  rw [rd_wr_ne _ _ _ (Fld.fkey_ne_of_clear hf), (reserve_wrote s r late i d).rd hc]

/-- A new entry with frames is seated, and is the most recently used. -/
theorem seatEntry_wrote (hj : s.on R.CALLER_JOURNAL_EN = false) {e : Entry} : ∃ n l m,
    s.Wrote { Caller.put { s.caller with fresh := n, freed := l } i { e with framed := true } with cached := m } (s.seatEntry i e) := by
  have htake : ∃ n l, s.takeIndex i = { s with caller := { s.caller with fresh := n, freed := l } } := by
    unfold State.takeIndex
    split
    · exact ⟨i + 1, s.caller.freed, rfl⟩
    · exact ⟨s.caller.fresh, s.caller.freed.erase i, rfl⟩
  obtain ⟨n, l, htake⟩ := htake
  have htaken : s.Wrote { s.caller with fresh := n, freed := l } (s.takeIndex i) := by
    rw [htake]
    exact (Wrote.refl s).withCaller _
  have hput := (htaken.newTable (p := e.part) (root := e.kvRoot) (n := e.kvRes / 64)).putSeq hj
    (i := i) (x := { e with framed := true })
  obtain ⟨u, hu⟩ : ∃ u, u = ((s.takeIndex i).newTable e.part e.kvRoot (e.kvRes / 64)).putSeq i { e with framed := true } := ⟨_, rfl⟩
  rw [← hu] at hput
  have huse : ∃ m, u.useEntry i = { u with caller := { u.caller with cached := m } } := ⟨_, rfl⟩
  obtain ⟨m, huse⟩ := huse
  refine ⟨n, l, m, ?_⟩
  have hseat : s.seatEntry i e = u.useEntry i := by
    rw [hu]
    rfl
  rw [hseat, huse, hput.caller]
  exact hput.withCaller _

theorem admitSeated_wrote (hj : s.on R.CALLER_JOURNAL_EN = false) : ∃ n l m,
    (s.admitCounted r late i d).Wrote (s.caller.seating i (s.resvAt (s.admitAsk r late (s.takenAt r)) i d.lo d.hi d.kv)
      { s.admitEntry r i d with framed := true } n l m) (s.admitSeated r late i d) := by
  have hcount := (admitCounted_on (r := r) (late := late) (i := i) (d := d) (by decide) (by decide)).trans hj
  obtain ⟨n, l, m, h⟩ := seatEntry_wrote hcount (i := i) (e := s.admitEntry r i d)
  rw [admitCounted_caller] at h
  exact ⟨n, l, m, h⟩

/-- The completion of an ADMIT touches no memory, no object window and no KV descriptor. -/
theorem complete_alike (ho : s.isOpen r = true) (hr : s.ringOpen r.grp.val r.cq.val) {handle : Nat} {rest : List Nat} :
    s.Alike (s.complete r status handle rest) where
  windows f hf k _ := complete_rd ho hr (by
    revert f
    decide)
  desc _ := complete_rd ho hr
  mem := (congrArg State.mem (complete_only ho hr) :)

/-- The first mappings of an entry, where a slot or a victim is found for each. -/
theorem mapFirst_wrote (hm : (s.mapTo (s.seq i).part (s.seq i).kvRoot ((s.seq i).pos - 1) s.bar
    (min ((s.seq i).pos + 2 * s.chunkOf (s.seq i).part) ((s.seq i).promptLen + 9))).2 = true) :
    s.Wrote s.caller (s.mapFirst i) := by
  unfold State.mapFirst
  dsimp only
  rw [if_pos hm]
  exact (Wrote.refl s).mapTo

/-- The completion of a request whose entry is seated, its first mappings, and the copy of its prompt. -/
theorem complete_mapFirst (h : s.Wrote c u) (ho : s.isOpen r = true) (hr : s.ringOpen r.grp.val r.cq.val) {e : Entry}
    (he : c.seq i = e) (hm : (u.mapTo e.part e.kvRoot (e.pos - 1) u.bar
      (min (e.pos + 2 * u.chunkOf e.part) (e.promptLen + 9))).2 = true) {handle : Nat} {rest : List Nat} :
    let t := (((u.complete r 0 handle rest).mapFirst i).addXfer x).standby i
    s.completed t r 0 ∧ (∃ b, t.caller = { c with switch := b }) ∧
      ∀ k, t.rd R.CALLER_PART_ADMIT_N_ACCEPTED 0 k = s.rd R.CALLER_PART_ADMIT_N_ACCEPTED 0 k := by
  have ho' := h.isOpen.trans ho
  have hr' := h.ringOpen hr
  obtain ⟨v, hv⟩ : ∃ v, v = u.complete r 0 handle rest := ⟨_, rfl⟩
  have hvc : v.caller = c := by
    rw [hv, complete_caller ho' hr', h.caller]
  have hbar : v.bar = u.bar := by
    rw [hv]
    exact complete_rd ho' hr'
  have hchunk : v.chunkOf e.part = u.chunkOf e.part := by
    unfold State.chunkOf
    rw [hv, complete_rd ho' hr']
  have hentry : v.seq i = e := by
    rw [← he, ← hvc]
    rfl
  have halike : u.Alike v := hv ▸ complete_alike ho' hr'
  have hmapped : v.Wrote v.caller (v.mapFirst i) := mapFirst_wrote (by rw [hentry, hbar, hchunk, halike.mapTo]; exact hm)
  have hdone : u.completed v r 0 := hv ▸ complete_completed ho' hr' (by decide)
  have hcount : ∀ k, v.rd R.CALLER_PART_ADMIT_N_ACCEPTED 0 k = u.rd R.CALLER_PART_ADMIT_N_ACCEPTED 0 k := by
    rw [hv]
    exact fun _ => complete_rd ho' hr'
  rw [← hv]
  have hxfer := addXfer_signals (v.mapFirst i) x
  generalize v.mapFirst i = w at hmapped hxfer ⊢
  generalize w.addXfer x = y at hxfer ⊢
  obtain ⟨b, hstand⟩ := (Wrote.refl y).standby i
  have hyc : y.caller = w.caller := (congrArg State.caller hxfer.only :)
  have hyr : y.regs = w.regs := (congrArg State.regs hxfer.only :)
  rw [hyc, hmapped.caller, hvc] at hstand
  refine ⟨?_, ⟨b, hstand.caller⟩, fun k => ?_⟩
  · exact completed_then (completed_signals (completed_then (h.completed hdone) hmapped) hxfer) hstand
  · rw [hstand.rd (by decide), rd_eq_of_regs hyr, hmapped.rd (by decide), hcount, h.rd (by decide)]

/-- With the journal off an accepted ADMIT completes, its entry is seated and its first positions are mapped. -/
theorem admitEffect_seats (hj : s.on R.CALLER_JOURNAL_EN = false) (hseqs : mrising s.caller.seqs = true)
    (ho : s.isOpen r = true) (hr : s.ringOpen r.grp.val r.cq.val)
    (hm : ((s.admitSeated r late i d).mapTo (s.admitEntry r i d).part (s.admitEntry r i d).kvRoot ((s.admitEntry r i d).pos - 1)
      (s.admitSeated r late i d).bar (min ((s.admitEntry r i d).pos + 2 * (s.admitSeated r late i d).chunkOf (s.admitEntry r i d).part)
        ((s.admitEntry r i d).promptLen + 9))).2 = true)
    (ha : admitEffect r late s = (((s.admitReported r late i d).mapFirst i).addXfer x).standby i) :
    s.completed (admitEffect r late s) r 0 ∧ (∃ n l m b, (admitEffect r late s).caller =
      { s.caller.seating i (s.resvAt (s.admitAsk r late (s.takenAt r)) i d.lo d.hi d.kv)
        { s.admitEntry r i d with framed := true } n l m with switch := b }) ∧
      ∀ k, (admitEffect r late s).rd R.CALLER_PART_ADMIT_N_ACCEPTED 0 k =
        (s.admitCounted r late i d).rd R.CALLER_PART_ADMIT_N_ACCEPTED 0 k := by
  obtain ⟨n, l, m, hseated⟩ := admitSeated_wrote hj (r := r) (late := late) (i := i) (d := d)
  have hreqs : (s.admitCounted r late i d).host.reqs = s.host.reqs := by
    rw [admitCounted_host]
  have hopen : (s.admitCounted r late i d).isOpen r = true := by
    unfold State.isOpen
    rw [hreqs]
    exact ho
  obtain ⟨hdone, ⟨b, hcaller⟩, hcount⟩ := complete_mapFirst hseated hopen (admitCounted_ringSame.ringOpen hr)
    (Caller.seq_seating hseqs) hm (x := x) (handle := (s.admitSeated r late i d).handle i) (rest := (s.admitEntry r i d).dealWords)
  rw [ha]
  exact ⟨admitCounted_ringSame.completed hreqs hdone, ⟨n, l, m, b, hcaller⟩, hcount⟩

end State

open State

/-- Settles O24: a refusal counts and completes; an acceptance is the reservation, the entry, its completion and mappings, none of
which speaks of another entry. -/
theorem admitDecided : Obligations.AdmitDecided := by
  unfold Obligations.AdmitDecided
  intro r late s hwf ht hc hpre hm hr a
  have ho := isOpen_of_seqTurn ht
  refine ⟨fun st hd hst => ?_, fun d i hd hi hj hmap => ?_⟩
  · obtain ⟨u, hu⟩ : ∃ u, u = s.bump R.CALLER_PART_ADMIT_N_REFUSED 1 0 r.grp.val := ⟨_, rfl⟩
    have hsame : s.RingSame u := hu ▸ bump_ringSame (by decide)
    have ho' : u.isOpen r = true := by
      rw [hu]
      exact ho
    have hr' := hsame.ringOpen hr
    refine ⟨u.finish r st, congrArg Host.Outcome.next ((admitEffect_refuses ht hc hpre hm hd).trans (by rw [hu])), ?_, ?_, ?_, ?_⟩
    · exact hsame.completed (by rw [hu]; rfl) (complete_completed ho' hr' hst)
    · rw [finish, complete_caller ho' hr', hu]
      rfl
    · have hmem : (u.finish r st).mem = s.mem ∧ (u.finish r st).memMark = s.memMark := by
        rw [finish, complete_only ho' hr', hu]
        exact ⟨rfl, rfl⟩
      intro a
      unfold State.devByte State.lineMark
      rw [hmem.1, hmem.2]
      exact ⟨rfl, rfl⟩
    · rw [finish, complete_rd ho' hr', hu, State.bump, rd_wr_self (rising_regs hwf)]
  · obtain ⟨x, hx⟩ := admitEffect_accepts ht hc hpre hm hd hi
    obtain ⟨hdone, ⟨n, l, m, b, hcaller⟩, hcount⟩ := admitEffect_seats hj (rising_seqs hwf) ho hr hmap hx
    have hread : ∀ j, (admitEffect r late s).seq j = (s.caller.seating i (s.resvAt a i d.lo d.hi d.kv)
        { s.admitEntry r i d with framed := true } n l m).seq j := by
      intro j
      unfold State.seq
      rw [hcaller]
      rfl
    have hown := (hread i).trans (Caller.seq_seating (rising_seqs hwf))
    refine ⟨_, rfl, hdone, ?_, ?_, ?_, ?_, ?_, ?_, ?_, ?_, ?_, ?_, ?_, (hcount _).trans (admitCounted_accepted (rising_regs hwf))⟩
    iterate 9
      · rw [hown]
        rfl
    · rw [hcaller]
      exact List.mem_append_right _ (List.mem_singleton_self _)
    · exact fun j hne => (hread j).trans (Caller.seq_seating_ne hne)

end Sys2Proof.Machine
end

section
set_option Elab.async false

namespace Sys2Proof.Machine

/-! ### Orders -/

section
variable {α β : Type} {key : α → Nat} {x : α} {l : List α}

theorem insertBy_perm : (insertBy key x l).Perm (x :: l) := by
  induction l with
  | nil => exact .refl _
  | cons y r ih =>
    unfold insertBy
    split
    · exact .refl _
    · exact (ih.cons y).trans (.swap x y r)

theorem sortBy_perm : (sortBy key l).Perm l := by
  induction l with
  | nil => exact .refl _
  | cons y r ih => exact insertBy_perm.trans (ih.cons y)

/-- A map's keys do not repeat. -/
theorem nodup_keys {m : SMap β} (h : mrising m = true) : (m.map (·.1)).Nodup := by
  induction m with
  | nil => exact .nil
  | cons e r ih =>
    have habove := mrising_head h
    refine List.nodup_cons.2 ⟨fun hm => ?_, ih (mrising_tail h)⟩
    obtain ⟨x, hx, hkey⟩ := List.mem_map.1 hm
    have hlt := habove x hx
    dsimp only at hkey
    omega

/-- A map reads what it holds. -/
theorem mget_of_mem {m : SMap β} (h : mrising m = true) {d : β} {e : Nat × β} (he : e ∈ m) : mget d m e.1 = e.2 := by
  induction m with
  | nil => nomatch he
  | cons y r ih =>
    have habove := mrising_head h
    unfold mget
    rcases List.mem_cons.1 he with rfl | hr
    · exact if_pos rfl
    · have hlt := habove e hr
      rw [if_neg (by omega)]
      exact ih (mrising_tail h) hr

end

/-- Of as many numbers as are kept and new, as many as are new are kept by nobody. -/
theorem length_free {kept : List (Nat × Nat × Bool)} {n : Nat} :
    n ≤ ((List.range (kept.length + n)).filter (fun k => !kept.any (fun x => x.1 = k))).length := by
  have hsplit := List.length_eq_length_filter_add (l := List.range (kept.length + n)) (fun k => kept.any (fun x => x.1 = k))
  have htaken : ((List.range (kept.length + n)).filter (fun k => kept.any (fun x => x.1 = k))).length ≤ kept.length := by
    rw [← List.length_map (f := (·.1)) (as := kept)]
    refine (List.subperm_of_subset (List.nodup_range.filter _) fun k hk => ?_).length_le
    obtain ⟨x, hx, hxk⟩ := List.any_eq_true.1 (List.mem_filter.1 hk).2
    exact List.mem_map.2 ⟨x, hx, of_decide_eq_true hxk⟩
  rw [List.length_range] at hsplit
  omega

/-! ### Seats (R194, R227) -/

theorem grant_indices (n : Nat) (l : List Seat) : (grant n l).map (·.index) = l.map (·.index) := by
  induction l generalizing n with
  | nil => rfl
  | cons x r ih =>
    unfold grant
    rw [List.map_cons, List.map_cons, ih]

namespace State
variable {s t u : State} {c : Caller} {p b i j : Nat} {xs : List Seat} {x : Seat}

theorem assign_indices (s : State) (p b : Nat) : ((s.assign p b).map (·.2.1)).Perm
    ((s.partSeqs p).filter (fun i => s.keepsSlot i b) ++ (s.partSeqs p).filter (fun i => s.takesSlot i b)) := by
  unfold State.assign
  dsimp only
  refine (sortBy_perm.map _).trans ?_
  rw [List.map_append, List.map_map, List.map_map]
  refine List.Perm.append (.of_eq ?_) (.of_eq ?_)
  · exact List.map_id _
  · exact (List.map_congr_left fun x _ => rfl).trans (List.map_fst_zip length_free)

theorem seats_indices (s : State) (p b : Nat) : ((s.seats p b).map (·.index)).Perm
    ((s.partSeqs p).filter (fun i => s.keepsSlot i b) ++ (s.partSeqs p).filter (fun i => s.takesSlot i b)) := by
  unfold State.seats
  dsimp only
  refine (sortBy_perm.map _).trans ?_
  rw [grant_indices]
  refine (sortBy_perm.map _).trans ?_
  rw [List.map_map]
  exact s.assign_indices p b

theorem nodup_partSeqs (h : mrising s.caller.seqs = true) : (s.partSeqs p).Nodup := by
  unfold State.partSeqs
  refine (sortBy_perm.map _).nodup_iff.2 ?_
  exact (List.filter_sublist.map _).nodup (nodup_keys h)

theorem live_of_partSeqs (h : mrising s.caller.seqs = true) (hi : i ∈ s.partSeqs p) : (s.seq i).state ≠ 0 := by
  unfold State.partSeqs at hi
  obtain ⟨e, he, rfl⟩ := List.mem_map.1 hi
  obtain ⟨hmem, hlive⟩ := List.mem_filter.1 (sortBy_perm.mem_iff.1 he)
  unfold State.seq
  rw [mget_of_mem h hmem]
  simp only [Bool.and_eq_true, decide_eq_true_eq] at hlive
  exact hlive.2

/-- No sequence has two seats. -/
theorem nodup_seats (h : mrising s.caller.seqs = true) : ((s.seats p b).map (·.index)).Nodup := by
  refine (s.seats_indices p b).nodup_iff.2 ?_
  refine List.nodup_append.2 ⟨(nodup_partSeqs h).filter _, (nodup_partSeqs h).filter _, fun i hi j hj heq => ?_⟩
  have hkeeps := (List.mem_filter.1 hi).2
  have htakes := (List.mem_filter.1 hj).2
  subst heq
  simp [State.takesSlot, hkeeps] at htakes

theorem partSeqs_of_seat (hx : x ∈ s.seats p b) : x.index ∈ s.partSeqs p := by
  have hmem := (s.seats_indices p b).mem_iff.1 (List.mem_map_of_mem (f := (·.index)) hx)
  rcases List.mem_append.1 hmem with h | h <;> exact (List.mem_filter.1 h).1

/-- A seat is found by its index. -/
theorem find_seat (h : mrising s.caller.seqs = true) (hx : x ∈ s.seats p b) :
    (s.seats p b).find? (fun y => y.index = x.index) = some x := by
  have hnodup := nodup_seats h (p := p) (b := b)
  generalize s.seats p b = l at hx hnodup
  induction l with
  | nil => nomatch hx
  | cons y r ih =>
    rw [List.map_cons, List.nodup_cons] at hnodup
    rcases List.mem_cons.1 hx with rfl | hr
    · exact List.find?_cons_of_pos (by simp)
    · have hne : ¬y.index = x.index := fun heq => hnodup.1 (heq ▸ List.mem_map_of_mem (f := (·.index)) hr)
      rw [List.find?_cons_of_neg (by simpa using hne)]
      exact ih hr hnodup.2

/-! ### The cache of a plan (R187) -/

/-- Sequences in the cache are brought in by a change of the cache alone. -/
theorem loadEntries_cached (l : List Nat) (hlen : s.caller.cached.length ≤ 16384)
    (hl : ∀ i ∈ l, (s.seq i).state ≠ 0 ∧ s.caller.cached.contains i = true) :
    ∃ m, l.foldl State.loadEntry s = { s with caller := { s.caller with cached := m } } := by
  induction l generalizing s with
  | nil => exact ⟨s.caller.cached, rfl⟩
  | cons i r ih =>
    obtain ⟨hlive, hin⟩ := hl i (List.mem_cons_self)
    have hmem : i ∈ s.caller.cached := by simpa using hin
    have hshort : (s.caller.cached.filter (· ≠ i)).length < s.caller.cached.length :=
      List.length_filter_lt_length_iff_exists.2 ⟨i, hmem, by simp⟩
    have hload : s.loadEntry i = { s with caller := { s.caller with cached := i :: s.caller.cached.filter (· ≠ i) } } := by
      unfold State.loadEntry
      rw [if_neg hlive, if_pos hin]
      unfold State.useEntry
      dsimp only
      rw [if_pos (by omega)]
    rw [List.foldl_cons, hload]
    obtain ⟨m, hm⟩ := ih (s := { s with caller := { s.caller with cached := i :: s.caller.cached.filter (· ≠ i) } })
      (show (i :: s.caller.cached.filter (· ≠ i)).length ≤ 16384 by rw [List.length_cons]; omega)
      (fun j hj => ⟨(hl j (List.mem_cons_of_mem _ hj)).1, by
        have hjm : j ∈ s.caller.cached := by simpa using (hl j (List.mem_cons_of_mem _ hj)).2
        by_cases hji : j = i
        · simp [hji]
        · simp [hji, hjm]⟩)
    exact ⟨m, hm⟩

end State
end Sys2Proof.Machine
end

section
set_option Elab.async false

namespace Sys2Proof.Machine
namespace State
variable {s t u : State} {c : Caller} {p b i j half epoch n v : Nat} {xs : List Seat} {x : Seat} {ks : List Nat}

/-! ### What a plan writes (R190 to R195) -/

theorem Wrote.planCell (h : s.Wrote c t) : s.Wrote c (t.planCell p b half epoch n v) := .ite h.raise h.devWrite

theorem Wrote.writeKeys (h : s.Wrote c t) : s.Wrote c (t.writeKeys p b ks) := by
  unfold State.writeKeys
  split
  · exact .ite h h.devSet
  · exact h

theorem Wrote.writePlan (h : s.Wrote c t) : s.Wrote c (t.writePlan p b xs) :=
  ((((h.devZero.devZero.foldl fun h => h.devSet).devSet).devSet).writeKeys).foldl fun h => h.planCell

/-- The plan's update of one entry (R188, R194, R227). -/
def planEntry (b : Nat) (xs : List Seat) (t : State) (i : Nat) : State :=
  match xs.find? (fun x => x.index = i) with
  | some x => t.putSeq i { t.seq i with state := (t.seq i).seated, slot := x.slot, draft := x.draft, lastPlan := b + 1 }
  | none => if (t.seq i).slot < 4096 then t.putSeq i { t.seq i with slot := 0x1FFF } else t

theorem planEntries_eq (s : State) (p b : Nat) (xs : List Seat) :
    s.planEntries p b xs = (s.partSeqs p).foldl (planEntry b xs) s := rfl

/-- An entry has taken its seat. -/
def Seated (b : Nat) (x : Seat) (e : Entry) : Prop := e.slot = x.slot ∧ e.draft = x.draft ∧ e.lastPlan = b + 1

/-- One entry's update leaves the others, and seats it where it has a seat. -/
theorem Wrote.planEntry (h : s.Wrote c t) (hj : s.on R.CALLER_JOURNAL_EN = false) (hc : mrising c.seqs = true) :
    ∃ q, s.Wrote { c with seqs := q } (planEntry b xs t i) ∧ mrising q = true ∧ (∀ j, j ≠ i → mget Entry.init q j = c.seq j) ∧
      ∀ x, xs.find? (fun y => y.index = i) = some x → Seated b x (mget Entry.init q i) := by
  unfold State.planEntry
  split
  case h_1 x hx =>
    refine ⟨_, h.putSeq hj, Caller.rising_put hc, fun j hne => Caller.seq_put_ne hne, fun y hy => ?_⟩
    cases hx.symm.trans hy
    rw [mget_mset_self _ _ _ hc]
    exact ⟨rfl, rfl, rfl⟩
  case h_2 hnone =>
    have hno : ∀ q, ∀ x, xs.find? (fun y => y.index = i) = some x → Seated b x q := fun _ x hx => nomatch hnone.symm.trans hx
    split
    · exact ⟨_, h.putSeq hj, Caller.rising_put hc, fun j hne => Caller.seq_put_ne hne, hno _⟩
    · exact ⟨c.seqs, h, hc, fun _ _ => rfl, hno _⟩

/-- The updates of entries that do not repeat. -/
theorem Wrote.planAll (h : s.Wrote c t) (hj : s.on R.CALLER_JOURNAL_EN = false) (hc : mrising c.seqs = true) {l : List Nat}
    (hl : l.Nodup) : ∃ q, s.Wrote { c with seqs := q } (l.foldl (State.planEntry b xs) t) ∧
      (∀ j, j ∉ l → mget Entry.init q j = c.seq j) ∧
      ∀ j ∈ l, ∀ x, xs.find? (fun y => y.index = j) = some x → Seated b x (mget Entry.init q j) := by
  induction l generalizing c t with
  | nil => exact ⟨c.seqs, h, fun _ _ => rfl, nofun⟩
  | cons i r ih =>
    obtain ⟨hi, hr⟩ := List.nodup_cons.1 hl
    obtain ⟨m, hone, hm, hothers, hown⟩ := h.planEntry hj hc (b := b) (xs := xs) (i := i)
    obtain ⟨q, hrest, hout, hin⟩ := ih hone hm hr
    refine ⟨q, hrest, fun j hj => ?_, fun j hj x hx => ?_⟩
    · rw [List.mem_cons, not_or] at hj
      exact (hout j hj.2).trans (hothers j hj.1)
    · rcases List.mem_cons.1 hj with rfl | hjr
      · rw [hout j hi]
        exact hown x hx
      · exact hin j hjr x hx

/-! ### The plan of one partition -/

/-- The counts of a plan (R231) move nothing else. -/
theorem planCounts_rd {f : Fld} {k l : Nat} (hf : [R.CALLER_SPEC_GRANTED_GRANTED, R.CALLER_SPEC_CLIPPED_CLIPPED,
    R.CALLER_SPEC_PROBES_PROBES].all (·.clear f) = true) : (s.planCounts p xs).rd f i k l = s.rd f i k l := by
  have hne := List.all_eq_true.1 hf
  unfold State.planCounts State.bump
  dsimp only
  rw [rd_wr_ne _ _ _ (Fld.fkey_ne_of_clear (hne _ (by simp))), rd_wr_ne _ _ _ (Fld.fkey_ne_of_clear (hne _ (by simp))),
    rd_wr_ne _ _ _ (Fld.fkey_ne_of_clear (hne _ (by simp)))]

theorem planCounts_caller (s : State) (p : Nat) (xs : List Seat) : (s.planCounts p xs).caller = s.caller := rfl

theorem planCounts_rising (h : mrising s.regs = true) : mrising (s.planCounts p xs).regs = true :=
  mrising_wr (mrising_wr (mrising_wr h ..) ..) ..

/-- Once its work list is written, a plan counts, and seats the entries that have a seat. -/
theorem Wrote.seatAll {m : List Nat} (h : s.Wrote { s.caller with cached := m } t) (hseqs : mrising s.caller.seqs = true)
    (hj : s.on R.CALLER_JOURNAL_EN = false) {op : Nat} :
    let u := ((t.planCounts p xs).planEntries p b xs).standby op
    u.caller.planned = s.caller.planned ∧ u.bar = s.bar ∧ (mrising s.regs = true → mrising u.regs = true) ∧
      ∀ i ∈ s.partSeqs p, ∀ x, xs.find? (fun y => y.index = i) = some x → Seated b x (u.seq i) := by
  obtain ⟨v, hv⟩ : ∃ v, v = t.planCounts p xs := ⟨_, rfl⟩
  have hvc : v.caller = { s.caller with cached := m } := by
    rw [hv, planCounts_caller, h.caller]
  have hvj : v.on R.CALLER_JOURNAL_EN = false := by
    rw [hv, State.on, planCounts_rd (by decide)]
    exact h.journalOff hj
  have hvbar : v.bar = s.bar := by
    rw [hv, State.bar, planCounts_rd (by decide)]
    exact h.bar
  have hrise : mrising s.regs = true → mrising v.regs = true := by
    rw [hv]
    exact fun w => planCounts_rising (h.rising w)
  have hlist : v.partSeqs p = s.partSeqs p := by
    unfold State.partSeqs
    rw [hvc]
  have hvseqs : mrising v.caller.seqs = true := by
    rw [hvc]
    exact hseqs
  obtain ⟨q, hall, -, hseated⟩ := (Wrote.refl v).planAll hvj hvseqs (nodup_partSeqs hseqs (p := p)) (b := b) (xs := xs)
  rw [← hlist, ← planEntries_eq] at hall
  obtain ⟨k, hstand⟩ := hall.standby op
  rw [← hv]
  refine ⟨by rw [hstand.caller, hvc], hstand.bar.trans hvbar, fun w => hstand.rising (hrise w), fun i hi x hx => ?_⟩
  unfold State.seq
  rw [hstand.caller]
  exact hseated i hi x hx

/-- A partition's plan brings in the sequences that it seats. -/
theorem loadSeats_cached (hseqs : mrising s.caller.seqs = true) (hlen : s.caller.cached.length ≤ 16384)
    (hin : ∀ x ∈ s.seats p b, s.caller.cached.contains x.index = true) :
    ∃ m, s.loadSeats p b = { s with caller := { s.caller with cached := m } } := by
  refine loadEntries_cached _ hlen fun i hi => ?_
  obtain ⟨hmem, hkind⟩ := List.mem_filter.1 hi
  have hseat : i ∈ (s.seats p b).map (·.index) := by
    rw [(s.seats_indices p b).mem_iff, List.mem_append, List.mem_filter, List.mem_filter]
    rcases Bool.or_eq_true_iff.1 hkind with hk | hk
    · exact .inl ⟨hmem, hk⟩
    · exact .inr ⟨hmem, hk⟩
  obtain ⟨x, hx, rfl⟩ := List.mem_map.1 hseat
  exact ⟨live_of_partSeqs hseqs hmem, hin x hx⟩

/-- With its sequences in the cache, a partition's plan seats each of them. -/
theorem planPart_seats (hseqs : mrising s.caller.seqs = true) (hj : s.on R.CALLER_JOURNAL_EN = false)
    (hlen : s.caller.cached.length ≤ 16384) (hin : ∀ x ∈ s.seats p b, s.caller.cached.contains x.index = true) :
    (s.planPart p b).caller.planned = s.caller.planned ∧ (s.planPart p b).bar = s.bar ∧
      (mrising s.regs = true → mrising (s.planPart p b).regs = true) ∧
      ∀ x ∈ s.seats p b, Seated b x ((s.planPart p b).seq x.index) := by
  obtain ⟨m, hload⟩ := loadSeats_cached hseqs hlen hin
  have hcached : s.Wrote { s.caller with cached := m } (s.loadSeats p b) := by
    rw [hload]
    exact (Wrote.refl s).withCaller _
  have hseats : (s.loadSeats p b).seats p b = s.seats p b := by
    rw [hload]
    rfl
  obtain ⟨hplanned, hbar, hrise, hseated⟩ := hcached.writePlan.seatAll hseqs hj (p := p) (b := b) (xs := s.seats p b)
    (op := 2 ^ 18 + p)
  have hplan : s.planPart p b = ((((s.loadSeats p b).writePlan p b (s.seats p b)).planCounts p (s.seats p b)).planEntries p b
      (s.seats p b)).standby (2 ^ 18 + p) := by
    unfold State.planPart
    dsimp only
    rw [hseats]
  rw [hplan]
  exact ⟨hplanned, hbar, hrise, fun x hx => hseated x.index (partSeqs_of_seat hx) x (find_seat hseqs hx)⟩

/-- A bar is planned once (R190). -/
theorem planDue_planned (h : s.bar + 2 ≤ s.caller.planned) : s.planDue = false := by
  unfold State.planDue
  rw [decide_eq_false (by omega : ¬s.caller.planned < s.bar + 2)]
  simp

/-- The Caller's record names the next bar as planned. -/
def planNoted (s : State) : State := { s with caller := { s.caller with planned := s.bar + 2 } }

/-- Whether a swap at the next bar asks for re-prefill (R302). -/
def planForced (s : State) : Bool := match s.swap with
  | some w => decide (w.bar = s.bar + 1) && w.force
  | none => false

theorem callerPlanEffect_due (h : s.planDue = true) : callerPlanEffect s =
    let t := if s.planForced then s.planNoted.reprefillAll else s.planNoted
    (t.planned.foldl (fun t p => t.planPart p (s.bar + 1)) t).wr R.CALLER_PLAN_BAR_BAR (s.bar + 1) := by
  unfold callerPlanEffect
  rw [if_pos h]
  rfl

/-- The plan of the next bar seats the sequences of its partition (R190, R194). -/
theorem callerPlanEffect_seats (hwf : s.wf = true) (hdue : s.planDue = true) (hp : s.planned = [p]) (hs : s.swap = none)
    (hj : s.on R.CALLER_JOURNAL_EN = false) (hlen : s.caller.cached.length ≤ 16384)
    (hin : ∀ x ∈ s.seats p (s.bar + 1), s.caller.cached.contains x.index = true) :
    let t := callerPlanEffect s
    t.caller.planned = s.bar + 2 ∧ t.planDue = false ∧
      t.rd R.CALLER_PLAN_BAR_BAR = (s.bar + 1) % 2 ^ R.CALLER_PLAN_BAR_BAR.wid ∧
      ∀ x ∈ s.seats p (s.bar + 1), Seated (s.bar + 1) x (t.seq x.index) := by
  obtain ⟨u, hu⟩ : ∃ u, u = s.planNoted := ⟨_, rfl⟩
  have huseats : u.seats p (s.bar + 1) = s.seats p (s.bar + 1) := by
    rw [hu]
    rfl
  have huplanned : u.planned = [p] := by
    rw [hu]
    exact hp
  obtain ⟨hplanned, hbar, hrise, hseated⟩ := planPart_seats (s := u) (p := p) (b := s.bar + 1) (by rw [hu]; exact rising_seqs hwf)
    (by rw [hu]; exact hj) (by rw [hu]; exact hlen) (by rw [huseats, hu]; exact hin)
  have heq : callerPlanEffect s = (u.planPart p (s.bar + 1)).wr R.CALLER_PLAN_BAR_BAR (s.bar + 1) := by
    have hforce : s.planForced = false := by
      unfold State.planForced
      rw [hs]
    rw [callerPlanEffect_due hdue]
    dsimp only
    rw [hforce, if_neg (by decide), ← hu, huplanned]
    rfl
  rw [huseats] at hseated
  rw [heq]
  have hnow : ((u.planPart p (s.bar + 1)).wr R.CALLER_PLAN_BAR_BAR (s.bar + 1)).bar = s.bar :=
    (rd_wr_ne _ _ _ (Fld.fkey_ne (by decide))).trans (hbar.trans (by rw [hu]; rfl))
  have hmarked : (u.planPart p (s.bar + 1)).caller.planned = s.bar + 2 := by
    rw [hplanned, hu]
    rfl
  refine ⟨hmarked, planDue_planned ?_, rd_wr_self (hrise (by rw [hu]; exact rising_regs hwf)) .., hseated⟩
  rw [hnow]
  exact Nat.le_of_eq hmarked.symm

end State
end Sys2Proof.Machine
end

section
set_option Elab.async false

namespace Sys2Proof.Machine
namespace State

/-- Between two states the package's bar goes on: TEMPO's record, the package's number and the last bar harvested stay, and what
went out stays. -/
structure Onward (s t : State) : Prop where
  tempo : t.tempo = s.tempo
  pkgId : t.pkgId = s.pkgId
  harvested : t.caller.harvested = s.caller.harvested
  out : s.out <+: t.out

variable {s t u : State} {c : Caller} {f : Fld} {e : EvFlag} {o : Out} {i j k n p g root v status handle op half : Nat} {x : Entry}
  {w rest : List Nat} {bs : List Byte} {r : Req} {β : Type}

namespace Onward

theorem refl (s : State) : s.Onward s := ⟨rfl, rfl, rfl, List.prefix_rfl⟩

theorem trans (h : s.Onward t) (g : t.Onward u) : s.Onward u :=
  ⟨g.tempo.trans h.tempo, g.pkgId.trans h.pkgId, g.harvested.trans h.harvested, h.out.trans g.out⟩

/-- A change of something else. -/
theorem others (h : s.Onward t) (ht : u.tempo = t.tempo := by rfl) (hp : u.pkgId = t.pkgId := by rfl)
    (hc : u.caller.harvested = t.caller.harvested := by rfl) (ho : u.out = t.out := by rfl) : s.Onward u :=
  h.trans ⟨ht, hp, hc, ho ▸ List.prefix_rfl⟩

theorem withCaller (h : s.Onward t) {c : Caller} (hc : c.harvested = t.caller.harvested := by rfl) :
    s.Onward { t with caller := c } := h.trans ⟨rfl, rfl, hc, List.prefix_rfl⟩

theorem withFab (h : s.Onward t) {y : Fab} : s.Onward { t with fab := y } := h.others

theorem ite {q : Prop} {_ : Decidable q} (ht : s.Onward t) (hu : s.Onward u) : s.Onward (if q then t else u) := by
  split <;> assumption

theorem foldl {f : State → β → State} {l : List β} (h : s.Onward t) (hf : ∀ {t b}, s.Onward t → s.Onward (f t b)) :
    s.Onward (l.foldl f t) := foldl_keeps (P := s.Onward) (fun _ _ => hf) l t h

/-- The first of a pair that a match takes apart. -/
theorem ofFst {y : State × β} {b : β} (h : s.Onward y.1) (he : y = (u, b)) : s.Onward u := by
  rwa [he] at h

theorem wr (h : s.Onward t) : s.Onward (t.wr f v i k j) := h.others

theorem bump (h : s.Onward t) : s.Onward (t.bump f v i k j) := h.others

theorem emit (h : s.Onward t) : s.Onward (t.emit o) := h.trans ⟨rfl, rfl, rfl, List.prefix_append ..⟩

theorem raise (h : s.Onward t) : s.Onward (t.raise e i w k) := by
  rw [raise_only]
  exact h.others

theorem callerRaise (h : s.Onward t) : s.Onward (t.callerRaise e w) := h.raise

/-- The Caller's work that leaves its record. -/
theorem wrote (h : s.Onward t) (g : t.Wrote t.caller u) : s.Onward u :=
  h.trans ⟨g.tempo, (congrArg State.pkgId g.only :), congrArg Caller.harvested g.caller, g.out ▸ List.prefix_rfl⟩

theorem signals (h : s.Onward t) (g : t.Signals u) : s.Onward u :=
  h.trans ⟨(congrArg State.tempo g.only :), (congrArg State.pkgId g.only :),
    (congrArg (fun v : State => v.caller.harvested) g.only :), g.out⟩

theorem devSet (h : s.Onward t) : s.Onward (t.devSet n bs) := h.wrote (Wrote.refl t).devSet

theorem standby (h : s.Onward t) : s.Onward (t.standby op) := .ite (.ite h.callerRaise.withCaller h.callerRaise) h

/-! ### Completion rings -/

theorem cqWrite (h : s.Onward t) : s.Onward (t.cqWrite g k w) :=
  h.emit.emit.wr.wr.signals ((t.written g k w).noteEntry_signals g k)

theorem cqDrop (h : s.Onward t) : s.Onward (t.cqDrop g) := h.bump.raise

theorem toBacklog (h : s.Onward t) : s.Onward (t.toBacklog g k w) := h.others.devSet

theorem cqPost (h : s.Onward t) : s.Onward (t.cqPost g k w) :=
  .ite h.cqDrop (.ite (.ite h.toBacklog.raise (.ite h.others h.cqDrop)) h.cqWrite)

theorem complete (h : s.Onward t) : s.Onward (t.complete r status handle rest) := .ite h.others.wr.cqPost h

theorem settleCancels (h : s.Onward t) : s.Onward t.settleCancels := h.foldl fun h => .ite h.others.complete h

theorem flushWaiting (h : s.Onward t) : s.Onward t.flushWaiting :=
  have hposts := h.others.foldl fun h => h.cqPost
  (hposts.wr.ite hposts).settleCancels

theorem endPause (h : s.Onward t) : s.Onward (t.endPause i status rest) := by
  unfold State.endPause
  split
  · exact h.others.complete
  · exact h

theorem seqEvent (h : s.Onward t) : s.Onward (t.seqEvent i status handle rest) := h.others.flushWaiting

/-! ### The mirror (R205) -/

theorem transmit (h : s.Onward t) {l : List Nat} {a : Pkt} : s.Onward (t.transmit l a) := h.foldl fun h => h.others

theorem usedPort (h : s.Onward t) {a : Pkt} {q : Option Nat} : s.Onward (t.usedPort n a q) := by
  unfold State.usedPort
  split
  · exact .ite h.others h
  · exact h

theorem countSent (h : s.Onward t) {a : Op} : s.Onward (t.countSent a) := by
  unfold State.countSent
  split
  · exact .ite h.bump h
  · exact h

theorem launchOp (h : s.Onward t) {a : Op} : s.Onward (t.launchOp a).2 := by
  unfold State.launchOp
  dsimp only
  split
  · exact h.others.countSent
  · split
    · exact h.countSent.usedPort.transmit.emit
    · exact h

/-- An operation that waits for its REQID, or goes out. -/
theorem begin (h : s.Onward t) {q : Bool} {a : Op} : s.Onward (if q then (a, t) else t.launchOp a).2 := by
  split
  · exact h
  · exact h.launchOp

theorem issueOp (h : s.Onward t) {a : Pkt} {y : Owner} : s.Onward (t.issueOp n a y) := by
  unfold State.issueOp
  exact h.withFab.begin.withFab

theorem sendWrite (h : s.Onward t) {m : MirrorWr} {q : Nat} : s.Onward (t.sendWrite m q) := h.issueOp.withCaller

theorem sendMirror (h : s.Onward t) : s.Onward t.sendMirror := by
  unfold State.sendMirror
  refine h.foldl fun h => ?_
  dsimp only
  split
  · exact .ite h.sendWrite h
  · exact h

theorem queueMirror (h : s.Onward t) {a : Option Nat} : s.Onward (t.queueMirror a i n bs) := .ite h.withCaller.sendMirror h

theorem mirrorWrite (h : s.Onward t) : s.Onward (t.mirrorWrite i n bs) := by
  unfold State.mirrorWrite
  dsimp only
  split
  · exact h.queueMirror.queueMirror
  · exact h.queueMirror

theorem mirrorHist (h : s.Onward t) : s.Onward (t.mirrorHist i n bs) := h.mirrorWrite

theorem putSeq (h : s.Onward t) : s.Onward (t.putSeq i x) := h.withCaller.devSet.mirrorWrite

/-! ### The end of a sequence (R185, R200, R202) -/

theorem releaseKv (h : s.Onward t) : s.Onward (t.releaseKv i) := .ite h h.wr.withCaller

theorem startClose (h : s.Onward t) : s.Onward (t.startClose i) :=
  (Onward.releaseKv (t := t.releaseBars i) h.withCaller).putSeq.endPause

theorem dropFrames (h : s.Onward t) : s.Onward (t.dropFrames i) := h.wrote (Wrote.refl t).dropFrames

theorem dropShelf (h : s.Onward t) : s.Onward (t.dropShelf i) := h.withCaller

theorem tryFree (h : s.Onward t) : s.Onward (t.tryFree i) := .ite h.dropFrames.dropShelf.putSeq.withCaller h

theorem lose (h : s.Onward t) : s.Onward (t.lose i) := h.startClose.seqEvent.tryFree

theorem useEntry (h : s.Onward t) : s.Onward (t.useEntry i) := h.withCaller

theorem loadEntry (h : s.Onward t) : s.Onward (t.loadEntry i) :=
  .ite h (.ite h.useEntry (.ite h.useEntry (.ite h.callerRaise.devSet.useEntry h.callerRaise.lose)))

/-! ### Re-admission (R206, R252) -/

theorem reserve (h : s.Onward t) {a : Ask} {d : Deal} : s.Onward (t.reserve a i d) := h.wr.withCaller

theorem newTable (h : s.Onward t) : s.Onward (t.newTable p root n) := h.wrote (Wrote.refl t).newTable

theorem kvCount (h : s.Onward t) : s.Onward (t.kvCount p k n) := h.wrote (Wrote.refl t).kvCount

theorem mapTo (h : s.Onward t) : s.Onward (t.mapTo p root n k j).1 := h.wrote (Wrote.refl t).mapTo

theorem mapFirst (h : s.Onward t) : s.Onward (t.mapFirst i) := by
  unfold State.mapFirst
  dsimp only
  split
  · exact h.mapTo
  · exact h.mapTo.lose

theorem readmit (h : s.Onward t) : s.Onward (t.readmit i) := by
  unfold State.readmit
  dsimp only
  have hput : ∀ {x : Entry}, s.Onward (((t.putSeq i x).dropFrames i).dropShelf i) := h.putSeq.dropFrames.dropShelf
  split
  · exact h
  · split
    · exact h.putSeq
    · split
      · exact h.callerRaise.putSeq.lose
      · split
        · exact (((Onward.ite hput.kvCount hput.wr).withCaller).endPause.putSeq.seqEvent).tryFree
        · exact (((Onward.ite hput.kvCount hput.wr).withCaller).endPause.reserve.newTable.putSeq.seqEvent).mapFirst

/-! ### The harvest (R190, R201) -/

theorem countResult (h : s.Onward t) {y : Result} : s.Onward (t.countResult p y) := h.bump.bump.bump.bump

theorem queueRecord (h : s.Onward t) {a b : Bool} {l : List Nat} : s.Onward (t.queueRecord i n k j a b l) := .ite h h.withCaller

theorem harvestGood (h : s.Onward t) {y : Slot} {z : Result} : s.Onward (t.harvestGood p n half y z) := by
  unfold State.harvestGood
  extract_lets i e emits acc m at_ toks data s1 e' ends s2
  have hhist : s.Onward s1 := h.ite h.devSet.mirrorHist
  have hqueued : s.Onward s2 := hhist.countResult.putSeq.queueRecord
  split
  next t' ok he =>
    have hmapped := hqueued.mapTo.ofFst he
    exact .ite hmapped.startClose (.ite hmapped hmapped.lose)

theorem harvestClosed (h : s.Onward t) {y : Slot} {z : Result} : s.Onward (t.harvestClosed p n half y z) :=
  (h.ite h.devSet.mirrorHist).countResult.putSeq

theorem harvestSlot (h : s.Onward t) : s.Onward (t.harvestSlot p n half i) := by
  have hload : ∀ {q : Prop} {_ : Decidable q} {j}, s.Onward (if q then t else t.loadEntry j) := h.ite h.loadEntry
  exact .ite hload (.ite (hload.putSeq.ite hload).bump (.ite hload.readmit (.ite hload.bump (.ite hload
    (.ite (.ite hload.callerRaise hload.callerRaise.lose) (.ite hload.harvestClosed hload.harvestGood))))))

theorem harvestPart (h : s.Onward t) : s.Onward (t.harvestPart n p) := by
  unfold State.harvestPart
  dsimp only
  exact .ite (h.foldl fun h => h.harvestSlot).standby h

theorem startPauseMove (h : s.Onward t) : s.Onward (t.startPauseMove i) := by
  unfold State.startPauseMove
  dsimp only
  split
  · exact .ite (h.putSeq.wrote (Wrote.refl _).queueMove).withCaller h
  · exact h

theorem afterHarvest (h : s.Onward t) : s.Onward t.afterHarvest :=
  ((h.foldl fun h => h.startPauseMove).foldl fun h => h.tryFree).flushWaiting

end Onward
end State
end Sys2Proof.Machine
end

section
set_option Elab.async false

namespace Sys2Proof.Machine
namespace State
variable {s t u : State} {n : Nat}

/-! ### Bar-done (R59, R93) -/

/-- Sending packets does not turn the Caller on or off. -/
theorem transmit_callerOn (s : State) (l : List Nat) (a : Pkt) : (s.transmit l a).callerOn = s.callerOn := by
  refine foldl_keeps (P := fun t : State => t.callerOn = s.callerOn) (f := fun t q => t.transmitOn q a) (fun t q h => ?_) l s rfl
  rw [← h]
  unfold State.callerOn State.on
  exact congrArg (fun v => decide (v = 1)) (rd_wr_ne _ _ _ (Fld.fkey_ne (by decide)))

/-- The package's own marker counts, and goes out on the ports in service. -/
theorem barDoneNow_marks (hm : s.mayMark = true) :
    s.barDoneNow.tempo.marks = s.tempo.marks ++ [⟨s.pkgId, s.stamp⟩] ∧ s.barDoneNow.pkgId = s.pkgId ∧
      s.barDoneNow.callerOn = s.callerOn ∧ s.out <+: s.barDoneNow.out ∧
      (s.ports ≠ [] → Out.marker s.ports s.pkgId s.bar s.stamp ∈ s.barDoneNow.out.drop s.out.length) := by
  obtain ⟨t, ht⟩ : ∃ t, t = { s with tempo := { s.tempo with marks := s.tempo.marks ++ [(⟨s.pkgId, s.stamp⟩ : Mark)] } } :=
    ⟨_, rfl⟩
  obtain ⟨a, ha⟩ : ∃ a, s.barDoneNow =
      if s.ports = [] then t else (t.transmit s.ports a).emit (.marker s.ports s.pkgId s.bar s.stamp) := by
    rw [ht]
    unfold State.barDoneNow
    rw [if_pos hm]
    exact ⟨_, rfl⟩
  have hmarks : t.tempo.marks = s.tempo.marks ++ [⟨s.pkgId, s.stamp⟩] := by
    rw [ht]
  have hpkg : t.pkgId = s.pkgId := by
    rw [ht]
  have hon : t.callerOn = s.callerOn := by
    rw [ht]
    rfl
  have hout : t.out = s.out := by
    rw [ht]
  rw [ha]
  by_cases hp : s.ports = []
  · rw [if_pos hp]
    exact ⟨hmarks, hpkg, hon, hout ▸ List.prefix_rfl, fun h => absurd hp h⟩
  · rw [if_neg hp]
    have hsent : t.Onward (t.transmit s.ports a) := (Onward.refl t).transmit
    have hsame : (t.transmit s.ports a).out = s.out := (out_transmit ..).trans hout
    refine ⟨(congrArg Tempo.marks hsent.tempo).trans hmarks, hsent.pkgId.trans hpkg, (transmit_callerOn ..).trans hon, ?_, fun _ => ?_⟩
    · show s.out <+: (t.transmit s.ports a).out ++ _
      rw [hsame]
      exact List.prefix_append ..
    · show _ ∈ ((t.transmit s.ports a).out ++ _).drop _
      rw [hsame, List.drop_left]
      exact List.mem_singleton_self _

/-- The harvest of a bar is noted, and goes on from it. -/
theorem harvest_onward (hon : s.callerOn = true) :
    ({ s with caller := { s.caller with harvested := n + 1, harvestLate := false } } : State).Onward (s.harvest n) := by
  unfold State.harvest
  rw [if_pos hon]
  exact ((Onward.refl _).foldl fun h => .ite h.harvestPart h).afterHarvest

/-- With its own marker counted the package's Figure for the bar is over. -/
theorem figureDone_marked (h : ∃ m ∈ s.tempo.marks, m.pkg = s.pkgId) : s.figureDone = false := by
  obtain ⟨m, hm, hpkg⟩ := h
  unfold State.figureDone
  have hany : s.tempo.marks.any (fun m => m.pkg = s.pkgId) = true := List.any_eq_true.2 ⟨m, hm, decide_eq_true hpkg⟩
  rw [hany]
  simp

/-- The end of a Figure: the marker, and the harvest, once. -/
theorem figureComplete_effect (hd : s.figureDone = true) (hh : s.caller.harvested ≤ s.bar) (hm : s.mayMark = true) :
    let t := figureCompleteEffect s
    t.tempo.marks = s.tempo.marks ++ [⟨s.pkgId, s.stamp⟩] ∧
      (s.ports ≠ [] → Out.marker s.ports s.pkgId s.bar s.stamp ∈ t.out.drop s.out.length) ∧ t.caller.harvested = s.bar + 1 ∧
      figureCompleteEffect t = t := by
  obtain ⟨hmarks, hpkg, hon, hout, hmarker⟩ := barDoneNow_marks hm
  obtain ⟨c, hc, honward⟩ : ∃ c : Caller, c.harvested = s.bar + 1 ∧
      ({ s.barDoneNow with caller := c } : State).Onward (figureCompleteEffect s) := by
    unfold figureCompleteEffect
    rw [if_pos ⟨hd, hh⟩]
    split
    next h => exact ⟨_, rfl, harvest_onward (hon.trans h)⟩
    next => exact ⟨_, rfl, .refl _⟩
  intro t
  have htmarks : t.tempo.marks = s.tempo.marks ++ [⟨s.pkgId, s.stamp⟩] := (congrArg Tempo.marks honward.tempo).trans hmarks
  have htpkg : t.pkgId = s.pkgId := honward.pkgId.trans hpkg
  refine ⟨htmarks, fun hp => ?_, honward.harvested.trans hc, ?_⟩
  · exact (List.IsPrefix.drop honward.out s.out.length).subset (hmarker hp)
  · have hover : t.figureDone = false := figureDone_marked ⟨⟨s.pkgId, s.stamp⟩, by
      rw [htmarks]
      exact List.mem_append_right _ (List.mem_singleton_self _), htpkg.symm⟩
    unfold figureCompleteEffect
    rw [if_neg (by simp [hover])]

/-! ### The harvest that is late (R190) -/

/-- Records that wait too long raise HARVEST_LATE, once. -/
theorem harvestLate_effect (hregs : mrising s.regs = true) (hon : s.tempo.barOn = true) (hl : s.caller.harvestLate = false)
    (hw : s.caller.waiting.any (fun w => w.bar + 1 = s.bar) = true)
    (hlate : s.rd R.TEMPO_BAR_START_START + s.rd R.CALLER_WL_CFG_HARVEST * 1024 < s.tempo.now) :
    let t := harvestLateEffect s
    s.raised t E.CALLER_HARVEST_LATE s.callerInst ∧ s.regsBut t (flagKeys E.CALLER_HARVEST_LATE s.callerInst) ∧ s.sameMem t ∧
      harvestLateEffect t = t := by
  obtain ⟨u, hu⟩ : ∃ u, u = { s with caller := { s.caller with harvestLate := true } } := ⟨_, rfl⟩
  have heq : harvestLateEffect s = u.raise E.CALLER_HARVEST_LATE s.callerInst [s.bar - 1] := by
    unfold harvestLateEffect
    rw [if_pos ⟨hon, hl, hw, hlate⟩, hu]
    rfl
  intro t
  rw [show t = u.raise E.CALLER_HARVEST_LATE s.callerInst [s.bar - 1] from heq]
  have hraised : u.raised (u.raise E.CALLER_HARVEST_LATE s.callerInst [s.bar - 1]) E.CALLER_HARVEST_LATE s.callerInst :=
    raised_raise (by rw [hu]; exact hregs) (by decide)
  refine ⟨by rw [hu] at hraised ⊢; exact hraised, ?_, ?_, ?_⟩
  · intro f i k j hf
    rw [flagKeys, List.mem_cons, List.mem_cons, not_or, not_or] at hf
    obtain ⟨hflag, hcnt, hlast⟩ := hf
    refine (rd_raise_ne _ _ _ f (Ne.symm hflag) (Ne.symm hcnt) fun g hg heq => hlast (List.mem_map.2 ⟨g, ?_, heq⟩)).trans ?_
    · rw [hg]
      exact List.mem_singleton_self g
    · rw [hu]
      rfl
  · rw [raise_only, hu]
    exact fun _ => ⟨rfl, rfl⟩
  · unfold harvestLateEffect
    rw [if_neg (by rw [raise_only, hu]; simp)]

end State

open State

/-- Settles O28: the plan seats each sequence once, the Figure's end marks and harvests once, and a late harvest is reported once. -/
theorem planAndHarvest : Obligations.PlanAndHarvest := by
  unfold Obligations.PlanAndHarvest
  intro s hwf
  refine ⟨fun hdue => ?_, fun p hdue hp hs hj hlen hin => ?_, fun hd hh hm => ?_, fun hon hl hw hlate => ?_⟩
  · exact congrArg Host.Outcome.next (if_neg (by simp [hdue]))
  · exact ⟨_, rfl, callerPlanEffect_seats hwf hdue hp hs hj hlen hin⟩
  · obtain ⟨hmarks, hmarker, hharvested, hagain⟩ := figureComplete_effect hd hh hm
    exact ⟨_, rfl, hmarks, hmarker, hharvested, congrArg Host.Outcome.next hagain⟩
  · obtain ⟨hraised, hbut, hmem, hagain⟩ := harvestLate_effect (rising_regs hwf) hon hl hw hlate
    exact ⟨_, rfl, hraised, hbut, hmem, congrArg Host.Outcome.next hagain⟩

end Sys2Proof.Machine
end
